-- ==== Sys2Proof/Word.lean ====
section
/-! DEFINITION. The word types of the Maravo X9 and the plainest arithmetic on them (spec 00 R4: bit 0 is the least
significant bit; spec 03 R67, spec 06 R125). -/

namespace Sys2Proof

/-- A byte of memory. -/
abbrev Byte := BitVec 8
/-- A 32-bit element or instruction word. -/
abbrev W32 := BitVec 32
/-- A 64-bit scalar value. -/
abbrev W64 := BitVec 64

/-- One 32-bit element for every lane: 128 elements, lane 0 first (spec 01 R9). -/
abbrev Lanes := List (BitVec 32)

/-- The number of lanes of a group (spec 01 R9). -/
def numLanes : Nat := 128

/-- The element of a lane. -/
def Lanes.at (v : Lanes) (l : Nat) : W32 := v.getD l 0

/-- The vector whose lane `l` holds `f l`. -/
def Lanes.tab (f : Nat → W32) : Lanes := (List.range numLanes).map f

/-- All bits zero in every lane. -/
def Lanes.zero : Lanes := List.replicate numLanes 0

end Sys2Proof
end

