-- ==== Sys2Proof/Config.lean ====
section
/-! DEFINITION. What the spec leaves to the implementation or leaves undefined: constants without a body, so that nothing
can be proved of their values, and the fixed sizes of the part. -/

namespace Sys2Proof

/-- Compute dies (spec 00 R1). -/
def Config.numDies : Nat := 8
/-- Enabled cores of a die (spec 00 R1). -/
def Config.coresPerDie : Nat := 32

/-- Arithmetic cycles that pass in a step of the model (assumption 1): free. -/
opaque Config.stepCycles : Nat → Nat
/-- Nanoseconds of GTIME that pass in a step of the model (assumption 1): free. -/
opaque Config.stepNanos : Nat → Nat
/-- The element of an absent lane (spec 01 R11), by a counter and the lane: free (assumption 3). -/
opaque Config.absentElem : Nat → Nat → W32
/-- An undefined register or tile element (spec 03 R75, 10 R212, R224), by a counter and a position: free
(assumption 3). -/
opaque Config.undefElem : Nat → Nat → W32
/-- A byte of an overlapping copy's destination (spec 12 R243), by a counter and a position: free (assumption 3). -/
opaque Config.undefByte : Nat → Nat → Byte
/-- A result the spec does not state, by a counter and a lane: free (assumption 3). -/
opaque Config.unstated : Nat → Nat → W32
/-- The lake die that the driver assigns as a tiered page's home (spec 05 R111), by partition and table entry. -/
opaque Config.lakeHome : Nat → Nat → Nat
/-- Whether a link lies on the Comb paths from a compute die to a destination, or is a Comb-X port towards it (spec 12 R262: the
route tables are the firmware's), by die, destination and link (assumption 5): free. -/
opaque Config.onPath : Nat → Nat → Nat → Bool
/-- The lake page, by its number among pages of its size, that firmware took for the journal copy of a near page (spec 24 R359,
R363), by the page's address (assumption 85): free. -/
opaque Config.journalPlace : Nat → Nat
/-- The surviving die on which firmware rehomes a home-together segment of a fenced die (spec 24 R363), by the segment's partition
and base, as a number among the surviving dies: free. -/
opaque Config.rehomeDie : Nat → Nat → Nat
/-- Whether the L1 has given up a line that it held (spec 03 R82: its capacity is left open), by a counter: free. -/
opaque Config.l1Evicted : Nat → Bool
/-- How long, below 10 µs in nanoseconds, a queue whose doorbell has rung waits at most for queues of other levels (spec 23
R340), by a counter of the queue's entries: free. -/
opaque Config.queueWait : Nat → Nat
/-- Whether the parts of a gang on other modules hold their resources, and whether one of them is refused (spec 23 R346), by a
counter: free. -/
opaque Config.abroadHolds : Nat → Bool
opaque Config.abroadRefuses : Nat → Bool
/-- Whether a gang has a part on a compute die of a peer module (spec 23 R346, R347), by gang, module and die: free. -/
opaque Config.gangOn : Nat → Nat → Nat → Bool
/-- Whether a link ends at a compute die's Comb switch (spec 26 R388: the spec does not say which links do), by die and link: free. -/
opaque Config.linkAt : Nat → Nat → Bool
/-- Which of the holders of a core's register or scratchpad region has the byte at an offset of the pool image, and which byte of its
it is (spec 03 R76 gives no layout of the units), by core and offset (assumption 72): free. -/
opaque Config.poolPlace : Nat → Nat → Nat × Nat
/-- The address that the error log gives for an uncorrectable error of a core's state (spec 26 R392), by a counter: free. -/
opaque Config.stateAddr : Nat → Nat
/-- The syndrome of an uncorrectable error (spec 26 R392), by a counter: free. -/
opaque Config.syndrome : Nat → W64
/-- How the error log of a die, given as address, syndrome and GTIME of each error, is laid out in the dump (spec 26 R392 gives its
contents alone): free. -/
opaque Config.errorLogBytes : List (Nat × W64 × Nat) → List Byte
/-- How the message logs of the cell controllers and the permit counts of the command links are laid out in the dump (spec 26 R392):
free. -/
opaque Config.cellLogBytes : List (List (BitVec 512)) → List Nat → List Byte
/-- SHAKE256 of a byte string taken to 64 bytes (spec 25 R369 names the function and does not define it). -/
opaque Config.shake256 : List Byte → List Byte
/-- ML-DSA-65 verification of a signature over a message by a public key (spec 25 R369 names it and does not define it). -/
opaque Config.mlDsa65Verifies : (key signature message : List Byte) → Bool

end Sys2Proof
end

