-- ==== Sys2Proof/Syntax.lean ====
section
/-! DEFINITION. The instructions: one constructor per row of spec/opcode_table.json. The 180 encoded rows carry the
fields of their word (spec 06 R125-R127), raw, because an illegal code is an illegal-operand fault of the instruction
(R143, step 4) and not the absence of one; a field is named as the table names it. The 113 rows without an encoding are
steps of the module itself (spec 95): their operands say which item the step is about, and carry what comes from outside
the module. -/

namespace Sys2Proof

/-- What the handler of a Propolis slot has written (spec 25 R377): named registers, queue entries, predicates, MODE, a
push onto each queue, and bytes of memory; and the lanes of a fault with which an EMULATE handler ends. The micro-code that
computes it is not given. -/
structure PatchWrites where
  sregs : List (Nat × BitVec 64)
  vregs : List (Nat × List (BitVec 32))
  squeue : List (Nat × BitVec 64)
  vqueue : List (Nat × List (BitVec 32))
  preds : List (Nat × BitVec 8)
  mode : Option (BitVec 24)
  spush : Option (BitVec 64)
  vpush : Option (List (BitVec 32))
  stores : List (BitVec 64 × List (BitVec 8))
  lanes : BitVec 128
  loads : List (BitVec 64 × Nat)
  readSregs : List Nat
  readVregs : List Nat
  readSqueue : List Nat
  readVqueue : List Nat
  deriving DecidableEq, Repr

/-- A function of a host at a link that is CXL (spec 23 R349). -/
structure CxlPort where
  fn : Nat
  lake : Nat
  deriving DecidableEq, Repr

/-- A compute die of this module, or of another. -/
structure DieAt where
  module : Option Nat
  die : Nat
  deriving DecidableEq, Repr

/-- What a start finds (spec 25 R371, R372): the links that come up, the stepping and the temperature in °C. -/
structure Conditions where
  upLinks : List Nat
  stepping : Nat
  celsius : Int
  deriving DecidableEq, Repr

/-- What hinders a dump (spec 26 R391, R393): lake die 0 is lost, or another fatal error strikes while it is written. -/
structure DumpTrouble where
  lakeZeroLost : Bool
  again : Bool
  deriving DecidableEq, Repr

/-- A team's sequencer does its oldest operation, or of an MSTORE the elements named (spec 04 R103). -/
structure SeqStep where
  team : Nat
  part : Option (List Nat)
  deriving DecidableEq, Repr

inductive Instr where
  /-- ADD (R146) -/
  | add (d : BitVec 8) (a : BitVec 8) (b : BitVec 8)
  /-- SUB (R146) -/
  | sub (d : BitVec 8) (a : BitVec 8) (b : BitVec 8)
  /-- MUL (R146) -/
  | mul (d : BitVec 8) (a : BitVec 8) (b : BitVec 8)
  /-- MULHI (R146) -/
  | mulhi (d : BitVec 8) (a : BitVec 8) (b : BitVec 8)
  /-- DIV (R146) -/
  | div (d : BitVec 8) (a : BitVec 8) (b : BitVec 8)
  /-- AND (R146) -/
  | and (d : BitVec 8) (a : BitVec 8) (b : BitVec 8)
  /-- OR (R146) -/
  | or (d : BitVec 8) (a : BitVec 8) (b : BitVec 8)
  /-- XOR (R146) -/
  | xor (d : BitVec 8) (a : BitVec 8) (b : BitVec 8)
  /-- SHL (R146) -/
  | shl (d : BitVec 8) (a : BitVec 8) (b : BitVec 8)
  /-- SHR (R146) -/
  | shr (d : BitVec 8) (a : BitVec 8) (b : BitVec 8)
  /-- SHRA (R146) -/
  | shra (d : BitVec 8) (a : BitVec 8) (b : BitVec 8)
  /-- SLT (R146) -/
  | slt (d : BitVec 8) (a : BitVec 8) (b : BitVec 8)
  /-- SEL (R146) -/
  | sel (d : BitVec 8) (a : BitVec 8) (b : BitVec 8)
  /-- SETLO (R147) -/
  | setlo (d : BitVec 8) (i : BitVec 16)
  /-- SETHI (R147) -/
  | sethi (d : BitVec 8) (i : BitVec 16)
  /-- BRA (R149) -/
  | bra (o : BitVec 16)
  /-- BZ (R149) -/
  | bz (a : BitVec 8) (o : BitVec 16)
  /-- BNZ (R149) -/
  | bnz (a : BitVec 8) (o : BitVec 16)
  /-- BLT (R149) -/
  | blt (a : BitVec 8) (o : BitVec 16)
  /-- BGE (R149) -/
  | bge (a : BitVec 8) (o : BitVec 16)
  /-- CALL (R149) -/
  | call (a : BitVec 8) (o : BitVec 16)
  /-- CALLX (R149) -/
  | callx (a : BitVec 8)
  /-- RET (R149) -/
  | ret (a : BitVec 8)
  /-- JMPX (R149) -/
  | jmpx (a : BitVec 8)
  /-- LOOP (R149) -/
  | loop (a : BitVec 8) (o : BitVec 16)
  /-- SLD8 (R150) -/
  | sld8 (d : BitVec 8) (p : BitVec 5) (s : BitVec 3) (o : BitVec 2) (b : BitVec 6)
  /-- SLD16 (R150) -/
  | sld16 (d : BitVec 8) (p : BitVec 5) (s : BitVec 3) (o : BitVec 2) (b : BitVec 6)
  /-- SLD32 (R150) -/
  | sld32 (d : BitVec 8) (p : BitVec 5) (s : BitVec 3) (o : BitVec 2) (b : BitVec 6)
  /-- SLD64 (R150) -/
  | sld64 (d : BitVec 8) (p : BitVec 5) (s : BitVec 3) (o : BitVec 2) (b : BitVec 6)
  /-- SST8 (R150) -/
  | sst8 (d : BitVec 8) (p : BitVec 5) (s : BitVec 3) (o : BitVec 2) (b : BitVec 6)
  /-- SST16 (R150) -/
  | sst16 (d : BitVec 8) (p : BitVec 5) (s : BitVec 3) (o : BitVec 2) (b : BitVec 6)
  /-- SST32 (R150) -/
  | sst32 (d : BitVec 8) (p : BitVec 5) (s : BitVec 3) (o : BitVec 2) (b : BitVec 6)
  /-- SST64 (R150) -/
  | sst64 (d : BitVec 8) (p : BitVec 5) (s : BitVec 3) (o : BitVec 2) (b : BitVec 6)
  /-- SREAD (R151) -/
  | sread (d : BitVec 8) (y : BitVec 8)
  /-- SWRITE (R151) -/
  | swrite (y : BitVec 8) (b : BitVec 8)
  /-- ICINV (R198) -/
  | icinv (a : BitVec 8) (b : BitVec 8)
  /-- MODE (R156) -/
  | mode (i : BitVec 24)
  /-- MODERD (R156) -/
  | moderd (d : BitVec 8)
  /-- SHAPE (R157) -/
  | shape (a : BitVec 8)
  /-- SHAPERD (R157) -/
  | shaperd (d : BitVec 8)
  /-- BARARR (R159) -/
  | bararr (n : BitVec 4)
  /-- BARWAIT (R159) -/
  | barwait (n : BitVec 4)
  /-- BARSYNC (R159) -/
  | barsync (n : BitVec 4)
  /-- RQUOTA (R160) -/
  | rquota (d : BitVec 8) (n : BitVec 4) (b : BitVec 8)
  /-- STEP (R161) -/
  | step
  /-- VADD (R166) -/
  | vadd (d : BitVec 8) (a : BitVec 8) (b : BitVec 8)
  /-- VSUB (R166) -/
  | vsub (d : BitVec 8) (a : BitVec 8) (b : BitVec 8)
  /-- VMUL (R166) -/
  | vmul (d : BitVec 8) (a : BitVec 8) (b : BitVec 8)
  /-- VFMA (R167) -/
  | vfma (d : BitVec 8) (a : BitVec 8) (b : BitVec 8)
  /-- VFMS (R167) -/
  | vfms (d : BitVec 8) (a : BitVec 8) (b : BitVec 8)
  /-- VFNMA (R167) -/
  | vfnma (d : BitVec 8) (a : BitVec 8) (b : BitVec 8)
  /-- VMIN (R168) -/
  | vmin (d : BitVec 8) (a : BitVec 8) (b : BitVec 8)
  /-- VMAX (R168) -/
  | vmax (d : BitVec 8) (a : BitVec 8) (b : BitVec 8)
  /-- VABS (R169) -/
  | vabs (d : BitVec 8) (a : BitVec 8)
  /-- VNEG (R169) -/
  | vneg (d : BitVec 8) (a : BitVec 8)
  /-- VDIV (R166) -/
  | vdiv (d : BitVec 8) (a : BitVec 8) (b : BitVec 8)
  /-- VSQRT (R169) -/
  | vsqrt (d : BitVec 8) (a : BitVec 8)
  /-- VRCP (R169) -/
  | vrcp (d : BitVec 8) (a : BitVec 8)
  /-- VRSQ (R169) -/
  | vrsq (d : BitVec 8) (a : BitVec 8)
  /-- VEXP2 (R169) -/
  | vexp2 (d : BitVec 8) (a : BitVec 8)
  /-- VLOG2 (R169) -/
  | vlog2 (d : BitVec 8) (a : BitVec 8)
  /-- VAND (R170) -/
  | vand (d : BitVec 8) (a : BitVec 8) (b : BitVec 8)
  /-- VOR (R170) -/
  | vor (d : BitVec 8) (a : BitVec 8) (b : BitVec 8)
  /-- VXOR (R170) -/
  | vxor (d : BitVec 8) (a : BitVec 8) (b : BitVec 8)
  /-- VNOT (R170) -/
  | vnot (d : BitVec 8) (a : BitVec 8)
  /-- VSHL (R170) -/
  | vshl (d : BitVec 8) (a : BitVec 8) (b : BitVec 8)
  /-- VSHR (R170) -/
  | vshr (d : BitVec 8) (a : BitVec 8) (b : BitVec 8)
  /-- VSHRA (R170) -/
  | vshra (d : BitVec 8) (a : BitVec 8) (b : BitVec 8)
  /-- VROT (R170) -/
  | vrot (d : BitVec 8) (a : BitVec 8) (b : BitVec 8)
  /-- VMULHI (R170) -/
  | vmulhi (d : BitVec 8) (a : BitVec 8) (b : BitVec 8)
  /-- VSEL (R171) -/
  | vsel (d : BitVec 8) (a : BitVec 8) (b : BitVec 8)
  /-- VCLZ (R170) -/
  | vclz (d : BitVec 8) (a : BitVec 8)
  /-- VPOPC (R170) -/
  | vpopc (d : BitVec 8) (a : BitVec 8)
  /-- VFLOOR (R172) -/
  | vfloor (d : BitVec 8) (a : BitVec 8)
  /-- VCEIL (R172) -/
  | vceil (d : BitVec 8) (a : BitVec 8)
  /-- VROUND (R172) -/
  | vround (d : BitVec 8) (a : BitVec 8)
  /-- VTRUNC (R172) -/
  | vtrunc (d : BitVec 8) (a : BitVec 8)
  /-- VBCAST (R173) -/
  | vbcast (d : BitVec 8) (a : BitVec 8) (b : BitVec 8)
  /-- VPERM (R173) -/
  | vperm (d : BitVec 8) (a : BitVec 8) (b : BitVec 8)
  /-- VLROT (R173) -/
  | vlrot (d : BitVec 8) (a : BitVec 8) (b : BitVec 8)
  /-- VSCAN (R174) -/
  | vscan (d : BitVec 8) (a : BitVec 8)
  /-- VRADD (R174) -/
  | vradd (d : BitVec 8) (a : BitVec 8)
  /-- VRMIN (R174) -/
  | vrmin (d : BitVec 8) (a : BitVec 8)
  /-- VRMAX (R174) -/
  | vrmax (d : BitVec 8) (a : BitVec 8)
  /-- VMOVS (R175) -/
  | vmovs (d : BitVec 8) (a : BitVec 8) (b : BitVec 8)
  /-- VINS (R175) -/
  | vins (d : BitVec 8) (a : BitVec 8) (b : BitVec 8)
  /-- VCSIGN (R169) -/
  | vcsign (d : BitVec 8) (a : BitVec 8) (b : BitVec 8)
  /-- VCEQ (R177) -/
  | vceq (q : BitVec 3) (a : BitVec 8) (b : BitVec 8)
  /-- VCNE (R177) -/
  | vcne (q : BitVec 3) (a : BitVec 8) (b : BitVec 8)
  /-- VCLT (R177) -/
  | vclt (q : BitVec 3) (a : BitVec 8) (b : BitVec 8)
  /-- VCLE (R177) -/
  | vcle (q : BitVec 3) (a : BitVec 8) (b : BitVec 8)
  /-- VCGT (R177) -/
  | vcgt (q : BitVec 3) (a : BitVec 8) (b : BitVec 8)
  /-- VCGE (R177) -/
  | vcge (q : BitVec 3) (a : BitVec 8) (b : BitVec 8)
  /-- VCUNO (R177) -/
  | vcuno (q : BitVec 3) (a : BitVec 8) (b : BitVec 8)
  /-- PAND (R178) -/
  | pand (d : BitVec 3) (x : BitVec 1) (a : BitVec 3) (y : BitVec 1) (b : BitVec 3)
  /-- POR (R178) -/
  | por (d : BitVec 3) (x : BitVec 1) (a : BitVec 3) (y : BitVec 1) (b : BitVec 3)
  /-- PXOR (R178) -/
  | pxor (d : BitVec 3) (x : BitVec 1) (a : BitVec 3) (y : BitVec 1) (b : BitVec 3)
  /-- PNOT (R178) -/
  | pnot (d : BitVec 3) (x : BitVec 1) (a : BitVec 3)
  /-- VIF (R179) -/
  | vif (x : BitVec 1) (a : BitVec 3)
  /-- VELSE (R179) -/
  | velse
  /-- VENDIF (R179) -/
  | vendif
  /-- VANY (R180) -/
  | vany (d : BitVec 8) (x : BitVec 1) (a : BitVec 3)
  /-- VALL (R180) -/
  | vall (d : BitVec 8) (x : BitVec 1) (a : BitVec 3)
  /-- CVTIF (R181) -/
  | cvtif (d : BitVec 8) (a : BitVec 8)
  /-- CVTFI (R181) -/
  | cvtfi (d : BitVec 8) (a : BitVec 8)
  /-- CVTNF (R187) -/
  | cvtnf (d : BitVec 8) (a : BitVec 8) (f : BitVec 4)
  /-- CVTFN (R185) -/
  | cvtfn (d : BitVec 8) (a : BitVec 8) (f : BitVec 4)
  /-- CVTFH (R182) -/
  | cvtfh (d : BitVec 8) (a : BitVec 8) (b : BitVec 8)
  /-- CVTHF (R182) -/
  | cvthf (d : BitVec 8) (a : BitVec 8) (s : BitVec 1)
  /-- CVTFB (R182) -/
  | cvtfb (d : BitVec 8) (a : BitVec 8) (b : BitVec 8)
  /-- CVTBF (R182) -/
  | cvtbf (d : BitVec 8) (a : BitVec 8) (s : BitVec 1)
  /-- PACK16 (R183) -/
  | pack16 (d : BitVec 8) (a : BitVec 8) (b : BitVec 8)
  /-- UNPK16 (R183) -/
  | unpk16 (d : BitVec 8) (a : BitVec 8) (s : BitVec 1)
  /-- PACK8 (R183) -/
  | pack8 (d : BitVec 8) (a : BitVec 8) (b : BitVec 8)
  /-- UNPK8 (R183) -/
  | unpk8 (d : BitVec 8) (a : BitVec 8) (s : BitVec 1)
  /-- CVTN8 (R186) -/
  | cvtn8 (d : BitVec 8) (a : BitVec 8) (b : BitVec 8)
  /-- CVTN6 (R186) -/
  | cvtn6 (d : BitVec 8) (a : BitVec 8) (b : BitVec 8)
  /-- CVTN4 (R186) -/
  | cvtn4 (d : BitVec 8) (a : BitVec 8) (b : BitVec 8)
  /-- CVTNX (R188) -/
  | cvtnx (d : BitVec 8) (a : BitVec 8) (f : BitVec 4)
  /-- VLD8 (R192) -/
  | vld8 (d : BitVec 8) (p : BitVec 5) (s : BitVec 3) (o : BitVec 2) (b : BitVec 6)
  /-- VLD16 (R192) -/
  | vld16 (d : BitVec 8) (p : BitVec 5) (s : BitVec 3) (o : BitVec 2) (b : BitVec 6)
  /-- VLD32 (R192) -/
  | vld32 (d : BitVec 8) (p : BitVec 5) (s : BitVec 3) (o : BitVec 2) (b : BitVec 6)
  /-- VST8 (R192) -/
  | vst8 (d : BitVec 8) (p : BitVec 5) (s : BitVec 3) (o : BitVec 2) (b : BitVec 6)
  /-- VST16 (R192) -/
  | vst16 (d : BitVec 8) (p : BitVec 5) (s : BitVec 3) (o : BitVec 2) (b : BitVec 6)
  /-- VST32 (R192) -/
  | vst32 (d : BitVec 8) (p : BitVec 5) (s : BitVec 3) (o : BitVec 2) (b : BitVec 6)
  /-- VPREF (R193) -/
  | vpref (p : BitVec 5) (s : BitVec 3) (o : BitVec 2) (b : BitVec 6)
  /-- ATADD (R194) -/
  | atadd (d : BitVec 8) (p : BitVec 5) (s : BitVec 3) (o : BitVec 2) (b : BitVec 6)
  /-- ATMIN (R194) -/
  | atmin (d : BitVec 8) (p : BitVec 5) (s : BitVec 3) (o : BitVec 2) (b : BitVec 6)
  /-- ATMAX (R194) -/
  | atmax (d : BitVec 8) (p : BitVec 5) (s : BitVec 3) (o : BitVec 2) (b : BitVec 6)
  /-- ATAND (R194) -/
  | atand (d : BitVec 8) (p : BitVec 5) (s : BitVec 3) (o : BitVec 2) (b : BitVec 6)
  /-- ATOR (R194) -/
  | ator (d : BitVec 8) (p : BitVec 5) (s : BitVec 3) (o : BitVec 2) (b : BitVec 6)
  /-- ATXOR (R194) -/
  | atxor (d : BitVec 8) (p : BitVec 5) (s : BitVec 3) (o : BitVec 2) (b : BitVec 6)
  /-- ATXCHG (R194) -/
  | atxchg (d : BitVec 8) (p : BitVec 5) (s : BitVec 3) (o : BitVec 2) (b : BitVec 6)
  /-- ATCAS (R194) -/
  | atcas (d : BitVec 8) (p : BitVec 5) (s : BitVec 3) (o : BitVec 2) (b : BitVec 6)
  /-- VATADD (R195) -/
  | vatadd (d : BitVec 8) (p : BitVec 5) (s : BitVec 3) (o : BitVec 2) (b : BitVec 6)
  /-- VATMIN (R195) -/
  | vatmin (d : BitVec 8) (p : BitVec 5) (s : BitVec 3) (o : BitVec 2) (b : BitVec 6)
  /-- VATMAX (R195) -/
  | vatmax (d : BitVec 8) (p : BitVec 5) (s : BitVec 3) (o : BitVec 2) (b : BitVec 6)
  /-- VATXCHG (R195) -/
  | vatxchg (d : BitVec 8) (p : BitVec 5) (s : BitVec 3) (o : BitVec 2) (b : BitVec 6)
  /-- FENCE (R197) -/
  | fence (m : BitVec 8) (s : BitVec 3)
  /-- VATAND (R195) -/
  | vatand (d : BitVec 8) (p : BitVec 5) (s : BitVec 3) (o : BitVec 2) (b : BitVec 6)
  /-- VATOR (R195) -/
  | vator (d : BitVec 8) (p : BitVec 5) (s : BitVec 3) (o : BitVec 2) (b : BitVec 6)
  /-- CST (R201) -/
  | cst (c : BitVec 4) (x : BitVec 4) (a : BitVec 8) (b : BitVec 8)
  /-- CATOM (R202) -/
  | catom (c : BitVec 4) (x : BitVec 4) (a : BitVec 8) (b : BitVec 8)
  /-- CCOPY (R203) -/
  | ccopy (c : BitVec 4) (a : BitVec 8) (b : BitVec 8)
  /-- CJOIN (R204) -/
  | cjoin (c : BitVec 4) (x : BitVec 4)
  /-- CDRAIN (R120) -/
  | cdrain (c : BitVec 4)
  /-- MMA (R216) -/
  | mma (t : BitVec 2) (f : BitVec 2) (m : BitVec 2) (h : BitVec 2) (v : BitVec 7) (p : BitVec 7)
  /-- MZERO (R217) -/
  | mzero (t : BitVec 2)
  /-- MXREAD (R218) -/
  | mxread (t : BitVec 2) (o : BitVec 1) (g : BitVec 4) (h : BitVec 1) (v : BitVec 7) (s : BitVec 3)
  /-- MSTORE (R219) -/
  | mstore (t : BitVec 2) (m : BitVec 2) (f : BitVec 2)
  /-- MFENCE (R220) -/
  | mfence
  /-- MBARWAIT (R221) -/
  | mbarwait (n : BitVec 4)
  /-- MBARARR (R221) -/
  | mbararr (n : BitVec 4)
  /-- MFMT (R215) -/
  | mfmt (n : BitVec 2) (i : BitVec 16)
  /-- MMAP (R215) -/
  | mmap (n : BitVec 2) (i : BitVec 16)
  /-- MBRA (R222) -/
  | mbra (o : BitVec 16)
  /-- MLOOP (R222) -/
  | mloop (l : BitVec 2) (o : BitVec 8) (i : BitVec 8)
  /-- MEND (R222) -/
  | mend
  /-- NACC (R237) -/
  | nacc (k : BitVec 1) (n : BitVec 2) (a : BitVec 8) (b : BitVec 8)
  /-- NEVAL (R237) -/
  | neval (d : BitVec 8) (a : BitVec 8) (k : BitVec 1) (n : BitVec 2)
  /-- NRESCALE (R237) -/
  | nrescale (d : BitVec 8) (n : BitVec 2)
  /-- NMERGE (R238) -/
  | nmerge (n : BitVec 2) (v : BitVec 7)
  /-- NFIN (R237) -/
  | nfin (d : BitVec 8) (p : BitVec 3) (t : BitVec 1) (n : BitVec 2)
  /-- NCLEAR (R237) -/
  | nclear (m : BitVec 4)
  /-- NSAVE (R238) -/
  | nsave (v : BitVec 7) (n : BitVec 2)
  /-- NLOAD (R238) -/
  | nload (n : BitVec 2) (v : BitVec 7)
  /-- NTABLE (R235) -/
  | ntable (d : BitVec 8) (v : BitVec 7) (b : BitVec 8)
  /-- NSELECT (R237) -/
  | nselect (f : BitVec 2)
  /-- COPY (R243) -/
  | copy (d : BitVec 8) (a : BitVec 8) (b : BitVec 8)
  /-- FGRAPH (R257) -/
  | fgraph (d : BitVec 8) (a : BitVec 8) (b : BitVec 8)
  /-- WAITA (R260) -/
  | waita (d : BitVec 8) (a : BitVec 8) (b : BitVec 8)
  /-- LWAKE (R262) -/
  | lwake (a : BitVec 8)
  /-- MHINT (R263) -/
  | mhint (a : BitVec 8) (b : BitVec 8)
  /-- MWAIT (R223) -/
  | mwait (a : BitVec 8)
  /-- TRAP (R269) -/
  | trap (a : BitVec 8)
  /-- TRET (R269) -/
  | tret (a : BitVec 8)
  /-- BRK (R269) -/
  | brk (t : BitVec 8)
  /-- NOP (R269) -/
  | nop
  /-- EXIT (R269) -/
  | exit
  /-- FAULTRD (R269) -/
  | faultrd (d : BitVec 8) (i : BitVec 8)
  /-- LOAD_RETURN (R192) -/
  | loadReturn (id : Nat) (uncorrectable : Bool)
  /-- ATOMIC_RETURN (R194) -/
  | atomicReturn (id : Nat)
  /-- NECTAR_WRITEBACK (R135) -/
  | nectarWriteback (id : Nat)
  /-- COPY_CHUNK (R243) -/
  | copyChunk (id : Nat)
  /-- COPY_COMPLETE (R243) -/
  | copyComplete (id : Nat)
  /-- CCOPY_COMPLETE (R203) -/
  | ccopyComplete (id : Nat)
  /-- FORAGER_NODE_START (R248) -/
  | foragerNodeStart (replay node : Nat) (spad : List (BitVec 8)) (text cls : Nat)
  /-- FORAGER_NODE_COMPLETE (R250) -/
  | foragerNodeComplete (replay node : Nat)
  /-- FORAGER_WAIT_RECHECK (R248) -/
  | foragerWaitRecheck (replay node : Nat)
  /-- REPLAY_COMPLETE (R250) -/
  | replayComplete (replay : Nat)
  /-- COLLECTIVE_SIGNATURE (R255) -/
  | collectiveSignature (sender receiver : Nat) (inst : BitVec 32) (foreign : Option (BitVec 64))
  /-- MMA_ARRAY_EXECUTE (R216) -/
  | mmaArrayExecute (launch team : Nat)
  /-- BATCH_COMPLETE (R220) -/
  | batchComplete (launch team : Nat)
  /-- WAITA_WAKE (R260) -/
  | waitaWake (launch team group : Nat)
  /-- VTIME_COMPARE_MATCH (R152) -/
  | vtimeCompareMatch (launch team group : Nat)
  /-- EVENT_TRAP (R271) -/
  | eventTrap (launch team group : Nat)
  /-- GROUP_EXCHANGE (R35) -/
  | groupExchange (core launch team group : Nat)
  /-- GROUP_STARVED (R36) -/
  | groupStarved (core launch team group : Nat)
  /-- FORCED_EXCHANGE (R36) -/
  | forcedExchange (core : Nat)
  /-- TEAM_PLACEMENT (R29) -/
  | teamPlacement (part : Nat)
  /-- POOL_SWITCH (R26) -/
  | poolSwitch (core : Nat)
  /-- POOL_SWITCH_COMPLETE (R26) -/
  | poolSwitchComplete (core : Nat)
  /-- TEAM_RETIREMENT (R222) -/
  | teamRetirement (launch team : Nat)
  /-- LAUNCH_COMPLETION (R344) -/
  | launchCompletion (launch : Nat)
  /-- LAUNCH (R337) -/
  | launch (fn q : Nat) (spad : List (BitVec 8)) (text cls : Nat) (splice : List (BitVec 64))
  /-- NOP_PACKET (R337) -/
  | nopPacket (fn q : Nat)
  /-- INVAL (R337) -/
  | inval (fn q : Nat)
  /-- INVAL_COMPLETE (R81) -/
  | invalComplete (k : Nat)
  /-- DEBUG_STOP (R272) -/
  | debugStop (fn q : Nat)
  /-- DEBUG_RESUME (R272) -/
  | debugResume (fn q : Nat)
  /-- DEBUG_READ (R338) -/
  | debugRead (fn q : Nat)
  /-- DEBUG_WRITE (R273) -/
  | debugWrite (fn q : Nat)
  /-- DEBUG_BREAK (R272) -/
  | debugBreak (fn q : Nat)
  /-- PFREPLY_REPLAY (R345) -/
  | pfreplyReplay (fn q : Nat)
  /-- PFREPLY_DELIVER (R345) -/
  | pfreplyDeliver (fn q : Nat)
  /-- GLOAD (R339) -/
  | gload (fn q : Nat)
  /-- GLOAD_UNLOAD (R339) -/
  | gloadUnload (fn q : Nat)
  /-- GLOAD_DEFERRED_COMPLETE (R339) -/
  | gloadDeferredComplete (k : Nat)
  /-- RESERVED_PACKET (R348) -/
  | reservedPacket (fn q : Nat)
  /-- QTAIL_DOORBELL (R336) -/
  | qtailDoorbell (fn q : Nat) (t : BitVec 32)
  /-- QUEUE_ENABLE (R336) -/
  | queueEnable (fn q : Nat)
  /-- QUEUE_DISABLE (R336) -/
  | queueDisable (fn q : Nat)
  /-- QCLEAR (R336) -/
  | qclear (fn q : Nat)
  /-- FQCTL_WRITE (R345) -/
  | fqctlWrite (fn : Nat) (v : BitVec 64)
  /-- FQTAIL_WRITE (R345) -/
  | fqtailWrite (fn : Nat) (v : BitVec 64)
  /-- REGISTER_WRITE (R336) -/
  | registerWrite (area off : Nat) (v : BitVec 64)
  /-- HOST_APERTURE_READ (R335) -/
  | hostApertureRead (fn off n : Nat)
  /-- HOST_APERTURE_WRITE (R335) -/
  | hostApertureWrite (fn off : Nat) (bytes : List (BitVec 8))
  /-- CXL_MEM_READ (R349) -/
  | cxlMemRead (port : CxlPort) (off n : Nat)
  /-- CXL_MEM_WRITE (R349) -/
  | cxlMemWrite (port : CxlPort) (off : Nat) (bytes : List (BitVec 8))
  /-- HOST_PRI_RESPONSE (R345) -/
  | hostPriResponse (fn k : Nat) (granted : Bool) (bus : Nat) (writable : Bool)
  /-- ATS_INVALIDATION (R345) -/
  | atsInvalidation (fn page : Nat)
  /-- CHANNEL_PACKET_ARRIVAL (R117) -/
  | channelPacketArrival (k : Nat)
  /-- CHANNEL_ACK (R118) -/
  | channelAck (k : Nat)
  /-- STREAM_CLOSE (R117) -/
  | streamClose (k : Nat)
  /-- PACKET_RESEND (R117) -/
  | packetResend (id : Nat)
  /-- LINK_FAILURE (R122) -/
  | linkFailure (link : Nat) (packets acks : List Nat)
  /-- SYNC (R295) -/
  | sync (k : Nat)
  /-- SYNC_REQUEST (R122) -/
  | syncRequest (k : Nat)
  /-- LINK_RETRAINED (R388) -/
  | linkRetrained (link : Nat)
  /-- LINK_NARROW (R261) -/
  | linkNarrow (link : Nat)
  /-- LINK_SLEEP (R261) -/
  | linkSleep (link : Nat)
  /-- LWAKE_EXPIRY (R262) -/
  | lwakeExpiry (link : Nat)
  /-- PEER_UNREACHABLE (R123) -/
  | peerUnreachable (mod : Nat)
  /-- PAGE_MIGRATION_START (R86) -/
  | pageMigrationStart (part va target : Nat)
  /-- PAGE_MIGRATION_COMPLETE (R86) -/
  | pageMigrationComplete (k : Nat)
  /-- GANG_RESERVE (R346) -/
  | gangReserve (gang : BitVec 32)
  /-- GANG_RESERVE_TIMEOUT (R346) -/
  | gangReserveTimeout (gang : BitVec 32)
  /-- GANG_BACKOFF_RETRY (R346) -/
  | gangBackoffRetry (gang : BitVec 32)
  /-- GANG_COMMIT (R346) -/
  | gangCommit (gang : BitVec 32)
  /-- PREEMPT_REQUEST (R351) -/
  | preemptRequest (launch team budget : Nat)
  /-- DRAIN_TIMEOUT (R351) -/
  | drainTimeout (launch team : Nat)
  /-- SAVE_COMPLETE (R352) -/
  | saveComplete (launch team : Nat)
  /-- SAVE_WITHDRAW (R353) -/
  | saveWithdraw (launch team : Nat)
  /-- FLUSH_COMPLETE (R355) -/
  | flushComplete (launch team : Nat)
  /-- CUT_STOP_REQUEST (R358) -/
  | cutStopRequest (launch : Nat)
  /-- CUT_COMPLETION (R359) -/
  | cutCompletion (launch : Nat)
  /-- CUT_ABANDON (R360) -/
  | cutAbandon (launch : Nat)
  /-- JOURNAL_COPY_ON_WRITE (R359) -/
  | journalCopyOnWrite (launch page : Nat)
  /-- DIE_FENCE (R363) -/
  | dieFence (at' : DieAt)
  /-- COMMAND_LINK_MESSAGE (R366) -/
  | commandLinkMessage (cell : Nat) (toCell urgent send : Bool) (msg : BitVec 512)
  /-- HIVE_HEARTBEAT (R367) -/
  | hiveHeartbeat (received : Bool)
  /-- HIVE_TAKEOVER (R367) -/
  | hiveTakeover
  /-- CELL_LINK_FAILURE (R367) -/
  | cellLinkFailure (cell : Nat)
  /-- POWER_CAP_TICK (R384) -/
  | powerCapTick (average : Nat) (plate : Option Bool)
  /-- GTIME_LOCK_LOSS (R109) -/
  | gtimeLockLoss
  /-- GTIME_RELOCK (R108) -/
  | gtimeRelock
  /-- COLD_START (R371) -/
  | coldStart (failedCores : List Nat) (found : Conditions)
  /-- WARM_START (R371) -/
  | warmStart (failedCores : List Nat) (found : Conditions)
  /-- CORRECTED_ERROR (R385) -/
  | correctedError (dram : Bool)
  /-- UNCORRECTABLE_TEAM_STATE (R387) -/
  | uncorrectableTeamState (core : Nat)
  /-- PSEUDO_CHANNEL_SPARING (R386) -/
  | pseudoChannelSparing (stack base size : Nat)
  /-- SPARING_CHUNK_COPY (R386) -/
  | sparingChunkCopy (k : Nat)
  /-- PAGE_RETIREMENT (R386) -/
  | pageRetirement (page target : Nat)
  /-- FATAL_ERROR (R391) -/
  | fatalError (cause : Nat) (trouble : DumpTrouble)
  /-- PATCH_HANDLER (R377) -/
  | patchHandler (k outcome : Nat) (value target : BitVec 64) (writes : PatchWrites)
  /-- PATCH_HANDLER_TIMEOUT (R377) -/
  | patchHandlerTimeout (k : Nat) (writes : PatchWrites)
  /-- PATCH_IMAGE_SWITCH (R378) -/
  | patchImageSwitch
  /-- QUARANTINE_TIMEOUT (R348) -/
  | quarantineTimeout (launch : Nat)
  /-- PART_SET (R382) -/
  | partSet
  /-- QCELL_SET (R394) -/
  | qcellSet
  /-- POWER_CAP (R384) -/
  | powerCap
  /-- CUT_SET (R383) -/
  | cutSet
  /-- IMG_STAGE (R395) -/
  | imgStage
  /-- IMG_ACTIVATE (R395) -/
  | imgActivate
  /-- IMG_COMMIT (R370) -/
  | imgCommit
  /-- IMG_REVERT (R395) -/
  | imgRevert
  /-- DUMP_CLEAR (R393) -/
  | dumpClear
  /-- UNKNOWN_COMMAND (R381) -/
  | unknownCommand
  /-- MCMD_COMPLETE (R380) -/
  | mcmdComplete
  /-- ATOMIC_RECEIPT_CONFIRMATION (R118) -/
  | atomicReceiptConfirmation (id : Nat)
  /-- GTIME_SLEW_COMPLETE (R109) -/
  | gtimeSlewComplete
  /-- MXREAD_MSTORE_EXECUTE (R218) -/
  | mxreadMstoreExecute (launch : Nat) (step : SeqStep)
  deriving DecidableEq, Repr

/-- Row 0xC: fetched by a matrix sequencer only (spec 06 R142, 10 R214). -/
def Instr.isStream : Instr → Bool
  | .mma _ _ _ _ _ _ => true
  | .mzero _ => true
  | .mxread _ _ _ _ _ _ => true
  | .mstore _ _ _ => true
  | .mfence => true
  | .mbarwait _ => true
  | .mbararr _ => true
  | .mfmt _ _ => true
  | .mmap _ _ => true
  | .mbra _ => true
  | .mloop _ _ _ => true
  | .mend => true
  | _ => false

end Sys2Proof
end

