-- ==== Sys2Proof/WellFormed.lean ====
section
/-! DEFINITION. Which instructions are well-formed: every field holds a code that some state admits (the legality checks of
spec 06 R143, step 4, that no state decides), and every index of a step without an encoding names something there is. An
ill-formed instruction still has a meaning: its fault, or nothing. -/

namespace Sys2Proof

/-- The checks, each by name. -/
inductive WfCheck where
  /-- A destination names a register or NONE (spec 06 R130). -/
  | destination (x : BitVec 8)
  /-- A field that is read and written names a register (07 R145, 08 R165, 09 R195). -/
  | namedRegister (x : BitVec 8)
  /-- A source in scalar context (06 R129, R131). -/
  | scalarSource (x : BitVec 8)
  /-- A source in vector context (06 R129). -/
  | vectorSource (x : BitVec 8)
  /-- A short operand has no code above ZERO (06 R127). -/
  | shortOperand (x : BitVec 6)
  /-- SC and ORD of a load, PLAIN with scope GROUP (06 R127, 09 R190). -/
  | loadOrder (sc : BitVec 3) (o : BitVec 2)
  /-- SC and ORD of a store (06 R127, 09 R190). -/
  | storeOrder (sc : BitVec 3) (o : BitVec 2)
  /-- SC and ORD of an atomic (06 R127, 09 R190). -/
  | anyOrder (sc : BitVec 3) (o : BitVec 2)
  /-- SC and ORD of VPREF. -/
  | plainGroup (sc : BitVec 3) (o : BitVec 2)
  /-- SC of FENCE (09 R197). -/
  | fenceScope (x : BitVec 3)
  /-- A system register (07 R151). -/
  | systemRead (x : BitVec 8)
  /-- A system register that is written (07 R151). -/
  | systemWrite (x : BitVec 8)
  /-- A MODE value (06 R137, R138). -/
  | modeImmediate (m : BitVec 24)
  /-- A narrow format (08 R184). -/
  | narrowFormat (f : BitVec 4)
  /-- X of CST and CATOM (09 R201, R202). -/
  | channelWidth (x : BitVec 4)
  /-- B of CST, in the context X gives (09 R201). -/
  | channelValue (x : BitVec 4) (b : BitVec 8)
  /-- The first of two named scalar registers (12 R243, 11 R236). -/
  | registerPair (x : BitVec 8)
  /-- A range of named vector registers (11 R236, R238). -/
  | registerRange (v : BitVec 7) (n : Nat)
  /-- B of NACC, a source with NB = 1, else reserved and zero (11 R236). -/
  | optionalSource (k : BitVec 1) (b : BitVec 8)
  /-- A Nectar family (11 R227, R236). -/
  | family (f : BitVec 2)
  /-- A word of the fault record (13 R267). -/
  | recordWord (x : BitVec 8)
  /-- The panel count of MMA (10 R216). -/
  | batchCount (p : BitVec 7)
  /-- The slab of MXREAD (10 R218). -/
  | slabPort (o h : BitVec 1) (sl : BitVec 3)
  /-- The format of MSTORE (10 R219). -/
  | storeFormat (f : BitVec 2)
  /-- A function or partition (23 R334). -/
  | function (x : Nat)
  /-- A queue of a function (23 R334). -/
  | queueOf (fn q : Nat)
  /-- A register area (23 R334, 26 R380). -/
  | registerArea (x : Nat)
  /-- An access of the host aperture (23 R335). -/
  | apertureAccess (off n : Nat)
  /-- A lake die (00 R1). -/
  | lakeDie (x : Nat)
  /-- A compute die (00 R1). -/
  | computeDie (x : Nat)
  /-- An enabled core (00 R1). -/
  | coreIndex (x : Nat)
  /-- A cluster (25 R366). -/
  | cellIndex (x : Nat)
  /-- A partition's distributor, or the quarantine cell's (01 R29, 26 R394). -/
  | distributor (x : Nat)
  /-- A Comb link or Comb-X port (00 R1). -/
  | linkIndex (x : Nat)
  /-- An HBM4E stack, or a lake die (26 R386). -/
  | stackIndex (x : Nat)
  /-- A 64 KiB page of near or lake memory (26 R386). -/
  | retiredPage (x : Nat)
  /-- A cause of a fatal error (26 R391). -/
  | fatalCause (x : Nat)
  /-- How a patch handler ends (25 R375). -/
  | handlerOutcome (x : Nat)
  deriving DecidableEq, Repr

/-- Whether a check holds. -/
def WfCheck.holds : WfCheck → Bool
  | .destination x => decide (x.toNat < 0x80 ∨ x.toNat = 0xFF)
  | .namedRegister x => decide (x.toNat < 0x80)
  | .scalarSource x => decide (x.toNat < 0xD0 ∨ (0xF0 ≤ x.toNat ∧ x.toNat ≠ 0xF1 ∧ x.toNat < 0xFC) ∨ x.toNat = 0xFE)
  | .vectorSource x => decide (x.toNat ≠ 0xFF)
  | .shortOperand x => decide (x.toNat ≤ 0x30)
  | .loadOrder sc o => decide (sc ≠ 7 ∧ (o = 0 ∧ sc = 0 ∨ o = 1))
  | .storeOrder sc o => decide (sc ≠ 7 ∧ (o = 0 ∧ sc = 0 ∨ o = 2))
  | .anyOrder sc o => decide (sc ≠ 7 ∧ (o ≠ 0 ∨ sc = 0))
  | .plainGroup sc o => decide (sc = 0 ∧ o = 0)
  | .fenceScope x => decide (x ≠ 7)
  | .systemRead x => decide (x.toNat < 0x0C)
  | .systemWrite x => decide (x = 0x0A)
  | .modeImmediate m => decide (m.extractLsb' 20 4 = 0 ∧ (m.extractLsb' 9 3).toNat ≤ 4 ∧ (m.extractLsb' 5 4).toNat ≤ 8 ∧ (m.getLsbD 4 = true ∨ m.extractLsb' 0 4 = 0))
  | .narrowFormat f => decide (2 ≤ f.toNat ∧ f.toNat ≤ 4)
  | .channelWidth x => decide (x.toNat < 7)
  | .channelValue x b => decide (if x.getLsbD 2 = true then b.toNat ≠ 0xFF else (b.toNat < 0xD0 ∨ (0xF0 ≤ b.toNat ∧ b.toNat ≠ 0xF1 ∧ b.toNat < 0xFC) ∨ b.toNat = 0xFE))
  | .registerPair x => decide (x.toNat < 0x7F)
  | .registerRange v n => decide (v.toNat + n ≤ 128)
  | .optionalSource k b => decide (if k = 1 then b.toNat ≠ 0xFF else b = 0)
  | .family f => decide (f ≠ 3)
  | .recordWord x => decide (x.toNat < 8)
  | .batchCount p => decide (1 ≤ p.toNat ∧ p.toNat ≤ 64)
  | .slabPort o h sl => decide (if o = 0 then h = 0 else sl.toNat ≤ 3)
  | .storeFormat f => decide (f.toNat ≤ 2)
  | .function x => decide (x < 17)
  | .queueOf fn q => decide (fn < 17 ∧ q < 64)
  | .registerArea x => decide (x < 20)
  | .apertureAccess off n => decide (1 ≤ n ∧ off % 64 + n ≤ 64 ∧ off < 2 ^ 32)
  | .lakeDie x => decide (x < 2)
  | .computeDie x => decide (x < 8)
  | .coreIndex x => decide (x < 256)
  | .cellIndex x => decide (x < 64)
  | .distributor x => decide (x < 18)
  | .linkIndex x => decide (x < 48)
  | .stackIndex x => decide (x < 34)
  | .retiredPage x => decide ((x < 0x020000000000 ∨ 0x040000000000 ≤ x ∧ x < 0x080000000000) ∧ x % 0x10000 = 0)
  | .fatalCause x => decide (1 ≤ x ∧ x ≤ 5)
  | .handlerOutcome x => decide (x ≤ 4)

/-- The checks of an instruction. -/
def Instr.checks : Instr → List WfCheck
  | .add d a b => [.destination d, .scalarSource a, .scalarSource b]
  | .sub d a b => [.destination d, .scalarSource a, .scalarSource b]
  | .mul d a b => [.destination d, .scalarSource a, .scalarSource b]
  | .mulhi d a b => [.destination d, .scalarSource a, .scalarSource b]
  | .div d a b => [.destination d, .scalarSource a, .scalarSource b]
  | .and d a b => [.destination d, .scalarSource a, .scalarSource b]
  | .or d a b => [.destination d, .scalarSource a, .scalarSource b]
  | .xor d a b => [.destination d, .scalarSource a, .scalarSource b]
  | .shl d a b => [.destination d, .scalarSource a, .scalarSource b]
  | .shr d a b => [.destination d, .scalarSource a, .scalarSource b]
  | .shra d a b => [.destination d, .scalarSource a, .scalarSource b]
  | .slt d a b => [.destination d, .scalarSource a, .scalarSource b]
  | .sel d a b => [.namedRegister d, .scalarSource a, .scalarSource b]
  | .setlo d _ => [.destination d]
  | .sethi d _ => [.namedRegister d]
  | .bra _ => []
  | .bz a _ => [.scalarSource a]
  | .bnz a _ => [.scalarSource a]
  | .blt a _ => [.scalarSource a]
  | .bge a _ => [.scalarSource a]
  | .call a _ => [.destination a]
  | .callx a => [.scalarSource a]
  | .ret a => [.scalarSource a]
  | .jmpx a => [.scalarSource a]
  | .loop a _ => [.namedRegister a]
  | .sld8 d _ s o b => [.destination d, .loadOrder s o, .shortOperand b]
  | .sld16 d _ s o b => [.destination d, .loadOrder s o, .shortOperand b]
  | .sld32 d _ s o b => [.destination d, .loadOrder s o, .shortOperand b]
  | .sld64 d _ s o b => [.destination d, .loadOrder s o, .shortOperand b]
  | .sst8 d _ s o b => [.scalarSource d, .storeOrder s o, .shortOperand b]
  | .sst16 d _ s o b => [.scalarSource d, .storeOrder s o, .shortOperand b]
  | .sst32 d _ s o b => [.scalarSource d, .storeOrder s o, .shortOperand b]
  | .sst64 d _ s o b => [.scalarSource d, .storeOrder s o, .shortOperand b]
  | .sread d y => [.destination d, .systemRead y]
  | .swrite y b => [.systemWrite y, .scalarSource b]
  | .icinv a b => [.scalarSource a, .scalarSource b]
  | .mode i => [.modeImmediate i]
  | .moderd d => [.destination d]
  | .shape a => [.scalarSource a]
  | .shaperd d => [.destination d]
  | .bararr _ => []
  | .barwait _ => []
  | .barsync _ => []
  | .rquota d _ b => [.destination d, .scalarSource b]
  | .step => []
  | .vadd d a b => [.destination d, .vectorSource a, .vectorSource b]
  | .vsub d a b => [.destination d, .vectorSource a, .vectorSource b]
  | .vmul d a b => [.destination d, .vectorSource a, .vectorSource b]
  | .vfma d a b => [.vectorSource d, .vectorSource a, .vectorSource b]
  | .vfms d a b => [.vectorSource d, .vectorSource a, .vectorSource b]
  | .vfnma d a b => [.vectorSource d, .vectorSource a, .vectorSource b]
  | .vmin d a b => [.destination d, .vectorSource a, .vectorSource b]
  | .vmax d a b => [.destination d, .vectorSource a, .vectorSource b]
  | .vabs d a => [.destination d, .vectorSource a]
  | .vneg d a => [.destination d, .vectorSource a]
  | .vdiv d a b => [.destination d, .vectorSource a, .vectorSource b]
  | .vsqrt d a => [.destination d, .vectorSource a]
  | .vrcp d a => [.destination d, .vectorSource a]
  | .vrsq d a => [.destination d, .vectorSource a]
  | .vexp2 d a => [.destination d, .vectorSource a]
  | .vlog2 d a => [.destination d, .vectorSource a]
  | .vand d a b => [.destination d, .vectorSource a, .vectorSource b]
  | .vor d a b => [.destination d, .vectorSource a, .vectorSource b]
  | .vxor d a b => [.destination d, .vectorSource a, .vectorSource b]
  | .vnot d a => [.destination d, .vectorSource a]
  | .vshl d a b => [.destination d, .vectorSource a, .vectorSource b]
  | .vshr d a b => [.destination d, .vectorSource a, .vectorSource b]
  | .vshra d a b => [.destination d, .vectorSource a, .vectorSource b]
  | .vrot d a b => [.destination d, .vectorSource a, .vectorSource b]
  | .vmulhi d a b => [.destination d, .vectorSource a, .vectorSource b]
  | .vsel d a b => [.vectorSource d, .vectorSource a, .vectorSource b]
  | .vclz d a => [.destination d, .vectorSource a]
  | .vpopc d a => [.destination d, .vectorSource a]
  | .vfloor d a => [.destination d, .vectorSource a]
  | .vceil d a => [.destination d, .vectorSource a]
  | .vround d a => [.destination d, .vectorSource a]
  | .vtrunc d a => [.destination d, .vectorSource a]
  | .vbcast d a b => [.destination d, .vectorSource a, .scalarSource b]
  | .vperm d a b => [.destination d, .vectorSource a, .vectorSource b]
  | .vlrot d a b => [.destination d, .vectorSource a, .scalarSource b]
  | .vscan d a => [.destination d, .vectorSource a]
  | .vradd d a => [.destination d, .vectorSource a]
  | .vrmin d a => [.destination d, .vectorSource a]
  | .vrmax d a => [.destination d, .vectorSource a]
  | .vmovs d a b => [.destination d, .vectorSource a, .scalarSource b]
  | .vins d a b => [.vectorSource d, .scalarSource a, .scalarSource b]
  | .vcsign d a b => [.destination d, .vectorSource a, .vectorSource b]
  | .vceq _ a b => [.vectorSource a, .vectorSource b]
  | .vcne _ a b => [.vectorSource a, .vectorSource b]
  | .vclt _ a b => [.vectorSource a, .vectorSource b]
  | .vcle _ a b => [.vectorSource a, .vectorSource b]
  | .vcgt _ a b => [.vectorSource a, .vectorSource b]
  | .vcge _ a b => [.vectorSource a, .vectorSource b]
  | .vcuno _ a b => [.vectorSource a, .vectorSource b]
  | .pand _ _ _ _ _ => []
  | .por _ _ _ _ _ => []
  | .pxor _ _ _ _ _ => []
  | .pnot _ _ _ => []
  | .vif _ _ => []
  | .velse => []
  | .vendif => []
  | .vany d _ _ => [.destination d]
  | .vall d _ _ => [.destination d]
  | .cvtif d a => [.destination d, .vectorSource a]
  | .cvtfi d a => [.destination d, .vectorSource a]
  | .cvtnf d a f => [.destination d, .vectorSource a, .narrowFormat f]
  | .cvtfn d a f => [.destination d, .vectorSource a, .narrowFormat f]
  | .cvtfh d a b => [.destination d, .vectorSource a, .vectorSource b]
  | .cvthf d a _ => [.destination d, .vectorSource a]
  | .cvtfb d a b => [.destination d, .vectorSource a, .vectorSource b]
  | .cvtbf d a _ => [.destination d, .vectorSource a]
  | .pack16 d a b => [.destination d, .vectorSource a, .vectorSource b]
  | .unpk16 d a _ => [.destination d, .vectorSource a]
  | .pack8 d a b => [.destination d, .vectorSource a, .vectorSource b]
  | .unpk8 d a _ => [.destination d, .vectorSource a]
  | .cvtn8 d a b => [.destination d, .vectorSource a, .vectorSource b]
  | .cvtn6 d a b => [.destination d, .vectorSource a, .vectorSource b]
  | .cvtn4 d a b => [.destination d, .vectorSource a, .vectorSource b]
  | .cvtnx d a f => [.destination d, .vectorSource a, .narrowFormat f]
  | .vld8 d _ s o b => [.destination d, .loadOrder s o, .shortOperand b]
  | .vld16 d _ s o b => [.destination d, .loadOrder s o, .shortOperand b]
  | .vld32 d _ s o b => [.destination d, .loadOrder s o, .shortOperand b]
  | .vst8 d _ s o b => [.vectorSource d, .storeOrder s o, .shortOperand b]
  | .vst16 d _ s o b => [.vectorSource d, .storeOrder s o, .shortOperand b]
  | .vst32 d _ s o b => [.vectorSource d, .storeOrder s o, .shortOperand b]
  | .vpref _ s o b => [.plainGroup s o, .shortOperand b]
  | .atadd d _ s o b => [.destination d, .anyOrder s o, .shortOperand b]
  | .atmin d _ s o b => [.destination d, .anyOrder s o, .shortOperand b]
  | .atmax d _ s o b => [.destination d, .anyOrder s o, .shortOperand b]
  | .atand d _ s o b => [.destination d, .anyOrder s o, .shortOperand b]
  | .ator d _ s o b => [.destination d, .anyOrder s o, .shortOperand b]
  | .atxor d _ s o b => [.destination d, .anyOrder s o, .shortOperand b]
  | .atxchg d _ s o b => [.destination d, .anyOrder s o, .shortOperand b]
  | .atcas d _ s o b => [.namedRegister d, .anyOrder s o, .shortOperand b]
  | .vatadd d _ s o b => [.namedRegister d, .anyOrder s o, .shortOperand b]
  | .vatmin d _ s o b => [.namedRegister d, .anyOrder s o, .shortOperand b]
  | .vatmax d _ s o b => [.namedRegister d, .anyOrder s o, .shortOperand b]
  | .vatxchg d _ s o b => [.namedRegister d, .anyOrder s o, .shortOperand b]
  | .fence _ s => [.fenceScope s]
  | .vatand d _ s o b => [.namedRegister d, .anyOrder s o, .shortOperand b]
  | .vator d _ s o b => [.namedRegister d, .anyOrder s o, .shortOperand b]
  | .cst _ x a b => [.channelWidth x, .scalarSource a, .channelValue x b]
  | .catom _ x a b => [.channelWidth x, .scalarSource a, .scalarSource b]
  | .ccopy _ a b => [.scalarSource a, .registerPair b]
  | .cjoin _ _ => []
  | .cdrain _ => []
  | .mma _ _ _ _ _ p => [.batchCount p]
  | .mzero _ => []
  | .mxread _ o _ h _ s => [.slabPort o h s]
  | .mstore _ _ f => [.storeFormat f]
  | .mfence => []
  | .mbarwait _ => []
  | .mbararr _ => []
  | .mfmt _ _ => []
  | .mmap _ _ => []
  | .mbra _ => []
  | .mloop _ _ _ => []
  | .mend => []
  | .nacc k _ a b => [.vectorSource a, .optionalSource k b]
  | .neval d a _ _ => [.destination d, .vectorSource a]
  | .nrescale d _ => [.destination d]
  | .nmerge _ v => [.registerRange v 3]
  | .nfin d _ _ _ => [.destination d]
  | .nclear _ => []
  | .nsave v _ => [.registerRange v 4]
  | .nload _ v => [.registerRange v 4]
  | .ntable d v b => [.destination d, .registerRange v 4, .registerPair b]
  | .nselect f => [.family f]
  | .copy d a b => [.destination d, .scalarSource a, .registerPair b]
  | .fgraph d a b => [.destination d, .scalarSource a, .scalarSource b]
  | .waita d a b => [.destination d, .scalarSource a, .scalarSource b]
  | .lwake a => [.scalarSource a]
  | .mhint a b => [.scalarSource a, .scalarSource b]
  | .mwait a => [.scalarSource a]
  | .trap a => [.scalarSource a]
  | .tret a => [.scalarSource a]
  | .brk _ => []
  | .nop => []
  | .exit => []
  | .faultrd d i => [.destination d, .recordWord i]
  | .loadReturn _ _ => []
  | .atomicReturn _ => []
  | .nectarWriteback _ => []
  | .copyChunk _ => []
  | .copyComplete _ => []
  | .ccopyComplete _ => []
  | .foragerNodeStart _ _ _ _ _ => []
  | .foragerNodeComplete _ _ => []
  | .foragerWaitRecheck _ _ => []
  | .replayComplete _ => []
  | .collectiveSignature _ _ _ _ => []
  | .mmaArrayExecute _ _ => []
  | .batchComplete _ _ => []
  | .waitaWake _ _ _ => []
  | .vtimeCompareMatch _ _ _ => []
  | .eventTrap _ _ _ => []
  | .groupExchange core _ _ _ => [.coreIndex core]
  | .groupStarved core _ _ _ => [.coreIndex core]
  | .forcedExchange core => [.coreIndex core]
  | .teamPlacement part => [.distributor part]
  | .poolSwitch core => [.coreIndex core]
  | .poolSwitchComplete core => [.coreIndex core]
  | .teamRetirement _ _ => []
  | .launchCompletion _ => []
  | .launch fn q _ _ _ _ => [.queueOf fn q]
  | .nopPacket fn q => [.queueOf fn q]
  | .inval fn q => [.queueOf fn q]
  | .invalComplete _ => []
  | .debugStop fn q => [.queueOf fn q]
  | .debugResume fn q => [.queueOf fn q]
  | .debugRead fn q => [.queueOf fn q]
  | .debugWrite fn q => [.queueOf fn q]
  | .debugBreak fn q => [.queueOf fn q]
  | .pfreplyReplay fn q => [.queueOf fn q]
  | .pfreplyDeliver fn q => [.queueOf fn q]
  | .gload fn q => [.queueOf fn q]
  | .gloadUnload fn q => [.queueOf fn q]
  | .gloadDeferredComplete _ => []
  | .reservedPacket fn q => [.queueOf fn q]
  | .qtailDoorbell fn q _ => [.queueOf fn q]
  | .queueEnable fn q => [.queueOf fn q]
  | .queueDisable fn q => [.queueOf fn q]
  | .qclear fn q => [.queueOf fn q]
  | .fqctlWrite fn _ => [.function fn]
  | .fqtailWrite fn _ => [.function fn]
  | .registerWrite area _ _ => [.registerArea area]
  | .hostApertureRead fn off n => [.function fn, .apertureAccess off n]
  | .hostApertureWrite fn off bytes => [.function fn, .apertureAccess off bytes.length]
  | .cxlMemRead p _ _ => [.function p.fn, .lakeDie p.lake]
  | .cxlMemWrite p _ _ => [.function p.fn, .lakeDie p.lake]
  | .hostPriResponse fn _ _ _ _ => [.function fn]
  | .atsInvalidation fn _ => [.function fn]
  | .channelPacketArrival _ => []
  | .channelAck _ => []
  | .streamClose _ => []
  | .packetResend _ => []
  | .linkFailure link _ _ => [.linkIndex link]
  | .sync _ => []
  | .syncRequest _ => []
  | .linkRetrained link => [.linkIndex link]
  | .linkNarrow link => [.linkIndex link]
  | .linkSleep link => [.linkIndex link]
  | .lwakeExpiry link => [.linkIndex link]
  | .peerUnreachable _ => []
  | .pageMigrationStart part _ _ => [.function part]
  | .pageMigrationComplete _ => []
  | .gangReserve _ => []
  | .gangReserveTimeout _ => []
  | .gangBackoffRetry _ => []
  | .gangCommit _ => []
  | .preemptRequest _ _ _ => []
  | .drainTimeout _ _ => []
  | .saveComplete _ _ => []
  | .saveWithdraw _ _ => []
  | .flushComplete _ _ => []
  | .cutStopRequest _ => []
  | .cutCompletion _ => []
  | .cutAbandon _ => []
  | .journalCopyOnWrite _ _ => []
  | .dieFence d => [.computeDie d.die]
  | .commandLinkMessage cell _ _ _ _ => [.cellIndex cell]
  | .hiveHeartbeat _ => []
  | .hiveTakeover => []
  | .cellLinkFailure cell => [.cellIndex cell]
  | .powerCapTick _ _ => []
  | .gtimeLockLoss => []
  | .gtimeRelock => []
  | .coldStart _ _ => []
  | .warmStart _ _ => []
  | .correctedError _ => []
  | .uncorrectableTeamState core => [.coreIndex core]
  | .pseudoChannelSparing stack _ _ => [.stackIndex stack]
  | .sparingChunkCopy _ => []
  | .pageRetirement page _ => [.retiredPage page]
  | .fatalError cause _ => [.fatalCause cause]
  | .patchHandler _ outcome _ _ _ => [.handlerOutcome outcome]
  | .patchHandlerTimeout _ _ => []
  | .patchImageSwitch => []
  | .quarantineTimeout _ => []
  | .partSet => []
  | .qcellSet => []
  | .powerCap => []
  | .cutSet => []
  | .imgStage => []
  | .imgActivate => []
  | .imgCommit => []
  | .imgRevert => []
  | .dumpClear => []
  | .unknownCommand => []
  | .mcmdComplete => []
  | .atomicReceiptConfirmation _ => []
  | .gtimeSlewComplete => []
  | .mxreadMstoreExecute _ _ => []

/-- Every check of the instruction holds. -/
def Instr.wellFormed (i : Instr) : Bool := i.checks.all WfCheck.holds

end Sys2Proof
end

