-- ==== Sys2Proof/Decode.lean ====
section
/-! DEFINITION. Instruction words: the decoder, total on every word and rejecting by name, and the encoder, both from the
encoding tables of spec 06 R125, R126, R142 and the instruction chapters. A word is stored little-endian (R125). -/

namespace Sys2Proof

/-- What a word is (spec 06 R143, steps 2 and 3). -/
inductive Decoded where
  | ok (i : Instr)
  /-- The opcode is unassigned. -/
  | unassigned
  /-- A reserved field or bit is not zero. -/
  | reserved
  deriving DecidableEq, Repr

/-- Bits [lo + n - 1 : lo] of a word. -/
def fld (w : W32) (lo n : Nat) : BitVec n := w.extractLsb' lo n

/-- The opcode, bits [31:24] (R125). -/
def opcodeOf (w : W32) : BitVec 8 := fld w 24 8

/-- The instruction, unless a reserved bit of `mask` is set (R143, step 3). -/
def checked (w mask : W32) (i : Instr) : Decoded := if w &&& mask = 0 then .ok i else .reserved

/-- Row 0x0 of the opcode map (R142). -/
def decodeRow0 (w : W32) : Decoded :=
  let op := opcodeOf w
  if op = 0x01 then checked w 0x000000 (.add (fld w 16 8) (fld w 8 8) (fld w 0 8)) else
  if op = 0x02 then checked w 0x000000 (.sub (fld w 16 8) (fld w 8 8) (fld w 0 8)) else
  if op = 0x03 then checked w 0x000000 (.mul (fld w 16 8) (fld w 8 8) (fld w 0 8)) else
  if op = 0x04 then checked w 0x000000 (.mulhi (fld w 16 8) (fld w 8 8) (fld w 0 8)) else
  if op = 0x05 then checked w 0x000000 (.div (fld w 16 8) (fld w 8 8) (fld w 0 8)) else
  if op = 0x06 then checked w 0x000000 (.and (fld w 16 8) (fld w 8 8) (fld w 0 8)) else
  if op = 0x07 then checked w 0x000000 (.or (fld w 16 8) (fld w 8 8) (fld w 0 8)) else
  if op = 0x08 then checked w 0x000000 (.xor (fld w 16 8) (fld w 8 8) (fld w 0 8)) else
  if op = 0x09 then checked w 0x000000 (.shl (fld w 16 8) (fld w 8 8) (fld w 0 8)) else
  if op = 0x0A then checked w 0x000000 (.shr (fld w 16 8) (fld w 8 8) (fld w 0 8)) else
  if op = 0x0B then checked w 0x000000 (.shra (fld w 16 8) (fld w 8 8) (fld w 0 8)) else
  if op = 0x0C then checked w 0x000000 (.slt (fld w 16 8) (fld w 8 8) (fld w 0 8)) else
  if op = 0x0D then checked w 0x000000 (.sel (fld w 16 8) (fld w 8 8) (fld w 0 8)) else
  if op = 0x0E then checked w 0x000000 (.setlo (fld w 16 8) (fld w 0 16)) else
  if op = 0x0F then checked w 0x000000 (.sethi (fld w 16 8) (fld w 0 16)) else
  .unassigned

/-- Row 0x1 of the opcode map (R142). -/
def decodeRow1 (w : W32) : Decoded :=
  let op := opcodeOf w
  if op = 0x10 then checked w 0xFF0000 (.bra (fld w 0 16)) else
  if op = 0x11 then checked w 0x000000 (.bz (fld w 16 8) (fld w 0 16)) else
  if op = 0x12 then checked w 0x000000 (.bnz (fld w 16 8) (fld w 0 16)) else
  if op = 0x13 then checked w 0x000000 (.blt (fld w 16 8) (fld w 0 16)) else
  if op = 0x14 then checked w 0x000000 (.bge (fld w 16 8) (fld w 0 16)) else
  if op = 0x15 then checked w 0x000000 (.call (fld w 16 8) (fld w 0 16)) else
  if op = 0x16 then checked w 0x00FFFF (.callx (fld w 16 8)) else
  if op = 0x17 then checked w 0x00FFFF (.ret (fld w 16 8)) else
  if op = 0x18 then checked w 0x00FFFF (.jmpx (fld w 16 8)) else
  if op = 0x19 then checked w 0x000000 (.loop (fld w 16 8) (fld w 0 16)) else
  .unassigned

/-- Row 0x2 of the opcode map (R142). -/
def decodeRow2 (w : W32) : Decoded :=
  let op := opcodeOf w
  if op = 0x20 then checked w 0x000000 (.sld8 (fld w 16 8) (fld w 11 5) (fld w 8 3) (fld w 6 2) (fld w 0 6)) else
  if op = 0x21 then checked w 0x000000 (.sld16 (fld w 16 8) (fld w 11 5) (fld w 8 3) (fld w 6 2) (fld w 0 6)) else
  if op = 0x22 then checked w 0x000000 (.sld32 (fld w 16 8) (fld w 11 5) (fld w 8 3) (fld w 6 2) (fld w 0 6)) else
  if op = 0x23 then checked w 0x000000 (.sld64 (fld w 16 8) (fld w 11 5) (fld w 8 3) (fld w 6 2) (fld w 0 6)) else
  if op = 0x24 then checked w 0x000000 (.sst8 (fld w 16 8) (fld w 11 5) (fld w 8 3) (fld w 6 2) (fld w 0 6)) else
  if op = 0x25 then checked w 0x000000 (.sst16 (fld w 16 8) (fld w 11 5) (fld w 8 3) (fld w 6 2) (fld w 0 6)) else
  if op = 0x26 then checked w 0x000000 (.sst32 (fld w 16 8) (fld w 11 5) (fld w 8 3) (fld w 6 2) (fld w 0 6)) else
  if op = 0x27 then checked w 0x000000 (.sst64 (fld w 16 8) (fld w 11 5) (fld w 8 3) (fld w 6 2) (fld w 0 6)) else
  if op = 0x28 then checked w 0x0000FF (.sread (fld w 16 8) (fld w 8 8)) else
  if op = 0x29 then checked w 0xFF0000 (.swrite (fld w 8 8) (fld w 0 8)) else
  if op = 0x2A then checked w 0xFF0000 (.icinv (fld w 8 8) (fld w 0 8)) else
  .unassigned

/-- Row 0x3 of the opcode map (R142). -/
def decodeRow3 (w : W32) : Decoded :=
  let op := opcodeOf w
  if op = 0x30 then checked w 0x000000 (.mode (fld w 0 24)) else
  if op = 0x31 then checked w 0x00FFFF (.moderd (fld w 16 8)) else
  if op = 0x32 then checked w 0xFF00FF (.shape (fld w 8 8)) else
  if op = 0x33 then checked w 0x00FFFF (.shaperd (fld w 16 8)) else
  if op = 0x34 then checked w 0xFFF0FF (.bararr (fld w 8 4)) else
  if op = 0x35 then checked w 0xFFF0FF (.barwait (fld w 8 4)) else
  if op = 0x36 then checked w 0xFFF0FF (.barsync (fld w 8 4)) else
  if op = 0x37 then checked w 0x00F000 (.rquota (fld w 16 8) (fld w 8 4) (fld w 0 8)) else
  if op = 0x38 then checked w 0xFFFFFF .step else
  .unassigned

/-- Row 0x4 of the opcode map (R142). -/
def decodeRow4 (w : W32) : Decoded :=
  let op := opcodeOf w
  if op = 0x40 then checked w 0x000000 (.vadd (fld w 16 8) (fld w 8 8) (fld w 0 8)) else
  if op = 0x41 then checked w 0x000000 (.vsub (fld w 16 8) (fld w 8 8) (fld w 0 8)) else
  if op = 0x42 then checked w 0x000000 (.vmul (fld w 16 8) (fld w 8 8) (fld w 0 8)) else
  if op = 0x43 then checked w 0x000000 (.vfma (fld w 16 8) (fld w 8 8) (fld w 0 8)) else
  if op = 0x44 then checked w 0x000000 (.vfms (fld w 16 8) (fld w 8 8) (fld w 0 8)) else
  if op = 0x45 then checked w 0x000000 (.vfnma (fld w 16 8) (fld w 8 8) (fld w 0 8)) else
  if op = 0x46 then checked w 0x000000 (.vmin (fld w 16 8) (fld w 8 8) (fld w 0 8)) else
  if op = 0x47 then checked w 0x000000 (.vmax (fld w 16 8) (fld w 8 8) (fld w 0 8)) else
  if op = 0x48 then checked w 0x0000FF (.vabs (fld w 16 8) (fld w 8 8)) else
  if op = 0x49 then checked w 0x0000FF (.vneg (fld w 16 8) (fld w 8 8)) else
  if op = 0x4A then checked w 0x000000 (.vdiv (fld w 16 8) (fld w 8 8) (fld w 0 8)) else
  if op = 0x4B then checked w 0x0000FF (.vsqrt (fld w 16 8) (fld w 8 8)) else
  if op = 0x4C then checked w 0x0000FF (.vrcp (fld w 16 8) (fld w 8 8)) else
  if op = 0x4D then checked w 0x0000FF (.vrsq (fld w 16 8) (fld w 8 8)) else
  if op = 0x4E then checked w 0x0000FF (.vexp2 (fld w 16 8) (fld w 8 8)) else
  if op = 0x4F then checked w 0x0000FF (.vlog2 (fld w 16 8) (fld w 8 8)) else
  .unassigned

/-- Row 0x5 of the opcode map (R142). -/
def decodeRow5 (w : W32) : Decoded :=
  let op := opcodeOf w
  if op = 0x50 then checked w 0x000000 (.vand (fld w 16 8) (fld w 8 8) (fld w 0 8)) else
  if op = 0x51 then checked w 0x000000 (.vor (fld w 16 8) (fld w 8 8) (fld w 0 8)) else
  if op = 0x52 then checked w 0x000000 (.vxor (fld w 16 8) (fld w 8 8) (fld w 0 8)) else
  if op = 0x53 then checked w 0x0000FF (.vnot (fld w 16 8) (fld w 8 8)) else
  if op = 0x54 then checked w 0x000000 (.vshl (fld w 16 8) (fld w 8 8) (fld w 0 8)) else
  if op = 0x55 then checked w 0x000000 (.vshr (fld w 16 8) (fld w 8 8) (fld w 0 8)) else
  if op = 0x56 then checked w 0x000000 (.vshra (fld w 16 8) (fld w 8 8) (fld w 0 8)) else
  if op = 0x57 then checked w 0x000000 (.vrot (fld w 16 8) (fld w 8 8) (fld w 0 8)) else
  if op = 0x58 then checked w 0x000000 (.vmulhi (fld w 16 8) (fld w 8 8) (fld w 0 8)) else
  if op = 0x59 then checked w 0x000000 (.vsel (fld w 16 8) (fld w 8 8) (fld w 0 8)) else
  if op = 0x5A then checked w 0x0000FF (.vclz (fld w 16 8) (fld w 8 8)) else
  if op = 0x5B then checked w 0x0000FF (.vpopc (fld w 16 8) (fld w 8 8)) else
  if op = 0x5C then checked w 0x0000FF (.vfloor (fld w 16 8) (fld w 8 8)) else
  if op = 0x5D then checked w 0x0000FF (.vceil (fld w 16 8) (fld w 8 8)) else
  if op = 0x5E then checked w 0x0000FF (.vround (fld w 16 8) (fld w 8 8)) else
  if op = 0x5F then checked w 0x0000FF (.vtrunc (fld w 16 8) (fld w 8 8)) else
  .unassigned

/-- Row 0x6 of the opcode map (R142). -/
def decodeRow6 (w : W32) : Decoded :=
  let op := opcodeOf w
  if op = 0x60 then checked w 0x000000 (.vbcast (fld w 16 8) (fld w 8 8) (fld w 0 8)) else
  if op = 0x61 then checked w 0x000000 (.vperm (fld w 16 8) (fld w 8 8) (fld w 0 8)) else
  if op = 0x62 then checked w 0x000000 (.vlrot (fld w 16 8) (fld w 8 8) (fld w 0 8)) else
  if op = 0x63 then checked w 0x0000FF (.vscan (fld w 16 8) (fld w 8 8)) else
  if op = 0x64 then checked w 0x0000FF (.vradd (fld w 16 8) (fld w 8 8)) else
  if op = 0x65 then checked w 0x0000FF (.vrmin (fld w 16 8) (fld w 8 8)) else
  if op = 0x66 then checked w 0x0000FF (.vrmax (fld w 16 8) (fld w 8 8)) else
  if op = 0x67 then checked w 0x000000 (.vmovs (fld w 16 8) (fld w 8 8) (fld w 0 8)) else
  if op = 0x68 then checked w 0x000000 (.vins (fld w 16 8) (fld w 8 8) (fld w 0 8)) else
  if op = 0x69 then checked w 0x000000 (.vcsign (fld w 16 8) (fld w 8 8) (fld w 0 8)) else
  .unassigned

/-- Row 0x7 of the opcode map (R142). -/
def decodeRow7 (w : W32) : Decoded :=
  let op := opcodeOf w
  if op = 0x70 then checked w 0xF80000 (.vceq (fld w 16 3) (fld w 8 8) (fld w 0 8)) else
  if op = 0x71 then checked w 0xF80000 (.vcne (fld w 16 3) (fld w 8 8) (fld w 0 8)) else
  if op = 0x72 then checked w 0xF80000 (.vclt (fld w 16 3) (fld w 8 8) (fld w 0 8)) else
  if op = 0x73 then checked w 0xF80000 (.vcle (fld w 16 3) (fld w 8 8) (fld w 0 8)) else
  if op = 0x74 then checked w 0xF80000 (.vcgt (fld w 16 3) (fld w 8 8) (fld w 0 8)) else
  if op = 0x75 then checked w 0xF80000 (.vcge (fld w 16 3) (fld w 8 8) (fld w 0 8)) else
  if op = 0x76 then checked w 0xF80000 (.vcuno (fld w 16 3) (fld w 8 8) (fld w 0 8)) else
  if op = 0x77 then checked w 0xF8F0F0 (.pand (fld w 16 3) (fld w 11 1) (fld w 8 3) (fld w 3 1) (fld w 0 3)) else
  if op = 0x78 then checked w 0xF8F0F0 (.por (fld w 16 3) (fld w 11 1) (fld w 8 3) (fld w 3 1) (fld w 0 3)) else
  if op = 0x79 then checked w 0xF8F0F0 (.pxor (fld w 16 3) (fld w 11 1) (fld w 8 3) (fld w 3 1) (fld w 0 3)) else
  if op = 0x7A then checked w 0xF8F0FF (.pnot (fld w 16 3) (fld w 11 1) (fld w 8 3)) else
  if op = 0x7B then checked w 0xFFF0FF (.vif (fld w 11 1) (fld w 8 3)) else
  if op = 0x7C then checked w 0xFFFFFF .velse else
  if op = 0x7D then checked w 0xFFFFFF .vendif else
  if op = 0x7E then checked w 0x00F0FF (.vany (fld w 16 8) (fld w 11 1) (fld w 8 3)) else
  if op = 0x7F then checked w 0x00F0FF (.vall (fld w 16 8) (fld w 11 1) (fld w 8 3)) else
  .unassigned

/-- Row 0x8 of the opcode map (R142). -/
def decodeRow8 (w : W32) : Decoded :=
  let op := opcodeOf w
  if op = 0x80 then checked w 0x0000FF (.cvtif (fld w 16 8) (fld w 8 8)) else
  if op = 0x81 then checked w 0x0000FF (.cvtfi (fld w 16 8) (fld w 8 8)) else
  if op = 0x82 then checked w 0x0000F0 (.cvtnf (fld w 16 8) (fld w 8 8) (fld w 0 4)) else
  if op = 0x83 then checked w 0x0000F0 (.cvtfn (fld w 16 8) (fld w 8 8) (fld w 0 4)) else
  if op = 0x84 then checked w 0x000000 (.cvtfh (fld w 16 8) (fld w 8 8) (fld w 0 8)) else
  if op = 0x85 then checked w 0x0000FE (.cvthf (fld w 16 8) (fld w 8 8) (fld w 0 1)) else
  if op = 0x86 then checked w 0x000000 (.cvtfb (fld w 16 8) (fld w 8 8) (fld w 0 8)) else
  if op = 0x87 then checked w 0x0000FE (.cvtbf (fld w 16 8) (fld w 8 8) (fld w 0 1)) else
  if op = 0x88 then checked w 0x000000 (.pack16 (fld w 16 8) (fld w 8 8) (fld w 0 8)) else
  if op = 0x89 then checked w 0x0000FE (.unpk16 (fld w 16 8) (fld w 8 8) (fld w 0 1)) else
  if op = 0x8A then checked w 0x000000 (.pack8 (fld w 16 8) (fld w 8 8) (fld w 0 8)) else
  if op = 0x8B then checked w 0x0000FE (.unpk8 (fld w 16 8) (fld w 8 8) (fld w 0 1)) else
  if op = 0x8C then checked w 0x000000 (.cvtn8 (fld w 16 8) (fld w 8 8) (fld w 0 8)) else
  if op = 0x8D then checked w 0x000000 (.cvtn6 (fld w 16 8) (fld w 8 8) (fld w 0 8)) else
  if op = 0x8E then checked w 0x000000 (.cvtn4 (fld w 16 8) (fld w 8 8) (fld w 0 8)) else
  if op = 0x8F then checked w 0x0000F0 (.cvtnx (fld w 16 8) (fld w 8 8) (fld w 0 4)) else
  .unassigned

/-- Row 0x9 of the opcode map (R142). -/
def decodeRow9 (w : W32) : Decoded :=
  let op := opcodeOf w
  if op = 0x90 then checked w 0x000000 (.vld8 (fld w 16 8) (fld w 11 5) (fld w 8 3) (fld w 6 2) (fld w 0 6)) else
  if op = 0x91 then checked w 0x000000 (.vld16 (fld w 16 8) (fld w 11 5) (fld w 8 3) (fld w 6 2) (fld w 0 6)) else
  if op = 0x92 then checked w 0x000000 (.vld32 (fld w 16 8) (fld w 11 5) (fld w 8 3) (fld w 6 2) (fld w 0 6)) else
  if op = 0x93 then checked w 0x000000 (.vst8 (fld w 16 8) (fld w 11 5) (fld w 8 3) (fld w 6 2) (fld w 0 6)) else
  if op = 0x94 then checked w 0x000000 (.vst16 (fld w 16 8) (fld w 11 5) (fld w 8 3) (fld w 6 2) (fld w 0 6)) else
  if op = 0x95 then checked w 0x000000 (.vst32 (fld w 16 8) (fld w 11 5) (fld w 8 3) (fld w 6 2) (fld w 0 6)) else
  if op = 0x96 then checked w 0xFF0000 (.vpref (fld w 11 5) (fld w 8 3) (fld w 6 2) (fld w 0 6)) else
  .unassigned

/-- Row 0xA of the opcode map (R142). -/
def decodeRowA (w : W32) : Decoded :=
  let op := opcodeOf w
  if op = 0xA0 then checked w 0x000000 (.atadd (fld w 16 8) (fld w 11 5) (fld w 8 3) (fld w 6 2) (fld w 0 6)) else
  if op = 0xA1 then checked w 0x000000 (.atmin (fld w 16 8) (fld w 11 5) (fld w 8 3) (fld w 6 2) (fld w 0 6)) else
  if op = 0xA2 then checked w 0x000000 (.atmax (fld w 16 8) (fld w 11 5) (fld w 8 3) (fld w 6 2) (fld w 0 6)) else
  if op = 0xA3 then checked w 0x000000 (.atand (fld w 16 8) (fld w 11 5) (fld w 8 3) (fld w 6 2) (fld w 0 6)) else
  if op = 0xA4 then checked w 0x000000 (.ator (fld w 16 8) (fld w 11 5) (fld w 8 3) (fld w 6 2) (fld w 0 6)) else
  if op = 0xA5 then checked w 0x000000 (.atxor (fld w 16 8) (fld w 11 5) (fld w 8 3) (fld w 6 2) (fld w 0 6)) else
  if op = 0xA6 then checked w 0x000000 (.atxchg (fld w 16 8) (fld w 11 5) (fld w 8 3) (fld w 6 2) (fld w 0 6)) else
  if op = 0xA7 then checked w 0x000000 (.atcas (fld w 16 8) (fld w 11 5) (fld w 8 3) (fld w 6 2) (fld w 0 6)) else
  if op = 0xA8 then checked w 0x000000 (.vatadd (fld w 16 8) (fld w 11 5) (fld w 8 3) (fld w 6 2) (fld w 0 6)) else
  if op = 0xA9 then checked w 0x000000 (.vatmin (fld w 16 8) (fld w 11 5) (fld w 8 3) (fld w 6 2) (fld w 0 6)) else
  if op = 0xAA then checked w 0x000000 (.vatmax (fld w 16 8) (fld w 11 5) (fld w 8 3) (fld w 6 2) (fld w 0 6)) else
  if op = 0xAB then checked w 0x000000 (.vatxchg (fld w 16 8) (fld w 11 5) (fld w 8 3) (fld w 6 2) (fld w 0 6)) else
  if op = 0xAC then checked w 0xFF00F8 (.fence (fld w 8 8) (fld w 0 3)) else
  if op = 0xAD then checked w 0x000000 (.vatand (fld w 16 8) (fld w 11 5) (fld w 8 3) (fld w 6 2) (fld w 0 6)) else
  if op = 0xAE then checked w 0x000000 (.vator (fld w 16 8) (fld w 11 5) (fld w 8 3) (fld w 6 2) (fld w 0 6)) else
  .unassigned

/-- Row 0xB of the opcode map (R142). -/
def decodeRowB (w : W32) : Decoded :=
  let op := opcodeOf w
  if op = 0xB0 then checked w 0x000000 (.cst (fld w 20 4) (fld w 16 4) (fld w 8 8) (fld w 0 8)) else
  if op = 0xB1 then checked w 0x000000 (.catom (fld w 20 4) (fld w 16 4) (fld w 8 8) (fld w 0 8)) else
  if op = 0xB2 then checked w 0x0F0000 (.ccopy (fld w 20 4) (fld w 8 8) (fld w 0 8)) else
  if op = 0xB3 then checked w 0x00FFFF (.cjoin (fld w 20 4) (fld w 16 4)) else
  if op = 0xB4 then checked w 0x0FFFFF (.cdrain (fld w 20 4)) else
  .unassigned

/-- Row 0xC of the opcode map (R142). -/
def decodeRowC (w : W32) : Decoded :=
  let op := opcodeOf w
  if op = 0xC0 then checked w 0x008080 (.mma (fld w 22 2) (fld w 20 2) (fld w 18 2) (fld w 16 2) (fld w 8 7) (fld w 0 7)) else
  if op = 0xC1 then checked w 0x3FFFFF (.mzero (fld w 22 2)) else
  if op = 0xC2 then checked w 0x0080F8 (.mxread (fld w 22 2) (fld w 21 1) (fld w 17 4) (fld w 16 1) (fld w 8 7) (fld w 0 3)) else
  if op = 0xC3 then checked w 0x03FFFF (.mstore (fld w 22 2) (fld w 20 2) (fld w 18 2)) else
  if op = 0xC4 then checked w 0xFFFFFF .mfence else
  if op = 0xC5 then checked w 0xFFF0FF (.mbarwait (fld w 8 4)) else
  if op = 0xC6 then checked w 0xFFF0FF (.mbararr (fld w 8 4)) else
  if op = 0xC7 then checked w 0x3F0000 (.mfmt (fld w 22 2) (fld w 0 16)) else
  if op = 0xC8 then checked w 0x3F0000 (.mmap (fld w 22 2) (fld w 0 16)) else
  if op = 0xC9 then checked w 0xFF0000 (.mbra (fld w 0 16)) else
  if op = 0xCA then checked w 0x3F0000 (.mloop (fld w 22 2) (fld w 8 8) (fld w 0 8)) else
  if op = 0xCB then checked w 0xFFFFFF .mend else
  .unassigned

/-- Row 0xD of the opcode map (R142). -/
def decodeRowD (w : W32) : Decoded :=
  let op := opcodeOf w
  if op = 0xD0 then checked w (if w.getLsbD 18 then 0xF80000 else 0xF800FF) (.nacc (fld w 18 1) (fld w 16 2) (fld w 8 8) (fld w 0 8)) else
  if op = 0xD1 then checked w 0x0000F8 (.neval (fld w 16 8) (fld w 8 8) (fld w 2 1) (fld w 0 2)) else
  if op = 0xD2 then checked w 0x00FCFF (.nrescale (fld w 16 8) (fld w 8 2)) else
  if op = 0xD3 then checked w 0xFC80FF (.nmerge (fld w 16 2) (fld w 8 7)) else
  if op = 0xD4 then checked w 0x0088FF (.nfin (fld w 16 8) (fld w 12 3) (fld w 10 1) (fld w 8 2)) else
  if op = 0xD5 then checked w 0xF0FFFF (.nclear (fld w 16 4)) else
  if op = 0xD6 then checked w 0x80FCFF (.nsave (fld w 16 7) (fld w 8 2)) else
  if op = 0xD7 then checked w 0xFC80FF (.nload (fld w 16 2) (fld w 8 7)) else
  if op = 0xD8 then checked w 0x008000 (.ntable (fld w 16 8) (fld w 8 7) (fld w 0 8)) else
  if op = 0xD9 then checked w 0xFCFFFF (.nselect (fld w 16 2)) else
  .unassigned

/-- Row 0xE of the opcode map (R142). -/
def decodeRowE (w : W32) : Decoded :=
  let op := opcodeOf w
  if op = 0xE0 then checked w 0x000000 (.copy (fld w 16 8) (fld w 8 8) (fld w 0 8)) else
  if op = 0xE1 then checked w 0x000000 (.fgraph (fld w 16 8) (fld w 8 8) (fld w 0 8)) else
  if op = 0xE2 then checked w 0x000000 (.waita (fld w 16 8) (fld w 8 8) (fld w 0 8)) else
  if op = 0xE3 then checked w 0xFF00FF (.lwake (fld w 8 8)) else
  if op = 0xE4 then checked w 0xFF0000 (.mhint (fld w 8 8) (fld w 0 8)) else
  if op = 0xE5 then checked w 0xFF00FF (.mwait (fld w 8 8)) else
  .unassigned

/-- Row 0xF of the opcode map (R142). -/
def decodeRowF (w : W32) : Decoded :=
  let op := opcodeOf w
  if op = 0xF0 then checked w 0xFF00FF (.trap (fld w 8 8)) else
  if op = 0xF1 then checked w 0xFF00FF (.tret (fld w 8 8)) else
  if op = 0xF2 then checked w 0xFF00FF (.brk (fld w 8 8)) else
  if op = 0xF3 then checked w 0xFFFFFF .nop else
  if op = 0xF4 then checked w 0xFFFFFF .exit else
  if op = 0xF5 then checked w 0x0000FF (.faultrd (fld w 16 8) (fld w 8 8)) else
  .unassigned

/-- Decode a word by its opcode's row (R142, R143). -/
def decode (w : W32) : Decoded :=
  let row := fld w 28 4
  if row = 0x0 then decodeRow0 w else
  if row = 0x1 then decodeRow1 w else
  if row = 0x2 then decodeRow2 w else
  if row = 0x3 then decodeRow3 w else
  if row = 0x4 then decodeRow4 w else
  if row = 0x5 then decodeRow5 w else
  if row = 0x6 then decodeRow6 w else
  if row = 0x7 then decodeRow7 w else
  if row = 0x8 then decodeRow8 w else
  if row = 0x9 then decodeRow9 w else
  if row = 0xA then decodeRowA w else
  if row = 0xB then decodeRowB w else
  if row = 0xC then decodeRowC w else
  if row = 0xD then decodeRowD w else
  if row = 0xE then decodeRowE w else
  if row = 0xF then decodeRowF w else
  .unassigned

/-- The word of an encoded instruction; `none` for the steps that have no encoding. -/
def encode : Instr → Option W32
  | .add d a b => some (0x01#8 ++ d ++ a ++ b)
  | .sub d a b => some (0x02#8 ++ d ++ a ++ b)
  | .mul d a b => some (0x03#8 ++ d ++ a ++ b)
  | .mulhi d a b => some (0x04#8 ++ d ++ a ++ b)
  | .div d a b => some (0x05#8 ++ d ++ a ++ b)
  | .and d a b => some (0x06#8 ++ d ++ a ++ b)
  | .or d a b => some (0x07#8 ++ d ++ a ++ b)
  | .xor d a b => some (0x08#8 ++ d ++ a ++ b)
  | .shl d a b => some (0x09#8 ++ d ++ a ++ b)
  | .shr d a b => some (0x0A#8 ++ d ++ a ++ b)
  | .shra d a b => some (0x0B#8 ++ d ++ a ++ b)
  | .slt d a b => some (0x0C#8 ++ d ++ a ++ b)
  | .sel d a b => some (0x0D#8 ++ d ++ a ++ b)
  | .setlo d i => some (0x0E#8 ++ d ++ i)
  | .sethi d i => some (0x0F#8 ++ d ++ i)
  | .bra o => some (0x10#8 ++ 0#8 ++ o)
  | .bz a o => some (0x11#8 ++ a ++ o)
  | .bnz a o => some (0x12#8 ++ a ++ o)
  | .blt a o => some (0x13#8 ++ a ++ o)
  | .bge a o => some (0x14#8 ++ a ++ o)
  | .call a o => some (0x15#8 ++ a ++ o)
  | .callx a => some (0x16#8 ++ a ++ 0#16)
  | .ret a => some (0x17#8 ++ a ++ 0#16)
  | .jmpx a => some (0x18#8 ++ a ++ 0#16)
  | .loop a o => some (0x19#8 ++ a ++ o)
  | .sld8 d p s o b => some (0x20#8 ++ d ++ p ++ s ++ o ++ b)
  | .sld16 d p s o b => some (0x21#8 ++ d ++ p ++ s ++ o ++ b)
  | .sld32 d p s o b => some (0x22#8 ++ d ++ p ++ s ++ o ++ b)
  | .sld64 d p s o b => some (0x23#8 ++ d ++ p ++ s ++ o ++ b)
  | .sst8 d p s o b => some (0x24#8 ++ d ++ p ++ s ++ o ++ b)
  | .sst16 d p s o b => some (0x25#8 ++ d ++ p ++ s ++ o ++ b)
  | .sst32 d p s o b => some (0x26#8 ++ d ++ p ++ s ++ o ++ b)
  | .sst64 d p s o b => some (0x27#8 ++ d ++ p ++ s ++ o ++ b)
  | .sread d y => some (0x28#8 ++ d ++ y ++ 0#8)
  | .swrite y b => some (0x29#8 ++ 0#8 ++ y ++ b)
  | .icinv a b => some (0x2A#8 ++ 0#8 ++ a ++ b)
  | .mode i => some (0x30#8 ++ i)
  | .moderd d => some (0x31#8 ++ d ++ 0#16)
  | .shape a => some (0x32#8 ++ 0#8 ++ a ++ 0#8)
  | .shaperd d => some (0x33#8 ++ d ++ 0#16)
  | .bararr n => some (0x34#8 ++ 0#12 ++ n ++ 0#8)
  | .barwait n => some (0x35#8 ++ 0#12 ++ n ++ 0#8)
  | .barsync n => some (0x36#8 ++ 0#12 ++ n ++ 0#8)
  | .rquota d n b => some (0x37#8 ++ d ++ 0#4 ++ n ++ b)
  | .step => some (0x38#8 ++ 0#24)
  | .vadd d a b => some (0x40#8 ++ d ++ a ++ b)
  | .vsub d a b => some (0x41#8 ++ d ++ a ++ b)
  | .vmul d a b => some (0x42#8 ++ d ++ a ++ b)
  | .vfma d a b => some (0x43#8 ++ d ++ a ++ b)
  | .vfms d a b => some (0x44#8 ++ d ++ a ++ b)
  | .vfnma d a b => some (0x45#8 ++ d ++ a ++ b)
  | .vmin d a b => some (0x46#8 ++ d ++ a ++ b)
  | .vmax d a b => some (0x47#8 ++ d ++ a ++ b)
  | .vabs d a => some (0x48#8 ++ d ++ a ++ 0#8)
  | .vneg d a => some (0x49#8 ++ d ++ a ++ 0#8)
  | .vdiv d a b => some (0x4A#8 ++ d ++ a ++ b)
  | .vsqrt d a => some (0x4B#8 ++ d ++ a ++ 0#8)
  | .vrcp d a => some (0x4C#8 ++ d ++ a ++ 0#8)
  | .vrsq d a => some (0x4D#8 ++ d ++ a ++ 0#8)
  | .vexp2 d a => some (0x4E#8 ++ d ++ a ++ 0#8)
  | .vlog2 d a => some (0x4F#8 ++ d ++ a ++ 0#8)
  | .vand d a b => some (0x50#8 ++ d ++ a ++ b)
  | .vor d a b => some (0x51#8 ++ d ++ a ++ b)
  | .vxor d a b => some (0x52#8 ++ d ++ a ++ b)
  | .vnot d a => some (0x53#8 ++ d ++ a ++ 0#8)
  | .vshl d a b => some (0x54#8 ++ d ++ a ++ b)
  | .vshr d a b => some (0x55#8 ++ d ++ a ++ b)
  | .vshra d a b => some (0x56#8 ++ d ++ a ++ b)
  | .vrot d a b => some (0x57#8 ++ d ++ a ++ b)
  | .vmulhi d a b => some (0x58#8 ++ d ++ a ++ b)
  | .vsel d a b => some (0x59#8 ++ d ++ a ++ b)
  | .vclz d a => some (0x5A#8 ++ d ++ a ++ 0#8)
  | .vpopc d a => some (0x5B#8 ++ d ++ a ++ 0#8)
  | .vfloor d a => some (0x5C#8 ++ d ++ a ++ 0#8)
  | .vceil d a => some (0x5D#8 ++ d ++ a ++ 0#8)
  | .vround d a => some (0x5E#8 ++ d ++ a ++ 0#8)
  | .vtrunc d a => some (0x5F#8 ++ d ++ a ++ 0#8)
  | .vbcast d a b => some (0x60#8 ++ d ++ a ++ b)
  | .vperm d a b => some (0x61#8 ++ d ++ a ++ b)
  | .vlrot d a b => some (0x62#8 ++ d ++ a ++ b)
  | .vscan d a => some (0x63#8 ++ d ++ a ++ 0#8)
  | .vradd d a => some (0x64#8 ++ d ++ a ++ 0#8)
  | .vrmin d a => some (0x65#8 ++ d ++ a ++ 0#8)
  | .vrmax d a => some (0x66#8 ++ d ++ a ++ 0#8)
  | .vmovs d a b => some (0x67#8 ++ d ++ a ++ b)
  | .vins d a b => some (0x68#8 ++ d ++ a ++ b)
  | .vcsign d a b => some (0x69#8 ++ d ++ a ++ b)
  | .vceq q a b => some (0x70#8 ++ 0#5 ++ q ++ a ++ b)
  | .vcne q a b => some (0x71#8 ++ 0#5 ++ q ++ a ++ b)
  | .vclt q a b => some (0x72#8 ++ 0#5 ++ q ++ a ++ b)
  | .vcle q a b => some (0x73#8 ++ 0#5 ++ q ++ a ++ b)
  | .vcgt q a b => some (0x74#8 ++ 0#5 ++ q ++ a ++ b)
  | .vcge q a b => some (0x75#8 ++ 0#5 ++ q ++ a ++ b)
  | .vcuno q a b => some (0x76#8 ++ 0#5 ++ q ++ a ++ b)
  | .pand d x a y b => some (0x77#8 ++ 0#5 ++ d ++ 0#4 ++ x ++ a ++ 0#4 ++ y ++ b)
  | .por d x a y b => some (0x78#8 ++ 0#5 ++ d ++ 0#4 ++ x ++ a ++ 0#4 ++ y ++ b)
  | .pxor d x a y b => some (0x79#8 ++ 0#5 ++ d ++ 0#4 ++ x ++ a ++ 0#4 ++ y ++ b)
  | .pnot d x a => some (0x7A#8 ++ 0#5 ++ d ++ 0#4 ++ x ++ a ++ 0#8)
  | .vif x a => some (0x7B#8 ++ 0#12 ++ x ++ a ++ 0#8)
  | .velse => some (0x7C#8 ++ 0#24)
  | .vendif => some (0x7D#8 ++ 0#24)
  | .vany d x a => some (0x7E#8 ++ d ++ 0#4 ++ x ++ a ++ 0#8)
  | .vall d x a => some (0x7F#8 ++ d ++ 0#4 ++ x ++ a ++ 0#8)
  | .cvtif d a => some (0x80#8 ++ d ++ a ++ 0#8)
  | .cvtfi d a => some (0x81#8 ++ d ++ a ++ 0#8)
  | .cvtnf d a f => some (0x82#8 ++ d ++ a ++ 0#4 ++ f)
  | .cvtfn d a f => some (0x83#8 ++ d ++ a ++ 0#4 ++ f)
  | .cvtfh d a b => some (0x84#8 ++ d ++ a ++ b)
  | .cvthf d a s => some (0x85#8 ++ d ++ a ++ 0#7 ++ s)
  | .cvtfb d a b => some (0x86#8 ++ d ++ a ++ b)
  | .cvtbf d a s => some (0x87#8 ++ d ++ a ++ 0#7 ++ s)
  | .pack16 d a b => some (0x88#8 ++ d ++ a ++ b)
  | .unpk16 d a s => some (0x89#8 ++ d ++ a ++ 0#7 ++ s)
  | .pack8 d a b => some (0x8A#8 ++ d ++ a ++ b)
  | .unpk8 d a s => some (0x8B#8 ++ d ++ a ++ 0#7 ++ s)
  | .cvtn8 d a b => some (0x8C#8 ++ d ++ a ++ b)
  | .cvtn6 d a b => some (0x8D#8 ++ d ++ a ++ b)
  | .cvtn4 d a b => some (0x8E#8 ++ d ++ a ++ b)
  | .cvtnx d a f => some (0x8F#8 ++ d ++ a ++ 0#4 ++ f)
  | .vld8 d p s o b => some (0x90#8 ++ d ++ p ++ s ++ o ++ b)
  | .vld16 d p s o b => some (0x91#8 ++ d ++ p ++ s ++ o ++ b)
  | .vld32 d p s o b => some (0x92#8 ++ d ++ p ++ s ++ o ++ b)
  | .vst8 d p s o b => some (0x93#8 ++ d ++ p ++ s ++ o ++ b)
  | .vst16 d p s o b => some (0x94#8 ++ d ++ p ++ s ++ o ++ b)
  | .vst32 d p s o b => some (0x95#8 ++ d ++ p ++ s ++ o ++ b)
  | .vpref p s o b => some (0x96#8 ++ 0#8 ++ p ++ s ++ o ++ b)
  | .atadd d p s o b => some (0xA0#8 ++ d ++ p ++ s ++ o ++ b)
  | .atmin d p s o b => some (0xA1#8 ++ d ++ p ++ s ++ o ++ b)
  | .atmax d p s o b => some (0xA2#8 ++ d ++ p ++ s ++ o ++ b)
  | .atand d p s o b => some (0xA3#8 ++ d ++ p ++ s ++ o ++ b)
  | .ator d p s o b => some (0xA4#8 ++ d ++ p ++ s ++ o ++ b)
  | .atxor d p s o b => some (0xA5#8 ++ d ++ p ++ s ++ o ++ b)
  | .atxchg d p s o b => some (0xA6#8 ++ d ++ p ++ s ++ o ++ b)
  | .atcas d p s o b => some (0xA7#8 ++ d ++ p ++ s ++ o ++ b)
  | .vatadd d p s o b => some (0xA8#8 ++ d ++ p ++ s ++ o ++ b)
  | .vatmin d p s o b => some (0xA9#8 ++ d ++ p ++ s ++ o ++ b)
  | .vatmax d p s o b => some (0xAA#8 ++ d ++ p ++ s ++ o ++ b)
  | .vatxchg d p s o b => some (0xAB#8 ++ d ++ p ++ s ++ o ++ b)
  | .fence m s => some (0xAC#8 ++ 0#8 ++ m ++ 0#5 ++ s)
  | .vatand d p s o b => some (0xAD#8 ++ d ++ p ++ s ++ o ++ b)
  | .vator d p s o b => some (0xAE#8 ++ d ++ p ++ s ++ o ++ b)
  | .cst c x a b => some (0xB0#8 ++ c ++ x ++ a ++ b)
  | .catom c x a b => some (0xB1#8 ++ c ++ x ++ a ++ b)
  | .ccopy c a b => some (0xB2#8 ++ c ++ 0#4 ++ a ++ b)
  | .cjoin c x => some (0xB3#8 ++ c ++ x ++ 0#16)
  | .cdrain c => some (0xB4#8 ++ c ++ 0#20)
  | .mma t f m h v p => some (0xC0#8 ++ t ++ f ++ m ++ h ++ 0#1 ++ v ++ 0#1 ++ p)
  | .mzero t => some (0xC1#8 ++ t ++ 0#22)
  | .mxread t o g h v s => some (0xC2#8 ++ t ++ o ++ g ++ h ++ 0#1 ++ v ++ 0#5 ++ s)
  | .mstore t m f => some (0xC3#8 ++ t ++ m ++ f ++ 0#18)
  | .mfence => some (0xC4#8 ++ 0#24)
  | .mbarwait n => some (0xC5#8 ++ 0#12 ++ n ++ 0#8)
  | .mbararr n => some (0xC6#8 ++ 0#12 ++ n ++ 0#8)
  | .mfmt n i => some (0xC7#8 ++ n ++ 0#6 ++ i)
  | .mmap n i => some (0xC8#8 ++ n ++ 0#6 ++ i)
  | .mbra o => some (0xC9#8 ++ 0#8 ++ o)
  | .mloop l o i => some (0xCA#8 ++ l ++ 0#6 ++ o ++ i)
  | .mend => some (0xCB#8 ++ 0#24)
  | .nacc k n a b => some (0xD0#8 ++ 0#5 ++ k ++ n ++ a ++ b)
  | .neval d a k n => some (0xD1#8 ++ d ++ a ++ 0#5 ++ k ++ n)
  | .nrescale d n => some (0xD2#8 ++ d ++ 0#6 ++ n ++ 0#8)
  | .nmerge n v => some (0xD3#8 ++ 0#6 ++ n ++ 0#1 ++ v ++ 0#8)
  | .nfin d p t n => some (0xD4#8 ++ d ++ 0#1 ++ p ++ 0#1 ++ t ++ n ++ 0#8)
  | .nclear m => some (0xD5#8 ++ 0#4 ++ m ++ 0#16)
  | .nsave v n => some (0xD6#8 ++ 0#1 ++ v ++ 0#6 ++ n ++ 0#8)
  | .nload n v => some (0xD7#8 ++ 0#6 ++ n ++ 0#1 ++ v ++ 0#8)
  | .ntable d v b => some (0xD8#8 ++ d ++ 0#1 ++ v ++ b)
  | .nselect f => some (0xD9#8 ++ 0#6 ++ f ++ 0#16)
  | .copy d a b => some (0xE0#8 ++ d ++ a ++ b)
  | .fgraph d a b => some (0xE1#8 ++ d ++ a ++ b)
  | .waita d a b => some (0xE2#8 ++ d ++ a ++ b)
  | .lwake a => some (0xE3#8 ++ 0#8 ++ a ++ 0#8)
  | .mhint a b => some (0xE4#8 ++ 0#8 ++ a ++ b)
  | .mwait a => some (0xE5#8 ++ 0#8 ++ a ++ 0#8)
  | .trap a => some (0xF0#8 ++ 0#8 ++ a ++ 0#8)
  | .tret a => some (0xF1#8 ++ 0#8 ++ a ++ 0#8)
  | .brk t => some (0xF2#8 ++ 0#8 ++ t ++ 0#8)
  | .nop => some (0xF3#8 ++ 0#24)
  | .exit => some (0xF4#8 ++ 0#24)
  | .faultrd d i => some (0xF5#8 ++ d ++ i ++ 0#8)
  | _ => none

/-- The word of the four bytes at rising addresses (R125: little-endian). -/
def wordOfBytes (b0 b1 b2 b3 : Byte) : W32 := b3 ++ b2 ++ b1 ++ b0

/-- Decode bytes: a word and the bytes after it; `none` when fewer than four bytes are left. -/
def decodeBytes : List Byte → Option (Decoded × List Byte)
  | b0 :: b1 :: b2 :: b3 :: rest => some (decode (wordOfBytes b0 b1 b2 b3), rest)
  | _ => none

/-- The four bytes of a word, lowest address first (R125). -/
def bytesOfWord (w : W32) : List Byte := [fld w 0 8, fld w 8 8, fld w 16 8, fld w 24 8]

/-- The instruction the decoder reads from an instruction whose bits are `w`, laid out as the hardware stores it. -/
def decodeTableWord (nbits w : Nat) : Option Instr :=
  match decodeBytes (bytesOfWord (BitVec.ofNat 32 (w % 2 ^ nbits))) with
  | some (.ok i, _) => some i
  | _ => none

end Sys2Proof
end

