-- ==== Sys2Proof/Machine/State.lean ====
section
/-! DEFINITION. The state of the Maravo X9 module as plain data: every piece of state the spec names (INVENTORY.md
lists each with its rule), and the module right after reset. -/

namespace Sys2Proof.Machine

/-- The machine stops. Its one constructor is a stop for an address the spec says does not exist. -/
inductive Fault where
  /-- Raised by any access whose translated physical address is one that spec 03 R76 calls reserved, or lies in
  the window area no data access of a program reaches. Safe: the model stops where the spec gives no effect. -/
  | reservedPhysicalAddress (pa : Nat)
  deriving DecidableEq, Repr

/-- The model gives no meaning. -/
inductive Refusal where
  /-- Answered only by an arm of Dispatch.lean that has no meaning yet. Safe: nothing is claimed of it. -/
  | notModelled (mnemonic : String)
  deriving DecidableEq, Repr

/-- A byte store: (address, byte) pairs, addresses strictly rising, no entry equal to 0, which is what an unlisted
address reads as (assumption 2). -/
abbrev Memory := List Host.Cell

/-- The canonical form of a byte store. -/
def Memory.wf : Memory → Bool
  | [] => true
  | [(_, v)] => v != 0
  | (a, v) :: (b, w) :: m => v != 0 && decide (a < b) && Memory.wf ((b, w) :: m)

/-- A register or queue entry: its value and its full/empty bit (spec 06 R134). `pend = none` is full; `pend = some i`
is empty, to be filled by the producer numbered `i` (spec 06 R135). -/
structure Slot (α : Type) where
  val : α
  pend : Option Nat
  deriving DecidableEq, Repr

abbrev SSlot := Slot W64
abbrev VSlot := Slot Lanes

/-- A fault record (spec 13 R267): the fields of its eight 64-bit words. -/
structure FaultRecord where
  code : BitVec 8
  done : Bool
  spliced : Bool
  patched : Bool
  double : Bool
  pslot : BitVec 4
  sub : BitVec 8
  pc : W64
  addr : W64
  info : W64
  maskLo : W64
  maskHi : W64
  origin : W64
  vstamp : W64
  deriving DecidableEq, Repr

/-- The all-zero record of launch (spec 13 R267). -/
def FaultRecord.zero : FaultRecord :=
  ⟨0, false, false, false, false, 0, 0, 0, 0, 0, 0, 0, 0, 0⟩

/-- A Nectar state in every lane (spec 11 R226). -/
structure NState where
  x : Lanes
  s : Lanes
  n : Lanes
  m : Lanes
  deriving DecidableEq, Repr

/-- The cleared state (EMPTY, +0, +0, EMPTY) (spec 11 R226). -/
def NState.cleared : NState :=
  ⟨List.replicate numLanes 0x80000000, Lanes.zero, Lanes.zero, List.replicate numLanes 0x80000000⟩

/-- A user pair of tables (spec 11 R234, R235): 64 segments of four FP32 coefficients each, and the domains. -/
structure UserPair where
  entry : List W32
  exit : List W32
  dlo : W32
  dhi : W32
  elo : W32
  ehi : W32
  deriving DecidableEq, Repr

/-- A team: the serial number of its launch and its linear index in the grid (spec 01 R10). -/
structure TeamId where
  launch : Nat
  index : Nat
  deriving DecidableEq, Repr

/-- A group of a team. -/
structure GroupId where
  team : TeamId
  group : Nat
  deriving DecidableEq, Repr

/-- Why a group does not issue (spec 01 R34, R38; 03 R80; 07 R159, R161; 13 R265, R269, R272). -/
inductive RunState where
  /-- May issue; an instruction that is held is looked at again at its next turn. -/
  | running
  /-- Held in WAIT on a team barrier (spec 07 R159). -/
  | barWait (bar : Nat)
  /-- Held after a STEP by a stop request (spec 07 R161). -/
  | stepHeld
  /-- Parked by WAITA; the flag's address, the value it waits for, and GTIME when it parked (spec 12 R260). -/
  | parked (flag threshold : W64) (since : Nat)
  /-- Stopped at a page fault until the driver answers (spec 03 R80). -/
  | pageWait
  /-- Held while the micro-engine runs a patch handler for Propolis slot `slot` (spec 25 R377). -/
  | patchWait (slot : Nat)
  /-- Has executed EXIT (spec 13 R269). -/
  | ended
  /-- Stopped by DELIVER (spec 13 R265). -/
  | stopped
  /-- Stopped for the debugger (spec 13 R272). -/
  | debugStopped
  deriving DecidableEq, Repr

/-- How the group's last turn ended: what its next instruction waits for decides whether the group is ready and whether
its core exchanges it (spec 01 R34, R35). -/
inductive Stall where
  /-- Its last instruction issued. -/
  | issued
  /-- Held for something that spec 01 R34 does not list: the group counts as ready. -/
  | waits
  /-- It has taken a trap, and its next instruction has not been looked at: the group counts as ready. -/
  | trapped
  /-- Held on empty operands, to be filled by these producers. -/
  | operands (producers : List Nat)
  /-- Held at a team barrier, or as at one: in a drain or for a stream table entry (spec 05 R114, R120). -/
  | barrier
  /-- Held in MWAIT (spec 10 R223). -/
  | mwait
  deriving DecidableEq, Repr

/-- What an instruction that was held has already done, so that it resumes its wait (spec 05 R120, 04 R96, 07 R159). -/
inductive HeldWhat where
  /-- BARSYNC or RQUOTA has arrived on its barrier. -/
  | arrived (bar : Nat)
  /-- A drain waits for these channel operations. -/
  | draining (ops : List Nat)
  deriving DecidableEq, Repr

/-- The instruction that was held: inside or outside a trap handler, and its address. -/
structure Held where
  inTrap : Bool
  pc : W64
  what : HeldWhat
  deriving DecidableEq, Repr

/-- A debugger's RESUME for one instruction (spec 13 R272). -/
inductive StepOnce where
  | off
  /-- The group stops after its next instruction. -/
  | armed
  /-- It has issued that instruction and stopped: SINGLE_STEP is to be recorded. -/
  | done
  deriving DecidableEq, Repr

/-- A group (spec 01 R9, R39; 06 R132-R137; 07 R152, R155, R157; 11 R226; 13 R265-R267). -/
structure Group where
  slot : Nat
  pc : W64
  mode : BitVec 24
  shape : W32
  sregs : List SSlot
  vregs : List VSlot
  squeue : List SSlot
  vqueue : List VSlot
  preds : List (BitVec 8)
  nest : List (BitVec 8)
  ns : List NState
  family : BitVec 2
  user : Option UserPair
  inTrap : Bool
  trapQueue : List SSlot
  record : FaultRecord
  vtcmp : W64
  stepcnt : W64
  run : RunState
  held : List Held
  /-- Pending events (spec 13 R271). -/
  evStream : Bool
  evCollective : List (W64 × W64)
  evVtime : Bool
  evStop : Bool
  stepOnce : StepOnce
  /-- Rewritten words of a Propolis slot still to run at this PC, and the slot (spec 25 R376). -/
  rewriting : Option (List W32 × Nat)
  /-- The group has issued an instruction (spec 01 R37). -/
  begun : Bool
  stall : Stall
  /-- The furthest batch whose MWAIT the group has passed (spec 10 R223). -/
  mwaited : W32
  /-- What stops the group once the rewritten words have run: no stop falls between two of them (spec 25 R376). -/
  due : Option RunState
  /-- The word that the group is held on, decoded under a patch image that has been replaced since (spec 25 R378). -/
  decoded : Option W32
  deriving DecidableEq, Repr

/-- A team barrier (spec 07 R158) with the requests RQUOTA attached in this phase (R160): group, request word and the
producer number of its status. -/
structure Barrier where
  exp : Nat
  count : Nat
  arr : List Bool
  arrSeq : Bool
  done : List Bool
  reqs : List (Nat × W64 × Nat)
  deriving DecidableEq, Repr

/-- A destination of channel operations (spec 05 R111). A host port is that of a PCIe link (spec 23 R334). -/
inductive Dest where
  | die (d : Nat)
  | lake (k : Nat)
  | host (link : Nat)
  | peer (mod : Nat) (die : Nat)
  deriving DecidableEq, Repr

/-- A stream table entry (spec 05 R114): next number, unacknowledged count, the newest operation. -/
structure StreamEntry where
  dest : Dest
  next : BitVec 16
  unacked : Nat
  newest : Nat
  deriving DecidableEq, Repr

/-- A channel (spec 05 R114, R118): stream table and join marks (operations its later operations follow). -/
structure Channel where
  streams : List StreamEntry
  joins : List Nat
  deriving DecidableEq, Repr

/-- Who owns a channel (spec 05 R110): a team, or a Forager running a replay. -/
inductive ChanOwner where
  | team (t : TeamId)
  | forager (die : Nat)
  deriving DecidableEq, Repr

structure StreamId where
  owner : ChanOwner
  chan : Nat
  dest : Dest
  deriving DecidableEq, Repr

/-- A byte location (spec 03 R65, R66, R76). -/
inductive Loc where
  | phys (pa : Nat)
  | host (fn : Nat) (bus : Nat)
  | peer (mod : Nat) (pa : Nat)
  | spad (t : TeamId) (off : Nat)
  | priv (t : TeamId) (off : Nat)
  /-- A named register element of a group, by its window offset (spec 03 R75). -/
  | regWin (t : TeamId) (group : Nat) (off : Nat)
  /-- A tile element, by tile and window offset (spec 03 R75). -/
  | tileWin (t : TeamId) (tile : Nat) (off : Nat)
  /-- Fused code of a launch (spec 22 R329). -/
  | fused (launch : Nat) (off : Nat)
  deriving DecidableEq, Repr

/-- The operation of an atomic (spec 09 R194, R195). -/
inductive AtomOp where
  | add | min | max | and | or | xor | xchg | cas
  deriving DecidableEq, Repr

/-- The element type an atomic works on (spec 09 R194-R196). -/
inductive AtomType where
  | int64 | nat64 | int32 | nat32 | fp32
  deriving DecidableEq, Repr

/-- One atomic access at a location: operand `v`, compare value `cmp`, and the RND code and SAT that travel with it (spec
09 R195). -/
structure AtomAccess where
  lane : Nat
  loc : Loc
  op : AtomOp
  typ : AtomType
  v : W64
  cmp : W64
  rnd : BitVec 3
  sat : Bool
  deriving DecidableEq, Repr

/-- The signature of a collective instance (spec 12 R254). -/
structure Signature where
  inst : W32
  count : W32
  typ : Nat
  op : Nat
  deriving DecidableEq, Repr

/-- Where a signature comes from: the job (spec 19 R299), the member, which is a Forager (spec 12 R254), and its replay. -/
structure SigOrigin where
  launch : Nat
  gang : W32
  die : Nat
  replay : Nat
  deriving DecidableEq, Repr

/-- A member as a receiver knows it: a Forager of this module, or another module. -/
inductive Member where
  | die (d : Nat)
  | module (m : Nat)
  deriving DecidableEq, Repr

/-- A signature that a replay has received: the instance, the member, the replay that sent it where that is known, and whether it
is equal to the replay's own. -/
structure SigGot where
  inst : W32
  member : Member
  replay : Option Nat
  equal : Bool
  deriving DecidableEq, Repr

/-- What a channel operation does when it is performed (spec 05 R110). -/
inductive ChanOp where
  /-- Bytes stored, in order. -/
  | store (cells : List (Loc × Byte))
  /-- Atomics, in lane order, and the producer number waiting for the result, if any. -/
  | atomic (accs : List AtomAccess) (prod : Option Nat)
  /-- Chunk of a copy command; that of a collective node carries its signature (spec 12 R255). -/
  | chunk (cmd : Nat) (cells : List (Loc × Byte)) (sig : Option (SigOrigin × Signature))
  deriving DecidableEq, Repr

/-- A channel operation that its source has not seen acknowledged (spec 05 R115-R118). -/
structure Packet where
  id : Nat
  stream : StreamId
  num : BitVec 16
  op : ChanOp
  /-- Operations that joins and streams place before this one (spec 05 R119). -/
  after : List Nat
  /-- The group that issued it. -/
  group : Nat
  /-- The store colour it carries (spec 04 R93); none on an engine's write. -/
  colour : Option (BitVec 3)
  /-- An ACQ or ACQREL atomic (spec 04 R95): its scope. -/
  acq : Option (BitVec 3)
  /-- It acts on a location in the near memory of the die that issued it, so not remote (spec 03 R66). -/
  own : Bool
  performed : Bool
  acked : Bool
  /-- Marked for resend (spec 05 R117, R122). -/
  resend : Bool
  /-- Kept results of a performed atomic, one per access (spec 05 R118). -/
  results : List W64
  /-- The kept result awaits confirmation (spec 05 R118). -/
  kept : Bool
  deriving DecidableEq, Repr

/-- The expected number of a stream at its destination port (spec 05 R117). -/
structure PortEntry where
  stream : StreamId
  expected : BitVec 16
  deriving DecidableEq, Repr

/-- A SYNC message on its way from a port to a source (spec 05 R122): the link failure's handshake number. -/
structure SyncMsg where
  handshake : Nat
  owner : ChanOwner
  streams : List (StreamId × BitVec 16)
  deriving DecidableEq, Repr

/-- A long-latency result on its way (spec 06 R135). -/
inductive Result where
  | scalar (v : W64)
  | vector (v : Lanes)
  deriving DecidableEq, Repr

inductive FlightKind where
  | load | nectar | atomic
  /-- The value of a CATOM, an engine result (06 R135). -/
  | engine
  deriving DecidableEq, Repr

/-- A load, Nectar result or atomic result that has issued and not been written back. The value of a remote atomic is
filled in as its results come back from its homes. -/
structure Flight where
  id : Nat
  group : GroupId
  kind : FlightKind
  value : Result
  /-- The lanes a vector result is written in. -/
  mask : List Bool
  /-- Locations read, for an uncorrectable error of near memory (spec 26 R386). -/
  locs : List Loc
  deriving DecidableEq, Repr

/-- What a graph node computes for its destination instead of copying (spec 12 R248, R252, R253). -/
inductive Calc where
  | reduce (op typ : Nat) (src2 : W64)
  | convert (typ out : Nat)
  | signal (value : W64)
  deriving DecidableEq, Repr

/-- A window of a command resolved at its start (spec 03 R74): the place of its first byte, and its port when another die
holds it. -/
structure WindowAt where
  loc : Loc
  dest : Option Dest
  deriving DecidableEq, Repr

/-- A copy command or the transfer of a graph node (spec 12 R243, R248; 09 R203). -/
structure CopyCmd where
  id : Nat
  group : GroupId
  /-- The channel its off-die chunks travel on; with `always` every chunk travels on it (CCOPY, RCOPY). -/
  chan : Nat
  always : Bool
  /-- A graph node's copy: replay and node. -/
  node : Option (Nat × Nat)
  work : Option Calc
  src : W64
  dst : W64
  count : Nat
  /-- Bytes already sent or performed. -/
  next : Nat
  /-- Status code so far (spec 12 R241, 09 R203): 0 when nothing has gone wrong. -/
  code : BitVec 8
  /-- Its chunk waits for a page (spec 03 R80). -/
  pageWait : Bool
  /-- Windows resolved at the start: of the source, the destination and a REDUCE's second source (spec 03 R74, R75). -/
  srcAt : Option WindowAt
  dstAt : Option WindowAt
  src2At : Option WindowAt
  /-- Operations that the joins of its channel placed before it when it issued (spec 05 R119). -/
  joins : List Nat
  /-- The bytes of an element that the last chunk began and its 256-byte boundary cut (spec 12 R252). -/
  carry : List Byte
  deriving DecidableEq, Repr

/-- Sequencer run state (spec 10 R207). -/
inductive SqState where
  | run | wait | ended | stopped
  deriving DecidableEq, Repr

/-- A stream operation issued and not yet complete (spec 10 R208, R216-R220). -/
inductive StreamOp where
  | mzero (tile : Nat)
  | mma (tile : Nat) (fmt : BitVec 256) (map : BitVec 128) (hs : Nat) (vb : Nat) (p : Nat)
  | mxread (tile : Nat) (port : Bool) (grp : Nat) (h : Bool) (vd : Nat) (sl : Nat)
  /-- With the elements `256 i + j` stored so far, while it is under way. -/
  | mstore (tile : Nat) (map : BitVec 128) (outf : Nat) (stored : List Nat)
  deriving DecidableEq, Repr

/-- What an MMA reads: a named register of a group, or a byte of the scratchpad (spec 10 R211, R212). -/
inductive OpPlace where
  | reg (group r : Nat)
  | byte (off : Nat)
  deriving DecidableEq, Repr

/-- A write to a place that an MMA may read, not yet published to the stream: by a group of the team, itself or through a command
of its, or by a command from outside the team; and for each barrier that this group, or any, has arrived on since, how many more
completions the stream has to consume (spec 04 R103, 10 R224). -/
structure OpWrite where
  group : Option Nat
  place : OpPlace
  due : List (Nat × Nat)
  deriving DecidableEq, Repr

/-- An MMA that the stream has issued and whose batch some group has not passed in MWAIT: what it reads, and the places of it
that were written too early or without the discipline of spec 10 R224 (04 R103). -/
structure LiveMma where
  batch : W32
  tile : Nat
  fmt : BitVec 256
  map : BitVec 128
  hs : Nat
  vb : Nat
  p : Nat
  early : List OpPlace
  deriving DecidableEq, Repr

/-- A matrix sequencer (spec 10 R207) with the operations it has issued, each with its batch number. -/
structure Sequencer where
  spc : W64
  lc : List W32
  m : List (BitVec 128)
  f : List (BitVec 256)
  closed : W32
  doneb : W32
  owe : List (BitVec 16)
  sqstate : SqState
  sqfault : W64
  /-- The bounded pointer of the word that stopped it (spec 10 R209). -/
  faultPtr : W64
  /-- Issued, not complete; oldest first; the batch each belongs to. -/
  ops : List (W32 × StreamOp)
  /-- Operations issued since the last MFENCE (spec 10 R220). -/
  opened : Bool
  /-- Waits for a page of a fetch (spec 10 R207). -/
  pageWait : Bool
  /-- Barrier MBARWAIT waits on (spec 10 R221). -/
  waitBar : Option Nat
  /-- MEND is waiting (spec 10 R222). -/
  ending : Bool
  live : List LiveMma
  /-- The MXREADs and MSTOREs that have taken effect and whose batch a group has still to pass in MWAIT (spec 10 R224). -/
  outs : List (W32 × StreamOp)
  unread : List OpWrite
  deriving DecidableEq, Repr

/-- Where a team is (spec 01 R29, R32; 24 R350). -/
inductive Place where
  | resident (core : Nat)
  | saved
  /-- Flushed: waits to be placed again from its entry (spec 24 R355). -/
  | flushed
  /-- Every group has ended and the team's resources are freed. -/
  | retired
  deriving DecidableEq, Repr

/-- The kind of a pre-emption (spec 24 R350). -/
inductive PreKind where
  | drain | save | flush
  deriving DecidableEq, Repr

/-- A pre-emption of a team in progress (spec 24 R350-R353). -/
structure Preempt where
  kind : PreKind
  budget : Nat
  since : Nat
  deriving DecidableEq, Repr

/-- The header of a save area (spec 24 R354). -/
structure SaveHeader where
  kind : BitVec 2
  version : BitVec 8
  team : W32
  lid : W64
  size : W64
  gsave : W64
  deriving DecidableEq, Repr

/-- A team (spec 01 R9, R39): all of its architectural state, wherever it is. -/
structure Team where
  id : TeamId
  place : Place
  /-- Value of the cycle count that VTIME counts from while resident (spec 07 R152, 15 R293). -/
  vtBase : Nat
  /-- VTIME while not resident. -/
  vtSaved : Nat
  budgets : List Nat
  alloc : Nat
  groups : List Group
  bars : List Barrier
  chans : List Channel
  resyncs : W32
  lost : BitVec 16
  spad : Memory
  priv : Memory
  seq : Option Sequencer
  tiles : List (List Lanes)
  /-- Issue is stopped for a save, a flush or a rollback (spec 24 R352). -/
  frozen : Bool
  preempt : Option Preempt
  saveHdr : Option SaveHeader
  /-- A withdrawn SAVE may be asked for again (spec 24 R353). -/
  saveBarred : Bool
  deriving DecidableEq, Repr

/-- Pool configuration (spec 01 R23-R25), in 4 KiB units. -/
structure Pool where
  reg : BitVec 11
  scr : BitVec 11
  l1 : BitVec 11
  deriving DecidableEq, Repr

/-- A member of a core's active or pending set, with the ticks R34 to R36 count from. -/
structure SetEntry where
  group : GroupId
  since : Nat
  lastIssue : Nat
  starved : Bool
  /-- Brought in by the starvation rule and not yet issued (spec 01 R36). -/
  kept : Bool
  deriving DecidableEq, Repr

/-- A 128-byte line of an L1 (spec 03 R82), by the place of its first byte. -/
structure L1Line where
  start : Loc
  bytes : List Byte
  deriving DecidableEq, Repr

/-- A core (spec 01 R23-R26, R34). -/
structure Core where
  enabled : Bool
  poolReg : W32
  poolScr : W32
  poolL1 : W32
  cycleBase : Nat
  active : List SetEntry
  pending : List SetEntry
  marked : Option Nat
  /-- A switch of pool configuration in progress, for a launch (spec 01 R26). -/
  switching : Option (Nat × Pool)
  /-- The lines its L1 holds (spec 03 R82). -/
  l1 : List L1Line
  deriving DecidableEq, Repr

/-- A segment descriptor (spec 03 R68): its four words. -/
structure SegDesc where
  w0 : W64
  w1 : W64
  w2 : W64
  w3 : W64
  deriving DecidableEq, Repr

/-- The kernel record of a launch (spec 20 R302): its sixteen words' fields. -/
structure KernelRec where
  levels : BitVec 3
  entry : W32
  strent : W32
  traph : W32
  lanes : Nat
  nt : Nat
  idem : Bool
  stepped : Bool
  splice : BitVec 2
  mode : BitVec 24
  spadsz : Nat
  priv : Nat
  roles : List (Nat × Nat)
  exps : List Nat
  regu : Nat
  spadu : Nat
  slots : Nat
  seq : Nat
  deriving DecidableEq, Repr

/-- An origin record of fused code (spec 22 R330): the side (0 producer, 1 consumer) and the original offset. -/
structure Origin where
  side : Nat
  off : Nat
  word : W32
  deriving DecidableEq, Repr

/-- The splice map of a fused launch (spec 22 R329-R331). -/
structure SpliceMap where
  codeSegs : List Nat
  traps : List W64
  origins : List Origin
  consumer : Nat
  /-- The words of segment 0xFFFD. -/
  code : List W32
  /-- The step table: the offsets of its STEP words (spec 22 R329). -/
  steps : List Nat
  deriving DecidableEq, Repr

/-- Where a launch stands (spec 23 R343, R346, R344). -/
inductive LaunchState where
  | waiting
  | gang
  /-- Has reached the distributor while its splice consumer is queued and not yet read (22 R320). -/
  | pairing
  | ready
  /-- Runs as the consumer of a spliced pair (22 R329). -/
  | spliced
  | complete
  deriving DecidableEq, Repr

/-- A launch submitted to the module (spec 23 R341-R344). -/
structure Launch where
  seq : Nat
  lid : W32
  fn : Nat
  queue : Nat
  prio : Nat
  waits : List W32
  compAddr : W64
  /-- The completion record lies in device memory (the queue has QLOC = 1). -/
  compDev : Bool
  krec : KernelRec
  gridX : Nat
  gridY : Nat
  gridZ : Nat
  pool : Pool
  segs : List SegDesc
  codeSeg : Nat
  trapHandler : W64
  streamEntry : W64
  graphTab : Nat
  ngraph : Nat
  gang : W32
  gangN : Nat
  gpart : Nat
  cutp : Bool
  dbg : Bool
  breakArmed : Bool
  spadImage : List Byte
  stage : LaunchState
  nextTeam : Nat
  retired : Nat
  /-- VTIME of group 0 of every retired team, summed (spec 24 R351). -/
  vtSum : Nat
  /-- Teams among those retired that were lost with a die or core (spec 24 R364). -/
  lostTeams : Nat
  nstop : Nat
  /-- First group stopped by R265: team, group and record (spec 23 R344). -/
  firstStop : Option (Nat × Nat × FaultRecord)
  /-- Fault reports made by DELIVER, newest first (spec 13 R265). -/
  reports : List (Nat × Nat × FaultRecord)
  stopReq : Bool
  quarantined : Bool
  placedAt : Nat
  /-- No team has been resident since this GTIME: time switched out is no resident time (spec 24 R365). -/
  away : Option Nat
  /-- The resident-time limit in force when the launch was placed on the quarantine cell (spec 26 R394). -/
  qlimitUs : Nat
  /-- 9 TIMEOUT, 10 BARRIER_LOST, 11 DIE_LOST, 0 none (spec 23 R344). -/
  reason : Nat
  aborted : Bool
  /-- A die fence hit the launch without cut protection (spec 24 R364). -/
  dieLost : Bool
  spliceCode : Nat
  fused : Option SpliceMap
  /-- Submitted by a graph node (spec 12 R249): replay and node. -/
  node : Option (Nat × Nat)
  /-- Its next team fitted on no core: the cores on which it has come to fit since, each with the cycle at which a team
retired there and the number of its teams that then fitted (spec 01 R29 step 5, 15 R294). -/
  refill : List (Nat × Nat × Nat)
  /-- What the loader gives beside the descriptor: TEXT bytes (spec 20 R304) and the words of the SPLICE section (R308). -/
  textBytes : Nat
  marks : List W64
  deriving DecidableEq, Repr

/-- A gang's state (spec 23 R346). -/
inductive GangState where
  | collect | reserve | backoff | commit | run | refused
  deriving DecidableEq, Repr

structure Gang where
  id : W32
  size : Nat
  parts : List (Nat × Nat)
  state : GangState
  since : Nat
  /-- Parts read so far, refused ones included. -/
  seen : Nat
  /-- Cores and resources held: part, team index, core. -/
  reserved : List (Nat × Nat × Nat)
  /-- It has backed off. -/
  backed : Bool
  deriving DecidableEq, Repr

/-- Queue state (spec 23 R336). -/
inductive QState where
  | active | quarantined | stopped | disabled
  deriving DecidableEq, Repr

/-- A host queue's registers (spec 23 R336). -/
structure Queue where
  qbase : W64
  qsize : BitVec 5
  prio : BitVec 2
  qloc : Bool
  splice : Bool
  enable : Bool
  qhead : W32
  qtail : W32
  qstate : QState
  qerr : BitVec 8
  qerrix : W32
  /-- GTIME of the earliest doorbell since a packet of the queue was last read (spec 23 R340). -/
  rung : Option Nat
  deriving DecidableEq, Repr

/-- Who met a page fault (spec 03 R80, 23 R345). -/
inductive FaultWho where
  | group (g : GroupId)
  | sequencer (t : TeamId)
  | copy (id : Nat)
  | node (replay : Nat) (node : Nat)
  /-- An access of the Propolis handler of this slot, which runs for the group (spec 25 R377). -/
  | handler (g : GroupId) (slot : Nat)
  deriving DecidableEq, Repr

/-- A page fault that is outstanding (spec 23 R345). `seqno = none`: it waits for room in the fault queue, or for PRI. -/
structure PageFault where
  seqno : Option Nat
  pri : Bool
  va : Nat
  write : Bool
  peer : Option (Nat × Nat)
  lid : W32
  team : W32
  who : FaultWho
  /-- The lane mask of the record, should the driver decline (spec 03 R72). -/
  maskLo : W64
  maskHi : W64
  deriving DecidableEq, Repr

/-- A host translation the device holds through ATS (spec 23 R345): 64 KiB pages. -/
structure AtsEntry where
  page : Nat
  bus : Nat
  writable : Bool
  deriving DecidableEq, Repr

/-- A PCIe function (spec 23 R334-R336, R345). -/
structure Fn where
  ready : Bool
  fqbase : W64
  fqctl : W64
  fqhead : W32
  fqtail : W32
  /-- Fault entries written since FQCTL was last written (spec 23 R345). -/
  fseq : Nat
  aperr : W64
  queues : List Queue
  aptes : List W64
  faults : List PageFault
  ats : List AtsEntry
  /-- The queue that each priority level served last (spec 23 R340). -/
  served : List Nat
  deriving DecidableEq, Repr

/-- A partition (spec 26 R382, R383; 03 R77). -/
structure Partition where
  mask : BitVec 64
  nearGib : Nat
  lakeGib : Nat
  poolMib : Nat
  journalGib : Nat
  ptRoot : Nat
  cutIntervalMs : Nat
  cutLimitUs : Nat
  deriving DecidableEq, Repr

/-- A node of a graph image (spec 12 R247). -/
structure GraphNode where
  kind : Nat
  op : Nat
  typ : Nat
  ch : Nat
  npred : Nat
  sfirst : Nat
  scount : Nat
  src : Nat × Nat
  src2 : Nat × Nat
  dst : Nat × Nat
  count : Nat
  value : W64
  inst : W32
  deriving DecidableEq, Repr

/-- A collective instance record (spec 12 R254). -/
structure InstRec where
  inst : W32
  nmemb : Nat
  count : W32
  typ : Nat
  op : Nat
  members : List Nat
  deriving DecidableEq, Repr

structure GraphImage where
  nbase : Nat
  nodes : List GraphNode
  succs : List Nat
  insts : List InstRec
  deriving DecidableEq, Repr

/-- An image the command processor has copied into firmware-reserved memory (spec 23 R339). -/
structure LoadedGraph where
  fn : Nat
  table : Nat
  entry : Nat
  image : GraphImage
  deriving DecidableEq, Repr

/-- A GLOAD or unload that waits for replays of the old image to end (spec 23 R339). -/
structure DeferredLoad where
  fn : Nat
  queue : Nat
  table : Nat
  entry : Nat
  image : Option GraphImage
  tag : W32
  compAddr : W64
  compDev : Bool
  deriving DecidableEq, Repr

inductive NodeState where
  | idle
  | started
  /-- A page fault of the read of a started WAIT or LAUNCH is with the driver. -/
  | paged
  /-- A WAIT whose condition has been met. -/
  | met
  | done
  deriving DecidableEq, Repr

/-- A replay (spec 12 R250). -/
structure Replay where
  id : Nat
  die : Nat
  group : GroupId
  prod : Nat
  fn : Nat
  table : Nat
  entry : Nat
  image : GraphImage
  base : List W64
  pending : List Nat
  states : List NodeState
  /-- Status code and node that end the replay; 0 while none. -/
  code : BitVec 8
  codeNode : Nat
  /-- The member pointers are resolved and the signatures sent (spec 12 R255). -/
  sent : Bool
  /-- A page fault of a member pointer is with the driver. -/
  paged : Bool
  /-- The members that the instances name, resolved when the signatures are sent (spec 12 R255). -/
  names : List (W32 × Member)
  sigs : List SigGot
  /-- The first instance that an unequal signature stopped. -/
  mismatch : Option W32
  /-- The windows that WAIT nodes read, resolved at their start (spec 03 R74): node and place. -/
  waitAt : List (Nat × WindowAt)
  deriving DecidableEq, Repr

/-- A signature on its way to another member's Forager (spec 12 R254, R255; 19 R299). -/
structure SigMsg where
  origin : SigOrigin
  dest : Dest
  sig : Signature
  deriving DecidableEq, Repr

/-- State of a Comb link or Comb-X port (spec 12 R261). -/
inductive LinkState where
  | full | narrow | sleep
  deriving DecidableEq, Repr

structure Link where
  up : Bool
  state : LinkState
  /-- GTIME of the last traffic. -/
  lastTraffic : Nat
  /-- LWAKE holds the link out of narrow and sleep until this GTIME (spec 12 R262). -/
  holdUntil : Nat
  deriving DecidableEq, Repr

/-- A Propolis slot descriptor (spec 25 R373). -/
structure PatchSlot where
  enable : Bool
  src : Bool
  action : BitVec 2
  prio : BitVec 4
  nrew : BitVec 3
  pmatch : W32
  mask : W32
  code : BitVec 8
  sub : BitVec 8
  submask : BitVec 8
  hoff : BitVec 16
  words : List W32
  deriving DecidableEq, Repr

/-- A firmware image accepted by R369 (spec 25 R368). -/
structure Image where
  iclass : Nat
  version : BitVec 16
  image : W32
  slots : List PatchSlot
  /-- The image as flash holds it; after the descriptors of a patch image come its micro-code and notes (spec 25 R373). -/
  raw : List Byte
  deriving DecidableEq, Repr

/-- The images of one class in flash and its anti-rollback fuses (spec 25 R370, 26 R395). -/
structure ImageClass where
  active : Option Image
  staged : Option Image
  rows : List (BitVec 16)
  deriving DecidableEq, Repr

/-- What on-module flash keeps beside the images (spec 25 R371, R372): the digest of each image that has been verified with the counter
of its class at that time, and for each saved item the stepping and the temperature at which it was saved: the training of HBM4E, of
LPDDR and of the links, the spare maps, and the digests. -/
structure Flash where
  checks : List (List Byte × Nat)
  saved : List (Option (Nat × Int))
  deriving DecidableEq, Repr

/-- An uncorrectable error, as a die's error log holds it (spec 26 R392). -/
structure ErrorEntry where
  die : Nat
  addr : Nat
  syndrome : W64
  gtime : Nat
  deriving DecidableEq, Repr

/-- A save area or cut record that stands in a partition's context pool (spec 24 R354, R359). -/
structure SaveArea where
  team : TeamId
  kind : BitVec 2
  bytes : List Byte
  deriving DecidableEq, Repr

/-- A patch action in progress (spec 25 R375, R377): the group, the slot and the image it was matched under, the word
or the fault matched. -/
structure PatchAction where
  group : GroupId
  slot : Nat
  image : Image
  word : W32
  fault : Option FaultRecord
  deriving DecidableEq, Repr

/-- The telemetry counters (spec 26 R389). -/
structure Telemetry where
  power : W64
  capmiss : W64
  sramCorr : W64
  sramUncorr : W64
  dramCorr : W64
  dramUncorr : W64
  pchSpared : W64
  pageRetired : W64
  coreSpared : W64
  coreLost : W64
  linkDown : W64
  resync : W64
  dieFenced : W64
  rollback : W64
  aborted : W64
  cutDone : W64
  cutAbandoned : W64
  qtimeout : W64
  patchActs : W64
  takeover : W64
  deriving DecidableEq, Repr

def Telemetry.zero : Telemetry := ⟨0, 0, 0, 0, 0, 0, 0, 0, 0, 0, 0, 0, 0, 0, 0, 0, 0, 0, 0, 0⟩

/-- The management window (spec 26 R380). -/
structure Mgmt where
  margs : List W64
  busy : Bool
  op : BitVec 8
  tag : W32
  result : BitVec 8
  lastTag : W32
  /-- The command has taken effect, with this result, and waits to be reported. -/
  ran : Bool
  outcome : BitVec 8
  powerCap : Nat
  /-- Clock step k (spec 26 R384). -/
  clockStep : Nat
  qcell : Option Nat
  qlimitUs : Nat
  /-- GTIME of the last averaging of the power (spec 26 R384). -/
  capAt : Nat
  deriving DecidableEq, Repr

/-- A page the Spring engines are moving (spec 03 R86). -/
structure Transit where
  part : Nat
  va : Nat
  entry : Nat
  oldPage : Nat
  newPage : Nat
  size : Nat
  deriving DecidableEq, Repr

/-- A journal page (spec 24 R359): the physical page and its contents at the last cut. -/
structure JournalPage where
  page : Nat
  size : Nat
  cells : Memory
  deriving DecidableEq, Repr

/-- The cuts of one job (spec 24 R358-R363): the job's launches, whether a stop request stands, when and under which limit,
and the last complete cut: the teams and the launches as it recorded them. -/
structure CutJob where
  launches : List Nat
  requested : Bool
  since : Nat
  limitUs : Nat
  complete : Bool
  teams : List Team
  recorded : List Launch
  journal : List JournalPage
  /-- Lake pages read-only to the job until their first write after the cut. -/
  cow : List (Nat × Nat)
  deriving DecidableEq, Repr

/-- A command link between the active Hive controller and a cell controller, one direction (spec 25 R366). -/
structure CmdLink where
  urgentPermits : Nat
  normalPermits : Nat
  urgent : List (BitVec 512)
  normal : List (BitVec 512)
  deriving DecidableEq, Repr

/-- Hive controllers and cell controllers (spec 25 R366, R367). -/
structure Hive where
  activeOne : Nat
  missed : Nat
  toCells : List CmdLink
  fromCells : List CmdLink
  lostCells : List Nat
  /-- The controller that a takeover fenced; it never becomes active again (spec 25 R367). -/
  fenced : Option Nat
  /-- GTIME of the last heartbeat that was due. -/
  beatAt : Nat
  /-- The message log of each cell controller: what its links have carried (spec 26 R392). -/
  logs : List (List (BitVec 512))
  deriving DecidableEq, Repr

/-- A chunked copy of a spared pseudo-channel (spec 26 R386). -/
structure Sparing where
  stack : Nat
  base : Nat
  size : Nat
  next : Nat
  deriving DecidableEq, Repr

/-- A range translation invalidation in progress (spec 03 R81, 23 R337). -/
structure Inval where
  fn : Nat
  /-- Operations that may have used a removed translation. -/
  waits : List Nat
  start : Nat
  len : Nat
  tag : W32
  compAddr : W64
  compDev : Bool
  deriving DecidableEq, Repr

/-- A DEBUG STOP that completes once its group has stopped (spec 13 R272). -/
structure PendingStop where
  group : GroupId
  fn : Nat
  tag : W32
  compAddr : W64
  compDev : Bool
  deriving DecidableEq, Repr

/-- A peer module as this module sees it (spec 03 R87, R111): page table roots of its partitions and its memory. -/
structure Peer where
  mod : Nat
  roots : List (Nat × Nat)
  mem : Memory
  reachable : Bool
  deriving DecidableEq, Repr

/-- Time (spec 04 R108, 07 R152): a count of model steps, the arithmetic cycle count and GTIME. -/
structure Clock where
  tick : Nat
  cycles : Nat
  gtime : Nat
  deriving DecidableEq, Repr

/-- GTSTAT (spec 04 R109). -/
structure GtStat where
  losses : BitVec 16
  slewing : Bool
  locked : Bool
  deriving DecidableEq, Repr

/-- An agent that issues instruction words (spec 01 R12, 10 R206). -/
inductive Agent where
  | none
  | group (g : GroupId)
  | sequencer (t : TeamId)
  deriving DecidableEq, Repr

/-- The MODEL's own scheduler entry (assumption 1): which agent moves next. -/
inductive Turn where
  | event (i : Instr)
  | issue (a : Agent)
  deriving DecidableEq, Repr

/-- The state of the module. -/
structure State where
  cur : Agent
  schedule : List Turn
  /-- Groups that Step found, at the start of this event, ready to issue (spec 01 R34), or at a boundary without a fault
  of their own (spec 13 R271). The MODEL's own field. -/
  noted : List GroupId
  /-- Groups that Step found, at the start of this event, in a long-latency stall, retiring or parked (spec 01 R35). The
  MODEL's own field. -/
  stalled : List GroupId
  clock : Clock
  /-- Counter of the free values (the MODEL's own field). -/
  free : Nat
  /-- Next number of an operation, producer, command, replay or launch. -/
  nextId : Nat
  started : Bool
  fatal : Bool
  gtstat : GtStat
  mem : Memory
  hostMem : List (Nat × Memory)
  peers : List Peer
  cores : List Core
  launches : List Launch
  teams : List Team
  fns : List Fn
  parts : List Partition
  gangs : List Gang
  flights : List Flight
  copies : List CopyCmd
  replays : List Replay
  signatures : List SigMsg
  graphs : List LoadedGraph
  deferred : List DeferredLoad
  invals : List Inval
  stops : List PendingStop
  forChans : List (List Channel)
  packets : List Packet
  wire : List Nat
  acks : List Nat
  syncs : List SyncMsg
  syncReqs : List SyncMsg
  closes : List StreamId
  ports : List PortEntry
  buffered : List Nat
  handshakes : Nat
  links : List Link
  transits : List Transit
  /-- Lake pages that the Spring engines have moved: the lake place, the size, and where the page lies now (spec 03 R86). -/
  moved : List (Nat × Nat × Nat)
  /-- Pages of home-together segments of fenced dies, served from the lake until the Spring engines move them: partition, virtual
  address and the die on which the segment is rehomed (spec 24 R363). -/
  rehomed : List (Nat × Nat × Nat)
  cuts : List CutJob
  /-- The areas that stand in the context pools, which firmware reserves in the lake (spec 24 R354). -/
  areas : List SaveArea
  images : List ImageClass
  flash : Flash
  errorLog : List ErrorEntry
  patchActs : List PatchAction
  revoked : List Bool
  /-- The hash of each key slot's public key, in fuses (spec 25 R369). -/
  keyHashes : List (List Byte)
  mgmt : Mgmt
  telemetry : Telemetry
  hive : Hive
  sparings : List Sparing
  remaps : List (Nat × Nat × Nat)
  retiredPages : List Nat
  spares : List Nat
  fencedDies : List Nat
  dumpsLost : BitVec 16
  hostData : List Byte
  hints : List (W64 × W64)
  deriving DecidableEq, Repr

/-- A queue after reset (spec 23 R336). -/
def Queue.reset : Queue := ⟨0, 0, 0, false, false, false, 0, 0, .disabled, 0, 0, none⟩

/-- A function after reset (spec 23 R334-R336). -/
def Fn.reset : Fn :=
  ⟨false, 0, 0, 0, 0, 0, 0, List.replicate 64 Queue.reset, List.replicate 64 0, [], [], List.replicate 4 63⟩

/-- A core after reset: R24's boundaries, nothing resident. -/
def Core.reset : Core := ⟨true, 0x200, 0x300, 0x400, 0, [], [], none, none, []⟩

/-- A partition after reset: none set up, cut settings at their defaults (spec 26 R382, R383). -/
def Partition.reset : Partition := ⟨0, 0, 0, 0, 0, 0, 60000, 10000⟩

/-- A command link after reset with all its permits (spec 25 R366). -/
def CmdLink.reset : CmdLink := ⟨4, 8, [], []⟩

def Channel.empty : Channel := ⟨[], []⟩

/-- The module right after reset, before a start (spec 25 R371) has run. -/
def State.reset : State where
  cur := .none
  schedule := []
  noted := []
  stalled := []
  clock := ⟨0, 0, 0⟩
  free := 0
  nextId := 1
  started := false
  fatal := false
  gtstat := ⟨0, false, false⟩
  mem := []
  hostMem := []
  peers := []
  cores := List.replicate 256 Core.reset
  launches := []
  teams := []
  fns := List.replicate 17 Fn.reset
  parts := List.replicate 17 Partition.reset
  gangs := []
  flights := []
  copies := []
  replays := []
  signatures := []
  graphs := []
  deferred := []
  invals := []
  stops := []
  forChans := List.replicate 8 (List.replicate 16 Channel.empty)
  packets := []
  wire := []
  acks := []
  syncs := []
  syncReqs := []
  closes := []
  ports := []
  buffered := []
  handshakes := 0
  links := List.replicate 48 ⟨false, .full, 0, 0⟩
  transits := []
  moved := []
  rehomed := []
  cuts := []
  areas := []
  images := List.replicate 5 ⟨none, none, []⟩
  flash := ⟨[], List.replicate 5 none⟩
  errorLog := []
  patchActs := []
  revoked := [false, false, false, false]
  keyHashes := List.replicate 4 (List.replicate 64 0)
  mgmt := ⟨[0, 0, 0, 0], false, 0, 0, 0, 0, false, 0, 9000, 0, none, 100000, 0⟩
  telemetry := Telemetry.zero
  hive := ⟨0, 0, List.replicate 64 CmdLink.reset, List.replicate 64 CmdLink.reset, [], none, 0, List.replicate 64 []⟩
  sparings := []
  remaps := []
  retiredPages := []
  spares := List.replicate 8 4
  fencedDies := []
  dumpsLost := 0
  hostData := []
  hints := []

end Sys2Proof.Machine
end

