-- ==== Sys2Proof/Machine/Ops.lean ====
section
/-! DEFINITION. The named operations over memory, teams, groups and queues; pointers, the checks of an access and
translation (spec 03 R67-R78); taking an exception and returning from one (spec 13 R264-R271). -/

namespace Sys2Proof.Machine

/-! Byte stores. -/

/-- The byte at an address; an unlisted address reads as 0 (assumption 2). -/
def Memory.read : Memory → Nat → Byte
  | [], _ => 0
  | (b, v) :: m, a => if a = b then v else if a < b then 0 else Memory.read m a

/-- Store one byte, keeping the canonical form. -/
def Memory.write : Memory → Nat → Byte → Memory
  | [], a, v => if v = 0 then [] else [(a, v)]
  | (b, w) :: m, a, v =>
    if a < b then (if v = 0 then (b, w) :: m else (a, v) :: (b, w) :: m)
    else if a = b then (if v = 0 then m else (a, v) :: m)
    else (b, w) :: Memory.write m a v

/-- `n` bytes from an address. -/
def Memory.readBytes (m : Memory) (a n : Nat) : List Byte := (List.range n).map fun i => m.read (a + i)

/-- Store bytes at rising addresses. -/
def Memory.writeBytes : Memory → Nat → List Byte → Memory
  | m, _, [] => m
  | m, a, b :: bs => Memory.writeBytes (m.write a b) (a + 1) bs

/-- The little-endian number of a byte list (02 R50). -/
def leNat : List Byte → Nat
  | [] => 0
  | b :: bs => b.toNat + 256 * leNat bs

/-- The `n` bytes of a number, little-endian (02 R50). -/
def leBytes : Nat → Nat → List Byte
  | 0, _ => []
  | n + 1, v => BitVec.ofNat 8 v :: leBytes n (v / 256)

def Memory.readLe (m : Memory) (a n : Nat) : Nat := leNat (m.readBytes a n)
def Memory.read64 (m : Memory) (a : Nat) : W64 := BitVec.ofNat 64 (m.readLe a 8)
def Memory.writeLe (m : Memory) (a n v : Nat) : Memory := m.writeBytes a (leBytes n v)

/-- Forget every byte of a range. -/
def Memory.clear (m : Memory) (a n : Nat) : Memory := m.filter fun c => !(decide (a ≤ c.1) && decide (c.1 < a + n))

/-- The entries of a range. -/
def Memory.slice (m : Memory) (a n : Nat) : Memory := m.filter fun c => decide (a ≤ c.1) && decide (c.1 < a + n)

/-- Store every entry of a list. -/
def Memory.writeCells (m : Memory) (cs : List Host.Cell) : Memory := cs.foldl (fun m c => m.write c.1 c.2) m

/-! Lists. -/

/-- Put `x` before the first entry that it may come before. -/
def putInOrder {α : Type} (le : α → α → Bool) (x : α) : List α → List α
  | [] => [x]
  | y :: ys => if le x y then x :: y :: ys else y :: putInOrder le x ys

/-- A list in order; entries that are equal keep their places. -/
def inOrder {α : Type} (le : α → α → Bool) (xs : List α) : List α := xs.foldr (putInOrder le) []

/-! Looking up and replacing parts of the state. -/

def State.team? (s : State) (id : TeamId) : Option Team := s.teams.find? fun t => decide (t.id = id)

/-- Change the team with an identity. -/
def State.mapTeam (s : State) (id : TeamId) (f : Team → Team) : State :=
  { s with teams := s.teams.map fun t => if t.id = id then f t else t }

def State.setTeam (s : State) (t : Team) : State := s.mapTeam t.id fun _ => t

def State.group? (s : State) (g : GroupId) : Option Group := (s.team? g.team).bind fun t => t.groups[g.group]?

def Team.setGroup (t : Team) (i : Nat) (g : Group) : Team := { t with groups := t.groups.set i g }

def State.setGroup (s : State) (id : GroupId) (g : Group) : State := s.mapTeam id.team fun t => t.setGroup id.group g

def State.mapGroup (s : State) (id : GroupId) (f : Group → Group) : State :=
  s.mapTeam id.team fun t => { t with groups := t.groups.modify id.group f }

def State.launch? (s : State) (n : Nat) : Option Launch := s.launches.find? fun l => decide (l.seq = n)

def State.mapLaunch (s : State) (n : Nat) (f : Launch → Launch) : State :=
  { s with launches := s.launches.map fun l => if l.seq = n then f l else l }

def State.mapCore (s : State) (c : Nat) (f : Core → Core) : State := { s with cores := s.cores.modify c f }

def State.mapFn (s : State) (n : Nat) (f : Fn → Fn) : State := { s with fns := s.fns.modify n f }

/-- The core of a resident team. -/
def Team.core? (t : Team) : Option Nat := match t.place with
  | .resident c => some c
  | _ => none

/-- The compute die of a core (00 R1). -/
def dieOfCore (c : Nat) : Nat := c / Config.coresPerDie

/-- Groups of a team of `lanes` lanes (01 R11). -/
def groupCount (lanes : Nat) : Nat := (lanes + numLanes - 1) / numLanes

/-- The role of a group: roles take groups in order (01 R19). -/
def roleOf : List (Nat × Nat) → Nat → Nat
  | [], _ => 0
  | (g, _) :: rs, i => if i < g then 0 else 1 + roleOf rs (i - g)

/-- The group's role's current budget per lane (01 R20). -/
def Team.budgetOf (t : Team) (l : Launch) (group : Nat) : Nat := t.budgets.getD (roleOf l.krec.roles group) 0

/-- VTIME of a team's groups (07 R152, 15 R293). -/
def State.vtime (s : State) (t : Team) : W64 := match t.place with
  | .resident _ => BitVec.ofNat 64 (s.clock.cycles - t.vtBase)
  | _ => BitVec.ofNat 64 t.vtSaved

/-! Locations. -/

/-- Host link of a function (23 R334). -/
def linkOfFn (fn : Nat) : Nat := if fn ≤ 8 then 0 else 1

def State.hostRead (s : State) (link a : Nat) : Byte :=
  match s.hostMem.find? fun h => decide (h.1 = link) with
  | some h => h.2.read a
  | none => 0

/-- Change the memory of a host, listing the host when it is not. -/
def State.hostWrite (s : State) (link a : Nat) (v : Byte) : State :=
  if s.hostMem.any fun h => decide (h.1 = link) then
    { s with hostMem := s.hostMem.map fun h => if h.1 = link then (h.1, h.2.write a v) else h }
  else { s with hostMem := s.hostMem ++ [(link, Memory.write [] a v)] }

/-- A window offset's byte of a 32-bit element. -/
def byteOf (w : W32) (off : Nat) : Byte := BitVec.ofNat 8 (w.toNat / 256 ^ (off % 4))

/-- Replace a byte of a 32-bit element. -/
def setByteOf (w : W32) (off : Nat) (v : Byte) : W32 :=
  BitVec.ofNat 32 (w.toNat - (byteOf w off).toNat * 256 ^ (off % 4) + v.toNat * 256 ^ (off % 4))

/-- The byte at a location (03 R65, R75). -/
def State.readLoc (s : State) : Loc → Byte
  | .phys a => s.mem.read a
  | .host fn a => s.hostRead (linkOfFn fn) a
  | .peer m a => match s.peers.find? fun p => decide (p.mod = m) with
    | some p => p.mem.read a
    | none => 0
  | .spad t o => match s.team? t with
    | some t => t.spad.read o
    | none => 0
  | .priv t o => match s.team? t with
    | some t => t.priv.read o
    | none => 0
  | .regWin t g o => match s.group? ⟨t, g⟩ with
    | some g => byteOf (((g.vregs.getD (o / 512) ⟨Lanes.zero, none⟩).val).at (o / 4 % 128)) o
    | none => 0
  | .tileWin t k o => match s.team? t with
    | some t => byteOf (((t.tiles.getD k []).getD (o / 4 % 256) []).at (o / 1024)) o
    | none => 0
  | .fused n o => match (s.launch? n).bind (·.fused) with
    | some m => byteOf (m.code.getD (o / 4) 0) o
    | none => 0

/-- Store a byte at a location. -/
def State.writeLoc (s : State) (loc : Loc) (v : Byte) : State :=
  match loc with
  | .phys a => { s with mem := s.mem.write a v }
  | .host fn a => s.hostWrite (linkOfFn fn) a v
  | .peer m a => { s with peers := s.peers.map fun p => if p.mod = m then { p with mem := p.mem.write a v } else p }
  | .spad t o => s.mapTeam t fun t => { t with spad := t.spad.write o v }
  | .priv t o => s.mapTeam t fun t => { t with priv := t.priv.write o v }
  | .regWin t g o => s.mapGroup ⟨t, g⟩ fun g =>
      { g with vregs := g.vregs.modify (o / 512) fun x =>
          { x with val := x.val.modify (o / 4 % 128) fun w => setByteOf w o v } }
  | .tileWin t k o => s.mapTeam t fun t =>
      { t with tiles := t.tiles.modify k fun tl => tl.modify (o / 4 % 256) fun col =>
          col.modify (o / 1024) fun w => setByteOf w o v }
  | .fused _ _ => s

/-- The location `k` bytes on. -/
def Loc.plus (l : Loc) (k : Nat) : Loc := match l with
  | .phys a => .phys (a + k)
  | .host f a => .host f (a + k)
  | .peer m a => .peer m (a + k)
  | .spad t o => .spad t (o + k)
  | .priv t o => .priv t (o + k)
  | .regWin t g o => .regWin t g (o + k)
  | .tileWin t j o => .tileWin t j (o + k)
  | .fused n o => .fused n (o + k)

/-! The L1 of a core (03 R82). Near, lake, host and peer memory is cached; the scratchpad is not. Private bytes are only ever
read and written by their own lane, so that a line of them would show nothing. -/

/-- The place of the first byte of the line that holds a cached byte. -/
def Loc.line : Loc → Option Loc
  | .phys a => some (.phys (a / 128 * 128))
  | .host f a => some (.host f (a / 128 * 128))
  | .peer m a => some (.peer m (a / 128 * 128))
  | _ => none

/-- The byte of a line at a location inside it. -/
def L1Line.byteAt (n : L1Line) (l : Loc) : Byte := match l with
  | .phys a => n.bytes.getD (a % 128) 0
  | .host _ a => n.bytes.getD (a % 128) 0
  | .peer _ a => n.bytes.getD (a % 128) 0
  | _ => 0

/-- A line as memory holds it now. -/
def State.fillLine (s : State) (start : Loc) : L1Line := ⟨start, (List.range 128).map fun i => s.readLoc (start.plus i)⟩

def Core.line? (c : Core) (start : Loc) : Option L1Line := c.l1.find? fun n => decide (n.start = start)

/-- Put a line into an L1, in place of one of the same place. -/
def Core.putLine (c : Core) (n : L1Line) : Core := { c with l1 := (c.l1.filter fun x => decide (x.start ≠ n.start)) ++ [n] }

/-- A load touches a line: the L1 holds it from before, unless it has given it up, or fills it from memory. -/
def State.touchLine (s : State) (core : Nat) (start : Loc) : State :=
  let held := ((s.cores[core]?).bind fun c => c.line? start).isSome
  if held && !Config.l1Evicted s.free then { s with free := s.free + 1 }
  else
    let n := s.fillLine start
    { s.mapCore core (fun c => c.putLine n) with free := s.free + 1 }

/-- The lines that loads of these bytes touch. -/
def State.touch (s : State) (core : Nat) (locs : List Loc) : State :=
  (locs.filterMap Loc.line).dedup.foldl (fun s l => s.touchLine core l) s

/-- The byte that a load of a core is served: from its L1 when a line holds it. -/
def State.served (s : State) (core : Nat) (l : Loc) : Byte :=
  match l.line.bind fun start => (s.cores[core]?).bind fun c => c.line? start with
  | some n => n.byteAt l
  | none => s.readLoc l

/-- A line after bytes at some locations were stored: a store updates the line. -/
def State.refreshLine (s : State) (locs : List Loc) (n : L1Line) : L1Line :=
  { n with bytes := n.bytes.zipIdx.map fun b => if locs.contains (n.start.plus b.2) then s.readLoc (n.start.plus b.2) else b.1 }

/-- The lines of a core after it stored at these locations. -/
def State.refresh (s : State) (core : Nat) (locs : List Loc) : State :=
  s.mapCore core fun c => { c with l1 := c.l1.map (s.refreshLine locs) }

/-- A core gives up the lines of these bytes. -/
def State.dropLines (s : State) (core : Nat) (locs : List Loc) : State :=
  let starts := locs.filterMap Loc.line
  s.mapCore core fun c => { c with l1 := c.l1.filter fun n => !starts.contains n.start }

/-- An acquire at CLUSTER scope or wider invalidates the L1 (04 R95). -/
def State.clearL1 (s : State) (core : Nat) : State := s.mapCore core fun c => { c with l1 := [] }

/-- The acquire of a team's command result (04 R104, R105): the L1 of its core. -/
def State.clearL1Of (s : State) (t : TeamId) : State := match (s.team? t).bind Team.core? with
  | some core => s.clearL1 core
  | none => s

/-- The little-endian number in `n` bytes from a location (02 R50, 03 R90). -/
def State.loadLoc (s : State) (l : Loc) (n : Nat) : Nat := leNat ((List.range n).map fun i => s.readLoc (l.plus i))

/-- The little-endian number in the `n` bytes from a location that a load of a core is served. -/
def State.servedLoc (s : State) (core : Nat) (l : Loc) (n : Nat) : Nat :=
  leNat ((List.range n).map fun i => s.served core (l.plus i))

/-- Store a list of (location, byte) pairs in order. -/
def State.storeCells (s : State) (cs : List (Loc × Byte)) : State := cs.foldl (fun s c => s.writeLoc c.1 c.2) s

/-- A store of a core: written through, and the lines of its L1 updated (03 R82). -/
def State.storeThrough (s : State) (core : Nat) (cs : List (Loc × Byte)) : State :=
  (s.storeCells cs).refresh core (cs.map (·.1))

/-- The cells of an `n`-byte little-endian store. -/
def storeCellsOf (l : Loc) (n v : Nat) : List (Loc × Byte) :=
  (leBytes n v).zipIdx.map fun b => (l.plus b.2, b.1)

/-! Pointers and segments (03 R67-R69). -/

/-- SEG of a bounded pointer. -/
def ptrSeg (p : W64) : Nat := p.toNat / 2 ^ 48
/-- OFF of a bounded pointer. -/
def ptrOff (p : W64) : Nat := p.toNat % 2 ^ 48
/-- The pointer of a segment and an offset. -/
def mkPtr (seg off : Nat) : W64 := BitVec.ofNat 64 (seg * 2 ^ 48 + off % 2 ^ 48)

inductive Space where
  | near | lake | host | peer | window | scratch | priv | fused
  deriving DecidableEq, Repr

/-- A right of a segment; `code` is the SUB of a permission fault (13 R268). -/
inductive Right where
  | pr | pw | px | pa | pm | pc
  deriving DecidableEq, Repr

def Right.code : Right → BitVec 8
  | .pr => 0 | .pw => 1 | .px => 2 | .pa => 3 | .pm => 4 | .pc => 5

/-- A segment as an access sees it. -/
structure SegView where
  space : Space
  base : Nat
  limit : Nat
  rights : List Right
  tiered : Bool
  peerMod : Nat
  peerPart : Nat
  deriving DecidableEq, Repr

def SegDesc.valid (d : SegDesc) : Bool := d.w2.getLsbD 7
def SegDesc.spaceCode (d : SegDesc) : Nat := d.w2.toNat / 2 ^ 8 % 8
def SegDesc.base (d : SegDesc) : Nat := d.w0.toNat % 2 ^ 57
def SegDesc.limit (d : SegDesc) : Nat := d.w1.toNat % 2 ^ 48
def SegDesc.wteam (d : SegDesc) : Nat := d.w3.toNat % 2 ^ 32
def SegDesc.wreg (d : SegDesc) : Nat := d.w3.toNat / 2 ^ 32 % 16
def SegDesc.wgroup (d : SegDesc) : Nat := d.w3.toNat / 2 ^ 36 % 128
def SegDesc.peerMod (d : SegDesc) : Nat := d.w2.toNat / 2 ^ 16 % 256
def SegDesc.peerPart (d : SegDesc) : Nat := d.w2.toNat / 2 ^ 24 % 32

def spaceOfCode (c : Nat) : Space :=
  if c = 0 then .near else if c = 1 then .lake else if c = 2 then .host else if c = 3 then .peer else .window

/-- The descriptor a segment index names, if its entry is present and in use (03 R67, R69). -/
def Launch.desc? (l : Launch) (seg : Nat) : Option SegDesc :=
  if seg = 0 then none
  else match l.segs[seg - 1]? with
    | some d => if d.valid then some d else none
    | none => none

/-- The segment an index names for an access (03 R67-R69). -/
def Launch.seg? (l : Launch) (seg : Nat) : Option SegView :=
  if seg = 0xFFFF then some ⟨.scratch, 0, l.krec.spadsz, [.pr, .pw, .pa], false, 0, 0⟩
  else if seg = 0xFFFE then some ⟨.priv, 0, l.krec.priv, [.pr, .pw], false, 0, 0⟩
  else if seg = 0xFFFD && l.fused.isSome then
    some ⟨.fused, 0, (l.fused.elim 0 fun m => 4 * m.code.length), [.pr, .px], false, 0, 0⟩
  else match l.desc? seg with
    | none => none
    | some d =>
      let bit (n : Nat) (r : Right) : List Right := if d.w2.getLsbD n then [r] else []
      some ⟨spaceOfCode d.spaceCode, d.base, d.limit,
        bit 0 .pr ++ bit 1 .pw ++ bit 2 .px ++ bit 3 .pa ++ bit 4 .pm ++ bit 6 .pc, d.w2.getLsbD 11, d.peerMod, d.peerPart⟩

/-! Traps as values. -/

/-- What a trap records beside the state of the group (13 R267, R268). -/
structure TrapInfo where
  code : BitVec 8
  sub : BitVec 8
  addr : W64
  info : W64
  lo : W64
  hi : W64
  deriving DecidableEq, Repr

namespace TrapInfo
def illegalInstruction (w : W32) : TrapInfo := ⟨0x01, 0, 0, w.zeroExtend 64, 0, 0⟩
def illegalOperand (w : W32) (sub : BitVec 8) : TrapInfo := ⟨0x02, sub, 0, w.zeroExtend 64, 0, 0⟩
def segment (p : W64) (lo hi : W64) : TrapInfo := ⟨0x03, 0, p, 0, lo, hi⟩
def permission (r : Right) (p : W64) (lo hi : W64) : TrapInfo := ⟨0x04, r.code, p, 0, lo, hi⟩
def alignment (p : W64) (lo hi : W64) : TrapInfo := ⟨0x05, 0, p, 0, lo, hi⟩
def bounds (p : W64) (lo hi : W64) : TrapInfo := ⟨0x06, 0, p, 0, lo, hi⟩
def page (va : Nat) (write : Bool) (lo hi : W64) : TrapInfo :=
  ⟨0x07, if write then 1 else 0, BitVec.ofNat 64 va, 0, lo, hi⟩
def nesting (lo hi : W64) : TrapInfo := ⟨0x08, 0, 0, 0, lo, hi⟩
def emptyOperand (sub code : BitVec 8) : TrapInfo := ⟨0x09, sub, 0, code.zeroExtend 64, 0, 0⟩
def domain (ns : Nat) (w : W32) (lo hi : W64) : TrapInfo := ⟨0x0A, BitVec.ofNat 8 ns, 0, w.zeroExtend 64, lo, hi⟩
def channelLost (c : Nat) (chstat : W64) : TrapInfo := ⟨0x0B, BitVec.ofNat 8 c, 0, chstat, 0, 0⟩
def barrierLost : TrapInfo := ⟨0x0C, 0, 0, 0, 0, 0⟩
def vtimeCompare (vt : W64) : TrapInfo := ⟨0x10, 0, 0, vt, 0, 0⟩
def stream (kind : BitVec 8) (p sqfault : W64) : TrapInfo := ⟨0x11, kind, p, sqfault, 0, 0⟩
def collective (handle inst : W64) : TrapInfo := ⟨0x12, 0, handle, inst, 0, 0⟩
def software (v : W64) : TrapInfo := ⟨0x18, 0, 0, v, 0, 0⟩
def breakpoint (tag : BitVec 8) : TrapInfo := ⟨0x19, tag, 0, 0, 0, 0⟩
def patchTrap (v : W64) : TrapInfo := ⟨0x1A, 0, 0, v, 0, 0⟩
def singleStep : TrapInfo := ⟨0x1B, 0, 0, 0, 0, 0⟩
end TrapInfo

/-- Class Fault: codes 0x01 to 0x0C (13 R264, R268). -/
def isFaultClass (code : BitVec 8) : Bool := decide (1 ≤ code.toNat) && decide (code.toNat ≤ 0x0C)

/-- What a check answers. -/
inductive Chk (α : Type) where
  | ok (a : α)
  | trap (t : TrapInfo)
  /-- A page fault: address, whether a write, the peer, whether PRI is asked first, and the lanes. -/
  | page (va : Nat) (write : Bool) (peer : Option (Nat × Nat)) (pri : Bool) (lo hi : W64)
  /-- The instruction does not issue now. -/
  | hold
  | stop (f : Fault)
  deriving DecidableEq, Repr

def Chk.andThen {α β : Type} (x : Chk α) (f : α → Chk β) : Chk β := match x with
  | .ok a => f a
  | .trap t => .trap t
  | .page va w p pri lo hi => .page va w p pri lo hi
  | .hold => .hold
  | .stop e => .stop e

/-! Translation (03 R76-R78, R86, R87). -/

/-- Near memory: eight dies of 256 GiB (R76). -/
def isNear (pa : Nat) : Bool := decide (pa < 0x020000000000)
/-- Lake memory: two dies of 2 TiB (R76). -/
def isLake (pa : Nat) : Bool := decide (0x040000000000 ≤ pa) && decide (pa < 0x080000000000)
/-- The compute die of a near address. -/
def nearDie (pa : Nat) : Nat := pa / 0x4000000000
/-- The lake die of a lake address. -/
def lakeDie (pa : Nat) : Nat := (pa - 0x040000000000) / 0x020000000000

/-- Answer of a page walk. -/
inductive Walk where
  | page (pa entry : Nat)
  | fault
  | transit
  deriving DecidableEq, Repr

/-- Reserved bits of a table entry (R78). -/
def pteReserved (e : W64) : Bool := decide (e &&& 0xFF00000000000F14 ≠ 0)

/-- The levels of R77 from L0: the lowest bit of the index, its number of bits and the size of a leaf, 0 for none. -/
def walkLevels : List (Nat × Nat × Nat) := [(48, 9, 0), (39, 9, 0), (30, 9, 0), (21, 9, 0x200000), (16, 5, 0x10000)]

/-- Walk the tables from the level at the head of the list (R77, R78). LEAF = 1, which R78 calls valid at L3 only, has no
effect at the other levels (DESIGN CHOICE, assumption 75). -/
def walkFrom (rd : Nat → W64) (va : Nat) (write : Bool) : List (Nat × Nat × Nat) → Nat → Walk
  | [], _ => .fault
  | (lo, bits, leaf) :: rest, table =>
    let entry := table + 8 * (va / 2 ^ lo % 2 ^ bits)
    let e := rd entry
    if pteReserved e || !(e.getLsbD 0) then .fault
    else
      let base := e.toNat / 2 ^ 12 % 2 ^ 44 * 2 ^ 12
      if (leaf == 0x10000) || (leaf == 0x200000 && e.getLsbD 1) then
        if base % leaf ≠ 0 then .fault
        else if e.getLsbD 5 then .transit
        else if write && !(e.getLsbD 3) then .fault
        else .page (base + va % leaf) entry
      else walkFrom rd va write rest base

/-- Walk of a virtual address from a root. -/
def walk (rd : Nat → W64) (root va : Nat) (write : Bool) : Walk := walkFrom rd (va % 2 ^ 57) write walkLevels root

/-- Set ACCESSED, and DIRTY for a write, in the entry at an address (R78). -/
def markEntry (m : Memory) (entry : Nat) (write : Bool) : Memory :=
  let e := m.read64 entry
  m.writeLe entry 8 (e ||| (if write then 0xC0 else 0x40)).toNat

/-- Where an access goes: the location, the destination when it is remote (off the issuing die), the port of its home, to which
a channel operation travels (05 R111: the lake home of a tiered page wherever it lies), and the table entry to mark. -/
structure Hit where
  loc : Loc
  dest : Option Dest
  home : Dest
  entry : Option (Option Nat × Nat)
  deriving DecidableEq, Repr

/-- Answer of a translation. -/
inductive Tr where
  | ok (h : Hit)
  | page (va : Nat) (peer : Option (Nat × Nat)) (pri : Bool)
  | stall
  | stop (f : Fault)
  deriving DecidableEq, Repr

/-- A page that a cut made read-only to its job until its first write (24 R359). -/
def State.cowHit (s : State) (launch pa : Nat) : Bool :=
  s.cuts.any fun j => decide (launch ∈ j.launches) && j.cow.any fun p => decide (p.1 ≤ pa) && decide (pa < p.1 + p.2)

/-- The destination of a physical address in the page of a table entry (05 R111): a page has one lake home. -/
def destOfPa (part entry pa : Nat) (tiered : Bool) : Dest :=
  if tiered then .lake (Config.lakeHome part entry % 2)
  else if isNear pa then .die (nearDie pa) else .lake (lakeDie pa)

/-- The die on which the home-together segment of the page of a table entry is rehomed while the page is served from the lake (24
R363): all its locations share that destination (05 R111). -/
def State.rehomedDie (s : State) (part entry : Nat) : Option Nat :=
  (s.rehomed.find? fun x => decide (x.1 = part) &&
    match walk s.mem.read64 (s.parts.getD part Partition.reset).ptRoot x.2.1 false with
    | .page _ e => decide (e = entry)
    | _ => false).map (·.2.2)

/-- Translate offset `o` of a segment for an access by launch `l` from die `die` (03 R70 step 5, R66, R87, 23 R345). An access
to a peer module that is not known or not reachable waits (DESIGN CHOICE, assumption 76). A peer's tiered page goes to the die that
holds it now (DESIGN CHOICE, assumption 93: R111 names its lake home, R87 the physical address). -/
def State.translate (s : State) (l : Launch) (t : TeamId) (die : Nat) (v : SegView) (o : Nat) (write : Bool) : Tr :=
  let va := v.base + o
  match v.space with
  | .scratch => .ok ⟨.spad t o, none, .die die, none⟩
  | .priv => .ok ⟨.priv t o, none, .die die, none⟩
  | .fused => .ok ⟨.fused l.seq o, none, .die die, none⟩
  | .window => .stop (.reservedPhysicalAddress va)
  | .host =>
    match ((s.fns.getD l.fn Fn.reset).ats.find? fun e => decide (e.page = va / 0x10000)) with
    | some e => if write && !e.writable then .page va none true
      else
        let port : Dest := .host (linkOfFn l.fn)
        .ok ⟨.host l.fn (e.bus * 0x10000 + va % 0x10000), some port, port, none⟩
    | none => .page va none true
  | .peer =>
    match s.peers.find? fun p => decide (p.mod = v.peerMod) with
    | none => .stall
    | some p =>
      if !p.reachable then .stall
      else match p.roots.find? fun r => decide (r.1 = v.peerPart) with
        | none => .page va (some (v.peerMod, v.peerPart)) false
        | some r => match walk p.mem.read64 r.2 va write with
          | .fault => .page va (some (v.peerMod, v.peerPart)) false
          | .transit => .stall
          | .page pa e =>
            if isNear pa || isLake pa then
              let port : Dest := .peer p.mod (if isNear pa then nearDie pa else 8 + lakeDie pa)
              .ok ⟨.peer p.mod pa, some port, port, some (some p.mod, e)⟩
            else .stop (.reservedPhysicalAddress pa)
  | _ =>
    match walk s.mem.read64 (s.parts.getD l.fn Partition.reset).ptRoot va write with
    | .fault => .page va none false
    | .transit => .stall
    | .page pa e =>
      if isNear pa || isLake pa then
        if write && s.cowHit l.seq pa then .stall
        else
          let here := isNear pa && decide (nearDie pa = die)
          let port := ((s.rehomedDie l.fn e).map Dest.die).getD (destOfPa l.fn e pa v.tiered)
          .ok ⟨.phys pa, if here then none else some port, port, some (none, e)⟩
      else .stop (.reservedPhysicalAddress pa)

/-- Set the bits of the table entries that accesses went through (03 R78). -/
def State.markHits (s : State) (hs : List Hit) (write : Bool) : State :=
  hs.foldl (fun s h => match h.entry with
    | none => s
    | some (none, e) => { s with mem := markEntry s.mem e write }
    | some (some m, e) =>
      { s with peers := s.peers.map fun p => if p.mod = m then { p with mem := markEntry p.mem e write } else p }) s

/-! The checks of an access (03 R70). -/

/-- Steps 1 and 2 for segment `seg`: the segment, the rights in the order they are named. `vector` admits the private segment, and
`p` is the pointer that a fault records (13 R268). -/
def checkSeg (l : Launch) (seg : Nat) (p : W64) (rights : List Right) (vector : Bool) (lo hi : W64) : Chk SegView :=
  match l.seg? seg with
  | none => .trap (.segment p lo hi)
  | some v =>
    if v.space = .window || (v.space = .priv && !vector) then .trap (.segment p lo hi)
    else match rights.find? fun r => !(v.rights.contains r) with
      | some r => .trap (.permission r p lo hi)
      | none => .ok v

/-- The pointer that a fault records for exact offset `o` of a segment. Where the offset lies outside 0 to 2^48 - 1 the
addition is modulo 2^64 and carries into SEG (DESIGN CHOICE, assumption 77: the spec does not say how such a pointer is
written). -/
def faultPtr (p : W64) (o : Int) : W64 := p + BitVec.ofInt 64 (o - ptrOff p)

/-- A scalar access of `n` bytes at exact offset `o` of the segment `p` names: the five steps of R70. -/
def State.checkScalar (s : State) (l : Launch) (t : TeamId) (die : Nat) (p : W64) (o : Int) (n : Nat)
    (rights : List Right) (write : Bool) : Chk Hit :=
  (checkSeg l (ptrSeg p) (faultPtr p o) rights false 0 0).andThen fun v =>
    if o % n ≠ 0 then .trap (.alignment (faultPtr p o) 0 0)
    else if o < 0 || o ≥ 2 ^ 48 || o + n > v.limit then .trap (.bounds (faultPtr p o) 0 0)
    else match s.translate l t die v o.toNat write with
      | .ok h => .ok h
      | .page va peer pri => .page va write peer pri 0 0
      | .stall => .hold
      | .stop f => .stop f

/-- The fetch checks (03 R70, 07 R148). -/
def State.checkFetch (s : State) (l : Launch) (t : TeamId) (die : Nat) (p : W64) : Chk Hit :=
  s.checkScalar l t die p (ptrOff p) 4 [.px] false

/-! Result queues (06 R132-R135). -/

/-- Push a slot; the entry at Q16 is discarded. -/
def pushSlot {α : Type} (q : List (Slot α)) (x : Slot α) : List (Slot α) := x :: q.take 15

/-- The scalar queue that instructions name: the trap queue inside a handler (13 R266). -/
def Group.scalarQueue (g : Group) : List SSlot := if g.inTrap then g.trapQueue else g.squeue

def Group.pushS (g : Group) (x : SSlot) : Group :=
  if g.inTrap then { g with trapQueue := pushSlot g.trapQueue x } else { g with squeue := pushSlot g.squeue x }

/-- Write a scalar named destination; NONE writes nothing (06 R130). -/
def Group.writeS (g : Group) (d : BitVec 8) (x : SSlot) : Group :=
  if d.toNat < 128 then { g with sregs := g.sregs.set d.toNat x } else g

def Group.pushV (g : Group) (x : VSlot) : Group := { g with vqueue := pushSlot g.vqueue x }

def Group.writeV (g : Group) (d : BitVec 8) (x : VSlot) : Group :=
  if d.toNat < 128 then { g with vregs := g.vregs.set d.toNat x } else g

/-- Fill every slot that waits for producer `id` with `f` of its old value (06 R135: wherever the entry then stands). -/
def landSlots {α : Type} (id : Nat) (f : α → α) (q : List (Slot α)) : List (Slot α) :=
  q.map fun x => if x.pend = some id then ⟨f x.val, none⟩ else x

/-- The writeback of a scalar result. -/
def Group.landS (g : Group) (id : Nat) (v : W64) : Group :=
  { g with sregs := landSlots id (fun _ => v) g.sregs, squeue := landSlots id (fun _ => v) g.squeue,
           trapQueue := landSlots id (fun _ => v) g.trapQueue }

/-- The writeback of a vector result in the lanes of `mask`. -/
def Group.landV (g : Group) (id : Nat) (mask : List Bool) (v : Lanes) : Group :=
  let f (old : Lanes) : Lanes := Lanes.tab fun l => if mask.getD l false then v.at l else old.at l
  { g with vregs := landSlots id f g.vregs, vqueue := landSlots id f g.vqueue }

/-! Moving past an instruction. -/

/-- After the one instruction that a debugger's RESUME with STEP allowed, the group stops (13 R272). -/
def Group.stepped (g : Group) : Group := if g.stepOnce = .armed then { g with stepOnce := .done, run := .debugStopped } else g

/-- What the instruction at the PC has already done, if it was held (07 R159, 05 R120). -/
def Group.heldHere (g : Group) : Option HeldWhat :=
  (g.held.find? fun h => decide (h.inTrap = g.inTrap) && decide (h.pc = g.pc)).map (·.what)

/-- Nothing is held at this level of the group any more. -/
def Group.unheld (g : Group) : Group := { g with held := g.held.filter fun h => decide (h.inTrap ≠ g.inTrap) }

/-- The instruction at the PC is held, having done `w`. -/
def Group.hold (g : Group) (w : HeldWhat) : Group :=
  { g.unheld with held := g.unheld.held ++ [⟨g.inTrap, g.pc, w⟩], stall := .barrier, begun := true }

/-- The group has come to an instruction boundary: it stops there where a stop is due (25 R376), or after a single step. -/
def Group.bounded (g : Group) : Group := match g.due with
  | none => g.stepped
  | some r => { g with run := r, due := none, stepOnce := if r = .debugStopped then .off else g.stepOnce }

/-- The instruction has issued: PC + 4 (07 R148), or the next rewritten word at the same PC (25 R376). -/
def Group.advance (g : Group) : Group :=
  match g.rewriting with
  | some (_ :: w :: ws, slot) =>
    { g.unheld with rewriting := some (w :: ws, slot), decoded := none, begun := true, stall := .issued }
  | _ => Group.bounded { g.unheld with pc := g.pc + 4, rewriting := none, decoded := none, begun := true, stall := .issued }

/-- The instruction has moved the program counter. -/
def Group.jump (g : Group) (target : W64) : Group :=
  Group.bounded { g.unheld with pc := target, rewriting := none, decoded := none, begun := true, stall := .issued }

/-! Page faults (03 R80, 23 R345). -/

/-- Whether the function's fault queue has room. -/
def Fn.faultRoom (f : Fn) : Bool := decide ((f.fqhead - f.fqtail).toNat < 2 ^ (f.fqctl.toNat % 32))

/-- The 32 bytes of a fault entry. -/
def faultEntryBytes (n : Nat) (p : PageFault) : List Byte :=
  let w2 := (if p.write then 1 else 0) + (match p.peer with
    | none => 0
    | some (m, q) => 2 + m * 2 ^ 8 + q * 2 ^ 16)
  leBytes 8 n ++ leBytes 8 p.va ++ leBytes 8 w2 ++ leBytes 8 (p.lid.toNat + 2 ^ 32 * p.team.toNat)

def State.hostWriteBytes (s : State) (link a : Nat) (bs : List Byte) : State :=
  bs.zipIdx.foldl (fun s b => s.hostWrite link (a + b.2) b.1) s

/-- Write an outstanding fault into the fault queue when there is room; else it waits. -/
def State.enterFault (s : State) (fn : Nat) (p : PageFault) : State :=
  let f := s.fns.getD fn Fn.reset
  if p.pri || !f.faultRoom then s.mapFn fn fun f => { f with faults := f.faults ++ [{ p with seqno := none }] }
  else
    let n := f.fseq
    let s1 := s.hostWriteBytes (linkOfFn fn) (f.fqbase.toNat + 32 * (n % 2 ^ (f.fqctl.toNat % 32))) (faultEntryBytes n p)
    s1.mapFn fn fun f => { f with
      fseq := n + 1, fqhead := BitVec.ofNat 32 (n + 1), faults := f.faults ++ [{ p with seqno := some n }] }

/-- A group stops at a page fault, which goes to the driver. -/
def State.groupPageFault (s : State) (id : GroupId) (l : Launch) (va : Nat) (write : Bool) (peer : Option (Nat × Nat))
    (pri : Bool) (lo hi : W64) : State :=
  (s.mapGroup id fun g => { g with run := .pageWait }).enterFault l.fn
    ⟨none, pri, va, write, peer, l.lid, BitVec.ofNat 32 id.team.index, .group id, lo, hi⟩

/-- The producer that stands for the replay entry of a load stopped by a page fault: no operation has its number. -/
def replayProducer : Nat := 0

def emptySlot {α : Type} (x : Slot α) : Slot α := if x.pend.isNone then { x with pend := some replayProducer } else x
def fullSlot {α : Type} (x : Slot α) : Slot α := if x.pend = some replayProducer then { x with pend := none } else x

/-- A load that a page fault stops leaves its named destination empty, behind its replay entry (06 R134, 24 R352). -/
def Group.emptyS (g : Group) (d : BitVec 8) : Group :=
  if d.toNat < 128 then { g with sregs := g.sregs.modify d.toNat emptySlot } else g
def Group.emptyV (g : Group) (d : BitVec 8) : Group :=
  if d.toNat < 128 then { g with vregs := g.vregs.modify d.toNat emptySlot } else g

/-- The load runs again, or its fault is delivered: its destination is full, as before it. -/
def Group.replayed (g : Group) : Group := { g with sregs := g.sregs.map fullSlot, vregs := g.vregs.map fullSlot }

/-! Taking an exception (13 R264-R268, 22 R330, 25 R374). -/

/-- The 8-bit code that a short operand stands for; `none` is a reserved code (06 R127). -/
def b6Code (b : BitVec 6) : Option (BitVec 8) :=
  if b.toNat < 0x20 then some (BitVec.ofNat 8 b.toNat)
  else if b.toNat < 0x30 then some (BitVec.ofNat 8 (0x80 + (b.toNat - 0x20)))
  else if b.toNat = 0x30 then some 0xF0
  else none

/-- The operand code in the field of a word that SUB names (13 R396). -/
def operandAt (w : W32) (sub : BitVec 8) : BitVec 8 :=
  if sub = 0 then w.extractLsb' 16 8
  else if sub = 1 then w.extractLsb' 8 8
  else if sub = 2 then w.extractLsb' 0 8
  else if sub = 3 then (w.extractLsb' 11 5).zeroExtend 8
  else (b6Code (w.extractLsb' 0 6)).getD 0xF0

/-- The origin record of a fused address (22 R330). -/
def SpliceMap.origin? (m : SpliceMap) (pc : W64) : Option Origin :=
  if ptrSeg pc = 0xFFFD && decide (ptrOff pc % 4 = 0) then m.origins[ptrOff pc / 4]? else none

/-- The record of a trap at the group's PC. -/
def mkRecord (l : Launch) (g : Group) (t : TrapInfo) (done : Bool) (vt : W64) : FaultRecord :=
  let slot := match g.rewriting with
    | some (_, k) => some k
    | none => none
  let base : FaultRecord := ⟨t.code, done, false, slot.isSome, false, BitVec.ofNat 4 (slot.getD 0), t.sub, g.pc, t.addr,
    t.info, t.lo, t.hi, 0, vt⟩
  match l.fused with
  | none => base
  | some m => match m.origin? g.pc with
    | some o => { base with
        spliced := true, origin := BitVec.ofNat 64 o.side, pc := mkPtr (m.codeSegs.getD o.side 0) o.off,
        info := if t.code = 0x01 || t.code = 0x02 || t.code = 0x0A then o.word.zeroExtend 64
          else if t.code = 0x09 then (operandAt o.word t.sub).zeroExtend 64 else t.info }
    | none => { base with spliced := true, origin := BitVec.allOnes 64 }

/-- The handler a trap goes to: the launch's TRAPH, or that of the side whose word trapped (22 R330). -/
def handlerOf (l : Launch) (g : Group) : W64 := match l.fused with
  | none => l.trapHandler
  | some m => match m.origin? g.pc with
    | some o => m.traps.getD o.side 0
    | none => m.traps.getD 0 0

/-- Stop the group and report the record to the launch's queue (R265, 23 R344). -/
def State.stopGroup (s : State) (id : GroupId) (r : FaultRecord) : State :=
  (s.mapGroup id fun g => { g with
    record := r, run := .stopped, rewriting := none, due := none, decoded := none, evStop := false, stepOnce := .off, begun := g.begun || r.done }).mapLaunch id.team.launch fun l =>
    { l with nstop := l.nstop + 1, firstStop := l.firstStop.or (some (id.team.index, id.group, r)),
             reports := (id.team.index, id.group, r) :: l.reports }

/-- DELIVER (R265): the record, INTRAP and the handler, or the group stops. A single step counts an instruction that has issued
(R272): a trap with DONE = 0 leaves it armed. -/
def State.deliverRecord (s : State) (l : Launch) (t : Team) (id : GroupId) (g : Group) (r : FaultRecord) : State :=
  if g.inTrap then s.stopGroup id { g.record with double := true }
  else
    let h := handlerOf l g
    if h = 0 then s.stopGroup id r
    else
      let g1 : Group := { g with
        record := r, inTrap := true, trapQueue := List.replicate 16 ⟨0, none⟩, pc := h,
        rewriting := none, decoded := none, run := .running, begun := g.begun || r.done
        stall := if r.done then .issued else .trapped }
      let g' := if r.done then g1.stepped else g1
      match s.checkFetch l id.team (dieOfCore (t.core?.getD 0)) h with
      | .trap _ => (s.setGroup id g').stopGroup id { r with double := true }
      | _ => s.setGroup id g'

/-- The slots of the active patch image (25 R373, 26 R395). -/
def State.patchImage? (s : State) : Option Image := match s.images[4]? with
  | some c => c.active
  | none => none

/-- Among matching slots the one of higher PRIO acts, of equal PRIO the lower number (25 R374). -/
def bestSlot (p : PatchSlot → Bool) (slots : List PatchSlot) : Option (Nat × PatchSlot) :=
  slots.zipIdx.foldl (fun best x =>
    if x.1.enable && p x.1 then match best with
      | some (i, b) => if b.prio < x.1.prio then some (x.2, x.1) else some (i, b)
      | none => some (x.2, x.1)
    else best) none

/-- The fault-path slot that acts on a fault (25 R374). -/
def State.faultSlot? (s : State) (code sub : BitVec 8) : Option (Nat × PatchSlot) := match s.patchImage? with
  | none => none
  | some im => bestSlot (fun p => p.src && decide (p.code = code) && decide (sub &&& p.submask = p.sub &&& p.submask)) im.slots

/-- A 64-bit counter that saturates at all ones (26 R389). -/
def satInc (w : W64) : W64 := if w.toNat + 1 < 2 ^ 64 then w + 1 else w

/-- A slot acts: rewritten words, or the micro-engine's handler with the group held (25 R375-R377). -/
def State.patchAct (s : State) (id : GroupId) (k : Nat) (p : PatchSlot) (word : W32) (r : Option FaultRecord) : State :=
  let s1 := { s with telemetry := { s.telemetry with patchActs := satInc s.telemetry.patchActs } }
  if p.action = 1 then s1.mapGroup id (fun g => { g with rewriting := some (p.words.take p.nrew.toNat, k) })
  else match s.patchImage? with
    | some im => { (s1.mapGroup id fun g => { g with run := .patchWait k }) with
        patchActs := s1.patchActs ++ [⟨id, k, im, word, r⟩] }
    | none => s1

/-- Delivery of CHANNEL_LOST clears the LOST bit of the channel it names, after the record captured CHSTAT (05 R121). -/
def State.clearLost (s : State) (t : TeamId) (r : FaultRecord) : State :=
  if r.code = 0x0B then s.mapTeam t (fun t => { t with lost := t.lost &&& ~~~(BitVec.ofNat 16 (2 ^ r.sub.toNat)) }) else s

/-- Taking an exception: a trap of a group at its PC. A fault that a fault-path slot matches is the slot's, unless it
arose in a patch action (25 R374). -/
def State.deliver (s : State) (id : GroupId) (ti : TrapInfo) (done : Bool) (word : W32) : State :=
  match s.team? id.team, s.launch? id.team.launch, s.group? id with
  | some t, some l, some g =>
    let r := mkRecord l g ti done (s.vtime t)
    match (if isFaultClass ti.code && g.rewriting.isNone then s.faultSlot? ti.code ti.sub else none) with
    | some (k, p) => s.patchAct id k p word (some { r with patched := true, pslot := BitVec.ofNat 4 k })
    | none => (s.deliverRecord l t id g r).clearLost id.team r
  | _, _, _ => s

/-- A trap that is not matched again, of a patch action: it is recorded with PATCHED set and its slot (13 R270, 25 R374). -/
def State.deliverPatched (s : State) (id : GroupId) (slot : Nat) (r : FaultRecord) : State :=
  match s.team? id.team, s.launch? id.team.launch, s.group? id with
  | some t, some l, some g =>
    ((s.deliverRecord l t id g { r with patched := true, pslot := BitVec.ofNat 4 slot }).clearLost id.team r)
  | _, _, _ => s

/-- The effect of TRET once its target has passed the fetch checks (13 R269). A held instruction that it does not return to
is given up; one that it returns to is held again (R271). -/
def Group.trapReturn (g : Group) (target : W64) : Group :=
  let g1 := g.jump target
  { g1 with inTrap := false, trapQueue := List.replicate 16 ⟨0, none⟩, held := g1.held.filter fun h => decide (h.pc = target) }

end Sys2Proof.Machine
end

