-- ==== Sys2Proof/Machine/Fresh.lean ====
section
/-! DEFINITION. A group and a team as placement starts them (spec 01 R30, 06 R134, 10 R206, R207, 11 R226, 13 R267,
14 R288, 15 R293). -/

namespace Sys2Proof.Machine

/-- A group at placement: the PC at the kernel entry, MODE at the launch's value, everything else zero and full. -/
def Group.fresh (l : Launch) (slot budget : Nat) : Group where
  slot := slot
  pc := mkPtr l.codeSeg l.krec.entry.toNat
  mode := l.krec.mode
  shape := 0x3F800000
  sregs := List.replicate 128 ⟨0, none⟩
  vregs := List.replicate budget ⟨Lanes.zero, none⟩
  squeue := List.replicate 16 ⟨0, none⟩
  vqueue := List.replicate 16 ⟨Lanes.zero, none⟩
  preds := List.replicate numLanes 0
  nest := List.replicate numLanes 0
  ns := List.replicate 4 NState.cleared
  family := 0
  user := none
  inTrap := false
  trapQueue := List.replicate 16 ⟨0, none⟩
  record := FaultRecord.zero
  vtcmp := BitVec.allOnes 64
  stepcnt := 0
  run := .running
  held := []
  evStream := false
  evCollective := []
  evVtime := false
  evStop := false
  stepOnce := .off
  rewriting := none
  begun := false
  stall := .issued
  mwaited := 0
  due := none
  decoded := none

/-- A sequencer at launch (10 R207). -/
def Sequencer.fresh (l : Launch) : Sequencer :=
  ⟨l.streamEntry, List.replicate 4 0, List.replicate 4 0, List.replicate 4 0, 0, 0, List.replicate 16 0, .run, 0, 0, [],
    false, false, none, false, [], [], []⟩

/-- The allocation of a launch's teams in granules (01 R21). -/
def allocOf (roles : List (Nat × Nat)) : Nat := roles.foldl (fun a r => a + r.1 * r.2 / 8) 0

/-- A tile with all bits zero, by columns of 128 rows (10 R206). -/
def tileZero : List Lanes := List.replicate 256 Lanes.zero

/-- Whether the launch declares matrix use (20 R302). -/
def KernelRec.matrix (k : KernelRec) : Bool := decide (k.nt ≠ 0)

/-- A team as it is placed on a core, its groups taking `slots` (01 R30). -/
def Team.fresh (l : Launch) (index core vtBase : Nat) (slots : List Nat) : Team where
  id := ⟨l.seq, index⟩
  place := .resident core
  vtBase := vtBase
  vtSaved := 0
  budgets := l.krec.roles.map (·.2)
  alloc := allocOf l.krec.roles
  groups := (List.range (groupCount l.krec.lanes)).map fun g =>
    Group.fresh l (slots.getD g 0) ((l.krec.roles.map (·.2)).getD (roleOf l.krec.roles g) 0)
  bars := (List.range 16).map fun n =>
    ⟨l.krec.exps.getD n 1, 0, List.replicate (groupCount l.krec.lanes) false, false,
      List.replicate (groupCount l.krec.lanes) false, []⟩
  chans := List.replicate 16 Channel.empty
  resyncs := 0
  lost := 0
  spad := Memory.writeBytes [] 0 l.spadImage
  priv := []
  seq := if l.krec.matrix then some (Sequencer.fresh l) else none
  tiles := List.replicate l.krec.nt tileZero
  frozen := false
  preempt := none
  saveHdr := none
  saveBarred := false

end Sys2Proof.Machine
end

