-- ==== Sys2Proof/Machine/Float.lean ====
section
/-! DEFINITION. The IEEE formats, the five rounding modes and exact arithmetic with one rounding (spec 02 R40-R46), and
the element types (R47-R49). A number is held exactly as sign, magnitude and power of two; a magnitude that is not
dyadic is held by the integer below it and a sticky mark. -/

namespace Sys2Proof.Machine

/-- An IEEE binary format (R40). -/
structure FpFmt where
  expBits : Nat
  fracBits : Nat
  deriving DecidableEq, Repr

def fp32 : FpFmt := ⟨8, 23⟩
def fp16 : FpFmt := ⟨5, 10⟩
def bf16 : FpFmt := ⟨8, 7⟩

def FpFmt.width (f : FpFmt) : Nat := 1 + f.expBits + f.fracBits
def FpFmt.bias (f : FpFmt) : Nat := 2 ^ (f.expBits - 1) - 1
/-- The pattern of +∞. -/
def FpFmt.inf (f : FpFmt) : Nat := (2 ^ f.expBits - 1) * 2 ^ f.fracBits
/-- The pattern of the largest finite value. -/
def FpFmt.maxFin (f : FpFmt) : Nat := f.inf - 1
/-- The canonical NaN (R41). -/
def FpFmt.nan (f : FpFmt) : Nat := f.inf + 2 ^ (f.fracBits - 1)
def FpFmt.signBit (f : FpFmt) : Nat := 2 ^ (f.expBits + f.fracBits)
/-- Exponent of the last place of a subnormal. -/
def FpFmt.qmin (f : FpFmt) : Int := 1 - (f.bias : Int) - f.fracBits

/-- A value of an IEEE format: a finite one is ±m·2^e, with m = 0 a signed zero. -/
inductive Fp where
  | nan
  | inf (neg : Bool)
  | fin (neg : Bool) (m : Nat) (e : Int)
  deriving DecidableEq, Repr

/-- The value of a pattern (R40). -/
def FpFmt.decode (f : FpFmt) (w : Nat) : Fp :=
  let neg := w / f.signBit % 2 == 1
  let ex := w / 2 ^ f.fracBits % 2 ^ f.expBits
  let fr := w % 2 ^ f.fracBits
  if ex = 2 ^ f.expBits - 1 then (if fr = 0 then .inf neg else .nan)
  else if ex = 0 then .fin neg fr f.qmin
  else .fin neg (2 ^ f.fracBits + fr) (f.qmin + (ex : Int) - 1)

/-- The five rounding modes (R44). -/
inductive Rnd where
  | rne | rtz | rup | rdn | rna
  deriving DecidableEq, Repr

/-- The mode of a code of MODE.RND; reserved codes never stand in MODE (06 R138). -/
def Rnd.ofCode (c : BitVec 3) : Rnd :=
  if c = 1 then .rtz else if c = 2 then .rup else if c = 3 then .rdn else if c = 4 then .rna else .rne

def FpFmt.withSign (f : FpFmt) (neg : Bool) (mag : Nat) : Nat := if neg then f.signBit + mag else mag

/-- The result of overflow (R45), saturated when `sat` holds. -/
def FpFmt.overflow (f : FpFmt) (rnd : Rnd) (sat neg : Bool) : Nat :=
  let toMax : Bool := sat || (match rnd with
    | .rne => false | .rna => false | .rtz => true | .rup => neg | .rdn => !neg)
  f.withSign neg (if toMax then f.maxFin else f.inf)

/-- Whether the magnitude with integer part `u`, remainder `rem` of `2^k` and sticky mark moves up (R44). -/
def roundsUp (rnd : Rnd) (neg : Bool) (u rem k : Nat) (sticky : Bool) : Bool :=
  let half := 2 ^ (k - 1)
  let above := decide (0 < k) && (decide (rem > half) || (decide (rem = half) && sticky))
  let tie := decide (0 < k) && decide (rem = half) && !sticky
  let inexact := decide (rem ≠ 0) || sticky
  match rnd with
  | .rne => above || (tie && decide (u % 2 = 1))
  | .rna => above || tie
  | .rtz => false
  | .rup => inexact && !neg
  | .rdn => inexact && neg

/-- The pattern of ±x for m·2^e ≤ x < (m+1)·2^e, x = m·2^e exactly when `sticky` is clear: one rounding (R44, R45). A
sticky magnitude is given at least two bits below the format's last place. -/
def FpFmt.round (f : FpFmt) (rnd : Rnd) (sat neg : Bool) (m : Nat) (e : Int) (sticky : Bool) : Nat :=
  if m = 0 && !sticky then f.withSign neg 0
  else
    let top : Int := e + Nat.log2 m
    let q : Int := max (top - f.fracBits) f.qmin
    if top > (f.bias : Int) then f.overflow rnd sat neg
    else if q ≤ e then
      let u := m * 2 ^ (e - q).toNat
      f.withSign neg ((q - f.qmin).toNat * 2 ^ f.fracBits + u)
    else
      let k := (q - e).toNat
      let far := decide (k > Nat.log2 m + 2)
      let u := if far then 0 else m / 2 ^ k
      let up := if far then roundsUp rnd neg 0 0 1 true else roundsUp rnd neg u (m % 2 ^ k) k sticky
      let mag := (q - f.qmin).toNat * 2 ^ f.fracBits + u + (if up then 1 else 0)
      if mag ≥ f.inf then f.overflow rnd sat neg else f.withSign neg mag

/-- The pattern of ±n/d, d > 0, rounded once. -/
def FpFmt.roundRat (f : FpFmt) (rnd : Rnd) (sat neg : Bool) (n d : Nat) : Nat :=
  let k : Int := (f.fracBits : Int) + 6 + Nat.log2 d - Nat.log2 n
  let num := if 0 ≤ k then n * 2 ^ k.toNat else n
  let den := if 0 ≤ k then d else d * 2 ^ (-k).toNat
  f.round rnd sat neg (num / den) (-k) (decide (num % den ≠ 0))

/-- The pattern of an integer. -/
def FpFmt.roundInt (f : FpFmt) (rnd : Rnd) (sat : Bool) (v : Int) : Nat :=
  f.round rnd sat (decide (v < 0)) v.natAbs 0 false

/-- The exact sum of two finite numbers as a signed magnitude with a sticky mark: a summand far below the other is
replaced by a sticky mark 96 bits below, which no format's rounding can tell apart. -/
def exactSum (na : Bool) (ma : Nat) (ea : Int) (nb : Bool) (mb : Nat) (eb : Int) : Bool × Nat × Int × Bool :=
  let sa : Int := if na then -(ma : Int) else ma
  let sb : Int := if nb then -(mb : Int) else mb
  let near (e : Int) : Bool × Nat × Int × Bool :=
    let t := sa * 2 ^ (ea - e).toNat + sb * 2 ^ (eb - e).toNat
    (decide (t < 0), t.natAbs, e, false)
  let farSum (n : Bool) (m : Nat) (e : Int) (n' : Bool) : Bool × Nat × Int × Bool :=
    if n = n' then (n, m * 2 ^ 96, e - 96, true) else (n, m * 2 ^ 96 - 1, e - 96, true)
  if ma = 0 then (nb, mb, eb, false)
  else if mb = 0 then (na, ma, ea, false)
  else if ea + Nat.log2 ma > eb + Nat.log2 mb + 400 then farSum na ma ea nb
  else if eb + Nat.log2 mb > ea + Nat.log2 ma + 400 then farSum nb mb eb na
  else near (min ea eb)

/-- The rounded sum; the sign of an exact zero is R46's. -/
def FpFmt.roundSum (f : FpFmt) (rnd : Rnd) (sat : Bool) (na : Bool) (ma : Nat) (ea : Int) (nb : Bool) (mb : Nat)
    (eb : Int) : Nat :=
  let r := exactSum na ma ea nb mb eb
  if r.2.1 = 0 && !r.2.2.2 then
    f.withSign (if na = nb then na else decide (rnd = .rdn)) 0
  else f.round rnd sat r.1 r.2.1 r.2.2.1 r.2.2.2

/-- Addition (R41, R45, R46). -/
def FpFmt.add (f : FpFmt) (rnd : Rnd) (sat : Bool) (a b : Fp) : Nat :=
  match a, b with
  | .nan, _ => f.nan
  | _, .nan => f.nan
  | .inf s, .inf t => if s = t then f.withSign s f.inf else f.nan
  | .inf s, _ => f.withSign s f.inf
  | _, .inf t => f.withSign t f.inf
  | .fin s m e, .fin t n g => f.roundSum rnd sat s m e t n g

def Fp.negate : Fp → Fp
  | .nan => .nan
  | .inf s => .inf !s
  | .fin s m e => .fin (!s) m e

def FpFmt.sub (f : FpFmt) (rnd : Rnd) (sat : Bool) (a b : Fp) : Nat := f.add rnd sat a b.negate

/-- The exact product (R41). -/
def Fp.mul (a b : Fp) : Fp :=
  match a, b with
  | .nan, _ => .nan
  | _, .nan => .nan
  | .inf s, .inf t => .inf (s != t)
  | .inf s, .fin t m _ => if m = 0 then .nan else .inf (s != t)
  | .fin s m _, .inf t => if m = 0 then .nan else .inf (s != t)
  | .fin s m e, .fin t n g => .fin (s != t) (m * n) (e + g)

/-- A value as a pattern; an infinity stays one (R45: an infinity from an infinite operand passes through). -/
def FpFmt.encode (f : FpFmt) (rnd : Rnd) (sat : Bool) : Fp → Nat
  | .nan => f.nan
  | .inf s => f.withSign s f.inf
  | .fin s m e => f.round rnd sat s m e false

def FpFmt.mul (f : FpFmt) (rnd : Rnd) (sat : Bool) (a b : Fp) : Nat := f.encode rnd sat (a.mul b)

/-- a × b + c with one rounding. -/
def FpFmt.fma (f : FpFmt) (rnd : Rnd) (sat : Bool) (a b c : Fp) : Nat := f.add rnd sat (a.mul b) c

/-- An infinity that arises from finite operands (R45). -/
def FpFmt.bornInf (f : FpFmt) (sat neg : Bool) : Nat := f.withSign neg (if sat then f.maxFin else f.inf)

/-- Division (R41, R45); 0 ÷ 0 and ∞ ÷ ∞ are invalid. -/
def FpFmt.div (f : FpFmt) (rnd : Rnd) (sat : Bool) (a b : Fp) : Nat :=
  match a, b with
  | .nan, _ => f.nan
  | _, .nan => f.nan
  | .inf _, .inf _ => f.nan
  | .inf s, .fin t _ _ => f.withSign (s != t) f.inf
  | .fin s _ _, .inf t => f.withSign (s != t) 0
  | .fin s m e, .fin t n g =>
    if n = 0 then (if m = 0 then f.nan else f.bornInf sat (s != t))
    else if m = 0 then f.withSign (s != t) 0
    else
      let d := e - g
      f.roundRat rnd sat (s != t) (m * 2 ^ d.toNat) (n * 2 ^ (-d).toNat)

/-- Integer square root by bits, from bit `k - 1` down. -/
def isqrtBits : Nat → Nat → Nat → Nat
  | 0, _, r => r
  | k + 1, n, r => isqrtBits k n (if (r + 2 ^ k) * (r + 2 ^ k) ≤ n then r + 2 ^ k else r)

def isqrt (n : Nat) : Nat := isqrtBits (Nat.log2 n / 2 + 1) n 0

/-- Square root; √−0 is −0, a negative operand is invalid. -/
def FpFmt.sqrt (f : FpFmt) (rnd : Rnd) (sat : Bool) : Fp → Nat
  | .nan => f.nan
  | .inf s => if s then f.nan else f.inf
  | .fin s m e =>
    if m = 0 then f.withSign s 0
    else if s then f.nan
    else
      let k : Int := 2 * f.fracBits + 8 + (e % 2)
      let n := m * 2 ^ k.toNat
      let r := isqrt n
      f.round rnd sat false r ((e - k) / 2) (decide (r * r ≠ n))

/-- Reciprocal square root. -/
def FpFmt.rsqrt (f : FpFmt) (rnd : Rnd) (sat : Bool) : Fp → Nat
  | .nan => f.nan
  | .inf s => if s then f.nan else 0
  | .fin s m e =>
    if m = 0 then f.bornInf sat s
    else if s then f.nan
    else
      let k : Int := 2 * (Nat.log2 m) + 2 * f.fracBits + 8 + (e % 2)
      let n := 2 ^ k.toNat
      let r := isqrt (n / m)
      f.round rnd sat false r ((-e - k) / 2) (decide (r * r * m ≠ n))

/-- Rounded to an integral value under `rnd`, as an integer (08 R172). -/
def integralOf (rnd : Rnd) (neg : Bool) (m : Nat) (e : Int) : Int :=
  let mag : Nat :=
    if 0 ≤ e then m * 2 ^ e.toNat
    else
      let k := (-e).toNat
      let u := m / 2 ^ k
      u + (if roundsUp rnd neg u (m % 2 ^ k) k false then 1 else 0)
  if neg then -(mag : Int) else mag

/-- Comparison of two numbers that are not NaN: the sign of a − b as −1, 0, 1. -/
def Fp.cmp (a b : Fp) : Int :=
  match a, b with
  | .nan, _ => 0
  | _, .nan => 0
  | .inf s, .inf t => if s = t then 0 else if s then -1 else 1
  | .inf s, _ => if s then -1 else 1
  | _, .inf t => if t then 1 else -1
  | .fin s m e, .fin t n g =>
    let r := exactSum s m e (!t) n g
    if r.2.1 = 0 && !r.2.2.2 then 0 else if r.1 then -1 else 1

/-- The smaller or larger of two patterns of a format (08 R168): a NaN operand gives the canonical NaN, and −0 is below +0. -/
def fpMinMax (f : FpFmt) (max : Bool) (a b : Nat) : Nat :=
  match f.decode a, f.decode b with
  | .nan, _ => f.nan
  | _, .nan => f.nan
  | x, y =>
    let c := x.cmp y
    if c = 0 then (if decide (a / f.signBit % 2 = 1) == max then b else a)
    else if decide (c < 0) == max then b else a

/-! Element types (R47). -/

inductive ElemType where
  | int32 | nat32 | fp32 | hf16x2 | bf16x2 | int16x2 | nat16x2 | int8x4 | nat8x4
  deriving DecidableEq, Repr

/-- The type of a code of MODE.ETYPE; reserved codes never stand in MODE (06 R138). -/
def ElemType.ofCode (c : BitVec 4) : ElemType :=
  if c = 1 then .nat32 else if c = 2 then .fp32 else if c = 3 then .hf16x2 else if c = 4 then .bf16x2
  else if c = 5 then .int16x2 else if c = 6 then .nat16x2 else if c = 7 then .int8x4 else if c = 8 then .nat8x4
  else .int32

/-- Width of a sub-element (R47). -/
def ElemType.width : ElemType → Nat
  | .int32 => 32 | .nat32 => 32 | .fp32 => 32
  | .hf16x2 => 16 | .bf16x2 => 16 | .int16x2 => 16 | .nat16x2 => 16
  | .int8x4 => 8 | .nat8x4 => 8

/-- The IEEE format of a floating type. -/
def ElemType.fmt? : ElemType → Option FpFmt
  | .fp32 => some Machine.fp32
  | .hf16x2 => some fp16
  | .bf16x2 => some bf16
  | _ => none

def ElemType.isFloat (t : ElemType) : Bool := t.fmt?.isSome

def ElemType.isSigned : ElemType → Bool
  | .int32 => true | .int16x2 => true | .int8x4 => true | _ => false

/-- The sub-elements of an element, sub-element 0 first (R48). -/
def ElemType.split (t : ElemType) (w : W32) : List Nat :=
  (List.range (32 / t.width)).map fun i => w.toNat / 2 ^ (t.width * i) % 2 ^ t.width

/-- The element of sub-elements of width `wd`. -/
def joinSubs (wd : Nat) : List Nat → Nat
  | [] => 0
  | x :: xs => x % 2 ^ wd + 2 ^ wd * joinSubs wd xs

/-- The element whose sub-elements are given (R48). -/
def ElemType.join (t : ElemType) (l : List Nat) : W32 := BitVec.ofNat 32 (joinSubs t.width l)

/-- The integer a sub-element pattern stands for (R47). -/
def ElemType.toInt (t : ElemType) (x : Nat) : Int :=
  if t.isSigned && decide (2 ^ (t.width - 1) ≤ x) then (x : Int) - 2 ^ t.width else x

def ElemType.minInt (t : ElemType) : Int := if t.isSigned then -(2 ^ (t.width - 1)) else 0
def ElemType.maxInt (t : ElemType) : Int := if t.isSigned then 2 ^ (t.width - 1) - 1 else 2 ^ t.width - 1

/-- Clamp to the range of the type. -/
def ElemType.clamp (t : ElemType) (v : Int) : Int := max t.minInt (min t.maxInt v)

/-- The pattern of an integer modulo 2^w. -/
def ElemType.wrap (t : ElemType) (v : Int) : Nat := (v % 2 ^ t.width).toNat

/-- The pattern of an integer result (R49). -/
def ElemType.ofInt (t : ElemType) (sat : Bool) (v : Int) : Nat := t.wrap (if sat then t.clamp v else v)

/-! Reals given by bounds: exponentials and logarithms. -/

/-- lo ≤ x·2^p ≤ hi for a series of `n` terms of ln((1+z)/(1−z)), z = num/den with num < den: twice the sum of
z^(2i+1)/(2i+1). `zp` is z^(2i+1) scaled, `i` the index. -/
def lnSeries : Nat → Nat → Nat → Nat → Nat → Nat → Nat × Nat
  | 0, _, _, zp, i, _ => (0, 4 * (zp + 1) + i + 4)
  | n + 1, num, den, zp, i, acc =>
    let r := lnSeries n num den (zp * num * num / (den * den)) (i + 1) acc
    (r.1 + 2 * (zp / (2 * i + 1)), r.2 + 2 * (zp / (2 * i + 1)) + 4)

/-- Bounds of ln(n/d), 1 ≤ n/d ≤ 2, scaled by 2^p. The error of the truncated powers is below 2 units a term. -/
def lnBounds (p n d : Nat) : Nat × Nat :=
  let num := n - d
  let den := n + d
  lnSeries (p / 3 + 4) num den (2 ^ p * num / den) 0 0

/-- Bounds of log2(n/d), n, d > 0, scaled by 2^p, as integers. -/
def log2Bounds (p n d : Nat) : Int × Int :=
  let k : Int := (Nat.log2 n : Int) - Nat.log2 d
  let n1 := n * 2 ^ (-k).toNat
  let d1 := d * 2 ^ k.toNat
  let k' : Int := if n1 < d1 then k - 1 else k
  let n2 := if n1 < d1 then 2 * n1 else n1
  let g := lnBounds (p + 16) n2 d1
  let l2 := lnBounds (p + 16) 2 1
  (k' * 2 ^ p + ((g.1 * 2 ^ p / l2.2 : Nat) : Int), k' * 2 ^ p + ((g.2 * 2 ^ p / l2.1 + 1 : Nat) : Int))

/-- Taylor bounds of e^(y/2^p), 0 ≤ y < 2^(p+1), scaled by 2^p. -/
def expSeriesLo : Nat → Nat → Nat → Nat → Nat → Nat
  | 0, _, _, t, _ => t - t
  | n + 1, p, y, t, i => t + expSeriesLo n p y (t * y / 2 ^ p / (i + 1)) (i + 1)

def expSeriesHi : Nat → Nat → Nat → Nat → Nat → Nat
  | 0, _, _, t, _ => 2 * t + 2
  | n + 1, p, y, t, i => t + expSeriesHi n p y ((t * y / 2 ^ p + 1) / (i + 1) + 1) (i + 1)

/-- A positive real within [lo, hi]·2^e. -/
structure Bounds where
  lo : Nat
  hi : Nat
  e : Int
  deriving DecidableEq, Repr

/-- Bounds of 2^y for lo ≤ y·2^p ≤ hi. -/
def exp2Bounds (p : Nat) (lo hi : Int) : Bounds :=
  let i := lo / 2 ^ p
  let l2 := lnBounds (p + 16) 2 1
  let flo := (lo - i * 2 ^ p).toNat
  let fhi := (hi - i * 2 ^ p).toNat
  let ylo := flo * l2.1 / 2 ^ (p + 16)
  let yhi := fhi * l2.2 / 2 ^ (p + 16) + 1
  ⟨expSeriesLo (p / 2 + 8) p ylo (2 ^ p) 0, expSeriesHi (p / 2 + 8) p yhi (2 ^ p) 0, i - p⟩

/-- The pattern of a positive real given by bounds at two precisions: where both ends round alike, that is the result;
where they still differ at the higher precision, the short number between them is the value (assumption 8). -/
def FpFmt.roundBounds (f : FpFmt) (rnd : Rnd) (sat neg : Bool) (a b : Bounds) : Nat :=
  let at' (x : Nat) (e : Int) := f.round rnd sat neg x e true
  if at' a.lo a.e = at' a.hi a.e then at' a.lo a.e
  else if at' b.lo b.e = at' b.hi b.e then at' b.lo b.e
  else
    let k := Nat.log2 b.hi - (f.fracBits + 3)
    f.round rnd sat neg (b.hi / 2 ^ k) (b.e + k) false

/-- 2^(±n/d) rounded once, with the power limited to where every format has long over- or underflowed. -/
def FpFmt.exp2Rat (f : FpFmt) (rnd : Rnd) (sat neg : Bool) (n d : Nat) : Nat :=
  if n % d = 0 then
    let k : Int := min (n / d) 100000
    f.round rnd sat false 1 (if neg then -k else k) false
  else if n / d > 100000 then f.round rnd sat false 3 (if neg then -100000 else 100000) true
  else
    let go (p : Nat) : Bounds :=
      let q : Int := ((n * 2 ^ p / d : Nat) : Int)
      if neg then exp2Bounds p (-q - 1) (-q) else exp2Bounds p q (q + 1)
    f.roundBounds rnd sat false (go 128) (go 400)

/-- VEXP2 (08 R169): 2^a. -/
def FpFmt.exp2 (f : FpFmt) (rnd : Rnd) (sat : Bool) : Fp → Nat
  | .nan => f.nan
  | .inf s => if s then 0 else f.inf
  | .fin s m e => if m = 0 then f.round rnd sat false 1 0 false
    else if e > 64 then f.exp2Rat rnd sat s (2 ^ 64) 1
    else if e < -300 then f.round rnd sat false (if s then 2 ^ 200 - 1 else 2 ^ 200) (-200) true
    else f.exp2Rat rnd sat s (m * 2 ^ e.toNat) (2 ^ (-e).toNat)

/-- The pattern of a real between signed bounds scaled by 2^p, not zero. -/
def FpFmt.roundSigned (f : FpFmt) (rnd : Rnd) (sat : Bool) (p q : Nat) (a b : Int × Int) : Nat :=
  let mk (p : Nat) (x : Int × Int) : Bounds :=
    ⟨min x.1.natAbs x.2.natAbs, max x.1.natAbs x.2.natAbs, -(p : Int)⟩
  f.roundBounds rnd sat (decide (b.2 ≤ 0)) (mk p a) (mk q b)

/-- log2(n/d) rounded once. -/
def FpFmt.log2Rat (f : FpFmt) (rnd : Rnd) (sat : Bool) (n d : Nat) : Nat :=
  let k : Int := (Nat.log2 n : Int) - Nat.log2 d
  if n * 2 ^ (-k).toNat = d * 2 ^ k.toNat then f.roundInt rnd sat k
  else f.roundSigned rnd sat 160 400 (log2Bounds 160 n d) (log2Bounds 400 n d)

/-- VLOG2 (08 R169). -/
def FpFmt.log2 (f : FpFmt) (rnd : Rnd) (sat : Bool) : Fp → Nat
  | .nan => f.nan
  | .inf s => if s then f.nan else f.inf
  | .fin s m e => if m = 0 then f.bornInf sat true
    else if s then f.nan
    else f.log2Rat rnd sat (m * 2 ^ e.toNat) (2 ^ (-e).toNat)

end Sys2Proof.Machine
end

