-- ==== Sys2Proof/Machine/Flags.lean ====
section
/-! DEFINITION. The issuing group's context, the fields of MODE (spec 06 R137), guards and lane activity (spec 01 R11,
R13), lane masks. The device keeps no arithmetic flags (spec 02 R43): predicates and nesting counters are the only ones. -/

namespace Sys2Proof.Machine

/-- Everything an instruction of a group reads. -/
structure Ctx where
  s : State
  id : GroupId
  team : Team
  launch : Launch
  group : Group
  core : Nat

/-- The context of a group of a resident team. -/
def State.ctx? (s : State) (id : GroupId) : Option Ctx :=
  match s.team? id.team, s.launch? id.team.launch with
  | some t, some l => match t.groups[id.group]?, t.core? with
    | some g, some c => some ⟨s, id, t, l, g, c⟩
    | _, _ => none
  | _, _ => none

def Ctx.die (c : Ctx) : Nat := dieOfCore c.core

/-! MODE (R137). -/

def modeEtype (m : BitVec 24) : ElemType := .ofCode (m.extractLsb' 5 4)
def modeRnd (m : BitVec 24) : Rnd := .ofCode (m.extractLsb' 9 3)
def modeSat (m : BitVec 24) : Bool := m.getLsbD 12
def modeColour (m : BitVec 24) : BitVec 3 := m.extractLsb' 13 3
def modeEpa (m : BitVec 24) : Bool := m.getLsbD 16
def modeEpb (m : BitVec 24) : Bool := m.getLsbD 17
def modeEpd (m : BitVec 24) : Bool := m.getLsbD 18
def modeDpol (m : BitVec 24) : Bool := m.getLsbD 19

/-- Whether MODE IMM24 accepts a value (R138). -/
def modeLegal (m : BitVec 24) : Bool :=
  decide (m.extractLsb' 20 4 = 0) && decide ((m.extractLsb' 9 3).toNat ≤ 4) && decide ((m.extractLsb' 5 4).toNat ≤ 8) &&
  (m.getLsbD 4 || decide (m.extractLsb' 0 4 = 0))

def Ctx.ty (c : Ctx) : ElemType := modeEtype c.group.mode
def Ctx.rnd (c : Ctx) : Rnd := modeRnd c.group.mode
def Ctx.sat (c : Ctx) : Bool := modeSat c.group.mode

/-! Lanes (01 R11, R13). -/

/-- A lane is absent when LANE + 128·GROUP ≥ L (R11). -/
def Ctx.absent (c : Ctx) (l : Nat) : Bool := decide (c.launch.krec.lanes ≤ l + numLanes * c.id.group)

/-- The guard of MODE over a lane's predicate byte (R13, 06 R137). -/
def guardHolds (mode : BitVec 24) (preds : BitVec 8) : Bool :=
  !(mode.getLsbD 4) || (preds.getLsbD (mode.extractLsb' 0 3).toNat != mode.getLsbD 3)

/-- A lane is active (R13). -/
def Ctx.active (c : Ctx) (l : Nat) : Bool :=
  !c.absent l && decide (c.group.nest.getD l 0 = 0) && guardHolds c.group.mode (c.group.preds.getD l 0)

def Ctx.activeMask (c : Ctx) : List Bool := (List.range numLanes).map c.active

/-- Some lane is active. -/
def Ctx.anyActive (c : Ctx) : Bool := (List.range numLanes).any c.active

/-- The lanes a predicate holds in, as MASKLO and MASKHI (13 R267). -/
def laneMask (f : Nat → Bool) : W64 × W64 :=
  let half (base : Nat) := (List.range 64).foldl (fun a l => if f (base + l) then a + 2 ^ l else a) 0
  (BitVec.ofNat 64 (half 0), BitVec.ofNat 64 (half 64))

/-- Predicate `p` of a lane (01 R15). -/
def Ctx.pred (c : Ctx) (p l : Nat) : Bool := (c.group.preds.getD l 0).getLsbD p

/-- A predicate byte with bit `p` set to `b`. -/
def setPredBit (w : BitVec 8) (p : Nat) (b : Bool) : BitVec 8 :=
  if b then w ||| BitVec.ofNat 8 (2 ^ p) else w &&& ~~~(BitVec.ofNat 8 (2 ^ p))

/-- Write predicate `p` in the lanes of `on` (08 R176: inactive lanes keep theirs). -/
def Group.setPred (g : Group) (p : Nat) (on : Nat → Bool) (f : Nat → Bool) : Group :=
  { g with preds := (List.range numLanes).map fun l =>
      let w := g.preds.getD l 0
      if on l then setPredBit w p (f l) else w }

end Sys2Proof.Machine
end

