-- ==== Sys2Proof/Machine/Operands.lean ====
section
/-! DEFINITION. Operand codes (spec 06 R128-R131), the short operand B6 (R127), inline constants and their extension
(R140, R141), the specials (R131). -/

namespace Sys2Proof.Machine

/-! Inline constants (R140). -/

/-- The exact value of an entry: an integer, a fraction, a real between m·2^-128 and (m+1)·2^-128, or one of K60-K63. -/
inductive KVal where
  | int (v : Int)
  | frac (neg : Bool) (n d : Nat)
  | real (m : Nat)
  | inf (neg : Bool)
  | nan
  | ones
  deriving DecidableEq, Repr

def kIntegers : List Int :=
  [0, 1, 2, 3, 4, 5, 6, 7, 8, 9, 10, 11, 12, 13, 14, 15, 16, -1, -2, -3, -4, -5, -6, -7, -8,
   31, 32, 63, 64, 127, 128, 255, 256, 1024, 4096, 65535, 65536, 16777216]

/-- K38 to K63. The irrational entries are given by their first 128 fractional bits. -/
def kOthers : List KVal :=
  [.frac false 1 2, .frac false 1 4, .frac false 1 8, .frac false 1 128, .frac false 1 256, .frac false 1 65536,
   .frac false 1 16777216, .frac true 1 2, .frac false 3 2, .frac false 1 3, .frac false 2 3,
   .real 0xb17217f7d1cf79abc9e3b39803f2f6af, .real 0x171547652b82fe1777d0ffda0d23a7d11,
   .real 0x24d763776aaa2b05ba95b58ae0b4c28a3, .real 0x3243f6a8885a308d313198a2e03707344,
   .real 0x517cc1b727220a94fe13abe8fa9a6ee0, .real 0x6487ed5110b4611a62633145c06e0e689,
   .real 0x2b7e151628aed2a6abf7158809cf4f3c7, .real 0x16a09e667f3bcc908b2fb1366ea957d3e,
   .real 0xb504f333f9de6484597d89b3754abe9f, .real 0x16a09e667f3bcc908b2fb1366ea957d3, .frac false 1 10,
   .inf false, .inf true, .nan, .ones]

def kVal (k : Nat) : KVal := if k < 38 then .int (kIntegers.getD k 0) else kOthers.getD (k - 38) .ones

/-- Extension in scalar context (R141); `none` is an illegal-operand fault. -/
def scalarConst (k : Nat) : Option W64 := match kVal k with
  | .int v => some (BitVec.ofInt 64 v)
  | .ones => some (BitVec.allOnes 64)
  | _ => none

/-- Extension to an IEEE sub-element (R141). -/
def fpConst (f : FpFmt) (rnd : Rnd) (sat : Bool) : KVal → Nat
  | .int v => f.roundInt rnd sat v
  | .frac neg n d => f.roundRat rnd sat neg n d
  | .real m => f.round rnd sat false m (-128) true
  | .inf neg => f.withSign neg f.inf
  | .nan => f.nan
  | .ones => 2 ^ f.width - 1

/-- Extension to an integer sub-element (R141). -/
def intConst (t : ElemType) : KVal → Option Nat
  | .int v =>
    if t.minInt ≤ v ∧ v ≤ t.maxInt then some (t.wrap v)
    else if !t.isSigned && decide (v < 0) && decide (-(2 ^ (t.width - 1)) ≤ v) then some (t.wrap v)
    else none
  | .ones => some (2 ^ t.width - 1)
  | _ => none

/-- A sub-element pattern in every sub-element. -/
def ElemType.fill (t : ElemType) (x : Nat) : W32 := t.join (List.replicate (32 / t.width) x)

/-- Extension in vector context (R141). -/
def vectorConst (t : ElemType) (rnd : Rnd) (sat : Bool) (k : Nat) : Option W32 :=
  match t.fmt? with
  | some f => some (t.fill (fpConst f rnd sat (kVal k)))
  | none => (intConst t (kVal k)).map t.fill

/-! Specials (R131). -/

/-- The specials that are the same in both contexts, by code. -/
def Ctx.special (c : Ctx) (code : Nat) : Nat :=
  let x := c.id.team.index
  if code = 0xF2 then c.id.group
  else if code = 0xF3 then x % c.launch.gridX
  else if code = 0xF4 then x / c.launch.gridX % c.launch.gridY
  else if code = 0xF5 then x / (c.launch.gridX * c.launch.gridY)
  else if code = 0xF6 then roleOf c.launch.krec.roles c.id.group
  else if code = 0xF7 then groupCount c.launch.krec.lanes
  else if code = 0xF8 then c.launch.krec.lanes
  else if code = 0xF9 then c.launch.gridX
  else if code = 0xFA then c.launch.gridY
  else if code = 0xFB then c.launch.gridZ
  else if code = 0xFE then c.team.budgetOf c.launch c.id.group
  else 0

/-- The role's current budget per lane (01 R20). -/
def Ctx.budget (c : Ctx) : Nat := c.team.budgetOf c.launch c.id.group

/-! Legality of a code (R129, R130; R143 step 4). -/

def scalarSrcLegal (code : BitVec 8) : Bool :=
  decide (code.toNat < 0xD0) || (decide (0xF0 ≤ code.toNat) && decide (code.toNat ≠ 0xF1) &&
    decide (code.toNat < 0xFC)) || decide (code.toNat = 0xFE)

def Ctx.vectorSrcLegal (c : Ctx) (code : BitVec 8) : Bool :=
  if code.toNat < 0x80 then decide (code.toNat < c.budget) else decide (code.toNat ≠ 0xFF)

def scalarDstLegal (code : BitVec 8) : Bool := decide (code.toNat < 0x80) || decide (code.toNat = 0xFF)

def Ctx.vectorDstLegal (c : Ctx) (code : BitVec 8) : Bool :=
  decide (code.toNat < 0x80 ∧ code.toNat < c.budget) || decide (code.toNat = 0xFF)

/-- Whether a code names an inline constant. -/
def isConst (code : BitVec 8) : Bool := decide (0x90 ≤ code.toNat) && decide (code.toNat < 0xD0)

/-! Reading. -/

/-- The slot a scalar code names, when it names a register or a queue entry. -/
def Ctx.scalarSlot? (c : Ctx) (code : BitVec 8) : Option SSlot :=
  if code.toNat < 0x80 then some (c.group.sregs.getD code.toNat ⟨0, none⟩)
  else if code.toNat < 0x90 then some (c.group.scalarQueue.getD (code.toNat - 0x80) ⟨0, none⟩)
  else none

/-- The slot a vector code names. -/
def Ctx.vectorSlot? (c : Ctx) (code : BitVec 8) : Option VSlot :=
  if code.toNat < 0x80 then some (c.group.vregs.getD code.toNat ⟨Lanes.zero, none⟩)
  else if code.toNat < 0x90 then some (c.group.vqueue.getD (code.toNat - 0x80) ⟨Lanes.zero, none⟩)
  else none

/-- The producer that a scalar operand waits for, if it is empty (R134, R135). -/
def Ctx.scalarPend (c : Ctx) (code : BitVec 8) : Option Nat := (c.scalarSlot? code).bind (·.pend)

/-- The producer that a vector operand waits for; a broadcast follows its scalar register (R136). -/
def Ctx.vectorPend (c : Ctx) (code : BitVec 8) : Option Nat :=
  if 0xD0 ≤ code.toNat ∧ code.toNat < 0xF0 then (c.group.sregs.getD (code.toNat - 0xD0) ⟨0, none⟩).pend
  else (c.vectorSlot? code).bind (·.pend)

/-- A scalar operand is empty (R134). -/
def Ctx.scalarEmpty (c : Ctx) (code : BitVec 8) : Bool := (c.scalarPend code).isSome

/-- A vector operand is empty. -/
def Ctx.vectorEmpty (c : Ctx) (code : BitVec 8) : Bool := (c.vectorPend code).isSome

/-- The value of a scalar operand (R129, R131, R141). -/
def Ctx.readS (c : Ctx) (code : BitVec 8) : W64 := match c.scalarSlot? code with
  | some x => x.val
  | none =>
    if isConst code then (scalarConst (code.toNat - 0x90)).getD 0
    else BitVec.ofNat 64 (c.special code.toNat)

/-- (a − b) mod 2^32 < 2^31 (10 R220, R223). -/
def reached32 (a b : W32) : Bool := decide ((a - b).toNat < 2 ^ 31)

/-- The stream operation writes this register of a group. -/
def StreamOp.gives (g r : Nat) : StreamOp → Bool
  | .mxread _ _ grp _ vd _ => decide (grp = g) && decide (vd ≤ r) && decide (r < vd + 32)
  | _ => false

/-- A register that an MXREAD of the stream writes, before the group has passed the MWAIT of its batch (10 R224). -/
def Sequencer.earlyReg (q : Sequencer) (mwaited : W32) (g r : Nat) : Bool :=
  (q.ops ++ q.outs).any fun x => x.2.gives g r && !reached32 mwaited x.1

/-- A vector operand that the group reads too early: its value is undefined (10 R224). -/
def Ctx.tooEarly (c : Ctx) (code : BitVec 8) : Bool := decide (code.toNat < 0x80) && match c.team.seq with
  | some q => q.earlyReg c.group.mwaited c.id.group code.toNat
  | none => false

/-- The value of a vector operand whose constants are extended to type `t` (R129, R131, R141). -/
def Ctx.readVT (c : Ctx) (t : ElemType) (code : BitVec 8) : Lanes := match c.vectorSlot? code with
  | some x => if c.tooEarly code then Lanes.tab fun l => Config.undefElem c.s.free (128 * code.toNat + l) else x.val
  | none =>
    if isConst code then List.replicate numLanes ((vectorConst t c.rnd c.sat (code.toNat - 0x90)).getD 0)
    else if code.toNat < 0xF0 then
      List.replicate numLanes ((c.group.sregs.getD (code.toNat - 0xD0) ⟨0, none⟩).val.truncate 32)
    else if code = 0xF1 then Lanes.tab fun l => BitVec.ofNat 32 l
    else if code = 0xFC then Lanes.tab fun l => (c.group.preds.getD l 0).zeroExtend 32
    else if code = 0xFD then Lanes.tab fun l => (c.group.nest.getD l 0).zeroExtend 32
    else List.replicate numLanes (BitVec.ofNat 32 (c.special code.toNat))

/-- The value of a vector operand under MODE.ETYPE. -/
def Ctx.readV (c : Ctx) (code : BitVec 8) : Lanes := c.readVT c.ty code

/-- The bounded pointer of a PTR field (R127). -/
def Ctx.readPtr (c : Ctx) (p : BitVec 5) : W64 := (c.group.sregs.getD p.toNat ⟨0, none⟩).val

/-- The scalar value of a short operand. -/
def Ctx.readB6S (c : Ctx) (b : BitVec 6) : W64 := c.readS ((b6Code b).getD 0xF0)

/-- The vector value of a short operand: no constant has a short code. -/
def Ctx.readB6V (c : Ctx) (b : BitVec 6) : Lanes := c.readV ((b6Code b).getD 0xF0)

end Sys2Proof.Machine
end

