-- ==== Sys2Proof/Machine/Issue.lean ====
section
/-! DEFINITION. The issue of an instruction of a group: the checks of spec 06 R143 in their order, each operand field
stated once as a `Need`; holding (R135, R136); the completion of an instruction that gives a result (R132, R133). -/

namespace Sys2Proof.Machine

abbrev Res := Host.Outcome State Fault Refusal

/-- The MODE bit that decides what an empty operand does (06 R136). -/
inductive Pol where
  | epa | epb | epd
  deriving DecidableEq, Repr

def Ctx.policy (c : Ctx) : Pol → Bool
  | .epa => modeEpa c.group.mode
  | .epb => modeEpb c.group.mode
  | .epd => modeEpd c.group.mode

/-- What a field of an instruction asks for. `sub` is the SUB that names the field (13 R396). -/
inductive Need where
  /-- A scalar source under an empty policy. -/
  | srcS (sub : BitVec 8) (pol : Pol) (code : BitVec 8)
  /-- A vector source; its constants are extended to MODE.ETYPE. -/
  | srcV (sub : BitVec 8) (pol : Pol) (code : BitVec 8)
  /-- A vector source of a type the instruction fixes, or derives from MODE.ETYPE. -/
  | srcVT (t : ElemType → ElemType) (sub : BitVec 8) (pol : Pol) (code : BitVec 8)
  /-- The D field of an instruction that reads it as a source and writes it back when it names a register (08 R165): a register
  that is empty holds, a queue entry follows EPD (assumption 78). -/
  | srcDst (code : BitVec 8)
  | dstS (sub : BitVec 8) (code : BitVec 8)
  | dstV (code : BitVec 8)
  /-- A named scalar register that is read and written: empty, it holds the instruction whatever the policy (06 R135, 07
  R145; assumption 78). -/
  | rmwS (sub : BitVec 8) (code : BitVec 8)
  /-- A named vector register that is read and written (08 R165); empty, it holds like `rmwS`. -/
  | rmwV (code : BitVec 8)
  | ptr (p : BitVec 5)
  | b6S (b : BitVec 6)
  | b6V (b : BitVec 6)
  /-- The registers S(code) and S(code + 1). -/
  | pairS (code : BitVec 8)
  /-- Named vector registers first to first + n - 1 within the budget, empty none of them. -/
  | rangeV (sub : BitVec 8) (first n : Nat)
  /-- A check of step 4. -/
  | field (sub : BitVec 8) (ok : Bool)
  /-- A check of step 5 on the element type. -/
  | etype (ok : ElemType → Bool)
  /-- A check of step 5 on state sampled at issue. -/
  | sampled (ok : Ctx → Bool)
  /-- An access: no earlier ACQ or ACQREL access of the group is still to be performed (04 R92, R95). -/
  | access
  /-- A release: no earlier store or atomic write of the group, homed on its own die and of a colour in the mask, is still to
  be performed (04 R93-R95). -/
  | released (mask : BitVec 8)

/-- Step 4 of R143: the SUB of an illegal operand. -/
def Need.illegal (c : Ctx) : Need → Option (BitVec 8)
  | .srcS sub _ code => if scalarSrcLegal code then none else some sub
  | .srcV sub _ code => if c.vectorSrcLegal code then none else some sub
  | .srcVT _ sub _ code => if c.vectorSrcLegal code then none else some sub
  | .srcDst code => if c.vectorSrcLegal code then none else some 0
  | .dstS sub code => if scalarDstLegal code then none else some sub
  | .dstV code => if c.vectorDstLegal code then none else some 0
  | .rmwS sub code => if code.toNat < 0x80 then none else some sub
  | .rmwV code => if code.toNat < 0x80 ∧ code.toNat < c.budget then none else some 0
  | .ptr _ => none
  | .b6S b => if (b6Code b).isSome then none else some 4
  | .b6V b => match b6Code b with
    | some code => if c.vectorSrcLegal code then none else some 4
    | none => some 4
  | .pairS code => if code.toNat < 0x7F then none else some 2
  | .rangeV sub first n => if first + n ≤ c.budget ∧ first + n ≤ 128 then none else some sub
  | .field sub ok => if ok then none else some sub
  | .etype _ => none
  | .sampled _ => none
  | .access => none
  | .released _ => none

/-- Step 5 of R143, whose SUB is 5. -/
def Need.untyped (c : Ctx) : Need → Bool
  | .srcS _ _ code => isConst code && (scalarConst (code.toNat - 0x90)).isNone
  | .srcV _ _ code => isConst code && (vectorConst c.ty c.rnd c.sat (code.toNat - 0x90)).isNone
  | .srcVT t _ _ code => isConst code && (vectorConst (t c.ty) c.rnd c.sat (code.toNat - 0x90)).isNone
  | .srcDst code => isConst code && (vectorConst c.ty c.rnd c.sat (code.toNat - 0x90)).isNone
  | .etype ok => !ok c.ty
  | .sampled ok => !ok c
  | _ => false

/-- An empty operand under a policy: whether the instruction waits, what the trap names (R136), and the producers that will
fill it. -/
structure Empty where
  traps : Bool
  sub : BitVec 8
  code : BitVec 8
  producers : List Nat
  deriving DecidableEq, Repr

def emptyIf (producers : List Nat) (traps : Bool) (sub code : BitVec 8) : Option Empty :=
  if producers.isEmpty then none else some ⟨traps, sub, code, producers⟩

/-- A named destination that is empty (R135). -/
def namedPend (code : BitVec 8) (p : Option Nat) : List Nat := if code.toNat < 0x80 then p.toList else []

/-- Step 6 of R143: the empty operand of a field, if any. A destination that is empty, and a register that an
instruction waits for whatever the policy, never traps (R135). -/
def Need.empty? (c : Ctx) : Need → Option Empty
  | .srcS sub pol code => emptyIf (c.scalarPend code).toList (c.policy pol) sub code
  | .srcV sub pol code => emptyIf (c.vectorPend code).toList (c.policy pol) sub code
  | .srcVT _ sub pol code => emptyIf (c.vectorPend code).toList (c.policy pol) sub code
  | .srcDst code => emptyIf (c.vectorPend code).toList (decide (0x80 ≤ code.toNat) && c.policy .epd) 0 code
  | .dstS sub code => emptyIf (namedPend code (c.scalarPend code)) false sub code
  | .dstV code => emptyIf (namedPend code (c.vectorPend code)) false 0 code
  | .rmwS sub code => emptyIf (c.scalarPend code).toList false sub code
  | .rmwV code => emptyIf (c.vectorPend code).toList false 0 code
  | .ptr p => emptyIf (c.scalarPend (p.zeroExtend 8)).toList (c.policy .epa) 3 (p.zeroExtend 8)
  | .b6S b => emptyIf (c.scalarPend ((b6Code b).getD 0xF0)).toList (c.policy .epb) 4 ((b6Code b).getD 0xF0)
  | .b6V b => emptyIf (c.vectorPend ((b6Code b).getD 0xF0)).toList (c.policy .epb) 4 ((b6Code b).getD 0xF0)
  | .pairS code => emptyIf ((c.scalarPend code).toList ++ (c.scalarPend (code + 1)).toList) (c.policy .epb) 2 code
  | .rangeV sub first n =>
    emptyIf ((List.range n).filterMap fun i => c.vectorPend (BitVec.ofNat 8 (first + i))) false sub 0
  | _ => none

/-- An ACQ or ACQREL access of a group that has not been performed (04 R95). -/
def State.acqPending (s : State) (g : GroupId) : Bool :=
  s.packets.any fun p => decide (p.stream.owner = .team g.team) && decide (p.group = g.group) && p.acq.isSome && !p.performed

/-- A store or atomic write of a group, homed on its own die and of a colour in the mask, that has not been performed (04 R93,
R94): the remote ones are in no earlier set. -/
def State.ownPending (s : State) (g : GroupId) (mask : BitVec 8) : Bool :=
  s.packets.any fun p => decide (p.stream.owner = .team g.team) && decide (p.group = g.group) && p.own && !p.performed &&
    (p.colour.any fun k => mask.getLsbD k.toNat)

/-- The memory order keeps the instruction waiting (04 R92). -/
def Need.waits (c : Ctx) : Need → Bool
  | .access => c.s.acqPending c.id
  | .released mask => c.s.ownPending c.id mask
  | _ => false

/-- What the checks before the effect answer. -/
inductive Gate where
  | go
  | trap (t : TrapInfo)
  /-- Held on empty operands, which these producers fill. -/
  | hold (producers : List Nat)
  /-- Held by the memory order. -/
  | wait
  deriving DecidableEq, Repr

/-- The instructions of a trap handler (13 R266). -/
def trapLegal (w : W32) : Bool :=
  let op := opcodeOf w
  decide (op.toNat < 0x34) || decide (op = 0xAC) || (decide (op = 0xB0) && !(w.getLsbD 18)) || decide (op = 0xB4) ||
    decide (0xF0 ≤ op.toNat)

/-- Steps 4 to 6 of R143 over the fields, left to right. Where one empty operand holds and another traps, the instruction is held
first and traps once the other has arrived (DESIGN CHOICE, assumption 14: R136 gives no order between the two). -/
def gate (w : W32) (c : Ctx) (needs : List Need) : Gate :=
  if c.group.inTrap && !trapLegal w then .trap (.illegalInstruction w)
  else match needs.findSome? (Need.illegal c) with
    | some sub => .trap (.illegalOperand w sub)
    | none =>
      if needs.any (Need.untyped c) then .trap (.illegalOperand w 5)
      else
        let es := needs.filterMap (Need.empty? c)
        if es.any fun e => !e.traps then .hold (es.flatMap (·.producers))
        else match es.head? with
          | some e => .trap (.emptyOperand e.sub e.code)
          | none => if needs.any (Need.waits c) then .wait else .go

/-- Everything the fields ask for holds: the instruction issues. -/
def ready (w : W32) (c : Ctx) (needs : List Need) : Bool := decide (gate w c needs = .go)

def wordOf (i : Instr) : W32 := (encode i).getD 0

/-- A stream fault stops the sequencer, and every group of the team takes STREAM before its next instruction (10 R209). -/
def State.streamStop (s : State) (id : TeamId) (kind : Nat) : State :=
  s.mapTeam id fun t => { t with
    seq := t.seq.map fun q => { q with
      sqstate := .stopped, faultPtr := q.spc,
      sqfault := BitVec.ofNat 64 (kind + 2 ^ 16 * (q.spc.toNat % 2 ^ 48)) },
    groups := t.groups.map fun g => { g with evStream := true } }

/-- The instruction is held, and the group remembers on what (01 R34, R35). -/
def Ctx.held (c : Ctx) (x : Stall) : Res := .next (c.s.setGroup c.id { c.group with stall := x })

/-- Issue an instruction of a group: the checks, then its effect. An instruction of a group that a sequencer fetches is
an illegal-instruction stream fault (10 R214). -/
def issue (i : Instr) (s : State) (needs : List Need) (body : Ctx → Res) : Res :=
  match s.cur with
  | .none => .next s
  | .sequencer t => .next (s.streamStop t 0)
  | .group id => match s.ctx? id with
    | none => .next s
    | some c => match gate (wordOf i) c needs with
      | .go => body c
      | .trap t => .next (s.deliver id t false (wordOf i))
      | .hold ps => c.held (.operands ps)
      | .wait => c.held .waits

/-- The state with the issuing group replaced. -/
def Ctx.put (c : Ctx) (g : Group) : State := c.s.setGroup c.id g

/-- Deliver a fault of the instruction. -/
def Ctx.fault (c : Ctx) (i : Instr) (t : TrapInfo) : Res := .next (c.s.deliver c.id t false (wordOf i))

/-- Go on after a check, or do what the failed check says. -/
def Ctx.check {α : Type} (c : Ctx) (i : Instr) (x : Chk α) (k : α → Res) : Res := match x with
  | .ok a => k a
  | .trap t => c.fault i t
  | .page va write peer pri lo hi => .next (c.s.groupPageFault c.id c.launch va write peer pri lo hi)
  | .hold => .next c.s
  | .stop f => .fault f

/-- A scalar result: pushed, and written to D (06 R132). -/
def Group.resultS (g : Group) (d : BitVec 8) (v : W64) : Group := ((g.pushS ⟨v, none⟩).writeS d ⟨v, none⟩).advance

/-- An instruction whose only effect is a scalar result. -/
def Ctx.finishS (c : Ctx) (d : BitVec 8) (v : W64) : Res := .next (c.put (c.group.resultS d v))

/-- The entry pushed for a vector result: zero in inactive lanes, unspecified in absent ones (06 R133, 01 R11). -/
def Ctx.queueEntry (c : Ctx) (f : Nat → W32) : Lanes :=
  Lanes.tab fun l => if c.absent l then Config.absentElem c.s.free l else if c.active l then f l else 0

/-- The named register after a vector result: inactive lanes keep their elements (01 R13). -/
def Ctx.regEntry (c : Ctx) (old : Lanes) (f : Nat → W32) : Lanes :=
  Lanes.tab fun l => if c.absent l then Config.absentElem c.s.free l else if c.active l then f l else old.at l

/-- The old contents of a vector destination. -/
def Ctx.oldV (c : Ctx) (d : BitVec 8) : Lanes := (c.group.vregs.getD d.toNat ⟨Lanes.zero, none⟩).val

/-- A vector result `f`, one element a lane. -/
def Ctx.resultV (c : Ctx) (d : BitVec 8) (f : Nat → W32) : Group :=
  ((c.group.pushV ⟨c.queueEntry f, none⟩).writeV d ⟨c.regEntry (c.oldV d) f, none⟩).advance

/-- The state with the issuing group replaced and the free-value counter moved on. -/
def Ctx.putFree (c : Ctx) (g : Group) : State := { c.put g with free := c.s.free + 1 }

def Ctx.finishV (c : Ctx) (d : BitVec 8) (f : Nat → W32) : Res := .next (c.putFree (c.resultV d f))

/-- A scalar instruction of two sources. -/
def scalar2 (i : Instr) (d a b : BitVec 8) (f : W64 → W64 → W64) (s : State) : Res :=
  issue i s [.dstS 0 d, .srcS 1 .epa a, .srcS 2 .epb b] fun c => c.finishS d (f (c.readS a) (c.readS b))

/-- BRANCH_TO (07 R148): the fetch checks of the target, then the jump of the group `g`. -/
def Ctx.branchTo (c : Ctx) (i : Instr) (target : W64) (g : Group) : Res :=
  c.check i (c.s.checkFetch c.launch c.id.team c.die target) fun h =>
    .next ((c.s.markHits [h] false).setGroup c.id (g.jump target))

/-- A relative target (07 R148): the offset is computed exactly, and one outside 0 to 2^48 - 1 fails the bounds check. -/
def Ctx.branchRel (c : Ctx) (i : Instr) (off : BitVec 16) (g : Group) : Res :=
  let o : Int := (ptrOff c.group.pc : Int) + 4 * off.toInt
  if o < 0 || o ≥ 2 ^ 48 then
    c.check i ((checkSeg c.launch (ptrSeg c.group.pc) (faultPtr c.group.pc o) [.px] false 0 0).andThen fun _ =>
      (Chk.trap (.bounds (faultPtr c.group.pc o) 0 0) : Chk Unit)) fun _ => .next c.s
  else c.branchTo i (mkPtr (ptrSeg c.group.pc) o.toNat) g

end Sys2Proof.Machine
end

