-- ==== Sys2Proof/Machine/Channel.lean ====
section
/-! DEFINITION. Channels (spec 05): taking a number, sending, performing at the destination, draining; the atomics'
arithmetic that a destination performs (spec 09 R194-R196); wide releases (spec 04 R96). -/

namespace Sys2Proof.Machine

/-! Atomic arithmetic. -/

/-- Bytes of an atomic's access. -/
def AtomType.bytes : AtomType → Nat
  | .int64 => 8 | .nat64 => 8 | .int32 => 4 | .nat32 => 4 | .fp32 => 4

/-- The value an atomic writes over `old` (R194, R195, R196). -/
def atomNew (op : AtomOp) (t : AtomType) (rnd : Rnd) (sat : Bool) (old v cmp : Nat) : Nat :=
  let n := 8 * t.bytes
  let signed : Bool := decide (t = .int64) || decide (t = .int32)
  let val (x : Nat) : Int := if signed then (BitVec.ofNat n x).toInt else x
  let lo : Int := if signed then -(2 ^ (n - 1)) else 0
  let hi : Int := if signed then 2 ^ (n - 1) - 1 else 2 ^ n - 1
  match op with
  | .add =>
    if t = .fp32 then fp32.add rnd sat (fp32.decode old) (fp32.decode v)
    else
      let x := val old + val v
      ((if sat then max lo (min hi x) else x) % 2 ^ n).toNat
  | .min => if t = .fp32 then fpMinMax fp32 false old v else if val v < val old then v else old
  | .max => if t = .fp32 then fpMinMax fp32 true old v else if val old < val v then v else old
  | .and => old &&& v
  | .or => old ||| v
  | .xor => old ^^^ v
  | .xchg => v
  | .cas => if old = cmp then v else old

/-- One atomic access: the old value and the state after the write. -/
def State.atomAccess (s : State) (a : AtomAccess) : W64 × State :=
  let n := a.typ.bytes
  let old := s.loadLoc a.loc n
  let new := atomNew a.op a.typ (Rnd.ofCode a.rnd) a.sat old (a.v.toNat % 2 ^ (8 * n)) (a.cmp.toNat % 2 ^ (8 * n))
  (BitVec.ofNat 64 old, s.storeCells (storeCellsOf a.loc n new))

/-- Atomics in lane order: their old values in that order. -/
def State.atomAccesses (s : State) : List AtomAccess → List W64 × State
  | [] => ([], s)
  | a :: as =>
    let r := s.atomAccess a
    let rs := r.2.atomAccesses as
    (r.1 :: rs.1, rs.2)

/-! Copies: windows and chunks (03 R74, R75; 12 R243). -/

/-- Translate byte `k` of a copy's range: as any access, or through the window that the command resolved at its start (03 R74). -/
def State.copyByte (s : State) (l : Launch) (t : TeamId) (die : Nat) (p : W64) (w : Option WindowAt) (k : Nat) (write : Bool) : Tr :=
  match w with
  | some w => .ok ⟨w.loc.plus k, w.dest, w.dest.getD (.die die), none⟩
  | none => match l.seg? (ptrSeg p) with
    | none => .stall
    | some v => if v.space = .window then .stall else s.translate l t die v (ptrOff p + k) write

/-- The end of the chunk that starts at byte `k` of a copy to offset `off`: chunks split at every 256 bytes of the
destination offset, and so at every 64 KiB. -/
def chunkEnd (off k count : Nat) : Nat := min count (k + (256 - (off + k) % 256))

/-- The first byte of every 64 KiB block of the destination that the rest of a copy still writes. -/
def CopyCmd.restBlocks (k : CopyCmd) : List Nat :=
  let a := ptrOff k.dst + k.next
  let b := ptrOff k.dst + k.count
  (List.range ((b + 0xFFFF) / 0x10000 - a / 0x10000)).map fun i => max a ((a / 0x10000 + i) * 0x10000) - ptrOff k.dst

/-- The die of a team. -/
def State.dieOfTeam (s : State) (t : TeamId) : Nat := dieOfCore (((s.team? t).bind Team.core?).getD 0)

/-- The die a copy works from: its team's, or that of the Forager that runs its replay. -/
def State.copyDie (s : State) (k : CopyCmd) : Nat := match k.node with
  | some (r, _) => ((s.replays.find? fun x => decide (x.id = r)).map (·.die)).getD 0
  | none => s.dieOfTeam k.group.team

/-- Some chunk still to be sent may travel on the copy's channel to a destination that `p` admits: every chunk of a CCOPY does,
and of a COPY those off the die (05 R110). -/
def State.restGoes (s : State) (k : CopyCmd) (p : Dest → Bool) : Bool :=
  decide (k.next < k.count) && decide (k.code = 0) &&
  match s.launch? k.group.team.launch with
  | none => false
  | some l => k.restBlocks.any fun o => match s.copyByte l k.group.team (s.copyDie k) k.dst k.dstAt o true with
    | .ok h => p h.home && (k.always || h.dest.isSome)
    | _ => true

/-- Byte `k` of a copy's destination lies off the die `die`, or is to lie there once its page is mapped or reached: host, peer and
lake memory do (03 R66). -/
def State.leavesDie (s : State) (l : Launch) (die : Nat) (k : CopyCmd) (i : Nat) : Bool :=
  match s.copyByte l k.group.team die k.dst k.dstAt i true with
  | .ok h => h.dest.isSome
  | _ => (l.seg? (ptrSeg k.dst)).any fun v => decide (v.space = .host ∨ v.space = .peer ∨ v.space = .lake)

/-- Some chunk still to be sent, as far as its pages are mapped, goes on the copy's channel to a destination that `p` admits. -/
def State.restTo (s : State) (k : CopyCmd) (p : Dest → Bool) : Bool :=
  decide (k.next < k.count) && (s.launch? k.group.team.launch).any fun l =>
    k.restBlocks.any fun o => match s.copyByte l k.group.team (s.copyDie k) k.dst k.dstAt o true with
      | .ok h => p h.home && (k.always || h.dest.isSome)
      | _ => false

/-- A copy of a team whose chunks on a channel are not all sent: they stand in the channel order at the instruction (05 R112). -/
def State.unsentOn (s : State) (t : TeamId) (c : Nat) (k : CopyCmd) : Bool :=
  decide (k.group.team = t) && k.node.isNone && decide (k.chan = c) && s.restGoes k fun _ => true

/-! Links (12 R261, R262). -/

/-- A destination as a route table names it. -/
def Dest.code : Dest → Nat
  | .die d => d
  | .lake k => 8 + k
  | .host h => 10 + h
  | .peer m d => 16 + 16 * m + d

/-- Traffic from a die to a destination brings the links of its path that are up to full width. -/
def State.traffic (s : State) (src : Nat) (d : Dest) : State :=
  { s with links := s.links.zipIdx.map fun x =>
      if x.1.up && Config.onPath src d.code x.2 then { x.1 with state := .full, lastTraffic := s.clock.gtime } else x.1 }

/-- Traffic from a die to wherever accesses off it go. -/
def State.trafficTo (s : State) (src : Nat) (hs : List Hit) : State := (hs.filterMap (·.dest)).dedup.foldl (fun s d => s.traffic src d) s

/-! Packets. -/

/-- What a packet carries of the instruction that issued it: the store colour (04 R93), the scope of an ACQ or ACQREL atomic, and
whether it acts on the near memory of the die that issues it, so that it is not remote (03 R66), wherever it is homed. -/
structure SendTag where
  colour : Option (BitVec 3)
  acq : Option (BitVec 3)
  own : Bool
  /-- The joins of the channel when the instruction issued, for a chunk of a copy. -/
  joins : Option (List Nat)
  /-- The operation is performed after these as well: the lower lanes of its vector atomic (09 R196). -/
  prior : List Nat

/-- An operation to send, its destination, and whether it acts on the near memory of the die that issues it. -/
structure Outgoing where
  dest : Dest
  own : Bool
  op : ChanOp
  deriving DecidableEq, Repr

/-- The operation `i` of a channel, or the copy `i` that it is a chunk of. -/
def Packet.isPart (p : Packet) (i : Nat) : Bool := decide (p.id = i) || match p.op with
  | .chunk k _ _ => decide (k = i)
  | _ => false

def State.packet? (s : State) (id : Nat) : Option Packet := s.packets.find? fun p => decide (p.id = id)

def State.mapPacket (s : State) (id : Nat) (f : Packet → Packet) : State :=
  { s with packets := s.packets.map fun p => if p.id = id then f p else p }

/-- The operations on a channel of a team that are not acknowledged, the copies with chunks still to be sent among them. -/
def State.unackedOn (s : State) (t : TeamId) (c : Nat) : List Nat :=
  (s.packets.filter fun p => decide (p.stream.owner = .team t) && decide (p.stream.chan = c) && !p.acked).map (·.id) ++
    (s.copies.filter (s.unsentOn t c)).map (·.id)

/-- The operations of a team that are not acknowledged, over all its channels. -/
def State.unackedOf (s : State) (t : TeamId) : List Nat := (List.range 16).flatMap (s.unackedOn t)

/-- Operation `i`, or the copy `i`, has something that is not acknowledged. -/
def State.isUnacked (s : State) (i : Nat) : Bool :=
  (s.packets.any fun p => p.isPart i && !p.acked) ||
  s.copies.any fun k => decide (k.id = i) && k.node.isNone && s.restGoes k fun _ => true

/-- Those of `ids` that are still not acknowledged. -/
def State.stillUnacked (s : State) (ids : List Nat) : List Nat := ids.filter s.isUnacked

/-- CHSTAT (05 R121): BUSY as it stands at the read. -/
def State.chstat (s : State) (t : Team) : W64 :=
  let busy := (List.range 16).foldl (fun a c => if (s.unackedOn t.id c).isEmpty then a else a + 2 ^ c) 0
  BitVec.ofNat 64 (t.resyncs.toNat * 2 ^ 32 + t.lost.toNat * 2 ^ 16 + busy)

/-- Something of a stream is still under way: a copy of a packet, a buffered packet, an acknowledgement, or a SYNC or the request
for one after a link failure that dropped a re-acknowledgement (16 R296). -/
def State.streamUnderWay (s : State) (st : StreamId) : Bool :=
  (s.packets.any fun p => decide (p.stream = st) &&
    (!p.acked || s.wire.contains p.id || s.acks.contains p.id || s.buffered.contains p.id)) ||
  (s.syncs ++ s.syncReqs).any fun m => m.streams.any fun x => decide (x.1 = st)

/-- Channels of an owner. -/
def State.chansOf (s : State) : ChanOwner → List Channel
  | .team t => match s.team? t with
    | some t => t.chans
    | none => []
  | .forager d => s.forChans.getD d []

def State.mapChan (s : State) (o : ChanOwner) (c : Nat) (f : Channel → Channel) : State := match o with
  | .team t => s.mapTeam t fun t => { t with chans := t.chans.modify c f }
  | .forager d => { s with forChans := s.forChans.modify d fun cs => cs.modify c f }

/-- The entry whose newest operation is oldest (05 R114). -/
def oldestEntry : List StreamEntry → Option StreamEntry
  | [] => none
  | e :: es => match oldestEntry es with
    | some b => if e.newest ≤ b.newest then some e else some b
    | none => some e

/-- Make room for a stream to `dest`: its entry is there, opened at number 0, or opened in place of the entry whose newest
operation is oldest once nothing of that entry is under way (05 R114, 16 R296). `none`: the issuer is held. -/
def State.openStream (s : State) (o : ChanOwner) (c : Nat) (dest : Dest) : Option State :=
  let ch := (s.chansOf o).getD c Channel.empty
  let fresh : StreamEntry := ⟨dest, 0, 0, 0⟩
  match ch.streams.find? fun e => decide (e.dest = dest) with
  | some e => if e.unacked < 4096 then some s else none
  | none =>
    if ch.streams.length < 16 then some (s.mapChan o c fun ch => { ch with streams := ch.streams ++ [fresh] })
    else match oldestEntry ch.streams with
      | none => none
      | some e =>
        if e.unacked = 0 && !s.streamUnderWay ⟨o, c, e.dest⟩ then
          let s1 := s.mapChan o c fun ch =>
            { ch with streams := (ch.streams.filter fun x => decide (x.dest ≠ e.dest)) ++ [fresh] }
          some { s1 with closes := s1.closes ++ [⟨o, c, e.dest⟩] }
        else none

/-- Send an operation on a channel: it takes the stream's next number (05 R115). `none`: the issuer is held. -/
def State.sendOp (s : State) (o : ChanOwner) (c group : Nat) (tag : SendTag) (dest : Dest) (op : ChanOp) : Option State :=
  (s.openStream o c dest).map fun s1 =>
    let ch := (s1.chansOf o).getD c Channel.empty
    let num := match ch.streams.find? fun e => decide (e.dest = dest) with
      | some e => e.next
      | none => 0
    let id := s1.nextId
    let p : Packet := ⟨id, ⟨o, c, dest⟩, num, op, tag.joins.getD ch.joins ++ tag.prior, group, tag.colour, tag.acq,
      tag.own, false, false, false, [], false⟩
    let s2 := s1.mapChan o c fun ch => { ch with streams := ch.streams.map fun e =>
      if e.dest = dest then { e with next := e.next + 1, unacked := e.unacked + 1, newest := id } else e }
    { s2 with nextId := id + 1, packets := s2.packets ++ [p], wire := s2.wire ++ [id] }

/-- Send operations one after another; held unless all can be sent. Atomics are those of the rising lanes of one instruction, and
each is performed after the one before it (09 R196). -/
def State.sendOps (s : State) (o : ChanOwner) (c group : Nat) (tag : SendTag) : List Outgoing → Option State
  | [] => some s
  | x :: rest => (s.sendOp o c group { tag with own := x.own } x.dest x.op).bind fun s1 =>
    s1.sendOps o c group (match x.op with
      | .atomic _ _ => { tag with prior := [s.nextId] }
      | _ => tag) rest

/-- What a join puts before an operation has been performed (05 R119), every chunk of a copy included. -/
def State.joinsDone (s : State) (p : Packet) : Bool :=
  p.after.all fun i =>
    (s.packets.all fun q => !q.isPart i || q.performed || decide (q.id = p.id)) &&
    s.copies.all fun k => decide (k.id ≠ i) || !(s.restGoes k fun _ => true)

/-! Engine writes into windows (03 R75). -/

/-- A register behind a window that is empty keeps the access waiting (03 R75). -/
def State.locReady (s : State) : Loc → Bool
  | .regWin t g o => match s.group? ⟨t, g⟩ with
    | some g => ((g.vregs.getD (o / 512) ⟨Lanes.zero, none⟩).pend).isNone
    | none => true
  | _ => true

/-- An engine write into a tile on which the team has an MMA outstanding leaves the tile undefined (03 R75). -/
def Sequencer.mmaOn (q : Sequencer) (tile : Nat) : Bool := q.ops.any fun x => match x.2 with
  | .mma t _ _ _ _ _ => decide (t = tile)
  | _ => false

def State.spoilTile (s : State) (t : TeamId) (tile : Nat) : State :=
  match s.team? t with
  | none => s
  | some tm =>
    if (tm.seq.map fun q => q.mmaOn tile).getD false then
      { (s.setTeam { tm with tiles := tm.tiles.set tile ((List.range 256).map fun j =>
          Lanes.tab fun i => Config.undefElem s.free (256 * i + j)) }) with free := s.free + 1 }
    else s

/-- Store an engine's cells, spoiling tiles that an MMA works on. -/
def State.engineStore (s : State) (cells : List (Loc × Byte)) : State :=
  let s1 := s.storeCells cells
  match cells.head? with
  | some (.tileWin t k _, _) => s1.spoilTile t k
  | _ => s1

/-! Collectives (12 R254-R256, 19 R299). -/

/-- Two launches are of one job. -/
def sameJob (l : Launch) (launch : Nat) (gang : W32) : Bool :=
  decide (l.seq = launch) || (decide (gang ≠ 0) && decide (l.gang = gang))

/-- The lowest-numbered node that declares an instance. -/
def GraphImage.instNode (g : GraphImage) (inst : W32) : Nat := (g.nodes.findIdx? fun n => decide (n.inst = inst)).getD 0

def GraphImage.inst? (g : GraphImage) (inst : W32) : Option InstRec := g.insts.find? fun i => decide (i.inst = inst)

def InstRec.signature (i : InstRec) : Signature := ⟨i.inst, i.count, i.typ, i.op⟩

/-- The member that a destination names: a Forager, or another module; host and lake memory name none (R254, 19 R299). -/
def Dest.member? : Dest → Option Member
  | .die d => some (.die d)
  | .peer m _ => some (.module m)
  | .lake _ => none
  | .host _ => none

/-- The replay takes another signature of an instance from a member: its own signatures are sent, and as many of its pointers as
name that member outnumber those that have come. -/
def Replay.awaits (r : Replay) (inst : W32) (member : Member) : Bool :=
  r.sent && decide ((r.sigs.filter fun g => decide (g.inst = inst ∧ g.member = member)).length < r.names.count (inst, member))

/-- The replay has signatures to send. -/
def Replay.unsent (r : Replay) : Bool := !r.sent && !r.image.insts.isEmpty

/-- An unequal signature: the replay stops with COLLECTIVE_MISMATCH at the first held node of the instance, and no node of the
instance writes (R256). -/
def State.mismatched (s : State) (r : Replay) (inst : W32) : State :=
  let mine (j : Nat) : Bool := ((r.image.nodes[j]?).map fun n => decide (n.inst = inst)).getD false
  let held := (List.range r.states.length).filter fun j => mine j && decide (r.states[j]? = some .started)
  let node := held.head?.getD (r.image.instNode inst)
  let stop (x : Replay) : Replay := { x with
    code := if x.code = 0 then 6 else x.code
    codeNode := if x.code = 0 then node else x.codeNode
    mismatch := x.mismatch.or (some inst)
    states := x.states.zipIdx.map fun y => if held.contains y.2 then .done else y.1 }
  { s with
    replays := s.replays.map fun x => if x.id = r.id then stop x else x
    copies := s.copies.filter fun k => !(held.any fun j => decide (k.node = some (r.id, j))) }

/-- The replay at a Forager that a signature of an instance meets: of the same job, declaring the instance, the first to start of
those that may still take one from that member (19 R299). -/
def State.meets (s : State) (o : SigOrigin) (dest : Dest) (inst : W32) : Option Replay :=
  s.replays.find? fun x => decide (dest = .die x.die) && decide (x.id ≠ o.replay) && (x.image.inst? inst).isSome &&
    (x.unsent || x.awaits inst (.die o.die)) &&
    ((s.launch? x.group.team.launch).map fun y => sameJob y o.launch o.gang).getD false

/-- The replay that receives the chunks of a member's replay for an instance: the one that has its signature, or that is to meet
it. -/
def State.receiverOf (s : State) (o : SigOrigin) (dest : Dest) (inst : W32) : Option Replay :=
  (s.replays.find? fun x => x.sigs.any fun g => decide (g.inst = inst ∧ g.replay = some o.replay) && decide (dest = .die x.die)).or
    (s.meets o dest inst)

/-- A chunk at its receiver: one whose signature differs from the receiver's declaration counts as an unequal signature, and
writes nothing (R255, R256). -/
def State.storeChunk (s : State) (dest : Dest) (sig : Option (SigOrigin × Signature)) (cells : List (Loc × Byte)) : State :=
  match sig.bind fun x => (s.receiverOf x.1 dest x.2.inst).map fun r => (x.2, r) with
  | some (g, r) =>
    if (r.image.inst? g.inst).map InstRec.signature = some g then s.engineStore cells else s.mismatched r g.inst
  | none => s.engineStore cells

/-- The core of the team that owns a channel. -/
def State.coreOfOwner (s : State) : ChanOwner → Option Nat
  | .team t => (s.team? t).bind Team.core?
  | .forager _ => none

/-- The places that an atomic writes. -/
def AtomAccess.locs (a : AtomAccess) : List Loc := (List.range a.typ.bytes).map a.loc.plus

/-- The L1 of the issuing core once a packet is performed: a store updates its lines (03 R82); a chunk makes it give them up, so
that what a drain waited for is seen (05 R120); the first reader of an atomic's value acquires at SYSTEM scope (05 R113), so that
no line filled before it was performed serves a later load (04 R95). -/
def State.l1After (s : State) (p : Packet) : State := match s.coreOfOwner p.stream.owner with
  | none => s
  | some core => match p.op with
    | .store cells => s.refresh core (cells.map (·.1))
    | .chunk _ cells _ => s.dropLines core (cells.map (·.1))
    | .atomic _ _ => s.clearL1 core

/-- Perform an operation at its destination (05 R117, R118) and acknowledge it. -/
def State.performPacket (s : State) (p : Packet) : State :=
  let r : List W64 × State × Bool := match p.op with
    | .store cells => ([], (s.storeCells cells).l1After p, false)
    | .chunk _ cells sig => ([], (s.storeChunk p.stream.dest sig cells).l1After p, false)
    | .atomic accs _ => let x := s.atomAccesses accs; (x.1, x.2.l1After p, true)
  let s1 := r.2.1.mapPacket p.id fun p => { p with performed := true, results := r.1, kept := r.2.2 }
  { s1 with acks := s1.acks ++ [p.id] }

/-- A channel operation on a channel whose LOST bit is set takes CHANNEL_LOST before any effect (05 R123). -/
def Ctx.lostCheck (c : Ctx) (ch : Nat) : Chk Unit :=
  if c.team.lost.getLsbD ch then .trap (.channelLost ch (c.s.chstat c.team)) else .ok ()

/-- The checks of an operation on channel `ch`: one that would wait, for a peer that is not reached, takes CHANNEL_LOST at once
when the channel's LOST bit is set (05 R123). -/
def Ctx.lostHold {α : Type} (c : Ctx) (ch : Nat) (x : Chk α) : Chk α := match x with
  | .hold => (c.lostCheck ch).andThen fun _ => .hold
  | x => x

/-- The lowest-numbered channel whose LOST bit is set. -/
def Team.lowestLost (t : Team) : Option Nat := (List.range 16).find? fun i => t.lost.getLsbD i

/-- A wide release checks LOST before it forms W (04 R96, 05 R123). -/
def Ctx.lostAny (c : Ctx) : Chk Unit := match c.team.lowestLost with
  | some ch => .trap (.channelLost ch (c.s.chstat c.team))
  | none => .ok ()

/-- The operations a held drain of this instruction still waits for, if it is already draining. -/
def Ctx.draining? (c : Ctx) : Option (List Nat) := match c.group.heldHere with
  | some (.draining ops) => some ops
  | _ => none

/-- Wait for channel operations (05 R120): those formed at the first issue of this instruction, else `ops`. While some are
not acknowledged the instruction is held and remembers them. -/
def Ctx.drain (c : Ctx) (ops : List Nat) (k : Unit → Res) : Res :=
  let waitFor := c.s.stillUnacked (c.draining?.getD ops)
  if waitFor.isEmpty then k ()
  else .next (c.put (c.group.hold (.draining waitFor)))

/-- CJOIN ca, cb (05 R119): later operations on ca follow those on cb that are not yet acknowledged. -/
def State.joinChan (s : State) (t : TeamId) (ca cb : Nat) : State :=
  let ops := s.unackedOn t cb
  if ops.isEmpty then s
  else s.mapChan (.team t) ca fun ch => { ch with joins := s.stillUnacked ch.joins ++ ops }

/-- WIDE_RELEASE (04 R96) of an access that travels on `ch`, or is local: LOST is checked, W is formed at the first issue,
joined to `ch`, and drained. A stream that is lost while the release is held faults it like one lost before. -/
def Ctx.wideRelease (c : Ctx) (i : Instr) (ch : Option Nat) (k : Unit → Res) : Res :=
  c.check i c.lostAny fun _ => match c.draining? with
    | some _ => c.drain [] k
    | none =>
      let busy := (List.range 16).filter fun x => !(c.s.unackedOn c.id.team x).isEmpty
      let s1 := match ch with
        | some j => (busy.filter (· ≠ j)).foldl (fun (s : State) x => s.joinChan c.id.team j x) c.s
        | none => c.s
      let ops := c.s.unackedOf c.id.team
      if ops.isEmpty then k ()
      else .next (s1.setGroup c.id (c.group.hold (.draining ops)))

/-! Windows (03 R74, R75). -/

/-- A window's target resolved: the place of the range, or why there is none. -/
inductive Window where
  | absent
  | bad
  | at (w : WindowAt)
  deriving DecidableEq, Repr

/-- Resolve `n` bytes from offset `o` of a window segment for a command from die `die` of a team, with the LIMIT of R75 as it
stands now. -/
def State.window (s : State) (l : Launch) (t : TeamId) (die : Nat) (d : SegDesc) (o n : Nat) : Window :=
  let target : TeamId := if d.wteam = 2 ^ 32 - 1 then t else ⟨t.launch, d.wteam⟩
  match s.team? target with
  | none => .absent
  | some tm => match tm.core? with
    | none => .absent
    | some core =>
      let dest := if dieOfCore core = die then none else some (.die (dieOfCore core))
      if d.wreg = 0 then
        if o + n ≤ 512 * tm.budgetOf l d.wgroup then .at ⟨.regWin target d.wgroup o, dest⟩ else .bad
      else if d.wreg = 1 then (if o + n ≤ l.krec.spadsz then .at ⟨.spad target o, dest⟩ else .bad)
      else if tm.tiles.length ≤ d.wreg - 2 then .absent
      else if o + n ≤ 131072 then .at ⟨.tileWin target (d.wreg - 2) o, dest⟩
      else .bad

/-- A later operation takes its number only after the chunks of an earlier copy to its destination (05 R115, R116);
`below` bounds the copies that count as earlier. -/
def State.copyBlocks (s : State) (t : TeamId) (c : Nat) (dest : Dest) (below : Nat) : Bool :=
  s.copies.any fun k => decide (k.group.team = t) && k.node.isNone && decide (k.chan = c) && decide (k.id < below) &&
    s.restGoes k fun d => decide (d = dest)

/-- A node's chunk to a destination takes its number only after those of a node of the same Forager and channel that sent its first
chunk before it: `copies` holds the nodes that have begun in that order, behind those that have not (05 R110, R115). -/
def State.nodeBlocks (s : State) (die : Nat) (k : CopyCmd) (dest : Dest) : Bool :=
  let earlier := if k.next = 0 then s.copies else s.copies.takeWhile fun x => decide (x.id ≠ k.id)
  earlier.any fun x => x.node.isSome && decide (s.copyDie x = die) && decide (x.chan = k.chan) && decide (0 < x.next) &&
    s.restGoes x fun d => decide (d = dest)

/-- Send channel operations of the issuing group; held while a copy goes before them, or a stream is full, which counts as
waiting at a barrier (05 R114, R115). `acq` is the scope of an acquiring atomic. -/
def Ctx.send (c : Ctx) (s : State) (ch : Nat) (acq : Option (BitVec 3)) (ops : List Outgoing) (k : State → Res) : Res :=
  if ops.any fun x => s.copyBlocks c.id.team ch x.dest c.s.nextId then c.held .barrier
  else match s.sendOps (.team c.id.team) ch c.id.group ⟨some (modeColour c.group.mode), acq, false, none, []⟩ ops with
    | some s1 => k s1
    | none => c.held .barrier

/-- An earlier remote store or atomic of the group to one of these bytes is not acknowledged: a later load is held
(04 R92). -/
def State.loadHeld (s : State) (g : GroupId) (locs : List Loc) : Bool :=
  s.packets.any fun p => decide (p.stream.owner = .team g.team) && decide (p.group = g.group) && !p.acked &&
    match p.op with
    | .store cells => cells.any fun x => locs.contains x.1
    | .chunk _ _ _ => false
    | .atomic accs _ => accs.any fun a => a.locs.any fun l => locs.contains l

/-- An operation of the group on a channel is still to be performed at one of these bytes: a local access is held (04 R92). -/
def State.ownHeld (s : State) (g : GroupId) (locs : List Loc) : Bool :=
  s.packets.any fun p => decide (p.stream.owner = .team g.team) && decide (p.group = g.group) && !p.performed &&
    match p.op with
    | .store cells => cells.any fun x => locs.contains x.1
    | .chunk _ _ _ => false
    | .atomic accs _ => accs.any fun a => a.locs.any fun l => locs.contains l

end Sys2Proof.Machine
end

