-- ==== Sys2Proof/Machine/Access.lean ====
section
/-! DEFINITION. Loads, stores and atomics of format A (spec 07 R150, 09 R189-R196): scope and ordering codes, the checks of a
vector access (03 R71, R72), long-latency results, remote accesses on C0. -/

namespace Sys2Proof.Machine

/-! Scope and ordering codes (R190; 04 R88, R89). -/

/-- SC: not reserved, and GROUP with PLAIN. -/
def scLegal (sc : BitVec 3) (ord : BitVec 2) : Bool := decide (sc ≠ 7) && (decide (ord ≠ 0) || decide (sc = 0))
def ordLoad (ord : BitVec 2) : Bool := decide (ord = 0 ∨ ord = 1)
def ordStore (ord : BitVec 2) : Bool := decide (ord = 0 ∨ ord = 2)
/-- REL or ACQREL. -/
def isRelease (ord : BitVec 2) : Bool := decide (ord = 2 ∨ ord = 3)

/-- ACQ or ACQREL. -/
def isAcquire (ord : BitVec 2) : Bool := decide (ord = 1 ∨ ord = 3)

/-- An acquire at CLUSTER scope or wider after R101, which lets no L1 line filled before it serve a later load (04 R95). -/
def acqWide (sc : BitVec 3) (ord : BitVec 2) (space : Space) : Bool :=
  isAcquire ord && decide (3 ≤ sc.toNat) && !decide (space = .scratch ∨ space = .priv)

/-- What every access asks of the memory order, and what a release asks besides (04 R92, R95). -/
def ordNeeds (ord : BitVec 2) : List Need := .access :: (if isRelease ord then [.released 0xFF] else [])

/-- WIDE_RELEASE runs for a release whose scope is PACKAGE or SYSTEM in a space that admits it (R190; 04 R96, R101). -/
def isWide (sc : BitVec 3) (ord : BitVec 2) (space : Space) : Bool :=
  isRelease ord && decide (5 ≤ sc.toNat) && !decide (space = .scratch ∨ space = .priv)

/-- The space an access names. -/
def Launch.spaceOf (l : Launch) (p : W64) : Space := match l.seg? (ptrSeg p) with
  | some v => v.space
  | none => .near

/-! Long-latency results (06 R135). -/

/-- The group with a scalar result pending from producer `k`. -/
def Group.pendS (g : Group) (d : BitVec 8) (k : Nat) : Group := (g.pushS ⟨0, some k⟩).writeS d ⟨0, some k⟩

/-- The group with a vector result pending: inactive lanes of the entry are zero already. -/
def Ctx.pendV (c : Ctx) (g : Group) (d : BitVec 8) (k : Nat) : Group :=
  (g.pushV ⟨c.queueEntry fun _ => 0, some k⟩).writeV d ⟨c.oldV d, some k⟩

/-- A result is on its way under the next number. -/
def State.addFlight (s : State) (f : Flight) : State := { s with nextId := f.id + 1, flights := s.flights ++ [f] }

/-! Scalar accesses (07 R150). -/

/-- The exact offset PTR.OFF + B6. -/
def Ctx.offS (c : Ctx) (p : BitVec 5) (b : BitVec 6) : Int := (ptrOff (c.readPtr p) : Int) + (c.readB6S b).toInt

def bytesOf (l : Loc) (n : Nat) : List Loc := (List.range n).map l.plus

/-- Go on after the checks of a load. A page fault leaves its destination empty (06 R134). -/
def Ctx.checkLoad {α : Type} (c : Ctx) (i : Instr) (mark : Group → Group) (x : Chk α) (k : α → Res) : Res := match x with
  | .page va write peer pri lo hi => .next ((c.s.mapGroup c.id mark).groupPageFault c.id c.launch va write peer pri lo hi)
  | x => c.check i x k

/-- The state in which a load of checked bytes is sampled: the table entries marked, the links to remote bytes awake (12 R261), an
L1 that an acquire invalidates, and the lines that the load touches (03 R82; 04 R95). -/
def Ctx.sample (c : Ctx) (hs : List Hit) (acq : Bool) (locs : List Loc) : State :=
  let s1 := (c.s.markHits hs false).trafficTo c.die hs
  (if acq then s1.clearL1 c.core else s1).touch c.core locs

/-- SLDn. -/
def loadS (i : Instr) (n : Nat) (d : BitVec 8) (p : BitVec 5) (sc : BitVec 3) (o : BitVec 2) (b : BitVec 6) (s : State) : Res :=
  issue i s ([.dstS 0 d, .ptr p, .field 6 (scLegal sc o), .field 7 (ordLoad o), .b6S b] ++ ordNeeds o) fun c =>
    c.checkLoad i (fun g => g.emptyS d)
      (c.s.checkScalar c.launch c.id.team c.die (c.readPtr p) (c.offS p b) n [.pr] false) fun h =>
      let locs := bytesOf h.loc n
      if c.s.loadHeld c.id locs then .next c.s
      else
        let k := c.s.nextId
        let s1 := c.sample [h] (acqWide sc o (c.launch.spaceOf (c.readPtr p))) locs
        let v := BitVec.ofNat 64 (s1.servedLoc c.core h.loc n)
        .next ((s1.setGroup c.id ((c.group.pendS d k).advance)).addFlight ⟨k, c.id, .load, .scalar v, [], locs⟩)

/-- A wide release runs first, when one is due. -/
def Ctx.release (c : Ctx) (i : Instr) (wide : Bool) (ch : Option Nat) (k : Unit → Res) : Res :=
  if wide then c.wideRelease i ch k else k ()

/-- Store cells at checked places: local ones at once, remote ones as operations on C0 (R191). A local byte that an operation of
the group on a channel is still to write keeps the store waiting (04 R92). -/
def Ctx.storeAll (c : Ctx) (i : Instr) (hs : List (Hit × List (Loc × Byte))) (wide : Bool) (g : Group) : Res :=
  let remote := hs.filterMap fun h => h.1.dest.map fun d => (⟨d, false, .store h.2⟩ : Outgoing)
  let here := (hs.filter fun h => h.1.dest.isNone).flatMap (·.2)
  c.release i wide (if remote.isEmpty then none else some 0) fun _ =>
    c.check i (if remote.isEmpty then .ok () else c.lostCheck 0) fun _ =>
      if c.s.ownHeld c.id (here.map (·.1)) then .next c.s
      else c.send (c.s.markHits (hs.map (·.1)) true) 0 none remote fun s1 =>
        .next ((s1.storeThrough c.core here).setGroup c.id g)

/-- A plain store or atomic to a peer that is not reached travels on C0, whose LOST bit faults it at once (05 R123). -/
def Ctx.peerLost {α : Type} (c : Ctx) (p : W64) (x : Chk α) : Chk α :=
  if c.launch.spaceOf p = .peer then c.lostHold 0 x else x

/-- SSTn. -/
def storeS (i : Instr) (n : Nat) (d : BitVec 8) (p : BitVec 5) (sc : BitVec 3) (o : BitVec 2) (b : BitVec 6) (s : State) : Res :=
  issue i s ([.srcS 0 .epd d, .ptr p, .field 6 (scLegal sc o), .field 7 (ordStore o), .b6S b] ++ ordNeeds o) fun c =>
    c.check i (c.peerLost (c.readPtr p)
      (c.s.checkScalar c.launch c.id.team c.die (c.readPtr p) (c.offS p b) n [.pw] true)) fun h =>
      c.storeAll i [(h, storeCellsOf h.loc n (c.readS d).toNat)] (isWide sc o (c.launch.spaceOf (c.readPtr p))) c.group.advance

def execSld8 (d : BitVec 8) (p : BitVec 5) (sc : BitVec 3) (o : BitVec 2) (b : BitVec 6) (s : State) : Res :=
  loadS (.sld8 d p sc o b) 1 d p sc o b s
def execSld16 (d : BitVec 8) (p : BitVec 5) (sc : BitVec 3) (o : BitVec 2) (b : BitVec 6) (s : State) : Res :=
  loadS (.sld16 d p sc o b) 2 d p sc o b s
def execSld32 (d : BitVec 8) (p : BitVec 5) (sc : BitVec 3) (o : BitVec 2) (b : BitVec 6) (s : State) : Res :=
  loadS (.sld32 d p sc o b) 4 d p sc o b s
def execSld64 (d : BitVec 8) (p : BitVec 5) (sc : BitVec 3) (o : BitVec 2) (b : BitVec 6) (s : State) : Res :=
  loadS (.sld64 d p sc o b) 8 d p sc o b s
def execSst8 (d : BitVec 8) (p : BitVec 5) (sc : BitVec 3) (o : BitVec 2) (b : BitVec 6) (s : State) : Res :=
  storeS (.sst8 d p sc o b) 1 d p sc o b s
def execSst16 (d : BitVec 8) (p : BitVec 5) (sc : BitVec 3) (o : BitVec 2) (b : BitVec 6) (s : State) : Res :=
  storeS (.sst16 d p sc o b) 2 d p sc o b s
def execSst32 (d : BitVec 8) (p : BitVec 5) (sc : BitVec 3) (o : BitVec 2) (b : BitVec 6) (s : State) : Res :=
  storeS (.sst32 d p sc o b) 4 d p sc o b s
def execSst64 (d : BitVec 8) (p : BitVec 5) (sc : BitVec 3) (o : BitVec 2) (b : BitVec 6) (s : State) : Res :=
  storeS (.sst64 d p sc o b) 8 d p sc o b s

/-! Vector accesses (03 R71, R72). -/

/-- The area offset of a lane's own private bytes (03 R73). -/
def privOff (l : Launch) (group lane o : Nat) : Nat := (numLanes * group + lane) * l.krec.priv + o

/-- The translated place of every lane, its lowest faulting page, or why the access waits or stops. -/
def State.translateLanes (s : State) (l : Launch) (id : GroupId) (die : Nat) (v : SegView) (write : Bool)
    (os : List (Nat × Nat)) : Chk (List (Nat × Hit)) :=
  let trs := os.map fun x =>
    (x.1, s.translate l id.team die v (if v.space = .priv then privOff l id.group x.1 x.2 else x.2) write)
  let pages := trs.filterMap fun x => match x.2 with
    | .page va peer pri => some (x.1, va, peer, pri)
    | _ => none
  match pages with
  | first :: rest =>
    let low := rest.foldl (fun a x => if x.2.1 < a.2.1 then x else a) first
    let m := laneMask fun n => pages.any fun x => decide (x.1 = n)
    .page low.2.1 write low.2.2.1 low.2.2.2 m.1 m.2
  | [] =>
    match trs.findSome? fun x => match x.2 with
      | .stop f => some f
      | _ => none with
    | some f => .stop f
    | none =>
      if trs.any fun x => decide (x.2 = .stall) then .hold
      else .ok (trs.filterMap fun x => match x.2 with
        | .ok h => some (x.1, h)
        | _ => none)

/-- The checks of a vector access of `n` bytes at the given offsets of its active lanes: the earliest failing step over
all lanes decides, and the mask holds the lanes that fail it (R72). -/
def Ctx.checkLanes (c : Ctx) (p : W64) (n : Nat) (rights : List Right) (write vector : Bool) (os : List (Nat × Nat)) :
    Chk (List (Nat × Hit)) :=
  let mask (f : Nat × Nat → Bool) : W64 × W64 := laneMask fun l => os.any fun x => decide (x.1 = l) && f x
  let all := mask fun _ => true
  let first := (os.head?.map fun x => faultPtr p x.2).getD p
  (checkSeg c.launch (ptrSeg p) first rights vector all.1 all.2).andThen fun v =>
    let skew (x : Nat × Nat) : Bool := decide (x.2 % n ≠ 0)
    let out (x : Nat × Nat) : Bool := decide (x.2 + n > v.limit)
    match os.find? skew with
    | some x => .trap (.alignment (faultPtr p x.2) (mask skew).1 (mask skew).2)
    | none => match os.find? out with
      | some x => .trap (.bounds (faultPtr p x.2) (mask out).1 (mask out).2)
      | none => c.s.translateLanes c.launch c.id c.die v write os

/-- The active lanes with their offsets PTR.OFF + B6. -/
def Ctx.offsV (c : Ctx) (p : BitVec 5) (b : BitVec 6) : List (Nat × Nat) :=
  let x := c.readB6V b
  let base := ptrOff (c.readPtr p)
  ((List.range numLanes).filter c.active).map fun l => (l, base + (x.at l).toNat)

/-- The value of a lane among those listed. -/
def laneVal (vs : List (Nat × W32)) (l : Nat) : W32 := match vs.find? fun x => decide (x.1 = l) with
  | some x => x.2
  | none => 0

/-- VLDn (R192). -/
def loadV (i : Instr) (n : Nat) (d : BitVec 8) (p : BitVec 5) (sc : BitVec 3) (o : BitVec 2) (b : BitVec 6) (s : State) : Res :=
  issue i s ([.dstV d, .ptr p, .field 6 (scLegal sc o), .field 7 (ordLoad o), .b6V b] ++ ordNeeds o) fun c =>
    if !c.anyActive then c.finishV d fun _ => 0
    else c.checkLoad i (fun g => g.emptyV d) (c.checkLanes (c.readPtr p) n [.pr] false true (c.offsV p b)) fun hs =>
      let locs := hs.flatMap fun h => bytesOf h.2.loc n
      if c.s.loadHeld c.id locs then .next c.s
      else
        let k := c.s.nextId
        let s1 := c.sample (hs.map (·.2)) (acqWide sc o (c.launch.spaceOf (c.readPtr p))) locs
        let vs := hs.map fun h => (h.1, (BitVec.ofNat 32 (s1.servedLoc c.core h.2.loc n)))
        .next ({ s1.setGroup c.id ((c.pendV c.group d k).advance) with free := s1.free + 1 }.addFlight
          ⟨k, c.id, .load, .vector (Lanes.tab (laneVal vs)), c.activeMask, locs⟩)

/-- VSTn (R192): lanes in ascending order. ETYPE, RND and SAT have no effect: a constant D is an unsigned 32-bit value
(assumption 18). -/
def storeV (i : Instr) (n : Nat) (d : BitVec 8) (p : BitVec 5) (sc : BitVec 3) (o : BitVec 2) (b : BitVec 6) (s : State) : Res :=
  issue i s ([.srcVT (fun _ => .nat32) 0 .epd d, .ptr p, .field 6 (scLegal sc o), .field 7 (ordStore o), .b6V b] ++
      ordNeeds o) fun c =>
    if !c.anyActive then .next (c.put c.group.advance)
    else c.check i (c.peerLost (c.readPtr p) (c.checkLanes (c.readPtr p) n [.pw] true true (c.offsV p b))) fun hs =>
      let x := c.readVT .nat32 d
      c.storeAll i (hs.map fun h => (h.2, storeCellsOf h.2.loc n (x.at h.1).toNat))
        (isWide sc o (c.launch.spaceOf (c.readPtr p))) c.group.advance

def execVld8 (d : BitVec 8) (p : BitVec 5) (sc : BitVec 3) (o : BitVec 2) (b : BitVec 6) (s : State) : Res :=
  loadV (.vld8 d p sc o b) 1 d p sc o b s
def execVld16 (d : BitVec 8) (p : BitVec 5) (sc : BitVec 3) (o : BitVec 2) (b : BitVec 6) (s : State) : Res :=
  loadV (.vld16 d p sc o b) 2 d p sc o b s
def execVld32 (d : BitVec 8) (p : BitVec 5) (sc : BitVec 3) (o : BitVec 2) (b : BitVec 6) (s : State) : Res :=
  loadV (.vld32 d p sc o b) 4 d p sc o b s
def execVst8 (d : BitVec 8) (p : BitVec 5) (sc : BitVec 3) (o : BitVec 2) (b : BitVec 6) (s : State) : Res :=
  storeV (.vst8 d p sc o b) 1 d p sc o b s
def execVst16 (d : BitVec 8) (p : BitVec 5) (sc : BitVec 3) (o : BitVec 2) (b : BitVec 6) (s : State) : Res :=
  storeV (.vst16 d p sc o b) 2 d p sc o b s
def execVst32 (d : BitVec 8) (p : BitVec 5) (sc : BitVec 3) (o : BitVec 2) (b : BitVec 6) (s : State) : Res :=
  storeV (.vst32 d p sc o b) 4 d p sc o b s

/-- VPREF (R193): the checks of its fields, and no effect. -/
def execVpref (p : BitVec 5) (sc : BitVec 3) (o : BitVec 2) (b : BitVec 6) (s : State) : Res :=
  issue (.vpref p sc o b) s [.ptr p, .field 6 (decide (sc = 0)), .field 7 (decide (o = 0)), .b6V b] fun c =>
    .next (c.put c.group.advance)

/-! Atomics (R194-R196). -/

/-- What an atomic's ordering code means at the space it names: its scope when it acquires, whether its acquire invalidates the
L1, and whether a wide release runs before it (R190). -/
structure AtomOrder where
  acq : Option (BitVec 3)
  invalidates : Bool
  wide : Bool
  deriving DecidableEq, Repr

def atomOrder (sc : BitVec 3) (o : BitVec 2) (space : Space) : AtomOrder :=
  ⟨if isAcquire o then some sc else none, acqWide sc o space, isWide sc o space⟩

/-- The channel operations of atomics from the first remote one on, each with the local ones that follow it: lanes are performed in
ascending order (R196), and so a local lane above a remote one is performed when that one is. -/
def atomOps (k : Nat) : List (Hit × AtomAccess) → List Outgoing
  | [] => []
  | (h, a) :: rest =>
    let mine := (rest.takeWhile fun x => x.1.dest.isNone).map (·.2)
    let op : Outgoing := ⟨h.home, !mine.isEmpty, .atomic (a :: mine) (some k)⟩
    if h.dest.isSome then op :: atomOps k rest else atomOps k rest

/-- Perform atomics at checked places: the local ones below the first remote one at once, giving their old values, the others as
operations on C0. Atomics bypass the L1 (03 R82): the core gives up the lines of those performed here. -/
def Ctx.atomAll (c : Ctx) (i : Instr) (hs : List (Hit × AtomAccess)) (ord : AtomOrder) (k : State → List W64 → Res) : Res :=
  let remote := atomOps c.s.nextId hs
  let here := (hs.takeWhile fun h => h.1.dest.isNone).map (·.2)
  let locs := here.flatMap AtomAccess.locs
  c.release i ord.wide (if remote.isEmpty then none else some 0) fun _ =>
    c.check i (if remote.isEmpty then .ok () else c.lostCheck 0) fun _ =>
      if c.s.ownHeld c.id ((hs.filter fun h => h.1.dest.isNone).flatMap fun h => h.2.locs) then .next c.s
      else
        let r := State.atomAccesses { c.s.markHits (hs.map (·.1)) true with nextId := c.s.nextId + 1 } here
        let s2 := if ord.invalidates && !here.isEmpty then r.2.clearL1 c.core else r.2.dropLines c.core locs
        c.send s2 0 ord.acq remote fun s1 => k s1 r.1

/-- A scalar atomic on a 64-bit location at PTR.OFF. `cas` reads D as the compare value. -/
def atomS (i : Instr) (op : AtomOp) (cas : Bool) (d : BitVec 8) (p : BitVec 5) (sc : BitVec 3) (o : BitVec 2) (b : BitVec 6)
    (s : State) : Res :=
  issue i s ([if cas then .rmwS 0 d else .dstS 0 d, .ptr p, .field 6 (scLegal sc o), .b6S b] ++ ordNeeds o) fun c =>
    let ptr := c.readPtr p
    c.check i (c.peerLost ptr (c.s.checkScalar c.launch c.id.team c.die ptr (ptrOff ptr) 8 [.pa] true)) fun h =>
      let a : AtomAccess := ⟨0, h.loc, op, .int64, c.readB6S b, if cas then c.readS d else 0, 0, false⟩
      c.atomAll i [(h, a)] (atomOrder sc o (c.launch.spaceOf ptr)) fun s1 olds =>
        .next { (s1.setGroup c.id ((c.group.pendS d c.s.nextId).advance)) with
          flights := s1.flights ++ [⟨c.s.nextId, c.id, .atomic, .scalar (olds.headD 0), [], []⟩] }

def execAtadd (d : BitVec 8) (p : BitVec 5) (sc : BitVec 3) (o : BitVec 2) (b : BitVec 6) (s : State) : Res :=
  atomS (.atadd d p sc o b) .add false d p sc o b s
def execAtmin (d : BitVec 8) (p : BitVec 5) (sc : BitVec 3) (o : BitVec 2) (b : BitVec 6) (s : State) : Res :=
  atomS (.atmin d p sc o b) .min false d p sc o b s
def execAtmax (d : BitVec 8) (p : BitVec 5) (sc : BitVec 3) (o : BitVec 2) (b : BitVec 6) (s : State) : Res :=
  atomS (.atmax d p sc o b) .max false d p sc o b s
def execAtand (d : BitVec 8) (p : BitVec 5) (sc : BitVec 3) (o : BitVec 2) (b : BitVec 6) (s : State) : Res :=
  atomS (.atand d p sc o b) .and false d p sc o b s
def execAtor (d : BitVec 8) (p : BitVec 5) (sc : BitVec 3) (o : BitVec 2) (b : BitVec 6) (s : State) : Res :=
  atomS (.ator d p sc o b) .or false d p sc o b s
def execAtxor (d : BitVec 8) (p : BitVec 5) (sc : BitVec 3) (o : BitVec 2) (b : BitVec 6) (s : State) : Res :=
  atomS (.atxor d p sc o b) .xor false d p sc o b s
def execAtxchg (d : BitVec 8) (p : BitVec 5) (sc : BitVec 3) (o : BitVec 2) (b : BitVec 6) (s : State) : Res :=
  atomS (.atxchg d p sc o b) .xchg false d p sc o b s
def execAtcas (d : BitVec 8) (p : BitVec 5) (sc : BitVec 3) (o : BitVec 2) (b : BitVec 6) (s : State) : Res :=
  atomS (.atcas d p sc o b) .cas true d p sc o b s

/-- The types of a vector atomic, as its home sees them (R195). -/
def atomTypeOf (t : ElemType) : AtomType := match t with
  | .nat32 => .nat32
  | .fp32 => .fp32
  | _ => .int32

def atomTypes (t : ElemType) : Bool := decide (t = .int32 ∨ t = .nat32 ∨ t = .fp32)

/-- A vector atomic (R195): D is the operand of every active lane and receives the old value. -/
def atomV (i : Instr) (op : AtomOp) (d : BitVec 8) (p : BitVec 5) (sc : BitVec 3) (o : BitVec 2) (b : BitVec 6) (s : State) : Res :=
  issue i s ([.rmwV d, .ptr p, .field 6 (scLegal sc o), .b6V b, .etype atomTypes] ++ ordNeeds o) fun c =>
    if !c.anyActive then c.finishV d fun _ => 0
    else c.check i (c.peerLost (c.readPtr p) (c.checkLanes (c.readPtr p) 4 [.pa] true true (c.offsV p b))) fun hs =>
      let x := c.readV d
      let acc (h : Nat × Hit) : Hit × AtomAccess :=
        (h.2, ⟨h.1, h.2.loc, op, atomTypeOf c.ty, (x.at h.1).zeroExtend 64, 0, c.group.mode.extractLsb' 9 3, c.sat⟩)
      let local' := hs.takeWhile fun h => h.2.dest.isNone
      c.atomAll i (hs.map acc) (atomOrder sc o (c.launch.spaceOf (c.readPtr p))) fun s1 olds =>
        let vs := (local'.zip olds).map fun h => (h.1.1, (h.2.truncate 32 : W32))
        .next { (s1.setGroup c.id ((c.pendV c.group d c.s.nextId).advance)) with
          free := c.s.free + 1
          flights := s1.flights ++ [⟨c.s.nextId, c.id, .atomic, .vector (Lanes.tab (laneVal vs)), c.activeMask, []⟩] }

def execVatadd (d : BitVec 8) (p : BitVec 5) (sc : BitVec 3) (o : BitVec 2) (b : BitVec 6) (s : State) : Res :=
  atomV (.vatadd d p sc o b) .add d p sc o b s
def execVatmin (d : BitVec 8) (p : BitVec 5) (sc : BitVec 3) (o : BitVec 2) (b : BitVec 6) (s : State) : Res :=
  atomV (.vatmin d p sc o b) .min d p sc o b s
def execVatmax (d : BitVec 8) (p : BitVec 5) (sc : BitVec 3) (o : BitVec 2) (b : BitVec 6) (s : State) : Res :=
  atomV (.vatmax d p sc o b) .max d p sc o b s
def execVatxchg (d : BitVec 8) (p : BitVec 5) (sc : BitVec 3) (o : BitVec 2) (b : BitVec 6) (s : State) : Res :=
  atomV (.vatxchg d p sc o b) .xchg d p sc o b s
def execVatand (d : BitVec 8) (p : BitVec 5) (sc : BitVec 3) (o : BitVec 2) (b : BitVec 6) (s : State) : Res :=
  atomV (.vatand d p sc o b) .and d p sc o b s
def execVator (d : BitVec 8) (p : BitVec 5) (sc : BitVec 3) (o : BitVec 2) (b : BitVec 6) (s : State) : Res :=
  atomV (.vator d p sc o b) .or d p sc o b s

/-- FENCE (R197; 04 R94, R98). Local accesses are performed in program order at issue; what is left of its earlier set is the
group's operations of the mask's colours on channels to its own die, and it waits for no other channel operation. At CLUSTER
scope or wider no line filled before it serves a later load. -/
def execFence (m : BitVec 8) (sc : BitVec 3) (s : State) : Res :=
  issue (.fence m sc) s [.field 6 (decide (sc ≠ 7)), .released m] fun c =>
    .next ((if 3 ≤ sc.toNat then c.s.clearL1 c.core else c.s).setGroup c.id c.group.advance)

end Sys2Proof.Machine
end

