-- ==== Sys2Proof/Machine/Barrier.lean ====
section
/-! DEFINITION. Team barriers (spec 07 R158-R160) and the budget move that RQUOTA asks for (01 R22). The sequencer's side
is 10 R221. -/

namespace Sys2Proof.Machine

/-! The budget move (01 R22, 07 R160). -/

/-- Groups of a role. -/
def groupsOfRole (l : Launch) (role : Nat) : List Nat :=
  (List.range (groupCount l.krec.lanes)).filter fun g => decide (roleOf l.krec.roles g = role)

/-- The status of R22 for a request of `k` registers from one role to another: 0 GRANTED, 1 REFUSED, 2 PENDING. -/
def quotaStatus (t : Team) (l : Launch) (src dst k : Nat) : Nat :=
  let bf := t.budgets.getD src 0
  let bt := t.budgets.getD dst 0
  let after (r : Nat) : Nat := if r = src then bf - k else if r = dst then bt + k else t.budgets.getD r 0
  if bf < k + 8 || bt + k > 128 then 1
  else if (l.krec.roles.zipIdx.foldl (fun a r => a + r.1.1 * after r.2 / 8) 0) > t.alloc then 1
  else if (groupsOfRole l src).any fun g => match t.groups[g]? with
    | some g => (g.vregs.drop (bf - k)).any fun x => x.pend.isSome
    | none => false
    then 2
  else 0

/-- A granted move: the registers given up are discarded, those received read as +0 and are full. -/
def grantQuota (t : Team) (l : Launch) (src dst k : Nat) : Team :=
  let bf := t.budgets.getD src 0
  { t with
    budgets := t.budgets.zipIdx.map fun b => if b.2 = src then b.1 - k else if b.2 = dst then b.1 + k else b.1
    groups := t.groups.zipIdx.map fun g =>
      let r := roleOf l.krec.roles g.2
      if r = src then { g.1 with vregs := g.1.vregs.take (bf - k) }
      else if r = dst then { g.1 with vregs := g.1.vregs ++ List.replicate k ⟨Lanes.zero, none⟩ }
      else g.1 }

/-- The request word's checks (R160): FROM, TO and K, or none when it is refused. -/
def quotaRequest (l : Launch) (w : W64) : Option (Nat × Nat × Nat) :=
  let src := w.toNat % 4
  let dst := w.toNat / 4 % 4
  let k := w.toNat / 16 % 256
  let n := l.krec.roles.length
  if w.toNat / 2 ^ 12 ≠ 0 || src = dst || src ≥ n || dst ≥ n || k = 0 || k % 8 ≠ 0 then none else some (src, dst, k)

/-- The decision at COMPLETE over the requests of the phase: the status and the team (R160). -/
def decideQuota (t : Team) (l : Launch) (arr : List Bool) (reqs : List (Nat × W64 × Nat)) : Nat × Team :=
  let whole := arr.all id && (List.range arr.length).all fun g => reqs.any fun r => decide (r.1 = g)
  match reqs with
  | [] => (1, t)
  | (_, w, _) :: _ =>
    if !whole || !(reqs.all fun r => decide (r.2.1 = w)) then (1, t)
    else match quotaRequest l w with
      | none => (1, t)
      | some (src, dst, k) =>
        let st := quotaStatus t l src dst k
        (st, if st = 0 then grantQuota t l src dst k else t)

/-! Barriers (R159). -/

/-- Release a group that COMPLETE(n) finds in WAIT on `n`: it consumes the completion and goes on. -/
def Group.barRelease (n : Nat) (g : Group) : Group :=
  if g.run = .barWait n then ({ g with run := .running } : Group).advance else g

/-- The stream consumes a completion of barrier `n`: the writes that the groups which arrived for it had made are published to
the operations issued from now on (10 R224). -/
def Sequencer.consume (n : Nat) (q : Sequencer) : Sequencer :=
  let one (w : OpWrite) : OpWrite := { w with due := w.due.map fun d => if d.1 = n then (n, d.2 - 1) else d }
  { q with unread := (q.unread.map one).filter fun w => w.due.all fun d => decide (d.2 ≠ 0) }

/-- Group `g` arrives on barrier `n`: its writes, and those from outside the team, are published when the stream consumes the completion of this phase. -/
def Sequencer.groupArrived (n g : Nat) (q : Sequencer) : Sequencer :=
  { q with unread := q.unread.map fun w =>
      if w.group.all (· = g) && w.due.all fun d => decide (d.1 ≠ n) then { w with due := w.due ++ [(n, (q.owe.getD n 0).toNat + 1)] }
      else w }

/-- COMPLETE(n) for the sequencer: OWEn counts it, and a wait on `n` consumes it (10 R221). -/
def Sequencer.barComplete (n : Nat) (q : Sequencer) : Sequencer :=
  let owe := (q.owe.getD n 0).toNat
  let owe1 := if owe = 65535 then owe else owe + 1
  if q.waitBar = some n then
    Sequencer.consume n
      { q with owe := q.owe.set n (BitVec.ofNat 16 (owe1 - 1)), waitBar := none, sqstate := .run, spc := q.spc + 4 }
  else { q with owe := q.owe.set n (BitVec.ofNat 16 owe1) }

/-- COMPLETE(n) (R159): quota requests are decided, arrivals become DONE, waiters are released. -/
def Team.barComplete (t : Team) (l : Launch) (n : Nat) : Team :=
  match t.bars[n]? with
  | none => t
  | some b =>
    let q := decideQuota t l b.arr b.reqs
    let t1 := q.2
    let waits (g : Group) : Bool := decide (g.run = .barWait n)
    let done := b.arr.zipIdx.map fun a =>
      (a.1 || b.done.getD a.2 false) && !((t1.groups[a.2]?.map waits).getD false)
    let landed (g : Group) : Group := b.reqs.foldl (fun g r => g.landS r.2.2 (BitVec.ofNat 64 q.1)) g
    { t1 with
      bars := t1.bars.set n
        { b with count := 0, arr := b.arr.map fun _ => false, arrSeq := false, done := done, reqs := [] }
      groups := t1.groups.map fun g => (landed g).barRelease n
      seq := t1.seq.map (Sequencer.barComplete n) }

/-- The team after an arrival has been counted. -/
def Team.arrived (t : Team) (l : Launch) (n : Nat) (b : Barrier) : Team :=
  let t1 := { t with bars := t.bars.set n b }
  if b.count = b.exp then t1.barComplete l n else t1

/-- ARRIVE(n, g) when ARR is clear (R159). -/
def Team.arrive (t : Team) (l : Launch) (n g : Nat) (req : Option (W64 × Nat)) : Team :=
  match t.bars[n]? with
  | none => t
  | some b => Team.arrived { t with seq := t.seq.map (Sequencer.groupArrived n g) } l n { b with
      done := b.done.set g false, arr := b.arr.set g true, count := b.count + 1,
      reqs := match req with
        | some r => b.reqs ++ [(g, r.1, r.2)]
        | none => b.reqs }

def Team.arr (t : Team) (n g : Nat) : Bool := ((t.bars[n]?).bind fun b => b.arr[g]?).getD false
def Team.done (t : Team) (n g : Nat) : Bool := ((t.bars[n]?).bind fun b => b.done[g]?).getD false

def Team.clearDone (t : Team) (n g : Nat) : Team :=
  { t with bars := t.bars.modify n fun b => { b with done := b.done.set g false } }

/-- WAIT(n, g) of a team's group at an instruction it may already have arrived in (R159): it goes on, or is held. -/
def Team.wait (t : Team) (n g : Nat) : Team :=
  if t.done n g then { t.clearDone n g with groups := t.groups.modify g Group.advance }
  else { t with groups := t.groups.modify g fun x => { x with run := .barWait n, begun := true } }

/-- BARARR (R159): a second arrival waits for the next phase. An arrival is a release at TEAM scope (04 R100). -/
def execBararr (n : BitVec 4) (s : State) : Res :=
  issue (.bararr n) s [.released 0xFF] fun c =>
    let t := c.team
    if t.arr n.toNat c.id.group then c.held .barrier
    else .next (c.s.setTeam ((t.setGroup c.id.group c.group.advance).arrive c.launch n.toNat c.id.group none))

def execBarwait (n : BitVec 4) (s : State) : Res :=
  issue (.barwait n) s [] fun c => .next (c.s.setTeam (c.team.wait n.toNat c.id.group))

/-- Whether the group has already arrived on `n` in this instruction. -/
def Ctx.hasArrived (c : Ctx) (n : Nat) : Bool := decide (c.group.heldHere = some (.arrived n))

/-- The group put into WAIT after its arrival; an arrival that completed the phase goes on at once. -/
def Team.arriveWait (t : Team) (l : Launch) (n g : Nat) (req : Option (W64 × Nat)) : Team :=
  ({ t with groups := t.groups.modify g fun x => { x.hold (.arrived n) with run := .barWait n } } : Team).arrive l n g req

/-- BARSYNC (R159): ARRIVE, then WAIT. A group re-held here has arrived already (13 R271). -/
def execBarsync (n : BitVec 4) (s : State) : Res :=
  issue (.barsync n) s [.released 0xFF] fun c =>
    let t := c.team
    if c.hasArrived n.toNat then .next (c.s.setTeam (t.wait n.toNat c.id.group))
    else if t.arr n.toNat c.id.group then c.held .barrier
    else .next (c.s.setTeam (t.arriveWait c.launch n.toNat c.id.group none))

/-- The group whose turn it is stands at an instruction in which it has arrived on `n`. -/
def State.arrivedHere (s : State) (n : Nat) : Bool := match s.cur with
  | .group id => (s.group? id).any fun g => decide (g.heldHere = some (.arrived n))
  | _ => false

/-- RQUOTA (R160): BARSYNC with a request; its status is pushed at issue and filled by COMPLETE. One that is held again has read
its request already, and looks at no operand. A save takes the status entry as it is, empty (R134 names only a load stopped by a
fault, while R160 leaves the entry to COMPLETE: DESIGN CHOICE, assumption 92). -/
def execRquota (d : BitVec 8) (n : BitVec 4) (b : BitVec 8) (s : State) : Res :=
  issue (.rquota d n b) s (if s.arrivedHere n.toNat then [] else [.dstS 0 d, .srcS 2 .epb b, .released 0xFF]) fun c =>
    let t := c.team
    let k := c.s.nextId
    if c.hasArrived n.toNat then .next (c.s.setTeam (t.wait n.toNat c.id.group))
    else if t.arr n.toNat c.id.group then c.held .barrier
    else
      let g := (c.group.pushS ⟨0, some k⟩).writeS d ⟨0, some k⟩
      .next { (c.s.setTeam ((t.setGroup c.id.group g).arriveWait c.launch n.toNat c.id.group (some (c.readS b, k)))) with
        nextId := k + 1 }

end Sys2Proof.Machine
end

