-- ==== Sys2Proof/Machine/ChanInstr.lean ====
section
/-! DEFINITION. The channel instructions CST, CATOM, CJOIN and CDRAIN (spec 09 R200-R202, R204). -/

namespace Sys2Proof.Machine

/-- A scalar CST: one channel operation. -/
def cstScalar (i : Instr) (ch n : Nat) (p v : W64) (c : Ctx) : Res :=
  c.check i (c.lostHold ch (c.s.checkScalar c.launch c.id.team c.die p (ptrOff p) n [.pm, .pw] true)) fun h =>
    c.check i (c.lostCheck ch) fun _ =>
      c.send (c.s.markHits [h] true) ch none [⟨h.home, h.dest.isNone, .store (storeCellsOf h.loc n v.toNat)⟩] fun s1 =>
        .next (s1.setGroup c.id c.group.advance)

/-- The operations of a vector CST: the lanes of one 256-byte block of offsets are one operation, in ascending offset. -/
def cstChunks (off n : Nat) (x : Lanes) (hs : List (Nat × Hit)) : List Outgoing :=
  let block (l : Nat) : Nat := (off + n * l) / 256
  (List.range 5).filterMap fun b =>
    let part := hs.filter fun h => decide (block h.1 = off / 256 + b)
    match part with
    | [] => none
    | h :: _ => some ⟨h.2.home, h.2.dest.isNone, .store (part.flatMap fun h => storeCellsOf h.2.loc n (x.at h.1).toNat)⟩

/-- A vector CST (R201): offset A.OFF + n·l in lane l. -/
def cstVector (i : Instr) (ch n : Nat) (p : W64) (x : Lanes) (c : Ctx) : Res :=
  if !c.anyActive then .next (c.put c.group.advance)
  else
    let os := ((List.range numLanes).filter c.active).map fun l => (l, ptrOff p + n * l)
    c.check i (c.lostHold ch (c.checkLanes p n [.pm, .pw] true false os)) fun hs =>
      c.check i (c.lostCheck ch) fun _ =>
        c.send (c.s.markHits (hs.map (·.2)) true) ch none (cstChunks (ptrOff p) n x hs) fun s1 =>
          .next (s1.setGroup c.id c.group.advance)

/-- CST: X gives the size, and whether the form is the vector one. -/
def execCst (ch x : BitVec 4) (a b : BitVec 8) (s : State) : Res :=
  let i : Instr := .cst ch x a b
  let n := 2 ^ (x.toNat % 4)
  let vec := x.getLsbD 2
  issue i s [.field 9 (decide (x.toNat < 7)), .srcS 1 .epa a, if vec then .srcV 2 .epb b else .srcS 2 .epb b, .access] fun c =>
    if vec then cstVector i ch.toNat n (c.readS a) (c.readV b) c else cstScalar i ch.toNat n (c.readS a) (c.readS b) c

/-- The operation of CATOM by X (R202). -/
def catomOp (x : Nat) : AtomOp := [AtomOp.add, .min, .max, .and, .or, .xor, .xchg].getD x .xchg

/-- CATOM: the old value is pushed, pending, and has no named destination. -/
def execCatom (ch x : BitVec 4) (a b : BitVec 8) (s : State) : Res :=
  let i : Instr := .catom ch x a b
  issue i s [.field 9 (decide (x.toNat < 7)), .srcS 1 .epa a, .srcS 2 .epb b, .access] fun c =>
    let p := c.readS a
    c.check i (c.lostHold ch.toNat (c.s.checkScalar c.launch c.id.team c.die p (ptrOff p) 8 [.pm, .pa] true)) fun h =>
      c.check i (c.lostCheck ch.toNat) fun _ =>
        let k := c.s.nextId
        let acc : AtomAccess := ⟨0, h.loc, catomOp x.toNat, .int64, c.readS b, 0, 0, false⟩
        c.send { c.s.markHits [h] true with nextId := k + 1 } ch.toNat none [⟨h.home, h.dest.isNone, .atomic [acc] (some k)⟩] fun s1 =>
          .next { (s1.setGroup c.id ((c.group.pendS 0xFF k).advance)) with
            flights := s1.flights ++ [⟨k, c.id, .engine, .scalar 0, [], []⟩] }

/-- CJOIN (R204; 05 R119): a channel operation of neither channel, it never holds. -/
def execCjoin (ch x : BitVec 4) (s : State) : Res :=
  issue (.cjoin ch x) s [] fun c =>
    .next ((c.s.joinChan c.id.team ch.toNat x.toNat).setGroup c.id c.group.advance)

/-- CDRAIN (R204; 05 R120): a stream that is lost while it is held faults it like one lost before (R123). -/
def execCdrain (ch : BitVec 4) (s : State) : Res :=
  issue (.cdrain ch) s [] fun c =>
    c.check (.cdrain ch) (c.lostCheck ch.toNat) fun _ =>
      c.drain (c.s.unackedOn c.id.team ch.toNat) fun _ => .next (c.put c.group.advance)

end Sys2Proof.Machine
end

