-- ==== Sys2Proof/Machine/Leaves.lean ====
section
/-! DEFINITION. The mapped pages of a partition and of a job (spec 03 R77, R78). -/

namespace Sys2Proof.Machine

/-! The mapped pages. -/

/-- A mapped page: virtual and physical address, size and the address of its table entry. -/
structure Leaf where
  va : Nat
  pa : Nat
  size : Nat
  entry : Nat
  deriving DecidableEq, Repr

/-- Every valid leaf under a table (R77, R78), pages in transit included. -/
def leavesFrom (rd : Nat → W64) : List (Nat × Nat × Nat) → Nat → Nat → List Leaf
  | [], _, _ => []
  | (lo, bits, leaf) :: rest, table, va =>
    (List.range (2 ^ bits)).flatMap fun i =>
      let e := rd (table + 8 * i)
      let here := va + i * 2 ^ lo
      let base := e.toNat / 2 ^ 12 % 2 ^ 44 * 2 ^ 12
      if pteReserved e || !(e.getLsbD 0) then []
      else if (leaf == 0x10000) || (leaf == 0x200000 && e.getLsbD 1) then
        if base % leaf ≠ 0 then [] else [⟨here, base, leaf, table + 8 * i⟩]
      else leavesFrom rd rest base here

def State.leavesOf (s : State) (part : Nat) : List Leaf :=
  leavesFrom s.mem.read64 walkLevels (s.parts.getD part Partition.reset).ptRoot 0

/-- A descriptor covers bytes of a page. -/
def SegDesc.covers (d : SegDesc) (p : Leaf) : Bool :=
  d.valid && decide (d.spaceCode ≤ 1) && decide (p.va < d.base + d.limit) && decide (d.base < p.va + p.size)

/-- A page lies in a near or lake segment of a launch. -/
def Launch.owns (l : Launch) (p : Leaf) : Bool := l.segs.any fun d => d.covers p

/-- A page of a partition lies in a tiered lake segment of a launch (R85). -/
def State.tieredPage (s : State) (part : Nat) (p : Leaf) : Bool :=
  s.launches.any fun l => decide (l.fn = part) && decide (l.stage ≠ .complete) &&
    l.segs.any fun d => d.covers p && decide (d.spaceCode = 1) && d.w2.getLsbD 11

/-- The mapped pages of the segments of a job's launches. -/
def State.jobPages (s : State) (launches : List Nat) : List Leaf :=
  ((s.launches.filter fun l => launches.contains l.seq).flatMap fun l => (s.leavesOf l.fn).filter l.owns).dedup

/-- The leaf that maps a physical address for a partition. -/
def State.leafAt (s : State) (part pa : Nat) : Option Leaf :=
  (s.leavesOf part).find? fun p => decide (p.pa ≤ pa) && decide (pa < p.pa + p.size)

def State.pageDirty (s : State) (p : Leaf) : Bool := (s.mem.read64 p.entry).getLsbD 7

/-- Bytes of a die's near memory in which home-together segments of a partition's launches lie (03 R84, 26 R382). -/
def State.homeBytes (s : State) (part die : Nat) : Nat :=
  (((s.leavesOf part).filter fun p => isNear p.pa && decide (nearDie p.pa = die) &&
    s.launches.any fun l => decide (l.fn = part) && decide (l.stage ≠ .complete) &&
      l.segs.any fun d => d.covers p && d.w2.getLsbD 5).map (·.size)).sum

end Sys2Proof.Machine
end

