-- ==== Sys2Proof/Machine/Vector.lean ====
section
/-! DEFINITION. Rows 0x4 to 0x6 of the opcode map: vector arithmetic, bits, selection, rounding to integral and movement
across lanes (spec 08 R162-R175). -/

namespace Sys2Proof.Machine

/-! The classes of the "Types" column (R163). -/

def tyAny (_ : ElemType) : Bool := true
def tyF (t : ElemType) : Bool := t.isFloat
def tySU (t : ElemType) : Bool := !t.isFloat
def tyFS (t : ElemType) : Bool := t.isFloat || t.isSigned

/-! Work on sub-elements (R162). -/

def ElemType.map1 (t : ElemType) (f : Nat → Nat) (a : W32) : W32 := t.join ((t.split a).map f)
def ElemType.map2 (t : ElemType) (f : Nat → Nat → Nat) (a b : W32) : W32 :=
  t.join (List.zipWith f (t.split a) (t.split b))
def ElemType.map3 (t : ElemType) (f : Nat → Nat → Nat → Nat) (a b d : W32) : W32 :=
  t.join ((t.split a).zip ((t.split b).zip (t.split d)) |>.map fun x => f x.1 x.2.1 x.2.2)

/-- A one-source instruction. -/
def vec1 (i : Instr) (d a : BitVec 8) (ok : ElemType → Bool) (f : Ctx → W32 → W32) (s : State) : Res :=
  issue i s [.dstV d, .srcV 1 .epa a, .etype ok] fun c =>
    let x := c.readV a
    c.finishV d fun l => f c (x.at l)

/-- A two-source instruction. -/
def vec2 (i : Instr) (d a b : BitVec 8) (ok : ElemType → Bool) (f : Ctx → W32 → W32 → W32) (s : State) : Res :=
  issue i s [.dstV d, .srcV 1 .epa a, .srcV 2 .epb b, .etype ok] fun c =>
    let x := c.readV a
    let y := c.readV b
    c.finishV d fun l => f c (x.at l) (y.at l)

/-- An instruction that reads D as a source too (R165). -/
def vec3 (i : Instr) (d a b : BitVec 8) (ok : ElemType → Bool) (f : Ctx → W32 → W32 → W32 → W32) (s : State) : Res :=
  issue i s [.srcDst d, .srcV 1 .epa a, .srcV 2 .epb b, .etype ok] fun c =>
    let x := c.readV a
    let y := c.readV b
    let z := c.readV d
    c.finishV d fun l => f c (x.at l) (y.at l) (z.at l)

/-! Sub-element operations (R164, R166-R169). -/

/-- Two-source arithmetic of a type: the rounded result of the floating function, or the exact integer narrowed. -/
def arith2 (t : ElemType) (sat : Bool) (fp : FpFmt → Fp → Fp → Nat) (int : Int → Int → Int) (a b : Nat) : Nat :=
  match t.fmt? with
  | some f => fp f (f.decode a) (f.decode b)
  | none => t.ofInt sat (int (t.toInt a) (t.toInt b))

def subAdd (t : ElemType) (rnd : Rnd) (sat : Bool) : Nat → Nat → Nat :=
  arith2 t sat (fun f => f.add rnd sat) (fun x y => x + y)
def subSub (t : ElemType) (rnd : Rnd) (sat : Bool) : Nat → Nat → Nat :=
  arith2 t sat (fun f => f.sub rnd sat) (fun x y => x - y)
def subMul (t : ElemType) (rnd : Rnd) (sat : Bool) : Nat → Nat → Nat :=
  arith2 t sat (fun f => f.mul rnd sat) (fun x y => x * y)

/-- VDIV: an integer divisor of 0 gives all ones whatever SAT holds (R166). -/
def subDiv (t : ElemType) (rnd : Rnd) (sat : Bool) (a b : Nat) : Nat :=
  if !t.isFloat && decide (b = 0) then 2 ^ t.width - 1
  else arith2 t sat (fun f => f.div rnd sat) Int.tdiv a b

/-- The fused family (R167): ±(A × B) ± D computed exactly and narrowed once. -/
def subFma (t : ElemType) (rnd : Rnd) (sat negP negD : Bool) (a b d : Nat) : Nat :=
  match t.fmt? with
  | some f =>
    let p := (f.decode a).mul (f.decode b)
    let z := f.decode d
    f.add rnd sat (if negP then p.negate else p) (if negD then z.negate else z)
  | none =>
    let p := t.toInt a * t.toInt b
    let z := t.toInt d
    t.ofInt sat ((if negP then -p else p) + (if negD then -z else z))

/-- VMIN and VMAX (R168). -/
def subMinMax (t : ElemType) (max : Bool) (a b : Nat) : Nat :=
  match t.fmt? with
  | some f => fpMinMax f max a b
  | none => if decide (t.toInt a < t.toInt b) == max then b else a

/-- A sign operation on an F sub-element: a NaN operand gives the canonical NaN (R169). -/
def fpSign (f : FpFmt) (neg : Bool) (a : Nat) : Nat :=
  if f.decode a = .nan then f.nan else f.withSign neg (a % f.signBit)

def subAbs (t : ElemType) (sat : Bool) (a : Nat) : Nat :=
  match t.fmt? with
  | some f => fpSign f false a
  | none => t.ofInt sat |t.toInt a|

def subNeg (t : ElemType) (sat : Bool) (a : Nat) : Nat :=
  match t.fmt? with
  | some f => fpSign f (decide (a / f.signBit % 2 = 0)) a
  | none => t.ofInt sat (-(t.toInt a))

/-- A floating function of one operand; its types are F. -/
def subFp (t : ElemType) (g : FpFmt → Fp → Nat) (a : Nat) : Nat :=
  match t.fmt? with
  | some f => g f (f.decode a)
  | none => a

def subCsign (t : ElemType) (a b : Nat) : Nat :=
  match t.fmt? with
  | some f => fpSign f (decide (b / f.signBit % 2 = 1)) a
  | none => a

def execVadd (d a b : BitVec 8) (s : State) : Res :=
  vec2 (.vadd d a b) d a b tyAny (fun c => c.ty.map2 (subAdd c.ty c.rnd c.sat)) s
def execVsub (d a b : BitVec 8) (s : State) : Res :=
  vec2 (.vsub d a b) d a b tyAny (fun c => c.ty.map2 (subSub c.ty c.rnd c.sat)) s
def execVmul (d a b : BitVec 8) (s : State) : Res :=
  vec2 (.vmul d a b) d a b tyAny (fun c => c.ty.map2 (subMul c.ty c.rnd c.sat)) s
def execVdiv (d a b : BitVec 8) (s : State) : Res :=
  vec2 (.vdiv d a b) d a b tyAny (fun c => c.ty.map2 (subDiv c.ty c.rnd c.sat)) s
def execVfma (d a b : BitVec 8) (s : State) : Res :=
  vec3 (.vfma d a b) d a b tyAny (fun c => c.ty.map3 (subFma c.ty c.rnd c.sat false false)) s
def execVfms (d a b : BitVec 8) (s : State) : Res :=
  vec3 (.vfms d a b) d a b tyAny (fun c => c.ty.map3 (subFma c.ty c.rnd c.sat false true)) s
def execVfnma (d a b : BitVec 8) (s : State) : Res :=
  vec3 (.vfnma d a b) d a b tyAny (fun c => c.ty.map3 (subFma c.ty c.rnd c.sat true false)) s
def execVmin (d a b : BitVec 8) (s : State) : Res :=
  vec2 (.vmin d a b) d a b tyAny (fun c => c.ty.map2 (subMinMax c.ty false)) s
def execVmax (d a b : BitVec 8) (s : State) : Res :=
  vec2 (.vmax d a b) d a b tyAny (fun c => c.ty.map2 (subMinMax c.ty true)) s
def execVabs (d a : BitVec 8) (s : State) : Res :=
  vec1 (.vabs d a) d a tyFS (fun c => c.ty.map1 (subAbs c.ty c.sat)) s
def execVneg (d a : BitVec 8) (s : State) : Res :=
  vec1 (.vneg d a) d a tyFS (fun c => c.ty.map1 (subNeg c.ty c.sat)) s

/-- A correctly rounded function (R169). -/
def vecFn (i : Instr) (d a : BitVec 8) (g : FpFmt → Rnd → Bool → Fp → Nat) (s : State) : Res :=
  vec1 i d a tyF (fun c => c.ty.map1 (subFp c.ty fun f => g f c.rnd c.sat)) s

def execVsqrt (d a : BitVec 8) (s : State) : Res := vecFn (.vsqrt d a) d a FpFmt.sqrt s
/-- VRCP: 1 ÷ A. -/
def execVrcp (d a : BitVec 8) (s : State) : Res :=
  vecFn (.vrcp d a) d a (fun f rnd sat x => f.div rnd sat (.fin false 1 0) x) s
def execVrsq (d a : BitVec 8) (s : State) : Res := vecFn (.vrsq d a) d a FpFmt.rsqrt s
def execVexp2 (d a : BitVec 8) (s : State) : Res := vecFn (.vexp2 d a) d a FpFmt.exp2 s
def execVlog2 (d a : BitVec 8) (s : State) : Res := vecFn (.vlog2 d a) d a FpFmt.log2 s
def execVcsign (d a b : BitVec 8) (s : State) : Res :=
  vec2 (.vcsign d a b) d a b tyF (fun c => c.ty.map2 (subCsign c.ty)) s

/-! Bits and selection (R170, R171): SAT is ignored and logic works on raw patterns. -/

/-- The shift count: the sub-element of B modulo w. -/
def subShl (w a b : Nat) : Nat := a * 2 ^ (b % w) % 2 ^ w
def subShr (w a b : Nat) : Nat := a / 2 ^ (b % w)
def subShra (w a b : Nat) : Nat :=
  let v : Int := if 2 ^ (w - 1) ≤ a then (a : Int) - 2 ^ w else a
  (v / 2 ^ (b % w) % 2 ^ w).toNat
def subRot (w a b : Nat) : Nat := a * 2 ^ (b % w) % 2 ^ w + a / 2 ^ (w - b % w)
/-- The upper w bits of the 2w-bit product. -/
def subMulhi (t : ElemType) (a b : Nat) : Nat := t.wrap (t.toInt a * t.toInt b / 2 ^ t.width)
def subClz (w a : Nat) : Nat := if a = 0 then w else w - 1 - Nat.log2 a
def subPopc (w a : Nat) : Nat := ((List.range w).filter fun k => decide (a / 2 ^ k % 2 = 1)).length

def execVand (d a b : BitVec 8) (s : State) : Res := vec2 (.vand d a b) d a b tyAny (fun _ x y => x &&& y) s
def execVor (d a b : BitVec 8) (s : State) : Res := vec2 (.vor d a b) d a b tyAny (fun _ x y => x ||| y) s
def execVxor (d a b : BitVec 8) (s : State) : Res := vec2 (.vxor d a b) d a b tyAny (fun _ x y => x ^^^ y) s
def execVnot (d a : BitVec 8) (s : State) : Res := vec1 (.vnot d a) d a tyAny (fun _ x => ~~~x) s
def execVshl (d a b : BitVec 8) (s : State) : Res :=
  vec2 (.vshl d a b) d a b tySU (fun c => c.ty.map2 (subShl c.ty.width)) s
def execVshr (d a b : BitVec 8) (s : State) : Res :=
  vec2 (.vshr d a b) d a b tySU (fun c => c.ty.map2 (subShr c.ty.width)) s
def execVshra (d a b : BitVec 8) (s : State) : Res :=
  vec2 (.vshra d a b) d a b tySU (fun c => c.ty.map2 (subShra c.ty.width)) s
def execVrot (d a b : BitVec 8) (s : State) : Res :=
  vec2 (.vrot d a b) d a b tySU (fun c => c.ty.map2 (subRot c.ty.width)) s
def execVmulhi (d a b : BitVec 8) (s : State) : Res :=
  vec2 (.vmulhi d a b) d a b tySU (fun c => c.ty.map2 (subMulhi c.ty)) s
def execVclz (d a : BitVec 8) (s : State) : Res :=
  vec1 (.vclz d a) d a tySU (fun c => c.ty.map1 (subClz c.ty.width)) s
def execVpopc (d a : BitVec 8) (s : State) : Res :=
  vec1 (.vpopc d a) d a tySU (fun c => c.ty.map1 (subPopc c.ty.width)) s
/-- VSEL: the condition is a test of D's bit pattern. -/
def execVsel (d a b : BitVec 8) (s : State) : Res :=
  vec3 (.vsel d a b) d a b tyAny (fun c => c.ty.map3 fun x y z => if z ≠ 0 then x else y) s

/-! Rounding to integral (R172). -/

/-- The integral value in the same type, keeping the operand's sign when it is zero. -/
def fpIntegral (f : FpFmt) (rnd : Rnd) (a : Nat) : Nat :=
  match f.decode a with
  | .nan => f.nan
  | .inf _ => a
  | .fin s m e =>
    let v := integralOf rnd s m e
    if v = 0 then f.withSign s 0 else f.roundInt .rtz false v

def vecIntegral (i : Instr) (d a : BitVec 8) (rnd : Ctx → Rnd) (s : State) : Res :=
  vec1 i d a tyF (fun c => c.ty.map1 fun x => match c.ty.fmt? with
    | some f => fpIntegral f (rnd c) x
    | none => x) s

def execVfloor (d a : BitVec 8) (s : State) : Res := vecIntegral (.vfloor d a) d a (fun _ => .rdn) s
def execVceil (d a : BitVec 8) (s : State) : Res := vecIntegral (.vceil d a) d a (fun _ => .rup) s
def execVround (d a : BitVec 8) (s : State) : Res := vecIntegral (.vround d a) d a Ctx.rnd s
def execVtrunc (d a : BitVec 8) (s : State) : Res := vecIntegral (.vtrunc d a) d a (fun _ => .rtz) s

/-! Movement across lanes (R173-R175). -/

/-- The element of any lane of an operand, whatever the lane's activity. An absent lane's element of a register or queue entry
is unspecified (R173, 01 R11); a constant, a special or a broadcast has its element in every lane (06 R129; assumption 79). -/
def Ctx.elem (c : Ctx) (code : BitVec 8) (v : Lanes) (l : Nat) : W32 :=
  if c.absent l && decide (code.toNat < 0x90) then Config.undefElem c.s.free l else v.at l

def execVbcast (d a b : BitVec 8) (s : State) : Res :=
  issue (.vbcast d a b) s [.dstV d, .srcV 1 .epa a, .srcS 2 .epb b] fun c =>
    let x := c.elem a (c.readV a) ((c.readS b).toNat % 128)
    c.finishV d fun _ => x

/-- VPERM: B is an unsigned 32-bit value whatever ETYPE holds (R173). -/
def execVperm (d a b : BitVec 8) (s : State) : Res :=
  issue (.vperm d a b) s [.dstV d, .srcV 1 .epa a, .srcVT (fun _ => .nat32) 2 .epb b] fun c =>
    let x := c.readV a
    let y := c.readVT .nat32 b
    c.finishV d fun l => c.elem a x ((y.at l).toNat % 128)

def execVlrot (d a b : BitVec 8) (s : State) : Res :=
  issue (.vlrot d a b) s [.dstV d, .srcV 1 .epa a, .srcS 2 .epb b] fun c =>
    let x := c.readV a
    let k := (c.readS b).toNat
    c.finishV d fun l => c.elem a x ((l + k) % 128)

/-- A NaN sub-element as the canonical NaN: its payload and sign reach no result (02 R41), that of a lone lane included. -/
def canonSub (t : ElemType) (a : Nat) : Nat := match t.fmt? with
  | some f => if f.decode a = .nan then f.nan else a
  | none => a

/-- The running combination over active lanes in ascending order (R174): its value after every lane, and the last. -/
def scanLanes (op : W32 → W32 → W32) : Option W32 → List (Bool × W32) → List W32 × Option W32
  | acc, [] => ([], acc)
  | acc, (on, x) :: rest =>
    let acc' := if on then some (match acc with
      | none => x
      | some a => op a x) else acc
    let r := scanLanes op acc' rest
    (acc'.getD 0 :: r.1, r.2)

def Ctx.scan (c : Ctx) (op : W32 → W32 → W32) (v : Lanes) : List W32 × Option W32 :=
  scanLanes op none ((List.range numLanes).map fun l => (c.active l, c.ty.map1 (canonSub c.ty) (v.at l)))

def execVscan (d a : BitVec 8) (s : State) : Res :=
  issue (.vscan d a) s [.dstV d, .srcV 1 .epa a] fun c =>
    let r := (c.scan (c.ty.map2 (subAdd c.ty c.rnd c.sat)) (c.readV a)).1
    c.finishV d fun l => Lanes.at r l

/-- The sub-element identity of a reduction (R174). -/
def minIdentity (t : ElemType) : Nat := match t.fmt? with
  | some f => f.inf
  | none => t.wrap t.maxInt
def maxIdentity (t : ElemType) : Nat := match t.fmt? with
  | some f => f.withSign true f.inf
  | none => t.wrap t.minInt

def vecReduce (i : Instr) (d a : BitVec 8) (op : Ctx → Nat → Nat → Nat) (ident : ElemType → Nat) (s : State) : Res :=
  issue i s [.dstS 0 d, .srcV 1 .epa a] fun c =>
    c.finishS d (((c.scan (c.ty.map2 (op c)) (c.readV a)).2.getD (c.ty.fill (ident c.ty))).zeroExtend 64)

def execVradd (d a : BitVec 8) (s : State) : Res :=
  vecReduce (.vradd d a) d a (fun c => subAdd c.ty c.rnd c.sat) (fun _ => 0) s
def execVrmin (d a : BitVec 8) (s : State) : Res :=
  vecReduce (.vrmin d a) d a (fun c => subMinMax c.ty false) minIdentity s
def execVrmax (d a : BitVec 8) (s : State) : Res :=
  vecReduce (.vrmax d a) d a (fun c => subMinMax c.ty true) maxIdentity s

def execVmovs (d a b : BitVec 8) (s : State) : Res :=
  issue (.vmovs d a b) s [.dstS 0 d, .srcV 1 .epa a, .srcS 2 .epb b] fun c =>
    .next { (c.put (c.group.resultS d ((c.elem a (c.readV a) ((c.readS b).toNat % 128)).zeroExtend 64))) with
      free := c.s.free + 1 }

/-- VINS (R175); D is read by R165. -/
def execVins (d a b : BitVec 8) (s : State) : Res :=
  issue (.vins d a b) s [.srcDst d, .srcS 1 .epa a, .srcS 2 .epb b] fun c =>
    let x : W32 := (c.readS a).truncate 32
    let k := (c.readS b).toNat % 128
    let z := c.readV d
    c.finishV d fun l => if l = k then x else z.at l

end Sys2Proof.Machine
end

