-- ==== Sys2Proof/Machine/Convert.lean ====
section
/-! DEFINITION. Row 0x8 of the opcode map: conversions, packing and narrow blocks in lanes (spec 08 R181-R188, 02
R51-R58). -/

namespace Sys2Proof.Machine

/-! Integers and FP32 (R181). -/

def execCvtif (d a : BitVec 8) (s : State) : Res :=
  vec1 (.cvtif d a) d a (fun t => decide (t = .int32 ∨ t = .nat32)) (fun c x =>
    BitVec.ofNat 32 (fp32.roundInt c.rnd c.sat (c.ty.toInt x.toNat))) s

/-- The integer of an FP32 value, clamped; a NaN gives 0. -/
def fpToInt (t : ElemType) (rnd : Rnd) (a : Nat) : Nat := match fp32.decode a with
  | .nan => 0
  | .inf neg => t.wrap (if neg then t.minInt else t.maxInt)
  | .fin neg m e => t.wrap (t.clamp (integralOf rnd neg m e))

def execCvtfi (d a : BitVec 8) (s : State) : Res :=
  issue (.cvtfi d a) s [.dstV d, .srcVT (fun _ => .fp32) 1 .epa a, .etype fun t => decide (t = .int32 ∨ t = .nat32)] fun c =>
    let x := c.readVT .fp32 a
    c.finishV d fun l => BitVec.ofNat 32 (fpToInt c.ty c.rnd (x.at l).toNat)

/-! FP32 and the 16-bit types (R182). -/

/-- CVTFH and CVTFB: two FP32 sources narrowed to the two sub-elements of `t`. -/
def cvtDown (i : Instr) (d a b : BitVec 8) (f : FpFmt) (s : State) : Res :=
  issue i s [.dstV d, .srcVT (fun _ => .fp32) 1 .epa a, .srcVT (fun _ => .fp32) 2 .epb b] fun c =>
    let x := c.readVT .fp32 a
    let y := c.readVT .fp32 b
    let n (w : W32) : Nat := f.encode c.rnd c.sat (fp32.decode w.toNat)
    c.finishV d fun l => BitVec.ofNat 32 (n (x.at l) + 2 ^ 16 * n (y.at l))

def execCvtfh (d a b : BitVec 8) (s : State) : Res := cvtDown (.cvtfh d a b) d a b fp16 s
def execCvtfb (d a b : BitVec 8) (s : State) : Res := cvtDown (.cvtfb d a b) d a b bf16 s

/-- CVTHF and CVTBF: sub-element SEL converted exactly. -/
def cvtUp (i : Instr) (d a : BitVec 8) (sel : BitVec 1) (t : ElemType) (f : FpFmt) (s : State) : Res :=
  issue i s [.dstV d, .srcVT (fun _ => t) 1 .epa a] fun c =>
    let x := c.readVT t a
    c.finishV d fun l =>
      BitVec.ofNat 32 (fp32.encode .rne false (f.decode ((x.at l).toNat / 2 ^ (16 * sel.toNat) % 2 ^ 16)))

def execCvthf (d a : BitVec 8) (b : BitVec 1) (s : State) : Res := cvtUp (.cvthf d a b) d a b .hf16x2 fp16 s
def execCvtbf (d a : BitVec 8) (b : BitVec 1) (s : State) : Res := cvtUp (.cvtbf d a b) d a b .bf16x2 bf16 s

/-! Integer packing (R183): ETYPE gives the signedness of every source. -/

def is16 (t : ElemType) : Bool := decide (t = .int16x2 ∨ t = .nat16x2)
def is8 (t : ElemType) : Bool := decide (t = .int8x4 ∨ t = .nat8x4)

/-- The type of sources twice as wide, of the same signedness. -/
def ElemType.wider (t : ElemType) : ElemType := match t with
  | .int16x2 => .int32
  | .nat16x2 => .nat32
  | .int8x4 => .int16x2
  | .nat8x4 => .nat16x2
  | t => t

/-- PACK16 and PACK8: the wider sub-elements of A, then those of B, each narrowed by R49. -/
def pack (i : Instr) (d a b : BitVec 8) (ok : ElemType → Bool) (s : State) : Res :=
  issue i s [.dstV d, .srcVT ElemType.wider 1 .epa a, .srcVT ElemType.wider 2 .epb b, .etype ok] fun c =>
    let w := c.ty.wider
    let x := c.readVT w a
    let y := c.readVT w b
    c.finishV d fun l => c.ty.join ((w.split (x.at l) ++ w.split (y.at l)).map fun v => c.ty.ofInt c.sat (w.toInt v))

def execPack16 (d a b : BitVec 8) (s : State) : Res := pack (.pack16 d a b) d a b is16 s
def execPack8 (d a b : BitVec 8) (s : State) : Res := pack (.pack8 d a b) d a b is8 s

/-- UNPK16 and UNPK8: the half of A's sub-elements that SEL names, each extended. -/
def unpack (i : Instr) (d a : BitVec 8) (sel : BitVec 1) (ok : ElemType → Bool) (s : State) : Res :=
  vec1 i d a ok (fun c x =>
    let w := c.ty.wider
    let n := 32 / w.width
    w.join (((c.ty.split x).drop (n * sel.toNat)).take n |>.map fun v => w.wrap (c.ty.toInt v))) s

def execUnpk16 (d a : BitVec 8) (b : BitVec 1) (s : State) : Res := unpack (.unpk16 d a b) d a b is16 s
def execUnpk8 (d a : BitVec 8) (b : BitVec 1) (s : State) : Res := unpack (.unpk8 d a b) d a b is8 s

/-! Narrow blocks (02 R51-R58, 08 R184). -/

/-- A narrow element format (02 R52). -/
structure Narrow where
  width : Nat
  ebits : Nat
  mbits : Nat
  bias : Nat
  deriving DecidableEq, Repr

def n8 : Narrow := ⟨8, 3, 3, 3⟩
def n6 : Narrow := ⟨6, 2, 2, 1⟩
def n4 : Narrow := ⟨4, 1, 1, 0⟩

/-- The format of a code of R59 that R184 admits. -/
def narrowOf (f : Nat) : Option Narrow :=
  if f = 2 then some n8 else if f = 3 then some n6 else if f = 4 then some n4 else none

/-- A poisoned header (02 R51). -/
def poisoned (h : Nat) : Bool := decide (h % 256 = 255) || decide (h / 256 % 256 = 255)

/-- The value of a code under a header that is not poisoned (02 R53, R54). -/
def Narrow.value (n : Narrow) (h code : Nat) : Fp :=
  let k := code % 2 ^ n.width
  if k = 0 then .fin false 0 0
  else
    let neg := decide (k / 2 ^ (n.width - 1) = 1)
    let x := if k / 2 ^ (n.width - 2) % 2 = 0 then h % 256 else h / 256 % 256
    let e := k / 2 ^ n.mbits % 2 ^ n.ebits
    .fin neg (2 ^ n.mbits + k % 2 ^ n.mbits) ((e : Int) - n.bias + x - 127 - n.mbits)

/-- A finite value as an integer in units of 2^-160, which every FP32 value and every code's value is. -/
def scaled : Fp → Int
  | .fin neg m e => let v : Int := m * 2 ^ (e + 160).toNat; if neg then -v else v
  | _ => 0

/-- Of the codes of a list the first, lowest one whose value is the best by `better`. -/
def pickCode (val : Nat → Int) (ok : Int → Bool) (better : Int → Int → Bool) (codes : List Nat) : Option (Nat × Int) :=
  codes.foldl (fun best k =>
    let v := val k
    if !ok v then best
    else match best with
      | none => some (k, v)
      | some b => if better v b.2 then some (k, v) else best) none

/-- The code of the finite value `x` under a header that is not poisoned (02 R57). Codes are tried in rising order, in
which sel 0 comes before sel 1 for one sign. -/
def Narrow.encode (n : Narrow) (rnd : Rnd) (h : Nat) (x : Fp) : Nat :=
  let v := scaled x
  let val (k : Nat) : Int := scaled (n.value h k)
  let codes := List.range (2 ^ n.width)
  let lower := pickCode val (fun w => decide (w ≤ v)) (fun w b => decide (w > b)) codes
  let upper := pickCode val (fun w => decide (v ≤ w)) (fun w b => decide (w < b)) codes
  match lower, upper with
  | some lo, some hi =>
    if lo.2 = v then lo.1
    else
      let nearer := if v - lo.2 < hi.2 - v then lo else hi
      let tie := decide (v - lo.2 = hi.2 - v)
      let small := if lo.2.natAbs < hi.2.natAbs then lo else hi
      let large := if lo.2.natAbs < hi.2.natAbs then hi else lo
      match rnd with
      | .rdn => lo.1
      | .rup => hi.1
      | .rtz => small.1
      | .rna => if tie then large.1 else nearer.1
      | .rne =>
        if !tie then nearer.1
        else if decide (lo.1 % 2 = 0) && decide (hi.1 % 2 = 1) then lo.1
        else if decide (lo.1 % 2 = 1) && decide (hi.1 % 2 = 0) then hi.1
        else small.1
  | some lo, none => lo.1
  | none, some hi => hi.1
  | none, none => 0

/-- The lane of a block (R184). -/
def blockLanes (b : Nat) : List Nat := (List.range 32).map fun i => 32 * b + i

/-- An FP32 pattern that is a NaN or an infinity. -/
def notFinite (w : W32) : Bool := match fp32.decode w.toNat with
  | .fin _ _ _ => false
  | _ => true

/-- floor(log2 |w|) of a finite non-zero pattern. -/
def log2Floor (w : W32) : Option Int := match fp32.decode w.toNat with
  | .fin _ m e => if m = 0 then none else some (e + Nat.log2 m)
  | _ => none

/-- The header of CVTFN for the values of a block (R185). -/
def blockHeader (n : Narrow) (vs : List W32) : Nat :=
  if vs.any notFinite then 0xFFFF
  else match (vs.filterMap log2Floor).max? with
    | none => 0
    | some e =>
      let x0 := (max 0 (min 0xFE (e + 127 + n.bias - (2 ^ n.ebits - 1)))).toNat
      (x0 - 2 ^ n.ebits) * 256 + x0

/-- The values of the active lanes of a block. -/
def Ctx.blockVals (c : Ctx) (v : Lanes) (b : Nat) : List W32 :=
  ((blockLanes b).filter c.active).map fun l => v.at l

def onlyFp32 (t : ElemType) : Bool := decide (t = .fp32)

def execCvtfn (d a : BitVec 8) (f : BitVec 4) (s : State) : Res :=
  issue (.cvtfn d a f) s [.dstV d, .srcVT (fun _ => .fp32) 1 .epa a, .field 2 (narrowOf f.toNat).isSome, .etype onlyFp32] fun c =>
    let n := (narrowOf f.toNat).getD n8
    let hs := (List.range 4).map fun b => blockHeader n (c.blockVals (c.readVT .fp32 a) b)
    c.finishV d fun l => BitVec.ofNat 32 (hs.getD (l / 32) 0)

/-- CVTN8, CVTN6 and CVTN4 (R186). A poisoned header of a lane's own passes through, before the block's NaN or infinity gives
0xFFFF: R186's first bullet decides against its second and 02 R57 (DESIGN CHOICE, assumption 80). -/
def cvtNarrow (i : Instr) (d a b : BitVec 8) (n : Narrow) (s : State) : Res :=
  issue i s [.dstV d, .srcVT (fun _ => .fp32) 1 .epa a, .srcV 2 .epb b, .etype onlyFp32] fun c =>
    let x := c.readVT .fp32 a
    let y := c.readV b
    let bad := (List.range 4).map fun b => (c.blockVals x b).any notFinite
    c.finishV d fun l =>
      let h := (y.at l).toNat % 2 ^ 16
      BitVec.ofNat 32 (if poisoned h then h * 2 ^ 16
        else if bad.getD (l / 32) false then 0xFFFF0000
        else h * 2 ^ 16 + n.encode c.rnd h (fp32.decode (x.at l).toNat))

def execCvtn8 (d a b : BitVec 8) (s : State) : Res := cvtNarrow (.cvtn8 d a b) d a b n8 s
def execCvtn6 (d a b : BitVec 8) (s : State) : Res := cvtNarrow (.cvtn6 d a b) d a b n6 s
def execCvtn4 (d a b : BitVec 8) (s : State) : Res := cvtNarrow (.cvtn4 d a b) d a b n4 s

/-- HDR of a narrow lane form. -/
def hdrOf (w : W32) : Nat := w.toNat / 2 ^ 16

def execCvtnf (d a : BitVec 8) (f : BitVec 4) (s : State) : Res :=
  issue (.cvtnf d a f) s [.dstV d, .srcVT (fun _ => .nat32) 1 .epa a, .field 2 (narrowOf f.toNat).isSome] fun c =>
    let n := (narrowOf f.toNat).getD n8
    let x := c.readVT .nat32 a
    c.finishV d fun l =>
      let w := x.at l
      BitVec.ofNat 32 (if poisoned (hdrOf w) then fp32.nan
        else fp32.encode c.rnd c.sat (n.value (hdrOf w) (w.toNat % 2 ^ n.width)))

/-- CVTNX (R188): every lane is read; an absent lane contributes code 0. -/
def execCvtnx (d a : BitVec 8) (f : BitVec 4) (s : State) : Res :=
  issue (.cvtnx d a f) s [.dstV d, .srcVT (fun _ => .nat32) 1 .epa a, .field 2 (narrowOf f.toNat).isSome] fun c =>
    let n := (narrowOf f.toNat).getD n8
    let x := c.readVT .nat32 a
    let code (l : Nat) : Nat := if c.absent l then 0 else (x.at l).toNat % 2 ^ n.width
    let areas := (List.range 4).map fun b => joinSubs n.width ((blockLanes b).map code)
    c.finishV d fun l =>
      if l < 4 * n.width then BitVec.ofNat 32 (areas.getD (l / n.width) 0 / 2 ^ (32 * (l % n.width)))
      else if 64 ≤ l ∧ l < 68 then BitVec.ofNat 32 (hdrOf (c.elem a x (32 * (l - 64))))
      else 0

end Sys2Proof.Machine
end

