-- ==== Sys2Proof/Machine/MatrixArray.lean ====
section
/-! DEFINITION. The arithmetic of the matrix path (spec 02 R59-R63) and the places of its operands (10 R210-R213). MODE has no
part in it. -/

namespace Sys2Proof.Machine

/-! Descriptors. -/

/-- Bits of an operand map or a format block. -/
def bitsOf {n : Nat} (x : BitVec n) (lo len : Nat) : Nat := x.toNat / 2 ^ lo % 2 ^ len

namespace MapBlock
def base (m : BitVec 128) : Nat := bitsOf m 0 32
def stride (m : BitVec 128) : Nat := bitsOf m 32 16
def fmt (m : BitVec 128) : Nat := bitsOf m 48 4
def trans (m : BitVec 128) : Bool := m.getLsbD 52
def kext (m : BitVec 128) : Nat := bitsOf m 64 13
/-- A reserved bit is set (R210). -/
def reserved (m : BitVec 128) : Bool := decide (bitsOf m 53 11 ≠ 0) || decide (bitsOf m 77 51 ≠ 0)
end MapBlock

namespace FormatBlock
def afmt (f : BitVec 256) : Nat := bitsOf f 0 4
def bfmt (f : BitVec 256) : Nat := bitsOf f 4 4
def sat (f : BitVec 256) : Bool := f.getLsbD 8
def alen (f : BitVec 256) : Nat := bitsOf f 12 4
def blen (f : BitVec 256) : Nat := bitsOf f 16 4
def ascale (f : BitVec 256) : Nat := bitsOf f 64 32
def asstride (f : BitVec 256) : Nat := bitsOf f 96 16
def bscale (f : BitVec 256) : Nat := bitsOf f 128 32
def bsstride (f : BitVec 256) : Nat := bitsOf f 160 16
end FormatBlock

/-- Width of an element format of R59. -/
def fmtWidth (c : Nat) : Nat := if c ≤ 1 then 16 else if c = 3 then 6 else if c = 4 then 4 else 8

def isNarrow (c : Nat) : Bool := decide (2 ≤ c) && decide (c ≤ 4)

/-- The pairings of R59. -/
def pairingOk (a b : Nat) : Bool :=
  (decide (a ≤ 1) && decide (b ≤ 1)) || (isNarrow a && isNarrow b) || (decide (a = 5) && decide (b = 5))

/-- The checks of MFMT (R213). -/
def formatOk (f : BitVec 256) : Bool :=
  let a := FormatBlock.afmt f
  let b := FormatBlock.bfmt f
  decide (bitsOf f 9 3 = 0) && decide (bitsOf f 20 44 = 0) && decide (bitsOf f 112 16 = 0) &&
  decide (bitsOf f 176 16 = 0) && decide (bitsOf f 192 64 = 0) && pairingOk a b &&
  decide (FormatBlock.alen f = if isNarrow a then 1 else 0) && decide (FormatBlock.blen f = if isNarrow b then 1 else 0) &&
  (!FormatBlock.sat f || decide (a = 5)) &&
  (!isNarrow a || decide (FormatBlock.ascale f % 2 = 0 ∧ FormatBlock.asstride f % 2 = 0)) &&
  (!isNarrow b || decide (FormatBlock.bscale f % 2 = 0 ∧ FormatBlock.bsstride f % 2 = 0))

/-! Ranges (R211, R212). -/

/-- Stored rows of A and elements in each. -/
def aShape (m : BitVec 128) : Nat × Nat := if MapBlock.trans m then (MapBlock.kext m, 128) else (128, MapBlock.kext m)

/-- Every byte of A and every header of A and B lies in the scratchpad, and BASE and STRIDE are multiples of 4 (R216). -/
def mmaInBounds (f : BitVec 256) (m : BitVec 128) (spadsz : Nat) : Bool :=
  let rows := (aShape m).1
  let cols := (aShape m).2
  decide (MapBlock.base m % 4 = 0) && decide (MapBlock.stride m % 4 = 0) &&
  decide (MapBlock.base m + (rows - 1) * MapBlock.stride m + (fmtWidth (FormatBlock.afmt f) * cols + 7) / 8 ≤ spadsz) &&
  (!isNarrow (FormatBlock.afmt f) ||
    decide (FormatBlock.ascale f + (rows - 1) * FormatBlock.asstride f + 2 * ((cols - 1) / 32) + 2 ≤ spadsz)) &&
  (!isNarrow (FormatBlock.bfmt f) ||
    decide (FormatBlock.bscale f + (MapBlock.kext m - 1) / 32 * FormatBlock.bsstride f + 512 ≤ spadsz))

/-- Registers that a B quarter uses (R212). -/
def quarterRegs (f : BitVec 256) (m : BitVec 128) : Nat := (64 * MapBlock.kext m * fmtWidth (FormatBlock.bfmt f) + 4095) / 4096

/-! Elements. -/

/-- The value of an element code of format `c` under a header (R55, R60). -/
def elemVal (c code hdr : Nat) : Fp :=
  if c = 0 then bf16.decode code
  else if c = 1 then fp16.decode code
  else if poisoned hdr then .nan
  else ((narrowOf c).getD n8).value hdr code

/-- An INT8 element. -/
def int8Val (code : Nat) : Int := if 128 ≤ code then (code : Int) - 256 else code

/-- Bits of a little-endian area: `w` bits from bit `b`. -/
def spadBits (sp : Memory) (base b w : Nat) : Nat :=
  leNat (sp.readBytes (base + b / 8) 3) / 2 ^ (b % 8) % 2 ^ w

/-- Code and header of A(i, k) (R211). -/
def aElem (sp : Memory) (f : BitVec 256) (m : BitVec 128) (i k : Nat) : Nat × Nat :=
  let r := if MapBlock.trans m then k else i
  let c := if MapBlock.trans m then i else k
  let w := fmtWidth (FormatBlock.afmt f)
  (spadBits sp (MapBlock.base m + r * MapBlock.stride m) (w * c) w,
   if isNarrow (FormatBlock.afmt f) then sp.readLe (FormatBlock.ascale f + r * FormatBlock.asstride f + 2 * (c / 32)) 2 else 0)

/-- Code and header of B(k, j), from the registers of the quarter's holder (R212). -/
def bElem (sp : Memory) (regs : Nat → Lanes) (f : BitVec 256) (vb k j : Nat) : Nat × Nat :=
  let w := fmtWidth (FormatBlock.bfmt f)
  let b := (64 * k + j % 64) * w
  let word (n : Nat) : Nat := ((regs (vb + n / 128)).at (n % 128)).toNat
  let pair := word (b / 32) + 2 ^ 32 * word (b / 32 + 1)
  (pair / 2 ^ (b % 32) % 2 ^ w,
   if isNarrow (FormatBlock.bfmt f) then sp.readLe (FormatBlock.bscale f + k / 32 * FormatBlock.bsstride f + 2 * j) 2 else 0)

/-! Windows (R61-R63). -/

/-- floor(log2 |p|) of a non-zero finite product. -/
def Fp.top : Fp → Option Int
  | .fin _ m e => if m = 0 then none else some (e + Nat.log2 m)
  | _ => none

/-- The magnitude in units of 2^(E − 41), and whether a bit was dropped. -/
def windowPart (e41 : Int) (m : Nat) (e : Int) : Nat × Bool :=
  let k := e - e41
  if 0 ≤ k then (m * 2 ^ k.toNat, false)
  else if (-k).toNat > Nat.log2 m then (0, true)
  else (m / 2 ^ (-k).toNat, decide (m % 2 ^ (-k).toNat ≠ 0))

def isInf (neg : Bool) : Fp → Bool
  | .inf s => s == neg
  | _ => false

/-- WINDOW (R61). -/
def window (ps : List Fp) : Nat :=
  if ps.any fun p => decide (p = .nan) then fp32.nan
  else if ps.any (isInf false) && ps.any (isInf true) then fp32.nan
  else if ps.any (isInf false) then fp32.inf
  else if ps.any (isInf true) then fp32.withSign true fp32.inf
  else match (ps.filterMap Fp.top).max? with
    | none => fp32.withSign (ps.all fun p => match p with
        | .fin s _ _ => s
        | _ => false) 0
    | some top =>
      let parts : List (Int × Bool) := ps.map fun p => match p with
        | .fin s m e => if m = 0 then ((0 : Int), false) else
          let a := windowPart (top - 41) m e
          (if s then -(a.1 : Int) else a.1, a.2)
        | _ => (0, false)
      let t := parts.foldl (fun (x : Int) p => x + p.1) 0
      let sticky := parts.any (·.2)
      if t = 0 then 0
      else fp32.round .rne false (decide (t < 0)) (2 * t.natAbs + (if sticky then 1 else 0)) (top - 42) false

/-- k-steps in windows of `p` (R61); `fuel` bounds the number of windows. -/
def windows : Nat → Nat → List Nat → List (List Nat)
  | 0, _, _ => []
  | fuel + 1, p, ks => if ks.isEmpty then [] else ks.take p :: windows fuel p (ks.drop p)

/-- One tile element after an MMA (R61-R63, R216). -/
def mmaElem (f : BitVec 256) (kext p : Nat) (a b : Nat → Nat × Nat) (t : W32) : W32 :=
  let ws := windows kext p (List.range kext)
  if FormatBlock.afmt f = 5 then
    ws.foldl (fun (t : W32) ks =>
      let w := ks.foldl (fun (x : Int) k => x + int8Val (a k).1 * int8Val (b k).1) 0
      BitVec.ofNat 32 (ElemType.int32.ofInt (FormatBlock.sat f) (t.toInt + w))) t
  else
    ws.foldl (fun (t : W32) ks =>
      let ps := ks.map fun k =>
        (elemVal (FormatBlock.afmt f) (a k).1 (a k).2).mul (elemVal (FormatBlock.bfmt f) (b k).1 (b k).2)
      BitVec.ofNat 32 (fp32.add .rne false (fp32.decode t.toNat) (fp32.decode (window ps)))) t

/-- An element as MSTORE stores it: its bytes' number (R219). -/
def storeVal (outf : Nat) (w : W32) : Nat :=
  if outf = 0 then w.toNat
  else if outf = 1 then bf16.encode .rne false (fp32.decode w.toNat)
  else fp16.encode .rne false (fp32.decode w.toNat)

end Sys2Proof.Machine
end

