-- ==== Sys2Proof/Machine/NameFields.lean ====
section
/-! DEFINITION. The naming fields of an instruction word (spec 06 R126-R132), the renumbering of them (22 R324), and the floors
of 21 R317 on what the words and the record of a kernel name (R319). -/

namespace Sys2Proof.Machine

/-! The fields of a word (06 R126-R131). -/

/-- A field that names registers, a queue entry or a barrier: where it lies in the word, and its context. -/
inductive NameField where
  /-- Scalar source code, and scalar destination code, at a bit position. -/
  | sc (lo : Nat) | sd (lo : Nat)
  /-- Vector source code (or one read and written), and vector destination code. -/
  | vc (lo : Nat) | vd (lo : Nat)
  | ptr | b6s | b6v
  /-- A literal vector register: `n` registers from it. -/
  | vlit (lo n : Nat)
  /-- A scalar pair code in bits [7:0]. -/
  | pair
  | bar
  deriving DecidableEq, Repr

def opByte (w : W32) : Nat := w.toNat / 2 ^ 24
def bitListOf (w : W32) (lo n : Nat) : Nat := w.toNat / 2 ^ lo % 2 ^ n
/-- Replace `n` bits from `lo`. -/
def putBits (w : W32) (lo n v : Nat) : W32 :=
  BitVec.ofNat 32 (w.toNat - bitListOf w lo n * 2 ^ lo + v % 2 ^ n * 2 ^ lo)

/-- The naming fields of a word, by its opcode (the operand forms of 07 to 13). -/
def nameFields (w : W32) : List NameField :=
  let op := opByte w
  let among (l : List Nat) : Bool := l.contains op
  if 0x01 ≤ op ∧ op ≤ 0x0C then [.sd 16, .sc 8, .sc 0]
  else if op = 0x0D then [.sc 16, .sc 8, .sc 0]
  else if op = 0x0E ∨ op = 0x15 ∨ op = 0x28 ∨ op = 0x31 ∨ op = 0x33 ∨ op = 0x7E ∨ op = 0x7F ∨ op = 0xF5 then [.sd 16]
  else if op = 0x0F ∨ (0x11 ≤ op ∧ op ≤ 0x14) ∨ (0x16 ≤ op ∧ op ≤ 0x19) then [.sc 16]
  else if 0x20 ≤ op ∧ op ≤ 0x23 then [.sd 16, .ptr, .b6s]
  else if 0x24 ≤ op ∧ op ≤ 0x27 then [.sc 16, .ptr, .b6s]
  else if op = 0x29 then [.sc 0]
  else if op = 0x2A ∨ op = 0xE4 then [.sc 8, .sc 0]
  else if op = 0x32 ∨ op = 0xE3 ∨ op = 0xE5 ∨ op = 0xF0 ∨ op = 0xF1 then [.sc 8]
  else if (0x34 ≤ op ∧ op ≤ 0x36) ∨ op = 0xC5 ∨ op = 0xC6 then [.bar]
  else if op = 0x37 then [.sd 16, .bar, .sc 0]
  else if among [0x43, 0x44, 0x45, 0x59] then [.vc 16, .vc 8, .vc 0]
  else if among [0x48, 0x49, 0x4B, 0x4C, 0x4D, 0x4E, 0x4F, 0x53, 0x5A, 0x5B, 0x5C, 0x5D, 0x5E, 0x5F, 0x63,
      0x80, 0x81, 0x82, 0x83, 0x85, 0x87, 0x89, 0x8B, 0x8F, 0xD1] then [.vd 16, .vc 8]
  else if op = 0x60 ∨ op = 0x62 then [.vd 16, .vc 8, .sc 0]
  else if 0x64 ≤ op ∧ op ≤ 0x66 then [.sd 16, .vc 8]
  else if op = 0x67 then [.sd 16, .vc 8, .sc 0]
  else if op = 0x68 then [.vc 16, .sc 8, .sc 0]
  else if 0x70 ≤ op ∧ op ≤ 0x76 then [.vc 8, .vc 0]
  else if (0x40 ≤ op ∧ op ≤ 0x61) ∨ op = 0x69 ∨ (0x84 ≤ op ∧ op ≤ 0x8E) then [.vd 16, .vc 8, .vc 0]
  else if 0x90 ≤ op ∧ op ≤ 0x92 then [.vd 16, .ptr, .b6v]
  else if 0x93 ≤ op ∧ op ≤ 0x95 then [.vc 16, .ptr, .b6v]
  else if op = 0x96 then [.ptr, .b6v]
  else if 0xA0 ≤ op ∧ op ≤ 0xA6 then [.sd 16, .ptr, .b6s]
  else if op = 0xA7 then [.sc 16, .ptr, .b6s]
  else if (0xA8 ≤ op ∧ op ≤ 0xAB) ∨ op = 0xAD ∨ op = 0xAE then [.vc 16, .ptr, .b6v]
  else if op = 0xB0 then [.sc 8, if bitListOf w 18 1 = 1 then .vc 0 else .sc 0]
  else if op = 0xB1 then [.sc 8, .sc 0]
  else if op = 0xB2 then [.sc 8, .pair]
  else if op = 0xC0 then [.vlit 8 1]
  else if op = 0xC2 then [.vlit 8 32]
  else if op = 0xD0 then (if bitListOf w 18 1 = 1 then [.vc 8, .vc 0] else [.vc 8])
  else if op = 0xD2 ∨ op = 0xD4 then [.vd 16]
  else if op = 0xD3 then [.vlit 8 3]
  else if op = 0xD6 then [.vlit 16 4]
  else if op = 0xD7 then [.vlit 8 4]
  else if op = 0xD8 then [.sd 16, .vlit 8 4, .pair]
  else if op = 0xE0 then [.sd 16, .sc 8, .pair]
  else if op = 0xE1 ∨ op = 0xE2 then [.sd 16, .sc 8, .sc 0]
  else []

/-- Position and width of a field. -/
def NameField.place : NameField → Nat × Nat
  | .sc lo => (lo, 8)
  | .sd lo => (lo, 8)
  | .vc lo => (lo, 8)
  | .vd lo => (lo, 8)
  | .ptr => (11, 5)
  | .b6s => (0, 6)
  | .b6v => (0, 6)
  | .vlit lo _ => (lo, 7)
  | .pair => (0, 8)
  | .bar => (8, 4)

def NameField.read (f : NameField) (w : W32) : Nat := bitListOf w f.place.1 f.place.2

/-- One past the highest Vn, Sn and BARn that a field names; 0 for none. -/
def NameField.tops (f : NameField) (w : W32) : Nat × Nat × Nat :=
  let x := f.read w
  match f with
  | .sc _ => (0, if x < 0x80 then x + 1 else 0, 0)
  | .sd _ => (0, if x < 0x80 then x + 1 else 0, 0)
  | .vc _ => if x < 0x80 then (x + 1, 0, 0) else if 0xD0 ≤ x ∧ x < 0xF0 then (0, x - 0xD0 + 1, 0) else (0, 0, 0)
  | .vd _ => (if x < 0x80 then x + 1 else 0, 0, 0)
  | .ptr => (0, x + 1, 0)
  | .b6s => (0, if x < 0x20 then x + 1 else 0, 0)
  | .b6v => (if x < 0x20 then x + 1 else 0, 0, 0)
  | .vlit _ n => (x + n, 0, 0)
  | .pair => (0, if x < 0x7F then x + 2 else 0, 0)
  | .bar => (0, 0, x + 1)

def topsOf (ws : List W32) : Nat × Nat × Nat :=
  (ws.flatMap fun w => (nameFields w).map fun f => f.tops w).foldl
    (fun a b => (max a.1 b.1, max a.2.1 b.2.1, max a.2.2 b.2.2)) (0, 0, 0)

/-- The barriers that words name. -/
def barsOf (ws : List W32) : List Nat := ws.flatMap fun w => (nameFields w).filterMap fun f =>
  if f = .bar then some (f.read w) else none

/-- A renumbered field and one past the largest value it may hold (R324). -/
def NameField.moved (f : NameField) (w : W32) (vP sP hP : Nat) : Nat × Nat :=
  let x := f.read w
  match f with
  | .sc _ => if x < 0x80 then (x + sP, 0x80) else (x, 0x100)
  | .sd _ => if x < 0x80 then (x + sP, 0x80) else (x, 0x100)
  | .vc _ => if x < 0x80 then (x + vP, 0x80) else if 0xD0 ≤ x ∧ x < 0xF0 then (x + sP, 0xF0) else (x, 0x100)
  | .vd _ => if x < 0x80 then (x + vP, 0x80) else (x, 0x100)
  | .ptr => (x + sP, 32)
  | .b6s => if x < 0x20 then (x + sP, 0x20) else (x, 0x40)
  | .b6v => if x < 0x20 then (x + vP, 0x20) else (x, 0x40)
  | .vlit _ _ => (x + vP, 0x80)
  | .pair => if x < 0x7F then (x + sP, 0x7F) else (x, 0x100)
  | .bar => (x + hP, 16)

/-- A word of C with its names moved above P's. -/
def renumber (vP sP hP : Nat) (w : W32) : W32 :=
  (nameFields w).foldl (fun x f => putBits x f.place.1 f.place.2 (f.moved w vP sP hP).1) w

/-- Every renumbered name has room in its field. -/
def renumberFits (vP sP hP : Nat) (w : W32) : Bool :=
  (nameFields w).all fun f => decide ((f.moved w vP sP hP).1 < (f.moved w vP sP hP).2)

/-- The queue that a word pushes on: `some true` the vector queue (06 R132). -/
def pushClass (w : W32) : Option Bool :=
  let op := opByte w
  if (0x40 ≤ op ∧ op ≤ 0x63) ∨ op = 0x68 ∨ op = 0x69 ∨ (0x80 ≤ op ∧ op ≤ 0x92) ∨ (0xA8 ≤ op ∧ op ≤ 0xAB) ∨ op = 0xAD ∨
      op = 0xAE ∨ op = 0xD1 ∨ op = 0xD2 ∨ op = 0xD4 then some true
  else if (1 ≤ op ∧ op ≤ 0x0F) ∨ (0x20 ≤ op ∧ op ≤ 0x23) ∨ (0x64 ≤ op ∧ op ≤ 0x67) ∨ (0xA0 ≤ op ∧ op ≤ 0xA7) ∨
      [0x15, 0x16, 0x28, 0x31, 0x33, 0x37, 0x7E, 0x7F, 0xB1, 0xB2, 0xD8, 0xE0, 0xE1, 0xE2, 0xF5].contains op then some false
  else none

/-- The named vector registers that a word writes (06 R130, R132; NSAVE: 11 R238). -/
def writtenRegs (w : W32) : List Nat :=
  if opByte w = 0xD6 then (List.range 4).map (bitListOf w 16 7 + ·)
  else if pushClass w = some true ∧ bitListOf w 16 8 < 0x80 then [bitListOf w 16 8]
  else []

/-- A queue entry that a field reads: vector or scalar, and its age. -/
def NameField.queueRead (f : NameField) (w : W32) : Option (Bool × Nat) :=
  let x := f.read w
  match f with
  | .sc _ => if 0x80 ≤ x ∧ x < 0x90 then some (false, x - 0x7F) else none
  | .vc _ => if 0x80 ≤ x ∧ x < 0x90 then some (true, x - 0x7F) else none
  | .b6s => if 0x20 ≤ x ∧ x < 0x30 then some (false, x - 0x1F) else none
  | .b6v => if 0x20 ≤ x ∧ x < 0x30 then some (true, x - 0x1F) else none
  | _ => none

/-- The special BUDGET is read. -/
def readsBudget (w : W32) : Bool := (nameFields w).any fun f => match f with
  | .sc _ => decide (f.read w = 0xFE)
  | .vc _ => decide (f.read w = 0xFE)
  | _ => false

/-! The floors of later parts (21 R317, R319). -/

/-- The channels that a word names. -/
def channelsOf (w : W32) : List Nat :=
  let op := opByte w
  if 0xB0 ≤ op ∧ op ≤ 0xB4 then bitListOf w 20 4 :: (if op = 0xB3 then [bitListOf w 16 4] else []) else []

/-- A word names no register, barrier or channel above the floors. -/
def wordInFloors (w : W32) : Bool :=
  ((nameFields w).all fun f => decide ((f.tops w).1 ≤ 64) && decide ((f.tops w).2.1 ≤ 64) && decide ((f.tops w).2.2 ≤ 8)) &&
  (channelsOf w).all fun c => decide (c < 8)

/-- A kernel record stays within the floors. -/
def KernelRec.inFloors (k : KernelRec) : Bool :=
  decide (k.lanes ≤ 1024) && (k.roles.all fun r => decide (r.2 ≤ 64)) && decide (k.regu ≤ 64) && decide (k.spadsz ≤ 262144) &&
  decide (k.priv ≤ 1024) && decide (k.nt ≤ 2) && decide (k.seq ≤ 1) &&
  (k.exps.drop 8).all fun e => decide (e = groupCount k.lanes)

end Sys2Proof.Machine
end

