-- ==== Sys2Proof/Machine/Early.lean ====
section
/-! DEFINITION. What is written or read before the MWAIT that orders it (spec 04 R103; 10 R212, R224): the tile elements that a
place of an MMA's operands affects, and the free values they take. -/

namespace Sys2Proof.Machine

/-! The places of an MMA's operands. -/

/-- Byte `a` lies in the `n` bytes from `lo`. -/
def inBytes (lo n a : Nat) : Bool := decide (lo ≤ a) && decide (a < lo + n)

/-- Byte `a` of the scratchpad holds bits of row `i` of A, or of a header of the row (R211). -/
def LiveMma.rowByte (m : LiveMma) (i a : Nat) : Bool :=
  let w := fmtWidth (FormatBlock.afmt m.fmt)
  let base := MapBlock.base m.map
  let narrow := isNarrow (FormatBlock.afmt m.fmt)
  let kext := MapBlock.kext m.map
  if MapBlock.trans m.map then (List.range kext).any fun k =>
    inBytes (base + k * MapBlock.stride m.map + w * i / 8) ((w * i + w - 1) / 8 - w * i / 8 + 1) a ||
      (narrow && inBytes (FormatBlock.ascale m.fmt + k * FormatBlock.asstride m.fmt + 2 * (i / 32)) 2 a)
  else inBytes (base + i * MapBlock.stride m.map) ((w * kext + 7) / 8) a ||
    (narrow && inBytes (FormatBlock.ascale m.fmt + i * FormatBlock.asstride m.fmt) (2 * ((kext - 1) / 32) + 2) a)

/-- Register `n` of a quarter, counted from VB, holds bits of column `j` of B (R212). -/
def quarterReads (f : BitVec 256) (m : BitVec 128) (j n : Nat) : Bool :=
  let w := fmtWidth (FormatBlock.bfmt f)
  (List.range (MapBlock.kext m)).any fun k =>
    let b := (64 * k + j % 64) * w
    decide (b / 4096 = n) || decide ((b + w - 1) / 4096 = n)

/-- A place holds bits of column `j` of B, or of a header of the column (R212). -/
def LiveMma.colPlace (m : LiveMma) (j : Nat) : OpPlace → Bool
  | .reg g r => decide (g = 4 * m.hs + j / 64) && decide (m.vb ≤ r) && quarterReads m.fmt m.map j (r - m.vb)
  | .byte a => isNarrow (FormatBlock.bfmt m.fmt) && (List.range ((MapBlock.kext m.map + 31) / 32)).any fun b =>
      inBytes (FormatBlock.bscale m.fmt + b * FormatBlock.bsstride m.fmt + 2 * j) 2 a

/-- A place is an operand of tile element (i, j). -/
def LiveMma.touches (m : LiveMma) (p : OpPlace) (i j : Nat) : Bool := m.colPlace j p || match p with
  | .byte a => m.rowByte i a
  | .reg _ _ => false

/-- A place is an operand of the MMA. -/
def LiveMma.reads (m : LiveMma) (p : OpPlace) : Bool := (List.range 256).any (m.colPlace · p) || match p with
  | .byte a => (List.range 128).any (m.rowByte · a)
  | .reg _ _ => false

/-- Tile element (i, j) has an operand that was written too early. -/
def LiveMma.spoiled (m : LiveMma) (i j : Nat) : Bool := m.early.any fun p => m.touches p i j

/-! Free values. -/

/-- The scratchpad byte at which MSTORE puts element (i, j), and the bytes of an element (R219). -/
def mstorePlace (m : BitVec 128) (outf i j : Nat) : Nat × Nat :=
  let e := if outf = 0 then 4 else 2
  (MapBlock.base m + (if MapBlock.trans m then j * MapBlock.stride m + e * i else i * MapBlock.stride m + e * j), e)

/-- Row and column of the element that lane `l` of register `c` of an MXREAD's slab holds (R218). -/
def mxreadPlace (port h : Bool) (sl c l : Nat) : Nat × Nat :=
  if !port then (l, 32 * sl + c) else (32 * sl + c, 128 * (if h then 1 else 0) + l)

/-- A tile whose elements (i, j) that `bad` names are free values. -/
def freeElems (free : Nat) (bad : Nat → Nat → Bool) (tile : List Lanes) : List Lanes :=
  tile.zipIdx.map fun col => Lanes.tab fun i => if bad i col.2 then Config.undefElem free (256 * i + col.2) else col.1.at i

/-- The registers that an MXREAD wrote, where they hold elements that `bad` names. -/
def freeRegs (free : Nat) (bad : Nat → Nat → Bool) (port h : Bool) (vd sl : Nat) (g : Group) : Group :=
  let lanes (c : Nat) (old : Lanes) : Lanes := Lanes.tab fun l =>
    let p := mxreadPlace port h sl c l
    if bad p.1 p.2 then Config.undefElem free (256 * p.1 + p.2) else old.at l
  { g with vregs := g.vregs.zipIdx.map fun r =>
      if vd ≤ r.2 ∧ r.2 < vd + 32 then ⟨lanes (r.2 - vd) r.1.val, r.1.pend⟩ else r.1 }

/-- The bytes that an MSTORE wrote, where they hold elements that `bad` names. -/
def freeStored (free : Nat) (bad : Nat → Nat → Bool) (m : BitVec 128) (outf : Nat) (sp : Memory) : Memory :=
  (List.range 128).foldl (fun sp i => (List.range 256).foldl (fun sp j =>
    let p := mstorePlace m outf i j
    if bad i j then sp.writeLe p.1 p.2 (storeVal outf (Config.undefElem free (256 * i + j))) else sp) sp) sp

/-- What an operation took from a tile, spoiled with it. -/
def Team.spoilOut (free tile : Nat) (bad : Nat → Nat → Bool) (t : Team) : StreamOp → Team
  | .mxread tl port grp h vd sl =>
    if tl = tile then { t with groups := t.groups.modify grp (freeRegs free bad port h vd sl) } else t
  | .mstore tl m outf stored =>
    let gone (i j : Nat) : Bool := bad i j && (stored.isEmpty || stored.contains (256 * i + j))
    if tl = tile then { t with spad := freeStored free gone m outf t.spad } else t
  | _ => t

/-- The elements of a tile that `bad` names become free values, and with them what was read or stored from the tile since the
MMA of batch `batch` (R224). -/
def Team.spoil (t : Team) (free tile : Nat) (batch : W32) (bad : Nat → Nat → Bool) : Team :=
  let begun (o : W32 × StreamOp) : Bool := match o.2 with
    | .mstore _ _ _ stored => !stored.isEmpty
    | _ => false
  let outs := (t.seq.elim [] fun q => q.outs ++ q.ops.filter begun).filter fun o => reached32 o.1 batch
  outs.foldl (fun t o => t.spoilOut free tile bad o.2) { t with tiles := t.tiles.modify tile (freeElems free bad) }

/-! Batches that groups have passed. -/

/-- A writer has passed the MWAIT of a batch: the group, or for an agent outside the team any group. -/
def Team.passed (t : Team) (writer : Option Nat) (batch : W32) : Bool := match writer with
  | some g => (t.groups[g]?).any fun g => reached32 g.mwaited batch
  | none => t.groups.any fun g => reached32 g.mwaited batch

/-- Group `g` passes the MWAIT of batch `n`; what no group has still to pass is forgotten. -/
def Team.passMwait (t : Team) (g : Nat) (n : W32) : Team :=
  let t1 := { t with groups := t.groups.modify g fun g => { g with mwaited := if reached32 n g.mwaited then n else g.mwaited } }
  let all (b : W32) : Bool := t1.groups.all fun g => reached32 g.mwaited b
  { t1 with seq := t1.seq.map fun q => { q with
      live := q.live.filter fun m => !all m.batch
      outs := q.outs.filter fun o => match o.2 with
        | .mxread _ _ grp _ _ _ => !(t1.passed (some grp) o.1)
        | _ => !all o.1 } }

/-- MMAs issued and not executed. -/
def Sequencer.mmasLeft (q : Sequencer) : Nat := (q.ops.filter fun x => match x.2 with
  | .mma _ _ _ _ _ _ => true
  | _ => false).length

/-! Early writes. -/

/-- Registers of a group that a turn has changed or discarded. -/
def changedRegs (a b : Group) : List Nat :=
  (List.range a.vregs.length).filter fun r => decide (a.vregs[r]? ≠ b.vregs[r]?)

/-- Writes to places, each by its writer, reach the operands of the MMAs whose MWAIT the writer has not passed (R224). -/
def Team.earlyWrites (t : Team) (free : Nat) (ws : List (Option Nat × OpPlace)) : Team := match t.seq with
  | none => t
  | some q =>
    let done := q.live.length - q.mmasLeft
    let hits (m : LiveMma) : List OpPlace := (ws.filter fun w => !t.passed w.1 m.batch && m.reads w.2).map (·.2)
    let t1 := { t with seq := some { q with live := q.live.map fun m => { m with early := (m.early ++ hits m).dedup } } }
    (q.live.take done).foldl (fun (t : Team) m =>
      let ps := hits m
      if ps.isEmpty then t else t.spoil free m.tile m.batch fun i j => ps.any fun p => m.touches p i j) t1

/-- A group's writes, or those of an agent outside the team, are not yet published to the stream. -/
def Sequencer.addUnread (q : Sequencer) (g : Option Nat) (ps : List OpPlace) : Sequencer :=
  { q with unread := (q.unread.filter fun w => !(decide (w.group = g) && ps.contains w.place)) ++ ps.map fun p => ⟨g, p, []⟩ }

/-- The scratchpad bytes that a store or an atomic of this word stores to. -/
def Ctx.scratchWrites (c : Ctx) (w : W32) : List Nat :=
  let op := opByte w
  let p := BitVec.ofNat 5 (bitListOf w 11 5)
  let b := BitVec.ofNat 6 (bitListOf w 0 6)
  let bytes (n o : Nat) : List Nat := (List.range n).map (o + ·)
  if ptrSeg (c.readPtr p) ≠ 0xFFFF then []
  else if 0x24 ≤ op ∧ op ≤ 0x27 then bytes (2 ^ (op - 0x24)) (c.offS p b).toNat
  else if 0xA0 ≤ op ∧ op ≤ 0xA7 then bytes 8 (ptrOff (c.readPtr p))
  else if 0x93 ≤ op ∧ op ≤ 0x95 then (c.offsV p b).flatMap fun x => bytes (2 ^ (op - 0x93)) x.2
  else if (0xA8 ≤ op ∧ op ≤ 0xAB) ∨ op = 0xAD ∨ op = 0xAE then (c.offsV p b).flatMap fun x => bytes 4 x.2
  else []

/-- The named registers and the scratchpad bytes that an instruction of this word writes, whatever the values. -/
def Ctx.writePlaces (c : Ctx) (w : W32) : List OpPlace :=
  (writtenRegs w).map (OpPlace.reg c.id.group) ++ (c.scratchWrites w).map OpPlace.byte

/-- Registers of a group, as places, that have changed. -/
def changedPlaces (a b : Team) (h : Nat) : List OpPlace := match a.groups[h]?, b.groups[h]? with
  | some x, some y => (changedRegs x y).map (OpPlace.reg h)
  | _, _ => []

/-- After a turn of group `id`: the places `wrote` that it wrote, its registers that changed, and those that RQUOTA took from
others. -/
def State.noteWrites (before : State) (id : GroupId) (wrote : List OpPlace) (s : State) : State :=
  match before.team? id.team, s.team? id.team with
  | some a, some b => match a.seq, b.seq with
    | some _, some q =>
      let mine := (wrote ++ changedPlaces a b id.group).dedup
      let others := if q.live.isEmpty then [] else ((List.range a.groups.length).filter (· ≠ id.group)).flatMap fun h =>
        (changedPlaces a b h).map fun p => (some h, p)
      let ws := mine.map (fun p => (some id.group, p)) ++ others
      if ws.isEmpty then s
      else
        let t1 := b.earlyWrites s.free ws
        { s.setTeam { t1 with seq := t1.seq.map fun q => q.addUnread (some id.group) mine } with free := s.free + 1 }
    | _, _ => s
  | _, _ => s

/-- The place of a team's operands at a location. -/
def Loc.opPlace? : Loc → Option (TeamId × OpPlace)
  | .spad t o => some (t, .byte o)
  | .regWin t g o => some (t, .reg g (o / 512))
  | _ => none

/-- Writes of engines and ports at locations, each for a command of a group or of none that is known, reach the operands of MMAs
through windows and scratchpads. -/
def State.noteEngine (s : State) (ws : List (Option GroupId × Loc)) : State :=
  s.teams.foldl (fun (s : State) t =>
    let mine := (ws.filterMap fun w => w.2.opPlace?.bind fun p =>
      if p.1 = t.id then some ((w.1.filter fun g => decide (g.team = t.id)).map (·.group), p.2) else none).dedup
    if t.seq.isNone || mine.isEmpty then s
    else
      let t1 := t.earlyWrites s.free mine
      { s.setTeam { t1 with seq := t1.seq.map fun q => mine.foldl (fun q w => q.addUnread w.1 [w.2]) q } with
        free := s.free + 1 }) s

/-! Early reads. -/

/-- A byte that a command of a group reads through a window before the group has passed the MWAIT that orders it: a tile on which
an MMA was issued, or a register that an MXREAD writes (04 R103, 10 R224). -/
def State.readEarly (s : State) (reader : GroupId) (l : Loc) : Bool :=
  let who (t : TeamId) : Option Nat := if reader.team = t then some reader.group else none
  match l with
  | .tileWin t k _ => (s.team? t).any fun tm => tm.seq.any fun q =>
      q.live.any fun m => decide (m.tile = k) && !tm.passed (who t) m.batch
  | .regWin t g o => (s.team? t).any fun tm => tm.seq.any fun q =>
      (q.ops ++ q.outs).any fun x => x.2.gives g (o / 512) && !tm.passed (some g) x.1
  | _ => false

/-- A byte of a register that the group's budget no longer holds (01 R22). -/
def State.discarded (s : State) : Loc → Bool
  | .regWin t g o => !((s.group? ⟨t, g⟩).any fun g => decide (o / 512 < g.vregs.length))
  | _ => false

/-- An early read of tile elements leaves them undefined (04 R103). -/
def State.spoilReads (s : State) (reader : GroupId) (ls : List Loc) : State :=
  match (ls.filter (s.readEarly reader)).head? with
  | some (.tileWin t k _) =>
    let bad (i j : Nat) : Bool := ls.any fun l => match l with
      | .tileWin _ _ o => decide (o / 1024 = i) && decide (o / 4 % 256 = j)
      | _ => false
    { (s.mapTeam t fun tm => { tm with tiles := tm.tiles.modify k (freeElems s.free bad) }) with free := s.free + 1 }
  | _ => s

end Sys2Proof.Machine
end

