-- ==== Sys2Proof/Machine/NectarUnit.lean ====
section
/-! DEFINITION. The arithmetic of the Nectar unit (spec 11 R226-R235): exact real terms, splitting, accumulation, merging,
finishing, user tables. Every rounding inside the unit is RNE to FP32. -/

namespace Sys2Proof.Machine

/-! Exact reals. -/

/-- An exact real: ±0, ±n/d·2^e, or a real given by bounds at any precision. -/
inductive NReal where
  | zero (neg : Bool)
  | rat (neg : Bool) (n d : Nat) (e : Int)
  | real (neg : Bool) (bounds : Nat → Bounds)

/-- ±n·2^e, or zero. -/
def NReal.dyadic (neg : Bool) (n : Nat) (e : Int) : NReal := if n = 0 then .zero neg else .rat neg n 1 e

def NReal.scale2 (k : Int) : NReal → NReal
  | .zero s => .zero s
  | .rat s n d e => .rat s n d (e + k)
  | .real s b => .real s fun p => { b p with e := (b p).e + k }

/-- Bounds times n/d. -/
def Bounds.mulRat (b : Bounds) (n d : Nat) : Bounds :=
  let k := 64 + Nat.log2 d
  ⟨b.lo * n * 2 ^ k / d, b.hi * n * 2 ^ k / d + 1, b.e - k⟩

/-- Times ±n/d·2^e, n and d not zero. -/
def NReal.mulRat (neg : Bool) (n d : Nat) (e : Int) : NReal → NReal
  | .zero s => .zero (s != neg)
  | .rat s m g f => .rat (s != neg) (m * n) (g * d) (f + e)
  | .real s b => .real (s != neg) fun p => let x := (b p).mulRat n d; { x with e := x.e + e }

/-- ±n/d·2^e rounded once to a format. -/
def FpFmt.roundScaled (f : FpFmt) (rnd : Rnd) (sat neg : Bool) (n d : Nat) (e : Int) : Nat :=
  let k := f.fracBits + 66 + Nat.log2 d
  f.round rnd sat neg (n * 2 ^ k / d) (e - k) (decide (n * 2 ^ k % d ≠ 0))

/-- An exact real rounded once to a format; a zero keeps its sign (02 R46). -/
def NReal.round (f : FpFmt) (rnd : Rnd) (sat : Bool) : NReal → Nat
  | .zero s => f.withSign s 0
  | .rat s n d e => f.roundScaled rnd sat s n d e
  | .real s b => f.roundBounds rnd sat s (b 128) (b 400)

/-- A result of NEVAL: one of zero magnitude is +0 (R237). -/
def NReal.roundPlus (f : FpFmt) (rnd : Rnd) (sat : Bool) (x : NReal) : Nat :=
  let r := x.round f rnd sat
  if r = f.signBit then 0 else r

/-- A 24-bit significand rounded by RNE, and the exponent of the value (R228). -/
def sig24 (m : Nat) (e : Int) (sticky : Bool) : Nat × Int :=
  let top := Nat.log2 m
  if top < 24 then (m * 2 ^ (23 - top), e + top)
  else
    let k := top - 23
    let u := m / 2 ^ k + (if roundsUp .rne false (m / 2 ^ k) (m % 2 ^ k) k sticky then 1 else 0)
    if u = 2 ^ 24 then (2 ^ 23, e + top + 1) else (u, e + top)

/-- A split term (R228): `none` is a zero term; m is a signed 24-bit significand, its value m·2^(e−23). -/
structure Term where
  neg : Bool
  m : Nat
  e : Int
  deriving DecidableEq, Repr

def NReal.split : NReal → Option Term
  | .zero _ => none
  | .rat s n d e =>
    let k := 90 + Nat.log2 d
    let r := sig24 (n * 2 ^ k / d) (e - k) (decide (n * 2 ^ k % d ≠ 0))
    some ⟨s, r.1, r.2⟩
  | .real s b =>
    let at' (m : Nat) (e : Int) := sig24 m e true
    let a := b 128
    let c := b 400
    let r := if at' a.lo a.e = at' a.hi a.e then at' a.lo a.e
      else if at' c.lo c.e = at' c.hi c.e then at' c.lo c.e
      else
        let k := Nat.log2 c.hi - 27
        sig24 (c.hi / 2 ^ k) (c.e + k) false
    some ⟨s, r.1, r.2⟩

/-- Whether ±n/d is a power of two, and which. -/
def pow2Of (n d : Nat) : Option Int :=
  let k : Int := (Nat.log2 n : Int) - Nat.log2 d
  if n * 2 ^ (-k).toNat = d * 2 ^ k.toNat then some k else none

/-- log2(n/d·2^e), n, d > 0. -/
def log2Real (n d : Nat) (e : Int) : NReal :=
  match pow2Of n d with
  | some k => .dyadic (decide (k + e < 0)) (k + e).natAbs 0
  | none =>
    let at' (p : Nat) : Int × Int :=
      let x := log2Bounds p n d
      (x.1 + e * 2 ^ p, x.2 + e * 2 ^ p)
    .real (decide ((at' 128).2 ≤ 0)) fun p =>
      let x := at' p
      ⟨min x.1.natAbs x.2.natAbs, max x.1.natAbs x.2.natAbs, -(p : Int)⟩

/-- 2^(±n/d). -/
def exp2Real (neg : Bool) (n d : Nat) : NReal :=
  if n % d = 0 then .rat false 1 1 (if neg then -((n / d : Nat) : Int) else ((n / d : Nat) : Int))
  else .real false fun p =>
    let q : Int := ((n * 2 ^ p / d : Nat) : Int)
    if neg then exp2Bounds p (-q - 1) (-q) else exp2Bounds p q (q + 1)

/-- 2^(±n/d·2^e), n > 0: beyond 2^64 every format has long over- or underflowed, and below 2^-100 the value lies between 1 and
1 ± 2^-98, where every format rounds alike. -/
def exp2Scaled (neg : Bool) (n d : Nat) (e : Int) : NReal :=
  let top : Int := e + Nat.log2 n - Nat.log2 d
  if top > 64 then exp2Real neg (2 ^ 64) 1
  else if top < -100 then
    .real false fun p => if neg then ⟨2 ^ p - 2 ^ (p - 98), 2 ^ p - 1, -(p : Int)⟩ else ⟨2 ^ p, 2 ^ p + 2 ^ (p - 98), -(p : Int)⟩
  else exp2Real neg (n * 2 ^ e.toNat) (d * 2 ^ (-e).toNat)

/-- (n/d·2^e)^(±a/b), n, d, a, b > 0. -/
def powReal (n d : Nat) (e : Int) (neg : Bool) (a b : Nat) : NReal :=
  match pow2Of n d with
  | some k => exp2Real (neg != decide (k + e < 0)) (a * (k + e).natAbs) b
  | none => .real false fun p =>
    let q := p + Nat.log2 a + 4
    let x := log2Bounds q n d
    let s : Int := if neg then -(a : Int) else a
    let l1 := s * (x.1 + e * 2 ^ q)
    let l2 := s * (x.2 + e * 2 ^ q)
    let down (v : Int) : Int := v * 2 ^ p / (b * 2 ^ q)
    exp2Bounds p (down (min l1 l2)) (down (max l1 l2) + 1)

/-! Function families (R232). -/

/-- A family with its shape. -/
inductive Family where
  /-- Power with p = ±∞: σ = −1 when `neg`. -/
  | extremum (neg : Bool)
  /-- Power with p = 0. -/
  | geometric
  /-- Power with p = 1. -/
  | arithmetic
  /-- Power with another finite p = ±a/b. -/
  | power (neg : Bool) (a b : Nat)
  /-- Exponential with τ = ±a/b. -/
  | exponential (neg : Bool) (a b : Nat)
  | user (u : UserPair)
  deriving DecidableEq, Repr

/-- m·2^e as a fraction. -/
def fracOf (m : Nat) (e : Int) : Nat × Nat := (m * 2 ^ e.toNat, 2 ^ (-e).toNat)

/-- FAMILY and SHAPE (R232). `none`: family 1 with a shape it does not admit, or no user pair. -/
def familyOf (fam : BitVec 2) (shape : W32) (user : Option UserPair) : Option Family :=
  if fam = 0 then
    match fp32.decode shape.toNat with
    | .nan => none
    | .inf neg => some (.extremum neg)
    | .fin neg m e =>
      if m = 0 then some .geometric
      else
        let r := fracOf m e
        if !neg && decide (r.1 = r.2) then some .arithmetic else some (.power neg r.1 r.2)
  else if fam = 1 then
    match fp32.decode shape.toNat with
    | .fin neg m e => if m = 0 then none else some (.exponential neg (fracOf m e).1 (fracOf m e).2)
    | _ => none
  else user.map Family.user

/-! User tables (R234). -/

/-- A finite FP32 pattern as an integer in units of 2^-149. -/
def fixed (w : W32) : Int := match fp32.decode w.toNat with
  | .fin neg m e => let v : Int := m * 2 ^ (e + 149).toNat; if neg then -v else v
  | _ => 0

/-- One Horner step RNE32(r × t + c). -/
def horner (r t c : Nat) : Nat := fp32.fma .rne false (fp32.decode r) (fp32.decode t) (fp32.decode c)

/-- The table's value at `v`, lo ≤ v ≤ hi. -/
def tableAt (tab : List W32) (lo hi v : W32) : Nat :=
  let num := ((fixed v - fixed lo) * 64).toNat
  let den := (fixed hi - fixed lo).toNat
  let i := min (num / den) 63
  let t := fp32.roundRat .rne false false (num - i * den) den
  let c (j : Nat) : Nat := (tab.getD (4 * i + j) 0).toNat
  horner (horner (horner (c 3) t (c 2)) t (c 1)) t (c 0)

/-- lo ≤ v ≤ hi for a value and finite bounds. -/
def inDomain (v : Fp) (lo hi : W32) : Bool := match v with
  | .fin _ _ _ => decide ((fp32.decode lo.toNat).cmp v ≤ 0) && decide (v.cmp (fp32.decode hi.toNat) ≤ 0)
  | _ => false

/-! Entry (R232, R233). -/

/-- A finite value of an FP32 pattern, or none. -/
def patReal (w : Nat) : Option NReal := match fp32.decode w with
  | .fin s m e => some (.dyadic s m e)
  | _ => none

/-- x lies in the family's domain (R232). -/
def Family.admits (fam : Family) (x : Fp) : Bool := match x with
  | .nan => false
  | .inf neg => match fam with
    | .exponential _ _ _ => neg
    | _ => false
  | .fin s m _ => match fam with
    | .geometric => decide (m ≠ 0) && !s
    | .power neg _ _ => if m = 0 then !neg else !s
    | .user u => inDomain x u.dlo u.dhi
    | _ => true

/-- f(x): `none` when x lies outside the family's domain or a user entry value is not finite (R233; assumption 81). -/
def entryOf (fam : Family) (x : Fp) : Option NReal :=
  match x with
  | .nan => none
  | .inf neg => match fam with
    | .exponential _ _ _ => if neg then some (.zero false) else none
    | _ => none
  | .fin s m e => match fam with
    | .extremum _ => some (.dyadic s m e)
    | .arithmetic => some (.dyadic s m e)
    | .geometric => if m = 0 || s then none else some (log2Real m 1 e)
    | .power neg a b =>
      if m = 0 then (if neg then none else some (.zero false))
      else if s then none
      else some (powReal m 1 e neg a b)
    | .exponential neg a b =>
      if m = 0 then some (.rat false 1 1 0)
      else
        let r := fracOf m e
        some (exp2Real (s != neg) (r.1 * b) (r.2 * a))
    | .user u =>
      if inDomain x u.dlo u.dhi then patReal (tableAt u.entry u.dlo u.dhi (BitVec.ofNat 32 (fp32.round .rne false s m e false)))
      else none

/-! Lane states. -/

/-- The state of a lane: `x = none` is EMPTY; M is kept as its pattern. -/
structure LaneN where
  x : Option Int
  s : Nat
  n : Nat
  m : W32
  deriving DecidableEq, Repr

def emptyX : W32 := 0x80000000
def xOf (w : W32) : Option Int := if w = emptyX then none else some w.toInt
def xBits : Option Int → W32
  | none => emptyX
  | some x => BitVec.ofInt 32 x

def NState.lane (n : NState) (l : Nat) : LaneN := ⟨xOf (n.x.at l), (n.s.at l).toNat, (n.n.at l).toNat, n.m.at l⟩

/-- Replace lanes of a state. -/
def NState.setLanes (n : NState) (on : Nat → Bool) (f : Nat → LaneN) : NState :=
  ⟨Lanes.tab fun l => if on l then xBits (f l).x else n.x.at l, Lanes.tab fun l => if on l then BitVec.ofNat 32 (f l).s else n.s.at l,
    Lanes.tab fun l => if on l then BitVec.ofNat 32 (f l).n else n.n.at l, Lanes.tab fun l => if on l then (f l).m else n.m.at l⟩

def Fp.scale2 (k : Int) : Fp → Fp
  | .fin s m e => .fin s m (e + k)
  | x => x

/-- S × 2^X. -/
def LaneN.total (a : LaneN) : Fp := (fp32.decode a.s).scale2 (a.x.getD 0)

def LaneN.isNan (a : LaneN) : Bool := decide (fp32.decode a.s = .nan)

/-- The state made a NaN state (R230, R233). -/
def LaneN.poison (a : LaneN) : LaneN := { a with s := fp32.nan, x := some (a.x.getD 0) }

/-- The sum of two scaled FP32 values rounded to FP32. -/
def addRne (a b : Fp) : Nat := fp32.add .rne false a b

/-- N after one more term. -/
def LaneN.counted (a : LaneN) : LaneN := { a with n := addRne (fp32.decode a.n) (.fin false 1 0) }

/-- σ × a > σ × b for an extremum family, σ = −1 when `neg`. -/
def beats (neg : Bool) (a b : Fp) : Bool := if neg then decide (a.cmp b < 0) else decide (0 < a.cmp b)

/-- ACCUMULATE (R229); the count is already taken. -/
def LaneN.accumulate (fam : Family) (a : LaneN) (t : Option Term) : LaneN :=
  if a.isNan then a
  else match fam with
    | .extremum neg =>
      let v : Fp := match t with
        | none => .fin false 0 0
        | some t => .fin t.neg t.m (t.e - 23)
      let x := match t with
        | none => 0
        | some t => t.e
      let s := fp32.encode .rne false (v.scale2 (-x))
      if a.x.isNone || beats neg v a.total then { a with x := some x, s := s } else a
    | _ => match t with
      | none => a
      | some t =>
        let m : Fp := .fin t.neg t.m (-23)
        match a.x with
        | none => { a with x := some t.e, s := fp32.encode .rne false m }
        | some x =>
          if t.e > x then { a with s := addRne ((fp32.decode a.s).scale2 (x - t.e)) m, x := some t.e }
          else { a with s := addRne (fp32.decode a.s) (m.scale2 (t.e - x)) }

/-- A term exponent that X can hold (R228). -/
def expInRange (e : Int) : Bool := decide (-(2 ^ 31) < e) && decide (e < 2 ^ 31)

/-- One term of NACC: the state and whether the term is a domain error (R229, R233). -/
def LaneN.term (fam : Family) (a : LaneN) (x : Fp) : LaneN × Bool :=
  let c := a.counted
  match entryOf fam x with
  | none => (c.poison, true)
  | some v => match v.split with
    | none => (c.accumulate fam none, false)
    | some t => if expInRange t.e then (c.accumulate fam (some t), false) else (c.poison, true)

/-- Terms in order. -/
def LaneN.terms (fam : Family) : LaneN → List Fp → LaneN × Bool
  | a, [] => (a, false)
  | a, x :: xs =>
    let r := a.term fam x
    let rs := LaneN.terms fam r.1 xs
    (rs.1, r.2 || rs.2)

/-- MERGE(a, b) (R230): `ext` is the extremum family with σ = −1 when it holds `true`. -/
def LaneN.merge (ext : Option Bool) (a b : LaneN) : LaneN :=
  let c := { a with n := addRne (fp32.decode a.n) (fp32.decode b.n) }
  if a.isNan || b.isNan then c.poison
  else match b.x with
    | none => c
    | some xb => match a.x with
      | none => { c with x := some xb, s := b.s }
      | some xa => match ext with
        | some neg => if beats neg b.total a.total then { c with x := some xb, s := b.s } else c
        | none =>
          if xb > xa then { c with s := addRne ((fp32.decode a.s).scale2 (xa - xb)) (fp32.decode b.s), x := some xb }
          else { c with s := addRne (fp32.decode a.s) ((fp32.decode b.s).scale2 (xb - xa)) }

def Family.ext : Family → Option Bool
  | .extremum neg => some neg
  | _ => none

/-! Finishing (R231). -/

/-- A result of the unit: a pattern, a domain error, or a value the spec does not state. -/
inductive NRes where
  | val (w : Nat)
  | err
  | open
  deriving DecidableEq, Repr

/-- RNE32 of an exact real. -/
def NReal.rne32 (x : NReal) : Nat := match x with
  | .rat s n d e => fp32.roundScaled .rne false s n d e
  | x => x.round fp32 .rne false

/-- y against a finite FP32 value, exactly: the sign of y − v. -/
def NReal.cmpPat (y : NReal) (v : W32) : Int := match y, fp32.decode v.toNat with
  | .zero _, w => (Fp.fin false 0 0).cmp w
  | .rat s n d e, .fin t m g => (Fp.fin s n e).cmp (.fin t (m * d) g)
  | _, _ => 0

/-- The exit table's value as an element: an infinity arises here from finite operands (02 R45). -/
def FpFmt.ofTable (f : FpFmt) (rnd : Rnd) (sat : Bool) (w : Nat) : Nat := match fp32.decode w with
  | .inf s => f.bornInf sat s
  | v => f.encode rnd sat v

/-- g(y) rounded once to the element format, y finite. The exit domain of a user pair is checked on the exact y (R231, R233). -/
def exitOf (fam : Family) (f : FpFmt) (rnd : Rnd) (sat : Bool) (y : NReal) : NRes :=
  match fam with
  | .extremum _ => .val (y.round f rnd sat)
  | .arithmetic => .val (y.round f rnd sat)
  | .geometric => match y with
    | .zero _ => .val (f.round rnd sat false 1 0 false)
    | .rat s n d e => .val ((exp2Scaled s n d e).round f rnd sat)
    | .real _ _ => .open
  | .power neg a b => match y with
    | .zero _ => if neg then .err else .val 0
    | .rat s n d e => if s then .err else .val ((powReal n d e neg b a).round f rnd sat)
    | .real _ _ => .open
  | .exponential neg a b => match y with
    | .rat s n d e => if s then .err else .val (((log2Real n d e).mulRat neg a b 0).round f rnd sat)
    | _ => .err
  | .user u =>
    if 0 ≤ y.cmpPat u.elo ∧ y.cmpPat u.ehi ≤ 0 then
      .val (f.ofTable rnd sat (tableAt u.exit u.elo u.ehi (BitVec.ofNat 32 y.rne32)))
    else .err

/-- The exact y of a finite S, X and the divisor n/d·2^e. -/
def yOf (s : Bool) (m : Nat) (e : Int) (n : Nat) (g : Int) : NReal := if m = 0 then .zero s else .rat s m n (e - g)

/-- FINISH (R231). -/
def LaneN.finish (fam : Family) (total : Bool) (f : FpFmt) (rnd : Rnd) (sat : Bool) (a : LaneN) : NRes :=
  if a.isNan then .val f.nan
  else match a.x with
    | none =>
      let zeroN : Bool := match fp32.decode a.n with
        | .fin _ m _ => decide (m = 0)
        | _ => false
      let expo : Bool := match fam with
        | .exponential _ _ _ => true
        | _ => false
      if expo || zeroN then .val 0 else exitOf fam f rnd sat (.zero false)
    | some _ =>
      let whole := total || fam.ext.isSome
      match a.total, (if whole then Fp.fin false 1 0 else fp32.decode a.n) with
      | .fin s m e, .fin ns n g => if n = 0 || ns then .err else exitOf fam f rnd sat (yOf s m e n g)
      | .inf s, .fin ns n _ =>
        if n = 0 || ns then .err
        else match fam with
          | .extremum _ => .val (f.withSign s f.inf)
          | .arithmetic => .val (f.withSign s f.inf)
          | .user _ => .err
          | .geometric => .open
          | _ => if s then .err else .open
      | .nan, _ => .val f.nan
      | _, _ => .err

/-- NEVAL of one sub-element (R237): the first of its clauses that applies. A user entry value that is not finite counts only
after the tests of the state. An exponent outside the range of R228 is no domain error here, and an infinite S under NORM gives +0
(DESIGN CHOICE, assumption 99). -/
def LaneN.eval (fam : Family) (norm : Bool) (f : FpFmt) (rnd : Rnd) (sat : Bool) (a : LaneN) (x : Fp) : NRes :=
  if !fam.admits x then .err
  else if a.isNan then .val f.nan
  else match a.x with
    | none => .val 0
    | some k => match entryOf fam x with
      | none => .err
      | some v =>
        let w := v.scale2 (-k)
        if !norm then .val (w.roundPlus f rnd sat)
        else match fp32.decode a.s with
          | .fin s m e => if m = 0 then .err else .val ((w.mulRat s 1 m (-e)).roundPlus f rnd sat)
          | _ => .val 0

/-- NRESCALE's factor (R237). -/
def LaneN.factor (f : FpFmt) (rnd : Rnd) (sat : Bool) (a : LaneN) : Nat := match xOf a.m, a.x with
  | some m, some x => f.round rnd sat false 1 (m - x) false
  | _, _ => f.round rnd sat false 1 0 false

/-! Loading a user pair (R235). -/

def finitePat (w : W32) : Bool := match fp32.decode w.toNat with
  | .fin _ _ _ => true
  | _ => false

/-- σ·P′ ≥ 0 at t = 0, at t = 1 and at the point of extreme slope inside, for coefficients in units of 2^-149. -/
def slopeOk (sg : Int) (c1 c2 c3 : Int) : Bool :=
  decide (0 ≤ sg * c1) && decide (0 ≤ sg * (c1 + 2 * c2 + 3 * c3)) &&
  (let inside := (decide (c3 > 0) && decide (-c2 > 0) && decide (-c2 < 3 * c3)) ||
      (decide (c3 < 0) && decide (-c2 < 0) && decide (-c2 > 3 * c3))
   !inside || decide (0 ≤ sg * (3 * c3 * c1 - c2 * c2) * (if c3 > 0 then 1 else -1)))

/-- The monotone check of an entry table for one direction. -/
def monotoneIn (sg : Int) (tab : List W32) : Bool :=
  let c (i j : Nat) : Int := fixed (tab.getD (4 * i + j) 0)
  let last (i : Nat) : Int := c i 0 + c i 1 + c i 2 + c i 3
  ((List.range 64).all fun i => slopeOk sg (c i 1) (c i 2) (c i 3)) &&
  ((List.range 63).all fun i => decide (0 ≤ sg * (c (i + 1) 0 - last i))) &&
  decide (0 < sg * (last 63 - c 0 0))

/-- The status of NTABLE (R235). -/
def tableStatus (u : UserPair) : Nat :=
  let bounds := [u.dlo, u.dhi, u.elo, u.ehi]
  if !((u.entry ++ u.exit ++ bounds).all finitePat) || fixed u.dlo ≥ fixed u.dhi || fixed u.elo ≥ fixed u.ehi then 2
  else if monotoneIn 1 u.entry || monotoneIn (-1) u.entry then 0 else 1

end Sys2Proof.Machine
end

