-- ==== Sys2Proof/Machine/Engine.lean ====
section
/-! DEFINITION. Copies: COPY (spec 12 R240-R243), CCOPY (09 R203, R205), their chunks and their statuses; WAITA, LWAKE, MHINT
(12 R260-R263) and MWAIT (10 R223). -/

namespace Sys2Proof.Machine

/-! The checks of both ranges of a copy. -/

/-- Step 1 of R70 for a range: windows only where the command admits them. -/
def Launch.copySeg? (l : Launch) (windows : Bool) (p : W64) : Option SegView :=
  match l.seg? (ptrSeg p) with
  | none => none
  | some v => if v.space = .priv || (v.space = .window && !windows) then none else some v

/-- Steps 1, 2 and 4 over both ranges; the earlier step decides, and at one step the source (R203, R243). A window's limit
is not a check: it gives a status. -/
def checkCopy (l : Launch) (windows : Bool) (src dst : W64) (n : Nat) (rights : List Right) : Chk Unit :=
  match l.copySeg? windows src, l.copySeg? windows dst with
  | none, _ => .trap (.segment src 0 0)
  | _, none => .trap (.segment dst 0 0)
  | some a, some b =>
    match [Right.pr].find? fun r => !(a.rights.contains r) with
    | some r => .trap (.permission r src 0 0)
    | none => match rights.find? fun r => !(b.rights.contains r) with
      | some r => .trap (.permission r dst 0 0)
      | none =>
        if a.space ≠ .window && decide (ptrOff src + n > a.limit) then .trap (.bounds src 0 0)
        else if b.space ≠ .window && decide (ptrOff dst + n > b.limit) then .trap (.bounds dst 0 0)
        else .ok ()

/-- The window of `n` bytes from an offset of a segment, resolved now; nothing for a range that is no window. -/
def State.windowOf (s : State) (l : Launch) (t : TeamId) (die seg off n : Nat) : Option Window :=
  match l.seg? seg, l.desc? seg with
  | some v, some d => if v.space = .window then some (s.window l t die d off n) else none
  | _, _ => none

def Window.place? : Window → Option WindowAt
  | .at w => some w
  | _ => none

/-- The status code of a range's window when it does not resolve: 2 WINDOW_ABSENT, 3 WINDOW_BOUNDS, 0 when it does or the
range is no window (R241). -/
def State.windowCode (s : State) (l : Launch) (t : TeamId) (die seg off n : Nat) : BitVec 8 :=
  match s.windowOf l t die seg off n with
  | some .absent => 2
  | some .bad => 3
  | _ => 0

/-- The first code that is not 0. -/
def firstCode (cs : List (BitVec 8)) : BitVec 8 := (cs.find? fun c => decide (c ≠ 0)).getD 0

/-- A command of a team's group or of a graph node, its windows resolved once, at its start (03 R74, R75): the source, of
`srcs` bytes, the destination, and a REDUCE's second source. -/
def State.newCopy (s : State) (l : Launch) (die : Nat) (g : GroupId) (ch : Nat) (always : Bool) (node : Option (Nat × Nat))
    (work : Option Calc) (src dst : W64) (srcs count : Nat) (joins : List Nat) : CopyCmd :=
  let at' (p : W64) (n : Nat) : Option WindowAt := (s.windowOf l g.team die (ptrSeg p) (ptrOff p) n).bind Window.place?
  let code (p : W64) (n : Nat) : BitVec 8 := s.windowCode l g.team die (ptrSeg p) (ptrOff p) n
  ⟨s.nextId, g, ch, always, node, work, src, dst, count, 0,
    if count = 0 then 0 else firstCode [code src srcs, code dst count], false,
    at' src srcs, at' dst count, match work with
      | some (.reduce _ _ p) => at' p srcs
      | _ => none, joins, []⟩

/-- Some chunk of a new command would travel on its channel (05 R110). -/
def State.copyTravels (s : State) (l : Launch) (die : Nat) (k : CopyCmd) : Bool :=
  k.always || (decide (k.code = 0) && k.restBlocks.any (s.leavesDie l die k))

/-- Issue a copy of a team: an empty status, or a full DONE when there is nothing to copy. One whose chunks travel on a channel with
a LOST bit faults (05 R123). -/
def copyIssue (i : Instr) (d a b : BitVec 8) (ch : Nat) (always : Bool) (rights : List Right) (c : Ctx) : Res :=
  let dst := c.readS a
  let src := c.readS b
  let n := (c.readS (b + 1)).toNat
  if n = 0 then c.finishS d 0
  else c.check i (if n > 2 ^ 32 then .trap (.bounds src 0 0) else checkCopy c.launch (!always) src dst n rights) fun _ =>
    let k := c.s.newCopy c.launch c.die c.id ch always none none src dst n n (c.team.chans.getD ch Channel.empty).joins
    c.check i (if c.s.copyTravels c.launch c.die k then c.lostCheck ch else .ok ()) fun _ =>
      let s1 := c.s.setGroup c.id ((c.group.pendS d k.id).advance)
      .next { s1 with nextId := k.id + 1, copies := s1.copies ++ [k] }

/-- COPY (R243); the command is ordered after the group's earlier accesses as by a release at DIE scope (04 R104). -/
def execCopy (d a b : BitVec 8) (s : State) : Res :=
  issue (.copy d a b) s [.dstS 0 d, .srcS 1 .epa a, .pairS b, .access, .released 0xFF] (copyIssue (.copy d a b) d a b 0 false [.pw])

/-- CCOPY (R203): the status has no named destination. -/
def execCcopy (ch : BitVec 4) (a b : BitVec 8) (s : State) : Res :=
  issue (.ccopy ch a b) s [.srcS 1 .epa a, .pairS b, .access, .released 0xFF] (copyIssue (.ccopy ch a b) 0xFF a b ch.toNat true [.pm, .pw])

/-! Chunks. -/

/-- Where a range begins, for comparing ranges: a window's place, an offset of the scratchpad, or a virtual address of its
space. -/
def Launch.rangeStart (l : Launch) (t : TeamId) (p : W64) (w : Option WindowAt) : Option Loc := match w with
  | some w => some w.loc
  | none => (l.seg? (ptrSeg p)).map fun v => match v.space with
    | .scratch => .spad t (ptrOff p)
    | .priv => .priv t (ptrOff p)
    | .fused => .fused l.seq (ptrOff p)
    | .host => .host l.fn (v.base + ptrOff p)
    | .peer => .peer (32 * v.peerMod + v.peerPart) (v.base + ptrOff p)
    | _ => .phys (v.base + ptrOff p)

/-- The offset of a location in its space. -/
def Loc.offset : Loc → Nat
  | .phys a => a
  | .host _ a => a
  | .peer _ a => a
  | .spad _ o => o
  | .priv _ o => o
  | .regWin _ _ o => o
  | .tileWin _ _ o => o
  | .fused _ o => o

/-- The space of a location: the location of its first byte. -/
def Loc.origin : Loc → Loc
  | .phys _ => .phys 0
  | .host f _ => .host f 0
  | .peer m _ => .peer m 0
  | .spad t _ => .spad t 0
  | .priv t _ => .priv t 0
  | .regWin t g _ => .regWin t g 0
  | .tileWin t k _ => .tileWin t k 0
  | .fused n _ => .fused n 0

/-- Byte `k` from `dst` lies in the `n` bytes from `src`. -/
def overlapAt (src dst : Option Loc) (n k : Nat) : Bool := match src, dst with
  | some a, some b => decide (a.origin = b.origin) && inBytes a.offset n (b.offset + k)
  | _, _ => false

/-! What a graph node computes (R252, R253). -/

/-- The bytes of an element type of R247. -/
def typeBytes (t : Nat) : Nat := if t = 5 then 16 else if t = 3 ∨ t = 4 then 2 else 4

def fmtOfType (t : Nat) : Option FpFmt := if t = 2 then some fp32 else if t = 3 then some fp16 else if t = 4 then some bf16 else none

/-- The signed or unsigned value of a 32-bit integer element. -/
def intOfType (t v : Nat) : Int := if t = 0 then (BitVec.ofNat 32 v).toInt else v

/-- SUM, MIN and MAX of two elements (R252). -/
def reduceElem (op t a b : Nat) : Nat := match fmtOfType t with
  | some f =>
    if op = 0 then f.add .rne false (f.decode a) (f.decode b) else fpMinMax f (decide (op = 2)) a b
  | none =>
    if op = 0 then (a + b) % 2 ^ 32
    else if op = 1 then (if intOfType t b < intOfType t a then b else a)
    else if intOfType t a < intOfType t b then b else a

/-- A Nectar record (11 R238): four 32-bit words. -/
def recLane (v : Nat) : LaneN :=
  ⟨xOf (BitVec.ofNat 32 v), v / 2 ^ 32 % 2 ^ 32, v / 2 ^ 64 % 2 ^ 32, BitVec.ofNat 32 (v / 2 ^ 96)⟩

def laneRec (l : LaneN) : Nat := (xBits l.x).toNat + 2 ^ 32 * l.s + 2 ^ 64 * l.n + 2 ^ 96 * l.m.toNat

/-- NSUM, NMAX and NMIN (R252). -/
def reduceRec (op a b : Nat) : Nat :=
  laneRec ((recLane a).merge (if op = 3 then none else some (decide (op = 5))) (recLane b))

/-- CONVERT of one element (R253). -/
def convertElem (t out v : Nat) : Nat := match fmtOfType t, fmtOfType out with
  | some f, some g => g.encode .rne false (f.decode v)
  | none, some g => g.roundInt .rne false (intOfType t v)
  | some f, none =>
    let e : ElemType := if out = 0 then .int32 else .nat32
    match f.decode v with
    | .nan => 0
    | .inf neg => e.wrap (if neg then e.minInt else e.maxInt)
    | .fin neg m x => e.wrap (e.clamp (integralOf .rne neg m x))
  | none, none =>
    let e : ElemType := if out = 0 then .int32 else .nat32
    e.wrap (e.clamp (intOfType t v))

/-- Bytes of a source element and of a destination element. -/
def Calc.sizes : Calc → Nat × Nat
  | .reduce _ t _ => (typeBytes t, typeBytes t)
  | .convert t o => (typeBytes t, typeBytes o)
  | .signal _ => (8, 8)

/-- The destination element from its source elements. -/
def Calc.elem (c : Calc) (a b : Nat) : Nat := match c with
  | .reduce op t _ => if t = 5 then reduceRec op a b else reduceElem op t a b
  | .convert t o => convertElem t o a
  | .signal v => v.toNat

/-- The chunk of a copy from byte `k.next`: its cells and destination, or why it cannot go now. -/
structure Chunk where
  next : Nat
  hits : List Hit
  reads : List Hit
  /-- The bytes of a second source, for a node that reduces. -/
  reads2 : List Hit
  deriving DecidableEq, Repr

/-- The elements, or the bytes, of the destination that begin between bytes `a` and `b`. -/
def CopyCmd.elems (k : CopyCmd) (a b : Nat) : List Nat :=
  let n := k.work.elim 1 fun c => c.sizes.2
  let first := (a + n - 1) / n
  (List.range ((b + n - 1) / n - first)).map (first + ·)

/-- The bytes of a source that the chunk from `a` to `b` of the destination reads: as many, or whole elements. -/
def CopyCmd.sourceBytes (k : CopyCmd) (a b : Nat) : List Nat := match k.work with
  | some (.signal _) => []
  | w =>
    let n := w.elim 1 fun c => c.sizes.1
    (k.elems a b).flatMap fun e => (List.range n).map (e * n + ·)

/-- Bytes of a source. -/
def CopyCmd.sourceCount (k : CopyCmd) : Nat := match k.work with
  | some (.signal _) => 0
  | w => (k.elems 0 k.count).length * w.elim 1 fun c => c.sizes.1

/-- The destination byte `i` lies in a source: the ranges of a copy overlap there, or those of a REDUCE or CONVERT do other than
element upon element, and its value is unspecified (R243; DESIGN CHOICE for the nodes, assumption 84). -/
def CopyCmd.overlapped (k : CopyCmd) (l : Launch) (i : Nat) : Bool :=
  let at' (p : W64) (w : Option WindowAt) : Option Loc := l.rangeStart k.group.team p w
  let dst := at' k.dst k.dstAt
  let hit (src : Option Loc) : Bool := overlapAt src dst k.sourceCount i
  match k.work with
  | none => hit (at' k.src k.srcAt)
  | some (.reduce _ _ p) => [at' k.src k.srcAt, at' p k.src2At].any fun x => hit x && decide (x ≠ dst)
  | some (.convert t o) => hit (at' k.src k.srcAt) && !(decide (at' k.src k.srcAt = dst) && decide (typeBytes t = typeBytes o))
  | some (.signal _) => false

/-- Translate the bytes of a chunk. `inr` is a page fault (address, whether a write, peer, PRI). -/
def State.chunkOf (s : State) (l : Launch) (die : Nat) (k : CopyCmd) : Option (Chunk ⊕ (Nat × Bool × Option (Nat × Nat) × Bool)) :=
  let stop := chunkEnd (ptrOff k.dst) k.next k.count
  let idx := (List.range (stop - k.next)).map fun i => k.next + i
  let src := k.sourceBytes k.next stop
  let at' (p : W64) (w : Option WindowAt) (write : Bool) (i : Nat) : Tr := s.copyByte l k.group.team die p w i write
  let rd := src.map (at' k.src k.srcAt false)
  let rd2 := match k.work with
    | some (.reduce _ _ p) => src.map (at' p k.src2At false)
    | _ => []
  let wr := idx.map (at' k.dst k.dstAt true)
  let pageOf (w : Bool) (x : Tr) : Option (Nat × Bool × Option (Nat × Nat) × Bool) := match x with
    | .page va peer pri => some (va, w, peer, pri)
    | _ => none
  let okOf (x : Tr) : Option Hit := match x with
    | .ok h => some h
    | _ => none
  match ((rd ++ rd2).findSome? (pageOf false)).or (wr.findSome? (pageOf true)) with
  | some p => some (.inr p)
  | none =>
    let rs := rd.filterMap okOf
    let rs2 := rd2.filterMap okOf
    let ws := wr.filterMap okOf
    if rs.length = rd.length && rs2.length = rd2.length && ws.length = idx.length &&
        (rs ++ rs2 ++ ws).all fun h => s.locReady h.loc then
      some (.inl ⟨stop, ws, rs, rs2⟩)
    else none

/-- A byte that a command reads: unspecified from a register that the group's budget no longer holds, or read too early. -/
def State.sourceByte (s : State) (k : CopyCmd) (i : Nat) (h : Hit) : Byte :=
  if s.discarded h.loc || s.readEarly k.group h.loc then Config.undefByte s.free i else s.readLoc h.loc

/-- The bytes from the chunk's first to the end of the last element that begins in it: those copied, or those a node computes, after
those of an element that the chunk before began. -/
def State.chunkData (s : State) (k : CopyCmd) (c : Chunk) : List Byte := match k.work with
  | none => c.reads.zipIdx.map fun h => s.sourceByte k (k.next + h.2) h.1
  | some f =>
    let n := f.sizes.1
    let first := (k.elems k.next c.next).headD 0
    let elemOf (hs : List Hit) (base e : Nat) : Nat :=
      leNat (((hs.drop ((e - first) * n)).take n).zipIdx.map fun h => s.sourceByte k (base + e * n + h.2) h.1)
    k.carry ++ (k.elems k.next c.next).flatMap fun e =>
      leBytes f.sizes.2 (f.elem (elemOf c.reads 0 e) (elemOf c.reads2 k.count e))

/-- The bytes that a chunk writes: its data, unspecified where the ranges overlap. -/
def State.chunkBytes (s : State) (l : Launch) (k : CopyCmd) (c : Chunk) : List Byte :=
  ((s.chunkData k c).take (c.next - k.next)).zipIdx.map fun b =>
    if k.overlapped l (k.next + b.2) then Config.undefByte s.free (2 * k.count + k.next + b.2) else b.1

def State.mapCopy (s : State) (id : Nat) (f : CopyCmd → CopyCmd) : State :=
  { s with copies := s.copies.map fun k => if k.id = id then f k else k }

/-- The signature that a chunk of a collective node carries (R255). -/
def State.chunkSig (s : State) (l : Launch) (k : CopyCmd) : Option (SigOrigin × Signature) :=
  match k.node.bind fun x => (s.replays.find? fun r => decide (r.id = x.1)).map fun r => (r, x.2) with
  | some (r, n) => ((r.image.nodes[n]?).bind fun n => r.image.inst? n.inst).map fun i =>
      (⟨l.seq, l.gang, r.die, r.id⟩, i.signature)
  | none => none

/-- A node's copy takes its place among those that have begun with its first chunk (05 R115). -/
def State.copyBegins (s : State) (k : CopyCmd) : State :=
  if k.node.isSome && decide (k.next = 0) then
    { s with copies := (s.copies.filter fun x => decide (x.id ≠ k.id)) ++ s.copies.filter fun x => decide (x.id = k.id) }
  else s

/-- Send or perform the chunk (R243, 05 R115): off the die, and always for CCOPY and RCOPY, it travels on the command's channel. -/
def State.doChunk (s : State) (l : Launch) (die : Nat) (k : CopyCmd) (c : Chunk) : State :=
  let cells := (c.hits.zip (s.chunkBytes l k c)).map fun x => (x.1.loc, x.2)
  let rest := (s.chunkData k c).drop (c.next - k.next)
  let reads := c.reads ++ c.reads2
  let s1 := ((s.markHits c.hits true).markHits reads false).trafficTo die reads
  let s2 := { s1.spoilReads k.group (reads.map (·.loc)) with free := s.free + 2 }
  let go (s : State) : State := (s.mapCopy k.id fun x => { x with next := c.next, carry := rest }).copyBegins k
  let owner : ChanOwner := if k.node.isSome then .forager die else .team k.group.team
  match c.hits.head? with
  | none => s
  | some h =>
    if k.always || h.dest.isSome then
      if (if k.node.isNone then s.copyBlocks k.group.team k.chan h.home k.id else s.nodeBlocks die k h.home) then s
      else match s2.sendOp owner k.chan k.group.group ⟨none, none, false, some k.joins, []⟩ h.home
          (.chunk k.id cells (s.chunkSig l k)) with
        | some s3 => go s3
        | none => s
    else go (s2.storeChunk (.die die) (s.chunkSig l k) cells)

/-- A collective node writes no destination before equal signatures have come from every member (R255). -/
def State.nodeMayWrite (s : State) (k : CopyCmd) : Bool := match k.node with
  | none => true
  | some (r, n) => match s.replays.find? fun x => decide (x.id = r) with
    | none => false
    | some x =>
      let inst := (x.image.nodes[n]?.map (·.inst)).getD 0
      if inst = 0 then true
      else match x.image.insts.find? fun i => decide (i.inst = inst) with
        | none => false
        | some i => decide (i.nmemb ≤ 1 + (x.sigs.filter fun y => decide (y.inst = inst) && y.equal).length)

/-- A copy engine handles the next chunk of a copy. -/
def execCopyChunk (id : Nat) (s : State) : Res :=
  match s.copies.find? fun k => decide (k.id = id) with
  | none => .next s
  | some k => match s.launch? k.group.team.launch with
    | none => .next s
    | some l =>
      if s.fatal || k.pageWait || decide (k.code ≠ 0) || decide (k.count ≤ k.next) || !s.nodeMayWrite k then .next s
      else match s.chunkOf l (s.copyDie k) k with
        | none => .next s
        | some (.inl c) => .next (s.doChunk l (s.copyDie k) k c)
        | some (.inr (va, w, peer, pri)) =>
          .next ((s.mapCopy id fun x => { x with pageWait := true }).enterFault l.fn
            ⟨none, pri, va, w, peer, l.lid, BitVec.ofNat 32 k.group.team.index, .copy id, 0, 0⟩)

/-- Every chunk of the copy that was sent has been acknowledged. -/
def State.copyQuiet (s : State) (id : Nat) : Bool :=
  s.packets.all fun p => p.acked || (match p.op with
    | .chunk k _ _ => decide (k ≠ id)
    | _ => true)

/-- The copy has ended: every chunk is performed and acknowledged, or it ended with a code. -/
def State.copyEnded (s : State) (k : CopyCmd) : Bool :=
  decide (k.code ≠ 0 ∨ k.count ≤ k.next) && s.copyQuiet k.id

/-- The status of a team's copy becomes full (R203, R205, R241); its reading is an acquire (04 R104), before which the core gives up
the lines of its L1. -/
def copyFinish (id : Nat) (always : Bool) (s : State) : Res :=
  match s.copies.find? fun k => decide (k.id = id) with
  | none => .next s
  | some k =>
    if k.always = always && k.node.isNone && s.copyEnded k then
      .next { (((s.mapGroup k.group fun g => g.landS id (k.code.zeroExtend 64)).mapTeam k.group.team fun t =>
          { t with saveBarred := false }).clearL1Of k.group.team) with
        copies := s.copies.filter fun x => decide (x.id ≠ id) }
    else .next s

def execCopyComplete (id : Nat) (s : State) : Res := copyFinish id false s
def execCcopyComplete (id : Nat) (s : State) : Res := copyFinish id true s

/-! Waits and hints. -/

/-- (a − b) mod 2^64 < 2^63 (R260). -/
def reached64 (a b : W64) : Bool := decide ((a - b).toNat < 2 ^ 63)
/-- A group that parks moves from the active to the pending set of its core (01 R38). -/
def Core.park (g : GroupId) (now : Nat) (c : Core) : Core :=
  { c with
    active := c.active.filter fun e => decide (e.group ≠ g)
    pending := c.pending ++ (c.active.filter fun e => decide (e.group = g)).map fun e =>
      { e with since := now, starved := false, kept := false } }

/-- WAITA (R260): the value when the condition holds; else the group parks. The flag is read as an ACQ at SYSTEM scope. Without cut
protection a group that would park after a die of its job is lost takes BARRIER_LOST (24 R364). -/
def execWaita (d a b : BitVec 8) (s : State) : Res :=
  let i : Instr := .waita d a b
  issue i s [.dstS 0 d, .srcS 1 .epa a, .srcS 2 .epb b, .access] fun c =>
    let p := c.readS a
    c.check i (c.s.checkScalar c.launch c.id.team c.die p (ptrOff p) 8 [.pr] false) fun h =>
      let locs := bytesOf h.loc 8
      if c.s.loadHeld c.id locs then .next c.s
      else
        let s1 := c.sample [h] (acqWide 6 1 (c.launch.spaceOf p)) locs
        let m := BitVec.ofNat 64 (s1.servedLoc c.core h.loc 8)
        if reached64 m (c.readS b) then .next (s1.setGroup c.id (c.group.resultS d m))
        else if c.launch.dieLost then c.fault i .barrierLost
        else .next ((s1.setGroup c.id { c.group with run := .parked p (c.readS b) c.s.clock.gtime }).mapCore c.core
          (Core.park c.id c.s.clock.tick))

/-- A parked group's wait is over: its flag has reached the threshold, or a check of its read fails. -/
def Ctx.waitMet (c : Ctx) (p threshold : W64) : Bool :=
  match c.s.checkScalar c.launch c.id.team c.die p (ptrOff p) 8 [.pr] false with
  | .ok h => !c.s.loadHeld c.id (bytesOf h.loc 8) && reached64 (BitVec.ofNat 64 (c.s.loadLoc h.loc 8)) threshold
  | .hold => false
  | _ => true

/-- WAITA_WAKE: a parked group looks at its flag again, and becomes ready when its wait is over (01 R38); a wake that finds the
condition false has no visible effect. -/
def execWaitaWake (launch team group : Nat) (s : State) : Res :=
  let id : GroupId := ⟨⟨launch, team⟩, group⟩
  match s.ctx? id with
  | none => .next s
  | some c => match c.group.run with
    | .parked p threshold _ => .next (if c.waitMet p threshold then s.setGroup id { c.group with run := .running } else s)
    | _ => .next s

/-- MWAIT (10 R223). A stopped stream makes STREAM pending, which the group takes before the MWAIT issues. n = 0 is compared with DONEB
like any other n, as the rule's pseudocode has it, so it waits once DONEB has reached 2^31 (DEDUCED, assumption 96). -/
def execMwait (a : BitVec 8) (s : State) : Res :=
  let i : Instr := .mwait a
  issue i s [.srcS 1 .epa a] fun c => match c.team.seq with
    | none => c.fault i (.illegalInstruction (wordOf i))
    | some q =>
      let n : W32 := (c.readS a).truncate 32
      let doneYet := reached32 q.doneb n
      if decide (q.sqstate = .stopped) && !doneYet then .next (c.put { c.group with evStream := true, stall := .mwait })
      else if doneYet || decide (q.sqstate = .ended) then
        .next (c.s.setTeam ((c.team.setGroup c.id.group c.group.advance).passMwait c.id.group n))
      else c.held .mwait

/-- The destination of a bounded pointer's address when every check of R70 for a one-byte read passes, else nothing. -/
def Ctx.hintDest (c : Ctx) (p : W64) : Option Dest := match c.launch.copySeg? false p with
  | none => none
  | some v =>
    if v.limit ≤ ptrOff p || !v.rights.contains .pr then none
    else match c.s.translate c.launch c.id.team c.die v (ptrOff p) false with
      | .ok h => if h.home = .die c.die then none else some h.home
      | _ => none

/-- LWAKE (R262): the links on the paths towards the destination come to full width and stay there for 20 µs. -/
def execLwake (a : BitVec 8) (s : State) : Res :=
  issue (.lwake a) s [.srcS 1 .epa a] fun c =>
    let s1 := c.put c.group.advance
    match c.hintDest (c.readS a) with
    | some d => .next { s1 with links := s1.links.zipIdx.map fun x =>
        if x.1.up && Config.onPath c.die d.code x.2 then { x.1 with state := .full, holdUntil := s1.clock.gtime + 20000 }
        else x.1 }
    | none => .next s1

/-- A hint that is not void (R263): a tiered segment, and every check of R70 for a read of the range. -/
def Ctx.hintValid (c : Ctx) (p b : W64) : Bool :=
  decide (b.toNat / 2 ^ 52 = 0) && decide (b.toNat / 2 ^ 48 % 16 < 4) &&
  match c.launch.copySeg? false p with
  | some v =>
    let o := ptrOff p
    let len := b.toNat % 2 ^ 48
    v.tiered && v.rights.contains .pr && decide (o + len ≤ v.limit) &&
      (decide (len = 0) || (List.range ((o + len - 1) / 0x10000 - o / 0x10000 + 1)).all fun k =>
        match c.s.translate c.launch c.id.team c.die v (max o ((o / 0x10000 + k) * 0x10000)) false with
        | .ok _ => true
        | _ => false)
  | none => false

/-- MHINT (R263): the Spring engines are told; nothing else changes. -/
def execMhint (a b : BitVec 8) (s : State) : Res :=
  issue (.mhint a b) s [.srcS 1 .epa a, .srcS 2 .epb b] fun c =>
    let s1 := c.put c.group.advance
    let p := c.readS a
    let w := c.readS b
    .next (if c.hintValid p w then { s1 with hints := s1.hints ++ [(p, w)] } else s1)

end Sys2Proof.Machine
end

