-- ==== Sys2Proof/Machine/Links.lean ====
section
/-! DEFINITION. The steps of channels outside the cores (spec 05 R114-R122; 16 R295, R296): arrival at a destination port,
acknowledgement, closing, resending, link failure with its handshakes, and the states of links (12 R261, R262; 26 R388). -/

namespace Sys2Proof.Machine

/-! Acknowledgement. -/

/-- The result of an atomic access put into the long-latency result that waits for it. -/
def Result.put (r : Result) (lane : Nat) (v : W64) : Result := match r with
  | .scalar _ => .scalar v
  | .vector x => .vector (Lanes.tab fun l => if l = lane then v.truncate 32 else x.at l)

/-- Put the results of an atomic packet into its long-latency result. -/
def State.giveResults (s : State) (p : Packet) (rs : List W64) : State := match p.op with
  | .atomic accs (some f) =>
    { s with flights := s.flights.map fun x =>
        if x.id = f then { x with value := (accs.zip rs).foldl (fun v a => v.put a.1.lane a.2) x.value } else x }
  | _ => s

/-- Forget packets that nothing refers to any more: acknowledged, not under way, no kept result to confirm. -/
def State.dropSettled (s : State) : State :=
  { s with packets := s.packets.filter fun p =>
      !p.acked || p.kept || s.wire.contains p.id || s.acks.contains p.id || s.buffered.contains p.id }

/-- The source learns that an operation has been performed; one already acknowledged is ignored (05 R118, 16 R296). -/
def State.ackPacket (s : State) (id : Nat) : State := match s.packet? id with
  | none => s
  | some p =>
    if p.acked then s
    else
      let s1 := (s.mapPacket id fun p => { p with acked := true, resend := false }).giveResults p p.results
      s1.mapChan p.stream.owner p.stream.chan fun ch => { ch with streams := ch.streams.map fun e =>
        if e.dest = p.stream.dest then { e with unacked := e.unacked - 1 } else e }

/-- CHANNEL_ACK: the acknowledgement at place `k` reaches its source. -/
def execChannelAck (k : Nat) (s : State) : Res := match s.acks[k]? with
  | none => .next s
  | some id => .next (({ s with acks := s.acks.eraseIdx k } : State).ackPacket id).dropSettled

/-- ATOMIC_RECEIPT_CONFIRMATION: the destination forgets the kept result (05 R118). -/
def execAtomicReceiptConfirmation (id : Nat) (s : State) : Res := match s.packet? id with
  | none => .next s
  | some p => .next (if p.acked then (s.mapPacket id fun p => { p with kept := false }).dropSettled else s)

/-! Arrival (R117). -/

/-- A location lies in a page that the Spring engines are moving: every access to it waits (03 R86). -/
def State.inTransit (s : State) : Loc → Bool
  | .phys a => s.transits.any fun t => decide (t.oldPage ≤ a ∧ a < t.oldPage + t.size)
  | _ => false

/-- The locations an operation touches are ready for it: no register behind a window is empty (03 R75), and no page is on its way
(03 R86). -/
def State.opReady (s : State) : ChanOp → Bool
  | .store cells => cells.all fun c => !s.inTransit c.1
  | .chunk _ cells _ => cells.all fun c => s.locReady c.1 && !s.inTransit c.1
  | .atomic accs _ => accs.all fun a => !s.inTransit a.loc

def State.portEntry? (s : State) (st : StreamId) : Option PortEntry := s.ports.find? fun e => decide (e.stream = st)

/-- The expected number of a stream at its port: 0 for a stream without an entry. -/
def State.expectedOf (s : State) (st : StreamId) : BitVec 16 := ((s.portEntry? st).map (·.expected)).getD 0

/-- The entry of a stream at its port, created with e = 0 by a first packet. -/
def State.withEntry (s : State) (st : StreamId) : State := match s.portEntry? st with
  | some _ => s
  | none => { s with ports := s.ports ++ [⟨st, 0⟩] }

/-- Buffer entries in use at a port. -/
def State.bufferedAt (s : State) (d : Dest) : Nat :=
  (s.buffered.filter fun id => ((s.packet? id).map fun p => decide (p.stream.dest = d)).getD false).length

/-- The buffered packet of a stream with a number. -/
def State.bufferedNext? (s : State) (st : StreamId) (e : BitVec 16) : Option Packet :=
  s.packets.find? fun p => s.buffered.contains p.id && decide (p.stream = st) && decide (p.num = e)

/-- Perform the packet whose number is expected, and move the expected number past it. -/
def State.performNext (s : State) (p : Packet) : State :=
  (({ s with
    buffered := s.buffered.filter fun i => decide (i ≠ p.id)
    ports := s.ports.map fun e => if e.stream = p.stream then { e with expected := e.expected + 1 } else e } : State).performPacket p)

/-- Perform every buffered successor in turn; one whose place is not ready goes back onto the way to the port. -/
def State.performRun : Nat → StreamId → State → State
  | 0, _, s => s
  | fuel + 1, st, s => match s.bufferedNext? st (s.expectedOf st) with
    | none => s
    | some p =>
      if s.opReady p.op then State.performRun fuel st (s.performNext p)
      else { s with buffered := s.buffered.filter (fun i => decide (i ≠ p.id)), wire := s.wire ++ [p.id] }

/-- A port's answer to a packet by its distance d (R117). -/
def State.portAccept (s : State) (p : Packet) : State :=
  let d := (p.num - s.expectedOf p.stream).toNat
  if d = 0 then State.performRun 4096 p.stream (s.performNext p)
  else if d ≤ 1024 then
    if s.buffered.contains p.id then s
    else if s.bufferedAt p.stream.dest < 4096 then { s with buffered := s.buffered ++ [p.id] }
    else s.mapPacket p.id fun p => { p with resend := !p.acked }
  else if d < 32768 then s.mapPacket p.id fun p => { p with resend := !p.acked }
  else { s with acks := s.acks ++ [p.id] }

/-- The die a stream's packets come from. -/
def State.sourceDie (s : State) : ChanOwner → Nat
  | .team t => match s.team? t with
    | some t => dieOfCore (t.core?.getD 0)
    | none => 0
  | .forager d => d

/-- A packet brings the links of its path to full width (12 R261). -/
def State.wakePath (s : State) (st : StreamId) : State :=
  let die := s.sourceDie st.owner
  if st.dest = .die die then s else s.traffic die st.dest

/-- CHANNEL_PACKET_ARRIVAL: the packet at place `k` of those under way reaches its port. An operation that a join still
orders after another, or whose register is empty, arrives later; so does one behind a close message. -/
def execChannelPacketArrival (k : Nat) (s : State) : Res :=
  match (s.wire[k]?).bind s.packet? with
  | none => .next s
  | some p =>
    if s.fatal || s.closes.contains p.stream || !(p.performed || (s.joinsDone p && s.opReady p.op)) then .next s
    else .next (((({ s with wire := s.wire.eraseIdx k } : State).wakePath p.stream).withEntry p.stream).portAccept p).dropSettled

/-- STREAM_CLOSE: a close message removes the entry at the port. -/
def execStreamClose (k : Nat) (s : State) : Res := match s.closes[k]? with
  | none => .next s
  | some st => .next { s with closes := s.closes.eraseIdx k, ports := s.ports.filter fun e => decide (e.stream ≠ st) }

/-- PACKET_RESEND: a source resends a refused packet under its number. -/
def execPacketResend (id : Nat) (s : State) : Res := match s.packet? id with
  | none => .next s
  | some p => .next (if p.resend && !p.acked then
      { (s.mapPacket id fun p => { p with resend := false }) with wire := s.wire ++ [id] } else s)

/-! Link failure (R122). -/

/-- Remove the first of each of the given packets from a list. -/
def eraseEach (xs ids : List Nat) : List Nat := ids.foldl (fun l i => l.erase i) xs

/-- The SYNC of a port to a source: every stream of the source that is open at the port, with its expected number. -/
def State.syncOf (s : State) (h : Nat) (d : Dest) (o : ChanOwner) : SyncMsg :=
  ⟨h, o, (s.ports.filter fun e => decide (e.stream.dest = d) && decide (e.stream.owner = o)).map fun e => (e.stream, e.expected)⟩

/-- The request of a source to a port naming the streams of the packets it marked; the number carried is 1 for a stream
that the port's own SYNC covers. -/
def State.requestOf (s : State) (h : Nat) (d : Dest) (o : ChanOwner) (lost : List Packet) : SyncMsg :=
  ⟨h, o, (((lost.filter fun p => decide (p.stream.dest = d) && decide (p.stream.owner = o)).map (·.stream)).dedup).map
    fun st => (st, if (s.portEntry? st).isSome then 1 else 0)⟩

/-- One handshake between a port and a source (R122 step 3): the messages of both. -/
def State.handshake (lost : List Packet) (s : State) (x : Dest × ChanOwner) : State :=
  let h := s.handshakes + 1
  let a := s.syncOf h x.1 x.2
  let b := s.requestOf h x.1 x.2 lost
  { s with
    handshakes := h
    syncs := if a.streams.isEmpty then s.syncs else s.syncs ++ [a]
    syncReqs := if b.streams.isEmpty then s.syncReqs else s.syncReqs ++ [b] }

/-- LINK_FAILURE: the link goes down (26 R388); the packets given were sent over it and are not acknowledged, the
acknowledgements given were crossing it. What was on the link is lost. Each port that had traffic on it shakes hands with
every source with an open stream there or with a marked packet for it. -/
def execLinkFailure (link : Nat) (packets acks : List Nat) (s : State) : Res :=
  match s.links[link]? with
  | none => .next s
  | some l =>
    if !l.up then .next s
    else
      let lost := s.packets.filter fun p => packets.contains p.id && !p.acked
      let lostAcks := s.acks.filter fun i => acks.contains i
      let ports := ((lost ++ (s.packets.filter fun p => lostAcks.contains p.id)).map (·.stream.dest)).dedup
      let pairs := ports.flatMap fun d =>
        ((((s.ports.filter fun e => decide (e.stream.dest = d)).map (·.stream.owner)) ++
          ((lost.filter fun p => decide (p.stream.dest = d)).map (·.stream.owner))).dedup).map fun o => (d, o)
      let s1 := { s with
        links := s.links.set link { l with up := false }
        telemetry := { s.telemetry with linkDown := satInc s.telemetry.linkDown }
        wire := eraseEach s.wire (lost.map (·.id))
        acks := eraseEach s.acks lostAcks }
      .next (pairs.foldl (State.handshake lost) s1)

/-- SYNC_REQUEST: a port answers for the named streams that its own SYNC did not cover, creating entries with e = 0. -/
def execSyncRequest (k : Nat) (s : State) : Res := match s.syncReqs[k]? with
  | none => .next s
  | some m =>
    let open' := (m.streams.filter fun x => decide (x.2 = 0)).map (·.1)
    let s1 := open'.foldl State.withEntry { s with syncReqs := s.syncReqs.eraseIdx k }
    .next (if open'.isEmpty then s1 else
      { s1 with syncs := s1.syncs ++ [⟨m.handshake, m.owner, open'.map fun st => (st, s1.expectedOf st)⟩] })

/-- A handshake is counted once, at its first SYNC: RESYNCS of the team named in it, saturating, and the module's counter
(16 R295; 05 R121, R122; 26 R389). Handshake number 0 stands for one already counted. -/
def State.countHandshake (s : State) (m : SyncMsg) : State :=
  if m.handshake = 0 then s
  else
    let seen (x : SyncMsg) : SyncMsg := if x.handshake = m.handshake then { x with handshake := 0 } else x
    let s1 := { s with
      syncs := s.syncs.map seen, syncReqs := s.syncReqs.map seen
      telemetry := { s.telemetry with resync := satInc s.telemetry.resync } }
    match m.owner with
    | .team t => s1.mapTeam t fun t => { t with resyncs := if t.resyncs.toNat + 1 < 2 ^ 32 then t.resyncs + 1 else t.resyncs }
    | .forager _ => s1

/-- What a SYNC does for one stream: it acknowledges every number below e, and the source resends every unacknowledged
packet from e onwards in number order (05 R122, 16 R296). -/
def State.syncStream (s : State) (x : StreamId × BitVec 16) : State :=
  let mine := s.packets.filter fun p => decide (p.stream = x.1) && !p.acked
  let below (p : Packet) : Bool := decide (32768 ≤ (p.num - x.2).toNat)
  let s1 := (mine.filter below).foldl (fun (s : State) p => s.ackPacket p.id) s
  let again := (inOrder (fun a b => decide ((a.num - x.2).toNat ≤ (b.num - x.2).toNat)) (mine.filter fun p => !below p)).map (·.id)
  { s1 with
    wire := s1.wire ++ again
    packets := s1.packets.map fun p => if again.contains p.id then { p with resend := false } else p }

/-- SYNC: a SYNC reaches its source. -/
def execSync (k : Nat) (s : State) : Res := match s.syncs[k]? with
  | none => .next s
  | some m => .next (m.streams.foldl State.syncStream (({ s with syncs := s.syncs.eraseIdx k } : State).countHandshake m)).dropSettled

/-- Forget everything of the streams that `f` holds of, at their sources' side and at every port: packets unperformed or
duplicate, acknowledgements, expected numbers, messages (05 R123; 24 R363 step 3). -/
def State.forgetStreams (s : State) (f : StreamId → Bool) : State :=
  let gone (id : Nat) : Bool := ((s.packet? id).map fun p => f p.stream).getD false
  let keep (m : SyncMsg) : SyncMsg := { m with streams := m.streams.filter fun x => !f x.1 }
  { s with
    packets := s.packets.filter fun p => !f p.stream
    wire := s.wire.filter fun i => !gone i
    acks := s.acks.filter fun i => !gone i
    buffered := s.buffered.filter fun i => !gone i
    ports := s.ports.filter fun e => !f e.stream
    closes := s.closes.filter fun st => !f st
    syncs := (s.syncs.map keep).filter fun m => !m.streams.isEmpty
    syncReqs := (s.syncReqs.map keep).filter fun m => !m.streams.isEmpty }

/-- The streams of a launch's teams. -/
def StreamId.ofLaunch (n : Nat) (st : StreamId) : Bool := match st.owner with
  | .team t => decide (t.launch = n)
  | .forager _ => false

/-! Link states (12 R261, R262). -/

def State.mapLink (s : State) (k : Nat) (f : Link → Link) : State := { s with links := s.links.modify k f }

/-- LINK_RETRAINED: a down link comes back at full width (26 R388). -/
def execLinkRetrained (link : Nat) (s : State) : Res :=
  .next (s.mapLink link fun l => if l.up then l else ⟨true, .full, s.clock.gtime, 0⟩)

/-- LINK_NARROW: after 2 µs without traffic, unless LWAKE holds the link. -/
def execLinkNarrow (link : Nat) (s : State) : Res :=
  .next (s.mapLink link fun l =>
    if l.up && decide (l.state = .full) && decide (l.holdUntil ≤ s.clock.gtime) &&
        decide (l.lastTraffic + 2000 ≤ s.clock.gtime) then { l with state := .narrow } else l)

/-- LINK_SLEEP: after 50 µs without traffic, unless LWAKE holds the link. -/
def execLinkSleep (link : Nat) (s : State) : Res :=
  .next (s.mapLink link fun l =>
    if l.up && decide (l.holdUntil ≤ s.clock.gtime) && decide (l.lastTraffic + 50000 ≤ s.clock.gtime) then
      { l with state := .sleep } else l)

/-- LWAKE_EXPIRY: LWAKE's 20 µs are over. -/
def execLwakeExpiry (link : Nat) (s : State) : Res :=
  .next (s.mapLink link fun l => if l.holdUntil ≤ s.clock.gtime then { l with holdUntil := 0 } else l)

end Sys2Proof.Machine
end

