-- ==== Sys2Proof/Machine/TrapInstr.lean ====
section
/-! DEFINITION. Row 0xF of the opcode map: traps, returns, NOP, EXIT and FAULTRD (spec 13 R269). -/

namespace Sys2Proof.Machine

/-- TRAP: SOFTWARE_TRAP with INFO := A and DONE = 1. -/
def execTrap (a : BitVec 8) (s : State) : Res :=
  issue (.trap a) s [.srcS 1 .epa a] fun c =>
    .next (c.s.deliver c.id (.software (c.readS a)) true (wordOf (.trap a)))

/-- Where a TRET to an original address resumes in fused code: the earliest fused word whose origin record names it (22
R331). Any other target stands as it is; `none`: no record names it. -/
def resumeAt (l : Launch) (t : W64) : Option W64 := match l.fused with
  | none => some t
  | some m =>
    if m.codeSegs.contains (ptrSeg t) then
      (m.origins.zipIdx.find? fun o => decide (m.codeSegs[o.1.side]? = some (ptrSeg t)) && decide (o.1.off = ptrOff t)).map
        fun o => mkPtr 0xFFFD (4 * o.2)
    else some t

/-- TRET. -/
def execTret (a : BitVec 8) (s : State) : Res :=
  let i : Instr := .tret a
  issue i s [.srcS 1 .epa a] fun c =>
    if !c.group.inTrap then c.fault i (.illegalInstruction (wordOf i))
    else
      let t0 := c.readS a
      let t := (resumeAt c.launch t0).getD t0
      c.check i (if (resumeAt c.launch t0).isNone then .trap (.segment t0 0 0) else .ok ()) fun _ =>
      c.check i (c.s.checkFetch c.launch c.id.team c.die t) fun h =>
        .next ((c.s.markHits [h] false).setGroup c.id (c.group.trapReturn t))

/-- Rewritten words are left after the one at the PC (25 R376). -/
def Group.moreWords (g : Group) : Bool := match g.rewriting with
  | some (_ :: _ :: _, _) => true
  | _ => false

/-- BRK: for an armed debugger the group stops with the record made, among rewritten words after the last (25 R376); else
BREAKPOINT is delivered. DONE = 1 in both. -/
def execBrk (tag : BitVec 8) (s : State) : Res :=
  issue (.brk tag) s [] fun c =>
    if c.launch.breakArmed then
      let r := mkRecord c.launch c.group (.breakpoint tag) true (c.s.vtime c.team)
      if c.group.moreWords then .next (c.put { c.group with record := r, due := some .debugStopped }.advance)
      else .next (c.put { c.group with
        record := r, run := .debugStopped, rewriting := none, decoded := none, begun := true, evStop := false, stepOnce := .off, stall := .issued })
    else .next (c.s.deliver c.id (.breakpoint tag) true (wordOf (.brk tag)))

def execNop (s : State) : Res := issue .nop s [] fun c => .next (c.put c.group.advance)

/-- No named register or queue entry of the group is empty. -/
def Group.allFull (g : Group) : Bool :=
  g.sregs.all (fun x => x.pend.isNone) && g.vregs.all (fun x => x.pend.isNone) &&
  g.squeue.all (fun x => x.pend.isNone) && g.vqueue.all (fun x => x.pend.isNone) &&
  g.trapQueue.all (fun x => x.pend.isNone)

/-- EXIT waits until nothing of the group is empty; the group then ends. -/
def execExit (s : State) : Res :=
  issue .exit s [] fun c =>
    if c.group.allFull then .next (c.put { c.group.advance with run := .ended }) else .next c.s

/-- Word `k` of a fault record (13 R267). -/
def FaultRecord.word (r : FaultRecord) (k : Nat) : W64 :=
  let b (x : Bool) (n : Nat) : Nat := if x then 2 ^ n else 0
  if k = 0 then
    BitVec.ofNat 64 (r.code.toNat + b r.done 8 + b r.spliced 9 + b r.patched 10 + b r.double 11 + r.pslot.toNat * 2 ^ 12 +
      r.sub.toNat * 2 ^ 16)
  else if k = 1 then r.pc
  else if k = 2 then r.addr
  else if k = 3 then r.info
  else if k = 4 then r.maskLo
  else if k = 5 then r.maskHi
  else if k = 6 then r.origin
  else r.vstamp

def execFaultrd (d k : BitVec 8) (s : State) : Res :=
  issue (.faultrd d k) s [.dstS 0 d, .field 1 (decide (k.toNat < 8))] fun c => c.finishS d (c.group.record.word k.toNat)

end Sys2Proof.Machine
end

