-- ==== Sys2Proof/Machine/Report.lean ====
section
/-! DEFINITION. The command processor's reads and writes of queues, descriptors and records (spec 23 R336-R338, R344): host
memory by bus address, or device memory of the partition by virtual address. -/

namespace Sys2Proof.Machine

/-- The physical address behind a device virtual address of a partition (03 R77). -/
def State.partWalk (s : State) (part va : Nat) (write : Bool) : Walk :=
  match walk s.mem.read64 (s.parts.getD part Partition.reset).ptRoot va write with
  | .page pa e => if isNear pa || isLake pa then .page pa e else .fault
  | w => w

/-- The walks of `n` bytes. -/
def State.partWalks (s : State) (part va n : Nat) (write : Bool) : List Walk :=
  (List.range n).map fun i => s.partWalk part (va + i) write

/-- An access of the command processor meets a page in transit (03 R86), so that it waits. -/
def State.cpStalls (s : State) (fn : Nat) (dev : Bool) (addr n : Nat) (write : Bool) : Bool :=
  dev && (s.partWalks fn addr n write).any fun w => decide (w = .transit)

/-- The physical addresses of bytes that all translate. -/
def pagesOf (ws : List Walk) : Option (List (Nat × Nat)) := ws.mapM fun w => match w with
  | .page pa e => some (pa, e)
  | _ => none

/-- `n` bytes that the command processor reads, or none when they cannot be read. -/
def State.cpRead (s : State) (fn : Nat) (dev : Bool) (addr n : Nat) : Option (List Byte) :=
  if dev then (pagesOf (s.partWalks fn addr n false)).map fun l => l.map fun x => s.mem.read x.1
  else some ((List.range n).map fun i => s.hostRead (linkOfFn fn) (addr + i))

/-- Write bytes at an address; at address 0, or where they cannot be written, nothing is written (23 R344, R348). -/
def State.cpWrite (s : State) (fn : Nat) (dev : Bool) (addr : Nat) (bs : List Byte) : State :=
  if addr = 0 then s
  else if dev then match pagesOf (s.partWalks fn addr bs.length true) with
    | none => s
    | some l =>
      let m := l.foldl (fun (m : Memory) x => markEntry m x.2 true) s.mem
      { s with mem := (l.zip bs).foldl (fun (m : Memory) x => m.write x.1.1 x.2) m }
  else s.hostWriteBytes (linkOfFn fn) addr bs

/-- A read of device memory by the command processor sets ACCESSED in the leaves it goes through (03 R78). -/
def State.cpMark (s : State) (fn : Nat) (dev : Bool) (addr n : Nat) : State :=
  if dev then match pagesOf (s.partWalks fn addr n false) with
    | none => s
    | some l => { s with mem := l.foldl (fun (m : Memory) x => markEntry m x.2 false) s.mem }
  else s

/-- The little-endian bytes of 64-bit words. -/
def wordBytes (ws : List W64) : List Byte := ws.flatMap fun w => leBytes 8 w.toNat

/-- The 64-bit words of a byte list. -/
def bytesWords (bs : List Byte) (n : Nat) : List W64 := (List.range n).map fun i => BitVec.ofNat 64 (leNat ((bs.drop (8 * i)).take 8))

/-- The completion of a packet that is not a LAUNCH (23 R338). -/
def State.cpComplete (s : State) (fn : Nat) (dev : Bool) (addr : W64) (tag : W32) (status : Nat) (empty : Bool) (data : W64) :
    State :=
  s.cpWrite fn dev addr.toNat (wordBytes
    [BitVec.ofNat 64 (tag.toNat + status * 2 ^ 32 + (if empty then 2 ^ 40 else 0)), data])

/-- The completion record of R344. -/
def completionRecord (l : Launch) (lid : W32) (status reason splice gtime : Nat) : List W64 :=
  let stop := l.firstStop.getD (0, 0, FaultRecord.zero)
  [BitVec.ofNat 64 (status + reason * 2 ^ 8 + splice * 2 ^ 16 + lid.toNat * 2 ^ 32), BitVec.ofNat 64 gtime,
    BitVec.ofNat 64 l.nstop, BitVec.ofNat 64 (stop.1 + stop.2.1 * 2 ^ 32)] ++ (List.range 8).map stop.2.2.word

/-- STATUS and REASON of a launch that ran (R344, 24 R364): ABORTED, FAULTED or DONE. -/
def Launch.outcome (l : Launch) : Nat × Nat :=
  if l.aborted then (3, l.reason) else if l.reason ≠ 0 || l.nstop ≠ 0 then (2, l.reason) else (0, 0)

/-- A group that no turn moves on: stopped for the debugger, stopped by DELIVER, or ended. -/
def Group.atRest (g : Group) : Bool :=
  decide (g.run = .debugStopped) || decide (g.run = .stopped) || decide (g.run = .ended)

/-- DEBUG STOP completes with OK once its group has stopped, and with BAD_TARGET when the group is gone (13 R272); a
completion that meets a page in transit is written when the page has moved. -/
def State.finishStops (s : State) : State :=
  s.stops.foldl (fun s p =>
    let code : Option Nat := match s.group? p.group with
      | none => some 3
      | some g => if g.atRest then some 0 else none
    match code with
    | none => s
    | some c =>
      if s.cpStalls p.fn p.compDev p.compAddr.toNat 16 true then s
      else { (s.cpComplete p.fn p.compDev p.compAddr p.tag c false 0).mapGroup p.group fun g => { g with evStop := false } with
        stops := s.stops.filter fun x => decide (x ≠ p) }) s

/-- The record of a debugger stop after a single step (13 R268, R272). It is made inside a trap handler too, whose fault record it
replaces, although R266 leaves events of a handler pending (DESIGN CHOICE, assumption 95). -/
def Group.recordStep (l : Launch) (vt : W64) (g : Group) : Group :=
  if g.stepOnce ≠ .done then g
  else if g.run = .debugStopped then { g with stepOnce := .off, record := mkRecord l g .singleStep false vt }
  else { g with stepOnce := .off }

/-- The groups of a team that stopped after a single step in this turn, one that another agent released from a barrier
included. -/
def State.recordSteps (s : State) (id : TeamId) : State :=
  match s.team? id, s.launch? id.launch with
  | some t, some l =>
    if t.groups.any fun g => decide (g.stepOnce = .done) then
      s.setTeam { t with groups := t.groups.map (Group.recordStep l (s.vtime t)) }
    else s
  | _, _ => s

end Sys2Proof.Machine
end

