-- ==== Sys2Proof/Machine/Place.lean ====
section
/-! DEFINITION. The distributor (spec 01 R26-R32), the active and pending sets of a core (R34-R38), retirement (10 R222) and
the completion of a launch (23 R343, R344). The quarantine cell (26 R394) is served as a partition of its own, number 17. -/

namespace Sys2Proof.Machine

/-! Demand and capacity (R27, R28). -/

/-- The demand of a team in the order of R28: register region, scratchpad region, group slots, matrix sequencers. -/
def KernelRec.demand (k : KernelRec) : List Nat := [k.regu, k.spadu, k.slots, k.seq]

/-- The capacity of a core under a pool configuration. -/
def Pool.capacity (p : Pool) : List Nat := [p.reg.toNat, p.scr.toNat - p.reg.toNat, 64, 4]

def Core.pool (c : Core) : Pool := ⟨c.poolReg.truncate 11, c.poolScr.truncate 11, c.poolL1.truncate 11⟩

/-- The limiting resource: the smallest ratio of capacity to a demand that is not zero, the first of equals (R28). -/
def limiting (cap dem : List Nat) : Nat :=
  ((cap.zip dem).zipIdx.foldl (fun (best : Option (Nat × Nat)) x =>
    if x.1.2 = 0 then best
    else match best with
      | some (r, i) => if x.1.1 / x.1.2 < r then some (x.1.1 / x.1.2, x.2) else some (r, i)
      | none => some (x.1.1 / x.1.2, x.2)) none).elim 0 (·.2)

/-- A team fits where its demand fits in every resource at once. -/
def fitsIn (free dem : List Nat) : Bool := (free.zip dem).all fun x => decide (x.2 ≤ x.1)

/-- What is used of a core: its resident teams and what gangs have reserved (R29, 23 R346). -/
def State.usedOn (s : State) (core : Nat) : List Nat :=
  let held := (s.teams.filter fun t => decide (t.place = .resident core)).map (·.id.launch) ++
    (s.gangs.flatMap (·.reserved)).filterMap fun r => if r.2.2 = core then some r.1 else none
  held.foldl (fun u n => match s.launch? n with
    | some l => (u.zip l.krec.demand).map fun x => x.1 + x.2
    | none => u) [0, 0, 0, 0]

def State.freeOn (s : State) (core : Nat) : List Nat :=
  (((s.cores.getD core Core.reset).pool.capacity).zip (s.usedOn core)).map fun x => x.1 - x.2

/-- No resident team and no reservation. -/
def State.coreEmpty (s : State) (core : Nat) : Bool := decide (s.usedOn core = [0, 0, 0, 0])

/-- Teams resident on a core. -/
def State.residents (s : State) (core : Nat) : Nat := (s.teams.filter fun t => decide (t.place = .resident core)).length

/-! Launches that wait (R29, R31, R32; 24 R356, R358; 23 R346). -/

def Launch.grid (l : Launch) : Nat := l.gridX * l.gridY * l.gridZ

/-- The distributor of a launch: that of its partition, or the quarantine cell's. -/
def Launch.domain (l : Launch) : Nat := if l.quarantined then 17 else l.fn

/-- A cut of the launch's job is in progress. -/
def State.cutting (s : State) (launch : Nat) : Bool := s.cuts.any fun j => j.requested && decide (launch ∈ j.launches)

/-- The next team of a launch to be placed: the lowest of those saved or flushed, else the next that has not been
placed. While a cut is in progress only saved teams are placed. -/
def State.nextTeam (s : State) (l : Launch) : Option Nat :=
  if l.stage ≠ .ready then none
  else
    let cut := s.cutting l.seq
    let back := (s.teams.filter fun t => decide (t.id.launch = l.seq) &&
      (decide (t.place = .saved) || (decide (t.place = .flushed) && !cut))).map (·.id.index)
    match back.min? with
    | some i => some i
    | none => if l.nextTeam < l.grid && !cut && decide (l.gang = 0) then some l.nextTeam else none

/-- A restore that comes before every other placement (24 R358, R365). -/
def State.precedence (s : State) (l : Launch) : Bool := s.cutting l.seq || decide (l.gang ≠ 0)

/-- `a` comes before `b` in the order of R31. -/
def State.before (s : State) (a b : Launch) : Bool :=
  if s.precedence a ≠ s.precedence b then s.precedence a
  else if a.prio ≠ b.prio then decide (b.prio < a.prio) else decide (a.seq ≤ b.seq)

/-- The quarantine cell runs one launch at a time, in the order read (26 R394). -/
def State.quarantineTurn (s : State) (l : Launch) : Bool :=
  !l.quarantined || s.launches.all fun m => !m.quarantined || decide (m.seq = l.seq) || decide (m.stage = .complete) ||
    (decide (m.nextTeam = 0) && (decide (m.stage ≠ .ready) || decide (l.seq < m.seq)))

/-- The launches of a distributor with a waiting team, first to last. -/
def State.waitingLaunches (s : State) (dom : Nat) : List Launch :=
  inOrder s.before (s.launches.filter fun l => decide (l.domain = dom) && (s.nextTeam l).isSome && s.quarantineTurn l)

/-- The enabled cores of a distributor (R29, 26 R382, R394): cluster c holds cores 4c to 4c + 3. -/
def State.coresOf (s : State) (dom : Nat) : List Nat :=
  (List.range 256).filter fun c => (s.cores.getD c Core.reset).enabled && !(s.fencedDies.contains (dieOfCore c)) &&
    if dom = 17 then decide (s.mgmt.qcell = some (c / 4)) else (s.parts.getD dom Partition.reset).mask.getLsbD (c / 4)

/-- Bytes of a team's private area (03 R73). -/
def Launch.privBytes (l : Launch) : Nat := groupCount l.krec.lanes * numLanes * l.krec.priv

/-- Bytes of a die's part of a partition's near share (03 R73). -/
def State.privShare (s : State) (part : Nat) : Nat := (s.parts.getD part Partition.reset).nearGib * 2 ^ 30 / 8

/-- Launches whose teams lie on cores that `p` admits, one for each team, those that gangs have reserved for included. -/
def State.launchesOn (s : State) (p : Nat → Bool) : List Nat :=
  (s.teams.filter fun t => t.core?.any p).map (·.id.launch) ++
    (s.gangs.flatMap (·.reserved)).filterMap fun r => if p r.2.2 then some r.1 else none

/-- The private areas of `k` teams can be allocated from the die's part of the partition's near share, beside those of teams and of
reservations and the home-together segments there (03 R73; 26 R382). A launch whose area exceeds a die's whole part waits for ever
(assumption 83). -/
def State.privRoom (s : State) (l : Launch) (k die : Nat) : Bool :=
  let used := (s.launchesOn fun c => decide (dieOfCore c = die)).foldl (fun a n => match s.launch? n with
      | some m => if m.fn = l.fn then a + m.privBytes else a
      | none => a) 0
  decide (l.privBytes = 0) || decide (used + s.homeBytes l.fn die + k * l.privBytes ≤ s.privShare l.fn)

/-- Physical tiles of a core that resident teams and reservations hold (10 R206). -/
def State.tilesOn (s : State) (core : Nat) : Nat :=
  (s.launchesOn fun c => decide (c = core)).foldl (fun u n => u + ((s.launch? n).map (·.krec.nt)).getD 0) 0

/-- A core of the launch's configuration that is not being switched and that no other launch has marked (R26). -/
def State.takes (s : State) (l : Launch) (core : Nat) : Bool :=
  let c := s.cores.getD core Core.reset
  decide (c.pool = l.pool) && c.switching.isNone && (c.marked.isNone || decide (c.marked = some l.seq))

/-- There is room on a core for `k` teams of a launch (R28; 03 R73; 10 R206). -/
def State.roomFor (s : State) (l : Launch) (core k : Nat) : Bool :=
  fitsIn (s.freeOn core) (l.krec.demand.map fun x => k * x) && decide (s.tilesOn core + k * l.krec.nt ≤ 4) &&
    s.privRoom l k (dieOfCore core)

/-- The team of a launch fits on a core now (R26, R28, R29). -/
def State.fitsOn (s : State) (l : Launch) (core : Nat) : Bool := s.takes l core && s.roomFor l core 1

/-- How many teams of a launch fit on a core: at most 64, its group slots. -/
def State.placesOn (s : State) (l : Launch) (core : Nat) : Nat := ((List.range 64).filter fun k => s.roomFor l core (k + 1)).length

/-- The core with the largest value, the lowest index of equals. -/
def bestCore (f : Nat → Nat) (cores : List Nat) : Option Nat :=
  cores.foldl (fun b c => match b with
    | some x => if f x < f c then some c else some x
    | none => some c) none

/-- The core of the earliest retirement of a list, the lowest of those of one cycle (R29 step 5). -/
def firstFreed (xs : List (Nat × Nat × Nat)) : Option Nat :=
  (xs.foldl (fun (b : Option (Nat × Nat × Nat)) x => match b with
    | some y => if x.2.1 < y.2.1 ∨ (x.2.1 = y.2.1 ∧ x.1 < y.1) then some x else some y
    | none => some x) none).map (·.1)

/-- The core that R29 gives for the next team of a launch, `except` left out: the first that a retirement made it fit on while it
waited, else the one with the most free units of the limiting resource (15 R294). -/
def State.pickAmong (s : State) (except : List Nat) (l : Launch) : Option Nat :=
  let fits := (s.coresOf l.domain).filter fun c => s.fitsOn l c && !except.contains c
  (firstFreed (l.refill.filter fun x => fits.contains x.1)).or
    (bestCore (fun c => (s.freeOn c).getD (limiting l.pool.capacity l.krec.demand) 0) fits)

/-- The core of the next team of a launch among all. -/
def State.pickCore (s : State) (l : Launch) : Option Nat := s.pickAmong [] l

/-- A core has freed resources: a launch whose next team fitted nowhere, and now fits there, remembers it (R29 step 5). -/
def State.noteFreed (s s' : State) (core : Nat) (l : Launch) : Launch :=
  if (s.nextTeam l).isNone then l
  else
    let old := l.refill.filter fun x => s.fitsOn l x.1
    let waited := !((s.coresOf l.domain).any (s.fitsOn l)) || !old.isEmpty
    { l with refill := if waited && (s.coresOf l.domain).contains core && s'.fitsOn l core then
      old ++ [(core, s.clock.cycles, s'.placesOn l core)] else old }

/-- A team of the launch takes one of the places that each retirement noted on that core gave. -/
def placeTaken (core : Nat) (xs : List (Nat × Nat × Nat)) : List (Nat × Nat × Nat) :=
  (xs.map fun x => if x.1 = core then (x.1, x.2.1, x.2.2 - 1) else x).filter fun x => decide (0 < x.2.2)

/-! Placing (R30; 24 R356). -/

/-- The lowest free group slots of a core, `n` of them. -/
def State.freeSlots (s : State) (core n : Nat) : List Nat :=
  let used := (s.teams.filter fun t => decide (t.place = .resident core)).flatMap fun t => t.groups.map (·.slot)
  ((List.range 64).filter fun x => !(used.contains x)).take n

/-- Groups enter the active set while it holds fewer than eight, the rest the pending set (R30). -/
def Core.enter (tick : Nat) (c : Core) (ids : List GroupId) : Core :=
  ids.foldl (fun c g =>
    let e : SetEntry := ⟨g, tick, tick, false, false⟩
    if c.active.length < 8 then { c with active := c.active ++ [e] } else { c with pending := c.pending ++ [e] }) c

/-- A group as a restore puts it back: a held instruction issues again (24 R352, R356). -/
def Group.restored (g : Group) : Group := match g.run with
  | .barWait _ => { g with run := .running }
  | .parked _ _ _ => { g with run := .running }
  | .stepHeld => { g with run := .running }
  | _ => g

/-- A saved team on its new core; its physical tiles and slots are chosen afresh. -/
def Team.restore (t : Team) (core cycles : Nat) (slots : List Nat) : Team :=
  { t with
    place := .resident core
    vtBase := cycles - t.vtSaved
    frozen := false
    preempt := none
    groups := t.groups.zipIdx.map fun x => { x.1.restored with slot := slots.getD x.2 0 } }

/-- A flushed team starts anew and keeps its channel state (24 R355). -/
def Team.again (t : Team) (l : Launch) (core cycles : Nat) (slots : List Nat) : Team :=
  { Team.fresh l t.id.index core cycles slots with chans := t.chans, resyncs := t.resyncs, lost := t.lost }

/-- Place team `index` of a launch on a core, whose L1 serves it nothing from before (24 R356). A save area that it is restored from
leaves the context pool. -/
def State.placeTeam (s : State) (l : Launch) (index core : Nat) : State :=
  let id : TeamId := ⟨l.seq, index⟩
  let slots := s.freeSlots core (groupCount l.krec.lanes)
  let groups := (List.range (groupCount l.krec.lanes)).map fun g => (⟨id, g⟩ : GroupId)
  let s1 := match s.team? id with
    | some t => s.setTeam (match t.place with
      | .flushed => t.again l core s.clock.cycles slots
      | _ => t.restore core s.clock.cycles slots)
    | none => { s with teams := s.teams ++ [Team.fresh l index core s.clock.cycles slots] }
  let s2 := ((s1.clearL1 core).mapCore core fun c => c.enter s.clock.tick groups).mapLaunch l.seq fun l =>
    { l with
      nextTeam := max l.nextTeam (index + 1)
      placedAt := if l.nextTeam = 0 then s.clock.gtime else l.placedAt + l.away.elim 0 fun a => s.clock.gtime - a
      away := none
      qlimitUs := if l.nextTeam = 0 then s.mgmt.qlimitUs else l.qlimitUs
      refill := placeTaken core l.refill }
  { s2 with
    cores := s2.cores.map fun c => if c.marked = some l.seq then { c with marked := none } else c
    areas := s2.areas.filter fun a => !(decide (a.team = id) && decide (a.kind = 0)) }

/-! Switching and marking (R26). -/

/-- An empty core of the distributor whose configuration is not the launch's is to be switched for it. -/
def State.toSwitch (s : State) (l : Launch) : List Nat :=
  (s.coresOf l.domain).filter fun c =>
    s.coreEmpty c && decide ((s.cores.getD c Core.reset).pool ≠ l.pool) && (s.cores.getD c Core.reset).switching.isNone

def State.switchingIn (s : State) (dom : Nat) : Bool :=
  (s.coresOf dom).any fun c => (s.cores.getD c Core.reset).switching.isSome

/-- The core that R26 marks for a launch whose next team fits nowhere. -/
def State.markChoice (s : State) (l : Launch) : Option Nat :=
  let cs := s.coresOf l.domain
  let same := cs.filter fun c => decide ((s.cores.getD c Core.reset).pool = l.pool)
  if cs.any s.coreEmpty || cs.any fun c => decide ((s.cores.getD c Core.reset).marked = some l.seq) then none
  else if same.isEmpty then bestCore (fun c => 64 - s.residents c) cs
  else bestCore (fun c => (s.freeOn c).getD (limiting l.pool.capacity l.krec.demand) 0) same

/-- Marks for a launch that is not first any more are withdrawn (R26). -/
def State.dropMarks (s : State) (dom : Nat) : State :=
  let w := (s.waitingLaunches dom).head?.map (·.seq)
  let cs := s.coresOf dom
  { s with cores := s.cores.zipIdx.map fun x =>
      if cs.contains x.2 && x.1.marked.isSome && decide (x.1.marked ≠ w) then { x.1 with marked := none } else x.1 }

/-- The first launch of a list whose next team fits on a core is placed there; `except` are cores about to be switched (R31). -/
def State.placeFirst (s : State) (except : List Nat) : List Launch → State
  | [] => s
  | l :: ls => match s.nextTeam l, s.pickAmong except l with
    | some i, some c => s.placeTeam l i c
    | _, _ => s.placeFirst except ls

/-- A switch begun for a launch is not complete, or an empty core is still to be switched for it (R26). -/
def State.switchesFor (s : State) (l : Launch) : Bool := !(s.toSwitch l).isEmpty ||
  (s.coresOf l.domain).any fun c => ((s.cores.getD c Core.reset).switching.map (·.1)) = some l.seq

/-- TEAM_PLACEMENT: one placement opportunity of a distributor (R26, R29, R31). The next team of the first launch waits for the
cores that are switched for that launch. Where it fits on no core, one may be marked for it, and a team of a later launch is
placed on a core that is not about to be switched. -/
def execTeamPlacement (part : Nat) (s : State) : Res :=
  let s1 := s.dropMarks part
  match s1.waitingLaunches part with
  | [] => .next s1
  | l :: ls => match s1.pickCore l with
    | some _ => .next (if s1.switchesFor l then s1 else s1.placeFirst [] [l])
    | none => .next ((match s1.markChoice l with
        | some c => s1.mapCore c fun c => { c with marked := some l.seq }
        | none => s1).placeFirst (s1.toSwitch l) ls)

/-- POOL_SWITCH: the next empty core is switched to the first waiting launch's configuration, one at a time in ascending
order. -/
def execPoolSwitch (core : Nat) (s : State) : Res :=
  let doms := (List.range 18).filter fun d => (s.coresOf d).contains core
  .next (doms.foldl (fun s d => match s.waitingLaunches d with
    | [] => s
    | l :: _ =>
      if !s.switchingIn d && decide ((s.toSwitch l).head? = some core) then
        s.mapCore core fun c => { c with switching := some (l.seq, l.pool) }
      else s) s)

/-- The L1 is invalidated, and the command processor writes the three boundary registers (R26 steps 2 and 3). -/
def Core.setPool (c : Core) (p : Pool) : Core :=
  { c with
    poolReg := p.reg.zeroExtend 32, poolScr := p.scr.zeroExtend 32, poolL1 := p.l1.zeroExtend 32, switching := none, l1 := [] }

def execPoolSwitchComplete (core : Nat) (s : State) : Res :=
  .next (s.mapCore core fun c => match c.switching with
    | some (_, p) => c.setPool p
    | none => c)

/-! The active set (R34-R38). -/

/-- The priority level of a group's launch. -/
def State.levelOf (s : State) (g : GroupId) : Nat := ((s.launch? g.team.launch).map (·.prio)).getD 0

def State.slotOf (s : State) (g : GroupId) : Nat := ((s.group? g).map (·.slot)).getD 0

/-- The entry that has waited longest, by a time and then by the group slot. -/
def State.longest (s : State) (time : SetEntry → Nat) (es : List SetEntry) : Option SetEntry :=
  es.foldl (fun b e => match b with
    | none => some e
    | some x => if time e < time x ∨ (time e = time x ∧ s.slotOf e.group < s.slotOf x.group) then some e else some x) none

/-- The pending group that enters: the starved one that has been ready longest, else the ready one of the highest level
that has been pending longest. Step has noted the ready groups. -/
def State.incoming (s : State) (c : Core) : Option SetEntry :=
  let ready := c.pending.filter fun e => s.noted.contains e.group
  match s.longest (·.lastIssue) (ready.filter (·.starved)) with
  | some e => some e
  | none =>
    let top := (ready.map fun e => s.levelOf e.group).max?.getD 0
    s.longest (·.since) (ready.filter fun e => decide (s.levelOf e.group = top))

/-- `e` enters the active set in place of `out`, if any. -/
def Core.swap (c : Core) (tick : Nat) (e : SetEntry) (out : Option GroupId) : Core :=
  let leaving := c.active.filter fun x => decide (some x.group = out)
  { c with
    active := (c.active.filter fun x => decide (some x.group ≠ out)) ++ [⟨e.group, tick, tick, false, e.starved⟩]
    pending := (c.pending.filter fun x => decide (x.group ≠ e.group)) ++ leaving.map fun x => ⟨x.group, tick, tick, false, false⟩ }

/-- GROUP_EXCHANGE: an active group in a long-latency stall, or one that has ended, leaves for the ready pending group of R35; a
place that a retired team or a parked group left is filled in the same way. Step has noted the stalled groups. -/
def execGroupExchange (core launch team group : Nat) (s : State) : Res :=
  let id : GroupId := ⟨⟨launch, team⟩, group⟩
  match s.cores[core]? with
  | none => .next s
  | some c => match s.incoming c with
    | none => .next s
    | some e =>
      if c.active.length < 8 then .next (s.mapCore core fun c => c.swap s.clock.tick e none)
      else if (c.active.any fun x => decide (x.group = id)) && s.stalled.contains id then
        .next (s.mapCore core fun c => c.swap s.clock.tick e (some id))
      else .next s

/-- GROUP_STARVED: a pending group has been ready for 4,096 cycles (R36). -/
def execGroupStarved (core launch team group : Nat) (s : State) : Res :=
  let id : GroupId := ⟨⟨launch, team⟩, group⟩
  .next (if s.noted.contains id then
    s.mapCore core fun c => { c with pending := c.pending.map fun e =>
      if e.group = id && !e.starved then { e with starved := true, lastIssue := s.clock.tick } else e }
  else s)

/-- FORCED_EXCHANGE: with a starved group and no exchange for 256 cycles, the active group of the lowest level that has
been active longest leaves; one brought in by this rule stays until it has issued (R36). -/
def execForcedExchange (core : Nat) (s : State) : Res :=
  match s.cores[core]? with
  | none => .next s
  | some c =>
    let movable := c.active.filter fun e => !e.kept
    let low := (movable.map fun e => s.levelOf e.group).min?.getD 0
    match s.longest (·.lastIssue) (c.pending.filter fun e => e.starved && s.noted.contains e.group),
        s.longest (·.since) (movable.filter fun e => decide (s.levelOf e.group = low)) with
    | some e, some out => .next (s.mapCore core fun c => c.swap s.clock.tick e (some out.group))
    | _, _ => .next s

/-! Retirement (10 R222, 01 R29). -/

/-- Take a team's groups off its core. -/
def State.leaveCore (s : State) (id : TeamId) : State :=
  { s with cores := s.cores.map fun c =>
      { c with active := c.active.filter fun e => decide (e.group.team ≠ id),
               pending := c.pending.filter fun e => decide (e.group.team ≠ id) } }

/-- Every group has executed EXIT or was stopped by DELIVER, and the sequencer has ended or is stopped with nothing left.
A group stopped under a debugger stays stopped (23 R344). -/
def Team.finished (t : Team) (dbg : Bool) : Bool :=
  (t.groups.all fun g => decide (g.run = .ended) || (decide (g.run = .stopped) && !dbg)) &&
  match t.seq with
  | none => true
  | some q => decide (q.sqstate = .ended) || (decide (q.sqstate = .stopped) && q.ops.isEmpty)

/-- A launch without a resident team is away: its resident time stands still (24 R365). -/
def State.noteAway (s : State) (n : Nat) : State :=
  if s.teams.any fun t => decide (t.id.launch = n) && t.core?.isSome then s
  else s.mapLaunch n fun l => { l with away := l.away.or (some s.clock.gtime) }

/-- A team retires: its resources are free, and gangs that wait for its partition try again (23 R346). -/
def State.retireTeam (s : State) (t : Team) (l : Launch) : State :=
  let s1 := (s.leaveCore t.id).setTeam { t with place := .retired, vtSaved := (s.vtime t).toNat, preempt := none, frozen := false }
  let s2 := (s1.mapLaunch l.seq fun m => { m with retired := m.retired + 1, vtSum := m.vtSum + (s.vtime t).toNat }).noteAway l.seq
  { s2 with
    launches := match t.core? with
      | some c => s2.launches.map (s.noteFreed s2 c)
      | none => s2.launches
    gangs := s2.gangs.map fun g =>
      if g.state = .backoff && g.parts.any fun p => ((s.launch? p.2).map fun m => decide (m.fn = l.fn)).getD false then
        { g with state := .reserve, since := s.clock.gtime }
      else g }

def execTeamRetirement (launch team : Nat) (s : State) : Res :=
  match s.team? ⟨launch, team⟩, s.launch? launch with
  | some t, some l => .next (if t.finished l.dbg && t.core?.isSome then s.retireTeam t l else s)
  | _, _ => .next s

/-! Completion of a launch (23 R343, R344). -/

/-- The launch's waits (23 R343): satisfied when no outstanding launch of the function has that LID. -/
def State.waitsDone (s : State) (l : Launch) : Bool :=
  l.waits.all fun w => decide (w = 0) ||
    !(s.launches.any fun m => decide (m.fn = l.fn) && decide (m.lid = w) && decide (m.stage ≠ .complete))

/-- The address of entry `n` of a queue. -/
def Queue.entryAddr (q : Queue) (n : W32) : Nat := q.qbase.toNat + 64 * (n.toNat % 2 ^ q.qsize.toNat)

/-- The bytes of entry `n` of a queue, when they can be read (23 R336, R337). -/
def State.queueEntry (s : State) (fn : Nat) (q : Queue) (n : W32) : Option (List W64) :=
  (s.cpRead fn q.qloc (q.entryAddr n) 64).map fun b => bytesWords b 8

/-- Whether the next LAUNCH packet of a queue, with at most NOP packets before it, waits on `lid` alone (22 R320), and the addresses of
the entries read for it; `fuel` bounds the entries looked at. An entry in a page in transit is awaited (03 R86): it may be that
packet. -/
def State.pairLook (s : State) (fn : Nat) (q : Queue) (lid : W32) : Nat → W32 → Bool × List Nat
  | 0, _ => (false, [])
  | fuel + 1, n =>
    if n = q.qtail then (false, [])
    else if s.cpStalls fn q.qloc (q.entryAddr n) 64 false then (true, [])
    else match s.queueEntry fn q n with
      | none => (false, [])
      | some w =>
        let kind := (w.getD 0 0).toNat % 256
        if kind = 2 then
          let r := s.pairLook fn q lid fuel (n + 1)
          (r.1, q.entryAddr n :: r.2)
        else
          let waits := ((w.drop 2).take 4).map (fun (x : W64) => (x.truncate 32 : W32))
          (decide (kind = 1) && (waits.any fun x => decide (x ≠ 0)) && waits.all fun x => decide (x = 0) || decide (x = lid),
            [q.entryAddr n])

/-- A launch that reaches the distributor looks for a consumer that is already queued, of which it may be the producer (22 R320). -/
def State.looksForPair (s : State) (l : Launch) : Bool :=
  let q := (s.fns.getD l.fn Fn.reset).queues.getD l.queue Queue.reset
  q.splice && q.enable && decide (l.gang = 0) && l.node.isNone && (decide (l.krec.splice = 1) || decide (l.krec.splice = 3)) &&
  (decide (q.qstate = .active) || decide (q.qstate = .quarantined))

/-- What it finds. -/
def State.pairFound (s : State) (l : Launch) : Bool × List Nat :=
  let q := (s.fns.getD l.fn Fn.reset).queues.getD l.queue Queue.reset
  if s.looksForPair l then s.pairLook l.fn q l.lid (2 ^ q.qsize.toNat) q.qhead else (false, [])

/-- The entries looked at have been accessed (03 R78). -/
def State.markPair (s : State) (l : Launch) : State :=
  let q := (s.fns.getD l.fn Fn.reset).queues.getD l.queue Queue.reset
  (s.pairFound l).2.foldl (fun s a => s.cpMark l.fn q.qloc a 64) s

/-- The stage of a launch whose waits are satisfied: its gang, the distributor, or the wait for its splice consumer. -/
def State.afterWaits (s : State) (l : Launch) : LaunchState :=
  if l.gang ≠ 0 then .gang else if (s.pairFound l).1 then .pairing else .ready

/-- Launches whose waits are satisfied go on. -/
def State.releaseWaits (s : State) : State :=
  let goes (l : Launch) : Bool := decide (l.stage = .waiting) && s.waitsDone l
  { (s.launches.filter goes).foldl State.markPair s with
    launches := s.launches.map fun l => if goes l then { l with stage := s.afterWaits l } else l }

/-- Every channel of the launch's teams has drained, and its copies and replays have ended. -/
def State.launchQuiet (s : State) (n : Nat) : Bool :=
  (s.packets.all fun p => p.acked || !p.stream.ofLaunch n) &&
  (s.copies.all fun k => decide (k.group.team.launch ≠ n)) && s.replays.all fun r => decide (r.group.team.launch ≠ n)

/-- A count of launches completed ABORTED (26 R389). -/
def State.countAborted (s : State) (b : Bool) : State :=
  if b then { s with telemetry := { s.telemetry with aborted := satInc s.telemetry.aborted } } else s

/-- The launches that a launch completes: itself, and the consumer it ran for (22 R329). -/
def State.withConsumer (s : State) (l : Launch) : List Launch :=
  l :: (s.launches.filter fun m => decide (some m.seq = l.fused.map (·.consumer)))

/-- Complete a launch: its record, and that of the consumer it ran for, its teams forgotten, waits released. A launch of a
graph node keeps its record for the node. -/
def State.completeLaunch (s : State) (l : Launch) : State :=
  let o := l.outcome
  let rec' (m : Launch) : List Byte := wordBytes (completionRecord l m.lid o.1 o.2 l.spliceCode s.clock.gtime)
  let both := s.withConsumer l
  let s0 := s.forgetStreams (StreamId.ofLaunch l.seq)
  let s1 := both.foldl (fun s m => (s.cpWrite m.fn m.compDev m.compAddr.toNat (rec' m)).countAborted l.aborted) s0
  let seqs := both.map (·.seq)
  State.releaseWaits { s1 with
    launches := (s1.launches.map fun m => if seqs.contains m.seq then
      { m with stage := .complete, aborted := l.aborted, reason := l.reason, nstop := l.nstop } else m).filter fun m =>
        decide (m.stage ≠ .complete) || m.node.isSome
    teams := s1.teams.filter fun t => decide (t.id.launch ≠ l.seq)
    flights := s1.flights.filter fun f => decide (f.group.team.launch ≠ l.seq)
    areas := s1.areas.filter fun a => decide (a.team.launch ≠ l.seq)
    signatures := s1.signatures.filter fun m => s1.launches.any fun x => !seqs.contains x.seq &&
      sameJob x m.origin.launch m.origin.gang
    cuts := (s1.cuts.map fun j => { j with launches := j.launches.filter fun n => decide (n ≠ l.seq) }).filter fun j =>
      !j.launches.isEmpty
    gangs := s1.gangs.filter fun g => !(g.parts.all fun p => seqs.contains p.2 ||
      !(s1.launches.any fun m => decide (m.seq = p.2) && decide (m.stage ≠ .complete))) || decide (g.state ≠ .run) }

/-- The launches that complete together: the parts of a gang (23 R346), or the launch alone. -/
def State.completesWith (s : State) (l : Launch) : List Launch :=
  if l.gang = 0 then [l] else s.launches.filter fun m => decide (m.gang = l.gang) && decide (m.stage ≠ .complete)

/-- Every team of a launch has retired, its channels have drained, and its records can be written. -/
def State.mayComplete (s : State) (l : Launch) : Bool :=
  decide (l.stage = .ready) && decide (l.retired = l.grid) && s.launchQuiet l.seq &&
    (s.withConsumer l).all fun m => !s.cpStalls m.fn m.compDev m.compAddr.toNat 96 true

/-- LAUNCH_COMPLETION: the launch, or its gang once every team of every part has retired, is complete. -/
def execLaunchCompletion (launch : Nat) (s : State) : Res :=
  match s.launch? launch with
  | none => .next s
  | some l =>
    let parts := s.completesWith l
    .next (if decide (l.stage ≠ .complete) && parts.all s.mayComplete then
      parts.foldl (fun (s : State) m => s.completeLaunch m) s else s)

end Sys2Proof.Machine
end

