-- ==== Sys2Proof/Machine/Pages.lean ====
section
/-! DEFINITION. The moving of pages (spec 03 R86) and lost streams (05 R123, 09 R205). -/

namespace Sys2Proof.Machine

/-! Moving a page (R86). -/

/-- A location inside a page, after the page has moved. -/
def Loc.moved (old new size : Nat) (l : Loc) : Loc := match l with
  | .phys a => if old ≤ a ∧ a < old + size then .phys (a - old + new) else .phys a
  | l => l

def ChanOp.moved (old new size : Nat) : ChanOp → ChanOp
  | .store cells => .store (cells.map fun c => (c.1.moved old new size, c.2))
  | .chunk k cells sig => .chunk k (cells.map fun c => (c.1.moved old new size, c.2)) sig
  | .atomic accs f => .atomic (accs.map fun a => { a with loc := a.loc.moved old new size }) f

/-- Copy the bytes of a range to another place. -/
def Memory.move (m : Memory) (old new size : Nat) : Memory :=
  ((m.slice old size).foldl (fun (m : Memory) c => m.write (c.1 - old + new) c.2) (m.clear new size))

/-- An address of a page, after the page has moved. -/
def movedAddr (old new size a : Nat) : Nat := if old ≤ a ∧ a < old + size then a - old + new else a

/-- Where the lake pages that have moved lie, after a page has moved. -/
def movedPages (old new size : Nat) (xs : List (Nat × Nat × Nat)) : List (Nat × Nat × Nat) :=
  let ys := xs.map fun x => if x.2.2 = old then (x.1, x.2.1, new) else x
  let zs := if isLake old && !(xs.any fun x => decide (x.2.2 = old)) then ys ++ [(old, size, new)] else ys
  zs.filter fun x => decide (x.1 ≠ new)

/-- Everything that was queued for, or recorded of, a page follows it to its new place; no L1 keeps a line of either place. -/
def State.follow (s : State) (old new size : Nat) : State :=
  let inside (a : Nat) : Bool := decide (old ≤ a ∧ a < old + size) || decide (new ≤ a ∧ a < new + size)
  let keep (n : L1Line) : Bool := match n.start with
    | .phys a => !inside a
    | _ => true
  { s with
    cores := s.cores.map fun c => { c with l1 := c.l1.filter keep }
    moved := movedPages old new size s.moved
    packets := s.packets.map fun p => { p with op := p.op.moved old new size }
    flights := s.flights.map fun f => { f with locs := f.locs.map fun l => l.moved old new size }
    cuts := s.cuts.map fun j => { j with
      journal := j.journal.map fun x => { x with
        page := movedAddr old new size x.page, cells := x.cells.map fun c => (movedAddr old new size c.1, c.2) }
      cow := j.cow.map fun x => (movedAddr old new size x.1, x.2) } }

/-- The retired pages of a range (26 R386). -/
def State.retiredIn (s : State) (a n : Nat) : Nat := (s.retiredPages.filter fun x => decide (a ≤ x) && decide (x < a + n)).length

/-- A page may be moved to a place: it is not on its way already, and the place is aligned, another one and not retired. -/
def State.movable (s : State) (p : Leaf) (target : Nat) : Bool :=
  !((s.mem.read64 p.entry).getLsbD 5) && decide (target % p.size = 0) && (isNear target || isLake target) &&
  decide (target ≠ p.pa) && decide (s.retiredIn target p.size = 0)

/-- A Spring engine sets TRANSIT in the leaf of a page that it moves. -/
def State.startMove (s : State) (part : Nat) (p : Leaf) (target : Nat) : State :=
  { s with
    mem := s.mem.writeLe p.entry 8 (s.mem.read64 p.entry ||| 0x20).toNat
    transits := s.transits ++ [⟨part, p.va, p.entry, p.pa, target, p.size⟩] }

/-- The Spring engines move a page to a place: a page of a tiered segment (R85), or one of a rehomed segment into the near memory of
its new die (24 R363). -/
def State.springMoves (s : State) (part : Nat) (p : Leaf) (target : Nat) : Bool :=
  s.tieredPage part p || (isNear target && s.rehomed.contains (part, p.va, nearDie target))

/-- PAGE_MIGRATION_START: a Spring engine sets TRANSIT in the leaf of a virtual page, to move it to a free place. -/
def execPageMigrationStart (part va target : Nat) (s : State) : Res :=
  match (s.leavesOf part).find? fun p => decide (p.va ≤ va) && decide (va < p.va + p.size) with
  | none => .next s
  | some p => .next (if s.springMoves part p target && s.movable p target then s.startMove part p target else s)

/-- PAGE_MIGRATION_COMPLETE: the page is copied whole, the entry gets the new PADDR and TRANSIT is cleared; what was queued
for the old place applies at the new one. A retired page that has left its place counts (26 R386, R390). -/
def execPageMigrationComplete (k : Nat) (s : State) : Res := match s.transits[k]? with
  | none => .next s
  | some t =>
    let e := s.mem.read64 t.entry
    let keep := e.toNat % 2 ^ 12 + e.toNat / 2 ^ 56 * 2 ^ 56 - 0x20
    let m := (s.mem.move t.oldPage t.newPage t.size).writeLe t.entry 8 (keep + t.newPage)
    let tel := { s.telemetry with
      pageRetired := (List.range (s.retiredIn t.oldPage t.size)).foldl (fun w _ => satInc w) s.telemetry.pageRetired }
    .next (({ s with
      mem := m, transits := s.transits.eraseIdx k, telemetry := tel
      rehomed := s.rehomed.filter fun x => !(decide (x.1 = t.part) && decide (x.2.1 = t.va)) } : State).follow t.oldPage t.newPage t.size).finishStops

/-! Lost streams (05 R123, 09 R205). -/

/-- A pending result of a lost stream is all ones: for a vector atomic in the lanes of the lost accesses. -/
def State.loseResult (s : State) (p : Packet) : State := match p.op with
  | .atomic accs _ => s.giveResults p (accs.map fun _ => BitVec.allOnes 64)
  | .chunk k _ _ => { s with copies := s.copies.map fun c => if c.id = k && decide (c.code = 0) then { c with code := 1 } else c }
  | .store _ => s

/-- A copy with chunks still to be sent to a lost destination ends with code 1. -/
def State.loseCopy (s : State) (f : StreamId → Bool) (k : CopyCmd) : CopyCmd :=
  let owner : ChanOwner := if k.node.isSome then .forager (s.copyDie k) else .team k.group.team
  if k.code = 0 && s.restTo k fun d => f ⟨owner, k.chan, d⟩ then { k with code := 1 } else k

/-- Every stream to a lost destination is closed at its source, and its channel's LOST bit is set; pending results become
all ones, and copies with a chunk that is not acknowledged, or not sent, end with code 1 and mark their channel too (12 R243). -/
def State.loseStreams (s : State) (f : StreamId → Bool) : State :=
  let lost := s.packets.filter fun p => f p.stream && !p.acked
  let s1 := lost.foldl State.loseResult { s with copies := s.copies.map (s.loseCopy f) }
  let cut (o : ChanOwner) (c : Nat) (ch : Channel) : Channel :=
    { ch with streams := ch.streams.filter fun e => !f ⟨o, c, e.dest⟩ }
  let ended (t : TeamId) (c : Nat) : Bool := s.copies.any fun k =>
    k.node.isNone && decide (k.group.team = t) && decide (k.chan = c) && decide ((s.loseCopy f k).code ≠ k.code)
  let teamCut (t : Team) : Team :=
    let bits := t.chans.zipIdx.foldl (fun (b : BitVec 16) c =>
      if (c.1.streams.any fun e => f ⟨.team t.id, c.2, e.dest⟩) || ended t.id c.2 then b ||| BitVec.ofNat 16 (2 ^ c.2)
      else b) 0
    { t with lost := t.lost ||| bits, chans := t.chans.zipIdx.map fun c => cut (.team t.id) c.2 c.1 }
  let dieCut (d : List Channel × Nat) : List Channel := d.1.zipIdx.map fun c => cut (.forager d.2) c.2 c.1
  let s2 := { s1 with teams := s1.teams.map teamCut, forChans := s1.forChans.zipIdx.map dieCut }
  s2.forgetStreams f

end Sys2Proof.Machine
end

