-- ==== Sys2Proof/Machine/SaveArea.lean ====
section
/-! DEFINITION. The layout of a team's save area (spec 24 R354): its header, the team block and the group blocks. R354 gives the
items, their order and their sizes; how an item is packed inside its bytes is the model's choice (assumption 34). The model restores
a saved team from the team itself; the bytes are what the context pool and the fatal-error dump hold (26 R392). -/

namespace Sys2Proof.Machine

def up4K (n : Nat) : Nat := (n + 4095) / 4096 * 4096

/-- Exactly `n` bytes: these, cut or filled up with zeros. -/
def fitBytes (n : Nat) (bs : List Byte) : List Byte := (bs ++ List.replicate (n - bs.length) 0).take n

/-- Bits as a number, the first lowest. -/
def bitsNat : List Bool → Nat
  | [] => 0
  | b :: bs => (if b then 1 else 0) + 2 * bitsNat bs

/-- The 512 bytes of a vector register. -/
def laneBytes (v : Lanes) : List Byte := (List.range numLanes).flatMap fun l => leBytes 4 (v.at l).toNat

/-- The header of an area (R354). -/
def SaveHeader.bytes (h : SaveHeader) : List Byte :=
  wordBytes [BitVec.ofNat 64 (h.kind.toNat + h.version.toNat * 2 ^ 8 + h.team.toNat * 2 ^ 32), h.lid, h.size, h.gsave, 0, 0, 0, 0]

def Barrier.bytes (b : Barrier) : List Byte :=
  fitBytes 16 (leBytes 1 b.exp ++ leBytes 1 b.count ++ leBytes 2 (bitsNat b.arr) ++ leBytes 1 (if b.arrSeq then 1 else 0) ++
    leBytes 2 (bitsNat b.done))

def StreamEntry.bytes (e : StreamEntry) : List Byte :=
  fitBytes 16 (leBytes 4 (e.dest.code + 1) ++ leBytes 2 e.next.toNat ++ leBytes 8 e.unacked)

/-- Stream tables, join marks and CHSTAT. -/
def channelBytes (t : Team) (chstat : W64) : List Byte :=
  (t.chans.flatMap fun c => fitBytes 256 (c.streams.flatMap StreamEntry.bytes)) ++
    fitBytes 504 (t.chans.flatMap fun c => leBytes 2 c.joins.length) ++ leBytes 8 chstat.toNat

def SqState.code : SqState → Nat
  | .run => 0 | .wait => 1 | .ended => 2 | .stopped => 3

/-- The sequencer state of 10 R207. -/
def Sequencer.bytes (q : Sequencer) : List Byte :=
  fitBytes 512 (leBytes 8 q.spc.toNat ++ (q.lc.flatMap fun c => leBytes 4 c.toNat) ++ (q.m.flatMap fun m => leBytes 16 m.toNat) ++
    (q.f.flatMap fun f => leBytes 32 f.toNat) ++ leBytes 4 q.closed.toNat ++ leBytes 4 q.doneb.toNat ++
    (q.owe.flatMap fun o => leBytes 2 o.toNat) ++ leBytes 1 q.sqstate.code ++ leBytes 8 q.sqfault.toNat)

/-- A tile in the layout of 03 R75. -/
def tileBytes (tile : List Lanes) : List Byte :=
  (List.range 128).flatMap fun i => (List.range 256).flatMap fun j => leBytes 4 ((tile.getD j Lanes.zero).at i).toNat

/-- The team block. -/
def Team.blockBytes (t : Team) (l : Launch) (chstat : W64) : List Byte :=
  fitBytes 16 ((fitBytes 8 (t.budgets.flatMap fun b => leBytes 2 b)) ++ leBytes 4 t.alloc) ++ fitBytes 256 (t.bars.flatMap Barrier.bytes) ++
  fitBytes 4608 (channelBytes t chstat) ++ t.seq.elim [] Sequencer.bytes ++ t.tiles.flatMap tileBytes ++
  fitBytes (up4K l.krec.spadsz) (t.spad.readBytes 0 l.krec.spadsz)

def slotsFull {α : Type} (q : List (Slot α)) : Nat := bitsNat (q.map fun x => x.pend.isNone)

/-- The Nectar states: NS0 to NS3, the user pair and its bounds. -/
def Group.nectarBytes (g : Group) : List Byte :=
  let ns := g.ns.flatMap fun n => laneBytes n.x ++ laneBytes n.s ++ laneBytes n.n ++ laneBytes n.m
  let words (ws : List W32) : List Byte := ws.flatMap fun w => leBytes 4 w.toNat
  let user := g.user.elim [] fun u => fitBytes 1024 (words u.entry) ++ fitBytes 1024 (words u.exit) ++ words [u.dlo, u.dhi, u.elo, u.ehi]
  fitBytes 10256 (fitBytes 8192 ns ++ user)

/-- A group block. FAMILY and the loaded flag stand in the bytes that the first item leaves. -/
def Group.blockBytes (g : Group) (l : Launch) (t : Team) (n : Nat) (vtime : W64) : List Byte :=
  let first := leBytes 8 g.pc.toNat ++ leBytes 4 g.mode.toNat ++ leBytes 4 g.shape.toNat ++ leBytes 8 (if g.inTrap then 1 else 0) ++
    leBytes 8 vtime.toNat ++ leBytes 8 g.vtcmp.toNat ++ leBytes 8 g.stepcnt.toNat ++ leBytes 1 g.family.toNat ++
    leBytes 1 (if g.user.isSome then 1 else 0)
  let scalars (q : List SSlot) : List Byte := q.flatMap fun x => leBytes 8 x.val.toNat
  let full := leBytes 16 (slotsFull g.sregs) ++ leBytes 16 (slotsFull g.vregs) ++ leBytes 2 (slotsFull g.squeue) ++
    leBytes 2 (slotsFull g.vqueue) ++ leBytes 2 (slotsFull g.trapQueue) ++ leBytes 1 (if g.run = .pageWait then 1 else 0)
  fitBytes 64 first ++ fitBytes 192 (wordBytes ((List.range 8).map g.record.word) ++ scalars g.trapQueue) ++ fitBytes 128 full ++
  fitBytes 1152 (scalars g.sregs ++ scalars g.squeue) ++ fitBytes 256 (g.nest ++ g.preds) ++
  fitBytes 8192 (g.vqueue.flatMap fun x => laneBytes x.val) ++ fitBytes (512 * t.budgetOf l n) (g.vregs.flatMap fun x => laneBytes x.val) ++
  fitBytes (up4K (numLanes * l.krec.priv)) (t.priv.readBytes (privOff l n 0 0) (numLanes * l.krec.priv)) ++ g.nectarBytes

/-- A block begins on a 4 KiB boundary. -/
def blockPage (bs : List Byte) : List Byte := fitBytes (up4K bs.length) bs

/-- The bytes of a team's save area under a header. -/
def State.saveArea (s : State) (l : Launch) (t : Team) (h : SaveHeader) : List Byte :=
  blockPage h.bytes ++ blockPage (t.blockBytes l (s.chstat t)) ++
    t.groups.zipIdx.flatMap fun g => blockPage (g.1.blockBytes l t g.2 (s.vtime t))

end Sys2Proof.Machine
end

