-- ==== Sys2Proof/Machine/Cuts.lean ====
section
/-! DEFINITION. Pre-emption (spec 24 R350-R357), consistent cuts (R358-R362), rollback and the loss of dies and cores (R363,
R364; 26 R387). A team is restored from its own record; the bytes of its save area stand in the context pool. -/

namespace Sys2Proof.Machine

/-! The save area (R354). -/

/-- Bytes of a team's save area: header, team block and group blocks, each block on a 4 KiB boundary. -/
def saveBytes (l : Launch) (t : Team) : Nat :=
  let team := 16 + 256 + 4608 + (if t.seq.isSome then 512 else 0) + 131072 * t.tiles.length + up4K l.krec.spadsz
  4096 + up4K team + (List.range t.groups.length).foldl (fun a g =>
    a + up4K (64 + 192 + 128 + 1152 + 256 + 8192 + 512 * t.budgetOf l g + up4K (128 * l.krec.priv) + 10256)) 0

def State.saveBytesOf (s : State) (t : Team) : Nat := ((s.launch? t.id.launch).map fun l => saveBytes l t).getD 0

/-- Bytes of a partition's context pool that save areas and cut records hold. -/
def State.poolUsed (s : State) (part : Nat) : Nat :=
  let mine (t : Team) : Bool := ((s.launch? t.id.launch).map fun l => decide (l.fn = part)).getD false
  (((s.teams.filter fun t => decide (t.place = .saved)) ++ s.cuts.flatMap (·.teams)).filter mine).foldl
    (fun a t => a + s.saveBytesOf t) 0

/-! Requests (R350, R351). -/

def Team.begun (t : Team) : Bool := t.groups.any (·.begun)

/-- Arithmetic clock in MHz (26 R384). -/
def State.clockMHz (s : State) : Nat := 1400 - 50 * s.mgmt.clockStep

/-- The kind that the command processor chooses for a team that has begun (R351, R365). -/
def State.chooseKind (s : State) (l : Launch) (t : Team) (budget : Nat) : PreKind :=
  let vt := (s.vtime t).toNat
  let n := l.retired - l.lostTeams
  if t.groups.any fun g => g.inTrap || decide (g.run = .debugStopped) || decide (g.run = .stopped) && l.dbg then .save
  else if n ≠ 0 && decide ((l.vtSum - vt * n) * 1000 ≤ budget * s.clockMHz * n) then .drain
  else if l.krec.idem && decide (vt * 512 ≤ saveBytes l t) && decide (l.gang = 0) then .flush
  else .save

/-- The pre-emption of a team starts: all but a DRAIN stop its issue. -/
def Team.startPreempt (t : Team) (p : Preempt) : Team := { t with preempt := some p, frozen := decide (p.kind ≠ .drain) }

/-- PREEMPT_REQUEST: not for a team under pre-emption, during a cut of its job, barred by R353, or whose save area does not
fit in the free context pool (26 R382). -/
def execPreemptRequest (launch team budget : Nat) (s : State) : Res :=
  match s.team? ⟨launch, team⟩, s.launch? launch with
  | some t, some l =>
    if t.core?.isNone || t.preempt.isSome || s.cutting launch || t.saveBarred ||
        decide ((s.parts.getD l.fn Partition.reset).poolMib * 2 ^ 20 < s.poolUsed l.fn + saveBytes l t) then .next s
    else
      let kind := if !t.begun && decide (l.gang = 0) then .flush else s.chooseKind l t budget
      .next (s.setTeam (t.startPreempt ⟨kind, budget, s.clock.gtime⟩))
  | _, _ => .next s

/-- DRAIN_TIMEOUT: a DRAIN whose team is resident after its budget becomes a SAVE. -/
def execDrainTimeout (launch team : Nat) (s : State) : Res :=
  .next (s.mapTeam ⟨launch, team⟩ fun t => match t.preempt with
    | some p => if p.kind = .drain && decide (p.since + p.budget ≤ s.clock.gtime) && t.core?.isSome then
        t.startPreempt ⟨.save, 0, s.clock.gtime⟩ else t
    | none => t)

/-! Saving (R352, R353). -/

/-- The team whose core's window a location lies in. -/
def Loc.windowTeam : Loc → Option TeamId
  | .regWin t _ _ => some t
  | .spad t _ => some t
  | .tileWin t _ _ => some t
  | _ => none

/-- A range of a command, a second source included, is a window of the team (03 R74). -/
def CopyCmd.windowInto (k : CopyCmd) (t : TeamId) : Bool :=
  [k.srcAt, k.dstAt, k.src2At].any fun w => decide ((w.bind fun w => w.loc.windowTeam) = some t)

/-- A WAIT or LAUNCH node that has started and reads a window of the team (03 R74). -/
def Replay.readsWindow (r : Replay) (t : TeamId) : Bool := r.waitAt.any fun w =>
  decide (w.2.loc.windowTeam = some t) && (decide (r.states[w.1]? = some .started) || decide (r.states[w.1]? = some .paged))

/-- Steps 2 to 5 of R352 have ended: results have landed, engine statuses are full, window commands have completed, the
sequencer's operations are done and every channel has drained. -/
def State.settled (s : State) (t : Team) : Bool :=
  (t.groups.all fun g => g.rewriting.isNone && match g.run with
    | .patchWait _ => false
    | _ => true) &&
  (s.flights.all fun f => decide (f.group.team ≠ t.id)) &&
  (s.copies.all fun k => (k.node.isSome || decide (k.group.team ≠ t.id)) && !k.windowInto t.id) &&
  (s.replays.all fun r => decide (r.group.team ≠ t.id) && !r.readsWindow t.id) &&
  ((t.seq.map fun q => q.ops.isEmpty).getD true) && (s.unackedOf t.id).isEmpty

/-- The header of a team's area (R354). -/
def Team.areaHeader (t : Team) (l : Launch) (kind : BitVec 2) (gtime : Nat) : SaveHeader :=
  ⟨kind, 1, BitVec.ofNat 32 t.id.index, l.lid.zeroExtend 64, BitVec.ofNat 64 (saveBytes l t), BitVec.ofNat 64 gtime⟩

/-- The team as its save area records it. -/
def Team.record (t : Team) (l : Launch) (kind : BitVec 2) (vt gtime : Nat) : Team :=
  { t with
    place := .saved
    vtSaved := vt
    frozen := false
    preempt := none
    saveHdr := some (t.areaHeader l kind gtime) }

/-- The area of a team stands in the context pool, in place of one of that kind. -/
def State.keepArea (s : State) (l : Launch) (t : Team) (kind : BitVec 2) : State :=
  { s with areas := (s.areas.filter fun a => !(decide (a.team = t.id) && decide (a.kind = kind))) ++
      [⟨t.id, kind, s.saveArea l t (t.areaHeader l kind s.clock.gtime)⟩] }

/-- Areas of a kind leave the context pool. -/
def State.dropAreas (s : State) (kind : BitVec 2) (f : TeamId → Bool) : State :=
  { s with areas := s.areas.filter fun a => !(f a.team && decide (a.kind = kind)) }

/-- The team has a pre-emption of a kind in progress and is resident. -/
def Team.underway (t : Team) (k : PreKind) : Bool := t.core?.isSome && decide ((t.preempt.map (·.kind)) = some k)

/-- SAVE_COMPLETE: step 6 of R352. -/
def execSaveComplete (launch team : Nat) (s : State) : Res :=
  match s.team? ⟨launch, team⟩, s.launch? launch with
  | some t, some l =>
    .next (if t.underway .save && s.settled t then
      (((s.leaveCore t.id).setTeam (t.record l 0 (s.vtime t).toNat s.clock.gtime)).noteAway launch).keepArea l t 0 else s)
  | _, _ => .next s

/-- SAVE_WITHDRAW: steps 2 to 5 have not ended by the later of the budget after the request and 1 ms after issue stopped. -/
def execSaveWithdraw (launch team : Nat) (s : State) : Res :=
  match s.team? ⟨launch, team⟩ with
  | none => .next s
  | some t => match t.preempt with
    | none => .next s
    | some p =>
      .next (if t.underway .save && !s.settled t && decide (p.since + max p.budget 1000000 ≤ s.clock.gtime) then
        s.setTeam { t with preempt := none, frozen := false, saveBarred := true } else s)

/-- The page faults of a team's groups and sequencer are of no account any more. -/
def State.dropTeamFaults (s : State) (id : TeamId) : State :=
  let mine (w : FaultWho) : Bool := match w with
    | .group g => decide (g.team = id)
    | .handler g _ => decide (g.team = id)
    | .sequencer t => decide (t = id)
    | _ => false
  { s with fns := s.fns.map fun f => { f with faults := f.faults.filter fun p => !mine p.who } }

/-- FLUSH_COMPLETE (R355): all but the channel state is discarded when the team is placed again. -/
def execFlushComplete (launch team : Nat) (s : State) : Res :=
  match s.team? ⟨launch, team⟩ with
  | none => .next s
  | some t =>
    .next (if t.underway .flush && s.settled t then
      (((s.leaveCore t.id).setTeam { t with
        place := .flushed, vtSaved := 0, frozen := false, preempt := none }).dropTeamFaults t.id).noteAway launch else s)

/-! Cuts (R358-R360). -/

/-- The job of a launch: its gang's parts on this module, or itself. -/
def State.jobOf (s : State) (l : Launch) : List Nat :=
  if l.gang = 0 then [l.seq]
  else (s.launches.filter fun m => decide (m.gang = l.gang) && decide (m.stage = .ready)).map (·.seq)

def State.mapJob (s : State) (launch : Nat) (f : CutJob → CutJob) : State :=
  { s with cuts := s.cuts.map fun j => if j.launches.contains launch then f j else j }

def State.job? (s : State) (launch : Nat) : Option CutJob := s.cuts.find? fun j => j.launches.contains launch

/-- CUT_STOP_REQUEST: from the request on no team of the job is placed and none begins, and every group of a stepped kernel stops at
its next STEP. A further cut of a job comes at the operator's interval after the last (R362). A pre-emption under way goes on, and a
team that it saves is restored before the cut is complete. -/
def execCutStopRequest (launch : Nat) (s : State) : Res :=
  match s.launch? launch with
  | none => .next s
  | some l =>
    let job := s.jobOf l
    let part := s.parts.getD l.fn Partition.reset
    if !l.cutp || decide (l.stage ≠ .ready) || s.cutting launch ||
        (s.job? launch).any fun j => decide (s.clock.gtime < j.since + 1000000 * part.cutIntervalMs) then .next s
    else
      let limit := part.cutLimitUs
      let start (j : CutJob) : CutJob := { j with launches := job, requested := true, since := s.clock.gtime, limitUs := limit }
      let s1 := if (s.job? launch).isSome then s.mapJob launch start
        else { s with cuts := s.cuts ++ [start ⟨job, true, 0, 0, false, [], [], [], []⟩] }
      .next { s1 with launches := s1.launches.map fun m => if job.contains m.seq then { m with stopReq := true } else m }

/-- A group is held for a cut: at its STEP, or at its end. -/
def Group.atEnd (g : Group) : Bool := decide (g.run = .ended) || decide (g.run = .stopped)
def Group.cutHeld (g : Group) : Bool := decide (g.run = .stepHeld) || g.atEnd

/-- The step counts of a launch's held groups that are not at their end. -/
def State.stepCounts (s : State) (launch : Nat) : List Nat :=
  (s.teams.filter fun t => decide (t.id.launch = launch) && t.core?.isSome).flatMap fun t =>
    (t.groups.filter fun g => decide (g.run = .stepHeld)).map fun g => g.stepcnt.toNat

/-- Every resident team of the job that has begun is held; one of a kernel without .stepped is not resident any more, and no saved
team waits for its restore. A team that has not begun stands at its start. -/
def State.jobHeld (s : State) (j : CutJob) : Bool :=
  s.teams.all fun t => !(j.launches.contains t.id.launch) || match t.place with
    | .resident _ => !t.begun ||
        ((s.launch? t.id.launch).map fun l => l.krec.stepped).getD false && t.groups.all Group.cutHeld
    | .saved => false
    | _ => true

/-- A group goes on from its STEP; where a debugger let it issue that one instruction, it stops (13 R272). -/
def Group.freed (l : Option Launch) (vt : W64) (g : Group) : Group := match l with
  | some l => if g.stepOnce = .armed then
      { g with run := .debugStopped, stepOnce := .off, record := mkRecord l g .singleStep false vt }
    else { g with run := .running }
  | none => { g with run := .running }

/-- Release held groups of launches that `f` chooses. -/
def State.releaseHeld (s : State) (f : Nat → Group → Bool) : State :=
  let go (t : Team) (g : Group) : Group :=
    if g.run = .stepHeld && f t.id.launch g then g.freed (s.launch? t.id.launch) (s.vtime t) else g
  { s with teams := s.teams.map fun t => { t with groups := t.groups.map (go t) } }

/-- The cut ends, complete or not: stop requests fall, every held group is released (R359 step 6, R360). -/
def State.endCut (s : State) (launches : List Nat) : State :=
  let s1 := s.releaseHeld fun n _ => launches.contains n
  { s1 with
    launches := s1.launches.map fun m => if launches.contains m.seq then { m with stopReq := false } else m
    cuts := s1.cuts.map fun j => if j.launches = launches then { j with requested := false } else j }

/-- Copy a page to its journal page. -/
def journalPut (mem : Memory) (js : List JournalPage) (page size : Nat) : List JournalPage :=
  (js.filter fun x => decide (x.page ≠ page)) ++ [⟨page, size, mem.slice page size⟩]

/-- Steps 2 and 3 of R359: near pages written since they were journalled, or never journalled, go to the journal and lose
DIRTY; lake pages become read-only to the job, and their copies of the cut before are discarded. -/
def State.journalPages (s : State) (j : CutJob) : List JournalPage × List (Nat × Nat) × Memory :=
  let pages := s.jobPages j.launches
  let near := pages.filter fun p => isNear p.pa && (s.pageDirty p || !(j.journal.any fun x => decide (x.page = p.pa)))
  let lake := pages.filter fun p => isLake p.pa
  let clean (m : Memory) (p : Leaf) : Memory :=
    let e := m.read64 p.entry
    m.writeLe p.entry 8 (e &&& ~~~(0x80 : W64)).toNat
  (near.foldl (fun js p => journalPut s.mem js p.pa p.size) (j.journal.filter fun x => isNear x.page), lake.map fun p => (p.pa, p.size), near.foldl clean s.mem)

/-- The teams of a job as the cut records them; one that has not begun waits for placement after a rollback (R363). -/
def State.cutRecords (s : State) (j : CutJob) : List Team :=
  (s.teams.filter fun t => j.launches.contains t.id.launch).map fun t => match t.core?, s.launch? t.id.launch with
    | some _, some l => if t.begun then t.record l 1 (s.vtime t).toNat s.clock.gtime
        else { t with place := .flushed, vtSaved := 0, frozen := false, preempt := none }
    | _, _ => t

/-- The held teams of a job that has been recorded stand in the context pool as cut records, those of its cut before no longer (R359
steps 4 and 5). -/
def State.keepCut (s : State) (j : CutJob) : State :=
  let held := s.teams.filter fun t => j.launches.contains t.id.launch && t.core?.isSome && t.begun
  held.foldl (fun (s : State) t => match s.launch? t.id.launch with
    | some l => s.keepArea l t 1
    | none => s) (s.dropAreas 1 fun t => j.launches.contains t.launch)

/-- CUT_COMPLETION: when every team of the job is held at one boundary with its channels drained and accesses performed, the
cut is completed; where step counts differ, the groups behind go on to their next STEP (R358, R359). -/
def execCutCompletion (launch : Nat) (s : State) : Res :=
  match s.job? launch with
  | none => .next s
  | some j =>
    if !j.requested || !s.jobHeld j then .next s
    else
      let top (n : Nat) : Nat := (s.stepCounts n).max?.getD 0
      if j.launches.any fun n => (s.stepCounts n).any fun k => decide (k ≠ top n) then
        .next (s.releaseHeld fun n g => j.launches.contains n && decide (g.stepcnt.toNat < top n))
      else if (s.teams.filter fun t => j.launches.contains t.id.launch).all s.settled then
        let x := s.journalPages j
        let done (k : CutJob) : CutJob := { k with
          complete := true, teams := s.cutRecords j
          recorded := s.launches.filter fun l => j.launches.contains l.seq
          journal := x.1, cow := x.2.1 }
        let s1 := ({ s.keepCut j with
          mem := x.2.2
          telemetry := { s.telemetry with cutDone := satInc s.telemetry.cutDone } } : State).mapJob launch done
        .next (s1.endCut j.launches)
      else .next s

/-- CUT_ABANDON: a cut that is not complete within its limit (R360). -/
def execCutAbandon (launch : Nat) (s : State) : Res :=
  match s.job? launch with
  | none => .next s
  | some j =>
    .next (if j.requested && decide (j.since + 1000 * j.limitUs ≤ s.clock.gtime) then
      ({ s with telemetry := { s.telemetry with cutAbandoned := satInc s.telemetry.cutAbandoned } } : State).endCut j.launches
    else s)

/-- JOURNAL_COPY_ON_WRITE: firmware copies a lake page to its journal before the job's first write after the cut, and makes
it writable again. -/
def execJournalCopyOnWrite (launch page : Nat) (s : State) : Res :=
  .next (s.mapJob launch fun j => match j.cow.find? fun x => decide (x.1 = page) with
    | none => j
    | some x => { j with
        journal := journalPut s.mem j.journal x.1 x.2
        cow := j.cow.filter fun y => decide (y.1 ≠ page) })

/-! Rollback (R363) and loss without cut protection (R364). -/

/-- Forget a launch's engine commands, results, faults, patch actions and signatures; what its replays still have under way does
nothing. -/
def State.forgetWork (s : State) (f : Nat → Bool) : State :=
  let mine (g : GroupId) : Bool := f g.team.launch
  let faultOf (w : FaultWho) : Bool := match w with
    | .group g => mine g
    | .handler g _ => mine g
    | .sequencer t => f t.launch
    | .copy id => s.copies.any fun k => decide (k.id = id) && mine k.group
    | .node r _ => s.replays.any fun x => decide (x.id = r) && mine x.group
  let dead (op : ChanOp) : Bool := match op with
    | .chunk id _ _ => s.copies.any fun k => decide (k.id = id) && mine k.group && k.node.isSome
    | _ => false
  { s with
    flights := s.flights.filter fun x => !mine x.group
    packets := s.packets.map fun p => if dead p.op && !p.performed then { p with op := .store [] } else p
    copies := s.copies.filter fun k => !mine k.group
    replays := s.replays.filter fun r => !mine r.group
    signatures := s.signatures.filter fun m => !f m.origin.launch
    patchActs := s.patchActs.filter fun p => !mine p.group
    fns := s.fns.map fun x => { x with faults := x.faults.filter fun p => !faultOf p.who } }

/-- The job goes back to its last complete cut. -/
def State.rollback (s : State) (j : CutJob) : State :=
  let inJob (n : Nat) : Bool := j.launches.contains n
  let s1 := ((s.forgetWork inJob).dropAreas 0 fun t => inJob t.launch).forgetStreams fun st => match st.owner with
    | .team t => inJob t.launch
    | .forager _ => false
  let mem := j.journal.foldl (fun (m : Memory) x => (m.clear x.page x.size).writeCells x.cells) s1.mem
  let again (t : Team) : Team := { t with chans := t.chans.map fun _ => Channel.empty, lost := 0 }
  let back (l : Launch) : Launch := match j.recorded.find? fun m => decide (m.seq = l.seq) with
    | some m => { l with
        nextTeam := m.nextTeam, retired := m.retired, vtSum := m.vtSum, lostTeams := m.lostTeams, nstop := m.nstop, firstStop := m.firstStop,
        reports := m.reports, stopReq := false, refill := [], away := some s.clock.gtime }
    | none => l
  { s1 with
    mem := mem
    teams := (s1.teams.filter fun t => !inJob t.id.launch) ++ j.teams.map again
    launches := s1.launches.map fun l => if inJob l.seq then back l else l
    cores := s1.cores.map fun c =>
      { c with active := c.active.filter fun e => !inJob e.group.team.launch,
               pending := c.pending.filter fun e => !inJob e.group.team.launch }
    cuts := s1.cuts.map fun k => if k.launches = j.launches then { k with requested := false } else k
    telemetry := { s1.telemetry with rollback := satInc s1.telemetry.rollback } }

/-- A launch without a cut to go back to completes ABORTED: the given teams are lost, and count as retired. -/
def State.loseTeams (s : State) (l : Launch) (reason : Nat) (f : Team → Bool) : State :=
  let gone := s.teams.filter fun t => decide (t.id.launch = l.seq) && f t && decide (t.place ≠ .retired)
  let isGone (id : TeamId) : Bool := gone.any fun t => decide (t.id = id)
  let s1 := (gone.foldl (fun (s : State) t => (s.leaveCore t.id).dropTeamFaults t.id) s).dropAreas 0 isGone
  let s2 := s1.forgetStreams fun st => match st.owner with
    | .team t => isGone t
    | .forager _ => false
  { s2 with
    flights := s2.flights.filter fun x => !isGone x.group.team
    copies := s2.copies.filter fun k => k.node.isSome || !isGone k.group.team
    patchActs := s2.patchActs.filter fun p => !isGone p.group.team
    teams := s2.teams.map fun t => if isGone t.id then { t with place := .retired, preempt := none, frozen := false } else t
    launches := s2.launches.map fun m => if m.seq = l.seq then
        { m with
          aborted := true, reason := reason, dieLost := true
          retired := m.retired + gone.length, lostTeams := m.lostTeams + gone.length }
      else m }

/-- Every team of a launch is lost, placed or not. -/
def State.abortLaunch (s : State) (l : Launch) (reason : Nat) : State :=
  (((s.loseTeams l reason fun _ => true).forgetWork fun n => decide (n = l.seq)).mapLaunch l.seq fun m =>
    { m with nextTeam := m.grid, retired := m.grid })

/-- The word at a group's PC, when it can be fetched. -/
def State.wordAt? (s : State) (id : GroupId) : Option W32 := match s.ctx? id with
  | none => none
  | some c => match s.checkFetch c.launch id.team c.die c.group.pc with
    | .ok h => some (BitVec.ofNat 32 (s.loadLoc h.loc 4))
    | _ => none

/-- The word at a group's PC, for a fault that the group takes outside its turn. -/
def State.wordAt (s : State) (id : GroupId) : W32 := (s.wordAt? id).getD 0

/-- The groups of resident teams of these launches that are parked by WAITA. -/
def State.parkedGroups (s : State) (launches : List Nat) : List GroupId :=
  (s.teams.filter fun t => launches.contains t.id.launch && t.core?.isSome).flatMap fun t =>
    (t.groups.zipIdx.filter fun g => match g.1.run with
      | .parked _ _ _ => true
      | _ => false).map fun g => ⟨t.id, g.2⟩

/-- Groups of surviving teams parked by WAITA take BARRIER_LOST there (R364). -/
def State.wakeParked (s : State) (launches : List Nat) : State :=
  (s.parkedGroups launches).foldl (fun (s : State) id =>
    (s.mapGroup id fun g => { g with run := .running }).deliver id .barrierLost false (s.wordAt id)) s

/-- What a loss does to the affected launches: a job with a cut to go back to rolls back; any other launch completes
ABORTED with DIE_LOST, and the other parts of its gang with BARRIER_LOST (R363, R364, 23 R347). `f` says which teams are
lost. -/
def State.loseAll (s : State) (affected : List Launch) (f : Team → Bool) : State :=
  let backOf (l : Launch) : Bool := l.cutp && s.cuts.any fun j => j.complete && j.launches.contains l.seq
  let jobs := s.cuts.filter fun j => j.complete && affected.any fun l => l.cutp && j.launches.contains l.seq
  let rest := affected.filter fun l => !backOf l
  let part (m : Launch) : Bool := rest.any fun l => decide (l.gang ≠ 0) && decide (m.gang = l.gang)
  let s1 := jobs.foldl State.rollback s
  let s2 := rest.foldl (fun (s : State) l => s.loseTeams l 11 f) s1
  let s3 := { s2 with launches := s2.launches.map fun m => if part m && !m.aborted then
      { m with aborted := true, reason := 10, dieLost := true } else m }
  s3.wakeParked ((s3.launches.filter (·.dieLost)).map (·.seq))

/-- Where firmware keeps the journal copy of a page, in the lake. -/
def journalPlace (p : Leaf) : Nat := 0x040000000000 + Config.journalPlace p.pa % (0x040000000000 / p.size) * p.size

/-- A near page of a fenced die is remapped to its journal copy in the lake; one of a home-together segment is to move into the near
memory of one surviving die (R363 step 2). -/
def State.remap (s : State) (l : Launch) (p : Leaf) : State :=
  let place := journalPlace p
  let e := s.mem.read64 p.entry
  let m := (s.mem.move p.pa place p.size).writeLe p.entry 8 ((e &&& 0xFF00000000000FDF).toNat + place)
  let dies := (List.range Config.numDies).filter fun d => !s.fencedDies.contains d
  let homes := (l.segs.filter fun d => d.covers p && d.w2.getLsbD 5).map fun d =>
    (l.fn, p.va, dies.getD (Config.rehomeDie l.fn d.base % max 1 dies.length) 0)
  ({ s with
    mem := m
    transits := s.transits.filter fun t => decide (t.entry ≠ p.entry)
    rehomed := s.rehomed ++ homes } : State).follow p.pa place p.size

/-- The journalled near pages of a job on a fenced die are served from the lake. -/
def State.remapDie (s : State) (die : Nat) (j : CutJob) : State :=
  (s.launches.filter fun l => j.launches.contains l.seq).foldl (fun (s : State) l =>
    ((s.leavesOf l.fn).filter fun p => l.owns p && isNear p.pa && decide (nearDie p.pa = die) &&
      j.journal.any fun x => decide (x.page = p.pa)).foldl (fun (s : State) p => s.remap l p) s) s

/-- A launch has work on a compute die: a resident team, a stream to it, or a page of its near memory. -/
def State.touchesDie (s : State) (l : Launch) (die : Nat) : Bool :=
  decide (l.stage = .ready) && decide (0 < l.nextTeam) &&
  ((s.teams.any fun t => decide (t.id.launch = l.seq) && ((t.core?.map fun c => decide (dieOfCore c = die)).getD false ||
      t.chans.any fun c => c.streams.any fun e => decide (e.dest = .die die))) ||
    (s.jobPages [l.seq]).any fun p => isNear p.pa && decide (nearDie p.pa = die))

/-- An uncorrectable error is logged (26 R392). -/
def State.logError (s : State) (die addr : Nat) : State :=
  { s with errorLog := s.errorLog ++ [⟨die, addr, Config.syndrome s.free, s.clock.gtime⟩], free := s.free + 1 }

/-- A compute die is lost (26 R388): its Comb switch is unreachable on every link, all its cell controllers are lost (25 R367), or more
than one of its cores is uncorrectable with no spare left. -/
def State.dieGone (s : State) (die : Nat) : Bool :=
  (s.links.zipIdx.all fun x => !Config.linkAt die x.2 || !x.1.up) ||
  ((List.range 8).all fun k => s.hive.lostCells.contains (8 * die + k)) ||
  (decide (s.spares.getD die 0 = 0) && decide (2 ≤ ((s.cores.zipIdx.filter fun c => decide (dieOfCore c.2 = die)).filter fun c =>
    !c.1.enabled).length))

/-- Firmware fences a compute die of this module. -/
def State.fenceDie (s : State) (die : Nat) : State :=
  let s1 := { s with
    fencedDies := s.fencedDies ++ [die]
    telemetry := { s.telemetry with dieFenced := satInc s.telemetry.dieFenced } }
  let affected := s.launches.filter fun l => s.touchesDie l die
  let s2 := s1.loseAll affected fun t => (t.core?.map fun c => decide (dieOfCore c = die)).getD false
  let jobs := s.cuts.filter fun j => j.complete && affected.any fun l => l.cutp && j.launches.contains l.seq
  let s3 := (jobs.foldl (fun (s : State) j => s.remapDie die j) s2).loseStreams fun st => decide (st.dest = .die die)
  let s4 := s3.forgetStreams fun st => decide (st.owner = .forager die)
  { s4 with
    replays := s4.replays.filter fun r => decide (r.die ≠ die)
    copies := s4.copies.filter fun k => match k.node with
      | some (r, _) => s4.replays.any fun x => decide (x.id = r) && decide (x.die ≠ die)
      | none => true
    forChans := s4.forChans.set die (List.replicate 16 Channel.empty) }

/-- A stream of a cut-protected job with a complete cut that `gone` admits: the jobs that go back when it is lost (05 R123). -/
def State.jobsWith (s : State) (gone : StreamId → Bool) : List CutJob :=
  s.cuts.filter fun j => j.complete && s.teams.any fun t => j.launches.contains t.id.launch &&
    ((s.launch? t.id.launch).map (·.cutp)).getD false &&
    t.chans.zipIdx.any fun c => c.1.streams.any fun e => gone ⟨.team t.id, c.2, e.dest⟩

/-- A die of a peer module that holds a part of gangs is lost (23 R347): the parts here go back with their gang, or complete ABORTED
with BARRIER_LOST while their parked groups take BARRIER_LOST; streams to the die are lost. -/
def State.losePeerDie (s : State) (mod die : Nat) : State :=
  let gone (st : StreamId) : Bool := decide (st.dest = .peer mod die)
  let hit (l : Launch) : Bool := decide (l.gang ≠ 0) && decide (l.stage = .ready) && Config.gangOn l.gang.toNat mod die
  let backOf (l : Launch) : Bool := l.cutp && s.cuts.any fun j => j.complete && j.launches.contains l.seq
  let jobs := s.cuts.filter fun j => j.complete && s.launches.any fun l => hit l && l.cutp && j.launches.contains l.seq
  let s1 := ((jobs ++ s.jobsWith gone).dedup.foldl State.rollback s).loseStreams gone
  let s2 := { s1 with launches := s1.launches.map fun l => if hit l && !backOf l && !l.aborted then
      { l with aborted := true, reason := 10, dieLost := true } else l }
  s2.wakeParked ((s2.launches.filter (·.dieLost)).map (·.seq))

/-- DIE_FENCE: firmware fences a lost compute die, of this module or of a peer. -/
def execDieFence (at' : DieAt) (s : State) : Res :=
  .next (if Config.numDies ≤ at'.die then s
    else match at'.module with
      | some m => s.losePeerDie m at'.die
      | none => if s.fencedDies.contains at'.die || !s.dieGone at'.die then s else s.fenceDie at'.die)

/-- PEER_UNREACHABLE: no path to a peer module remains (05 R123). A cut-protected job without a complete cut loses its streams like one
without cut protection (DESIGN CHOICE, assumption 43). -/
def execPeerUnreachable (mod : Nat) (s : State) : Res :=
  let gone (st : StreamId) : Bool := match st.dest with
    | .peer m _ => decide (m = mod)
    | _ => false
  let off (p : Peer) : Peer := if p.mod = mod then { p with reachable := false } else p
  let s1 := ((s.jobsWith gone).foldl State.rollback s).loseStreams gone
  .next { s1 with peers := s1.peers.map off }

/-- UNCORRECTABLE_TEAM_STATE (26 R387): the core is fenced; a spare of its die takes its index, or the die loses the core.
Its teams are handled as those of a fenced die. -/
def execUncorrectableTeamState (core : Nat) (s : State) : Res :=
  match s.cores[core]? with
  | none => .next s
  | some c =>
    if !c.enabled then .next s
    else
      let die := dieOfCore core
      let here (t : Team) : Bool := decide (t.place = .resident core)
      let affected := s.launches.filter fun l => s.teams.any fun t => here t && decide (t.id.launch = l.seq)
      let s1 := (s.loseAll affected here).logError die (Config.stateAddr s.free)
      let n := s1.spares.getD die 0
      let tel := { s1.telemetry with sramUncorr := satInc s1.telemetry.sramUncorr }
      .next (if 0 < n then
        { s1 with
          spares := s1.spares.set die (n - 1)
          telemetry := { tel with coreSpared := satInc tel.coreSpared }
          cores := s1.cores.set core Core.reset }
      else
        { s1 with
          telemetry := { tel with coreLost := satInc tel.coreLost }
          cores := s1.cores.set core { Core.reset with enabled := false } })

end Sys2Proof.Machine
end

