-- ==== Sys2Proof/Machine/Commands.lean ====
section
/-! DEFINITION. The commands of the management window (spec 26 R380-R384, R394, R395; 25 R368-R370, R373, R378). A command that
has been written runs in one step; MCMD_COMPLETE then reports it. -/

namespace Sys2Proof.Machine

/-- RESULT codes of MSTAT (R380). -/
inductive CmdResult where
  | ok | notEmpty | range | refused | counterFull | unknown
  deriving DecidableEq, Repr

def CmdResult.code : CmdResult → BitVec 8
  | .ok => 0 | .notEmpty => 1 | .range => 2 | .refused => 3 | .counterFull => 4 | .unknown => 5

/-- A command is running and has not taken effect. -/
def Mgmt.runs (m : Mgmt) (op : Nat) : Bool := m.busy && !m.ran && decide (m.op.toNat = op)

def Mgmt.arg (m : Mgmt) (n : Nat) : Nat := (m.margs.getD n 0).toNat

/-- The command has taken effect. -/
def State.endCommand (s : State) (r : CmdResult) : State := { s with mgmt := { s.mgmt with ran := true, outcome := r.code } }

/-- Run the command OP, if it is the one that was written: a result other than OK changes nothing. -/
def State.command (s : State) (op : Nat) (check : CmdResult) (effect : State → State) : Res :=
  .next (if s.mgmt.runs op then (if check = .ok then effect s else s).endCommand check else s)

/-- The first result other than OK. -/
def firstOf : List (Bool × CmdResult) → CmdResult
  | [] => .ok
  | (b, r) :: rest => if b then r else firstOf rest

/-! Partitions (R382, R383). -/

def clusterCount (mask : BitVec 64) : Nat := ((List.range 64).filter fun c => mask.getLsbD c).length

/-- What PART_SET asks for; a partition that is removed keeps no share. -/
def Mgmt.newPart (m : Mgmt) (old : Partition) : Partition :=
  if BitVec.ofNat 64 (m.arg 1) = 0 then { old with mask := 0, nearGib := 0, lakeGib := 0, poolMib := 0, journalGib := 0 }
  else { old with
    mask := BitVec.ofNat 64 (m.arg 1)
    nearGib := m.arg 2 % 2 ^ 32
    lakeGib := m.arg 2 / 2 ^ 32
    poolMib := m.arg 3 % 2 ^ 32
    journalGib := m.arg 3 / 2 ^ 32 }

/-- MiB of lake that a partition reserves: its share, its context pool and its journal reserve. -/
def Partition.lakeMib (p : Partition) : Nat := 1024 * (p.lakeGib + p.journalGib) + p.poolMib

/-- Every partition fits: near memory less the sparing reserve (R386), the lake less its dump regions (R392). -/
def sharesFit (ps : List Partition) : Bool :=
  decide ((ps.map (·.nearGib)).sum ≤ 8 * 254) && decide ((ps.map (·.lakeMib)).sum ≤ 1024 * 2 * (2048 - 32))

/-- The clusters asked for belong to another partition or to the quarantine cell. -/
def State.maskTaken (s : State) (p : Nat) (mask : BitVec 64) : Bool :=
  (s.parts.zipIdx.any fun x => decide (x.2 ≠ p) && decide (x.1.mask &&& mask ≠ 0)) ||
  (s.mgmt.qcell.map fun c => mask.getLsbD c).getD false

/-- A queue of the function is enabled, or a launch of it has a resident, saved or unplaced team; a consumer that is spliced runs as
teams of its producer. -/
def State.partBusy (s : State) (p : Nat) : Bool :=
  ((s.fns.getD p Fn.reset).queues.any (·.enable)) || s.launches.any fun l =>
    decide (l.fn = p) && decide (l.stage ≠ .complete) && decide (l.stage ≠ .spliced) && decide (l.retired < l.grid)

/-- PART_SET. -/
def execPartSet (s : State) : Res :=
  let p := s.mgmt.arg 0
  let new := s.mgmt.newPart (s.parts.getD p Partition.reset)
  s.command 1 (firstOf [
      (decide (16 < p) || s.maskTaken p new.mask || !sharesFit (s.parts.set p new) ||
        decide (new.poolMib < 8 * (4 * clusterCount new.mask)), .range),
      (s.partBusy p, .notEmpty)]) fun s =>
    ({ s with parts := s.parts.set p new } : State).mapFn p fun f => { f with ready := decide (new.mask ≠ 0) }

/-- CUT_SET. -/
def execCutSet (s : State) : Res :=
  let p := s.mgmt.arg 0
  let ms := s.mgmt.arg 1
  let us := s.mgmt.arg 2
  s.command 4 (firstOf [
      (decide (16 < p) || decide (ms < 1000) || decide (3600000 < ms) || decide (us < 1000) || decide (1000000 < us), .range)])
    fun s => { s with parts := s.parts.modify p fun x => { x with cutIntervalMs := ms, cutLimitUs := us } }

/-- A launch runs on the quarantine cell. -/
def State.cellRuns (s : State) : Bool := s.launches.any fun l =>
  l.quarantined && decide (l.stage = .ready) && decide (0 < l.nextTeam)

/-- QCELL_SET (R394). -/
def execQcellSet (s : State) : Res :=
  let c := s.mgmt.arg 0
  let us := s.mgmt.arg 1
  s.command 2 (firstOf [
      ((decide (63 < c) && decide (c ≠ 0xFF)) || decide (us < 1000) || decide (10000000 < us) ||
        (decide (c < 64) && s.parts.any fun p => p.mask.getLsbD c), .range),
      (decide (c = 0xFF) && s.cellRuns, .notEmpty)]) fun s =>
    { s with mgmt := { s.mgmt with qcell := if c = 0xFF then none else some c, qlimitUs := us } }

/-- POWER_CAP (R384). -/
def execPowerCap (s : State) : Res :=
  let w := s.mgmt.arg 0
  s.command 3 (firstOf [(decide (w < 4000) || decide (9000 < w), .range)]) fun s =>
    { s with mgmt := { s.mgmt with powerCap := w } }

/-! Images (25 R368-R370, R373). -/

/-- A slot descriptor of 48 bytes. -/
def slotOf (w : List W64) : PatchSlot :=
  let x (i lo n : Nat) : Nat := (w.getD i 0).toNat / 2 ^ lo % 2 ^ n
  ⟨decide (x 0 0 1 = 1), decide (x 0 1 1 = 1), BitVec.ofNat 2 (x 0 2 2), BitVec.ofNat 4 (x 0 4 4), BitVec.ofNat 3 (x 0 8 3),
    BitVec.ofNat 32 (x 0 32 32), BitVec.ofNat 32 (x 1 0 32), BitVec.ofNat 8 (x 1 32 8), BitVec.ofNat 8 (x 1 40 8),
    BitVec.ofNat 8 (x 1 48 8), BitVec.ofNat 16 (x 2 0 16),
    [BitVec.ofNat 32 (x 3 0 32), BitVec.ofNat 32 (x 3 32 32), BitVec.ofNat 32 (x 4 0 32), BitVec.ofNat 32 (x 4 32 32)]⟩

/-- Reserved bits of a slot descriptor. -/
def slotReserved (w : List W64) : Bool :=
  let x (i lo n : Nat) : Nat := (w.getD i 0).toNat / 2 ^ lo % 2 ^ n
  decide (x 0 11 21 ≠ 0) || decide (x 1 56 8 ≠ 0) || decide (x 2 16 48 ≠ 0) || decide (x 5 0 64 ≠ 0)

/-- What R373 asks of every slot of an image whose payload has `len` bytes: MATCH within MASK, no field of the other source, and
HOFF inside the micro-code area, which follows the sixteen descriptors and has at most 64 KiB. A slot that runs no handler may have
HOFF = 0 where there is no micro-code (DEDUCED, assumption 62). -/
def PatchSlot.sound (p : PatchSlot) (len : Nat) : Bool :=
  let runs := p.enable && decide (p.action ≠ 1)
  let source := if p.src then decide (p.pmatch = 0) && decide (p.mask = 0)
    else decide (p.pmatch &&& ~~~p.mask = 0) && decide (p.code = 0) && decide (p.sub = 0) && decide (p.submask = 0)
  source && ((decide (4 * p.hoff.toNat < 65536) && decide (768 + 4 * p.hoff.toNat < len)) || (!runs && decide (p.hoff = 0)))

/-- What its fields ask of an enabled slot. -/
def PatchSlot.wellFormed (p : PatchSlot) : Bool :=
  let source := if p.src then isFaultClass p.code else decide (p.mask ≠ 0)
  let words := if p.action = 1 then decide (1 ≤ p.nrew.toNat) && decide (p.nrew.toNat ≤ 4) else decide (p.nrew = 0)
  source && decide (p.action ≠ 3) && words

/-- The slots of a patch image's payload, or none when R373 refuses it. -/
def patchSlots (payload : List Byte) : Option (List PatchSlot) :=
  let ws := (List.range 16).map fun i => bytesWords (payload.drop (48 * i)) 6
  let slots := ws.map slotOf
  if payload.length < 768 || ws.any slotReserved ||
      slots.any (fun p => !p.sound payload.length || (p.enable && !p.wellFormed)) then none
  else some slots

/-- The value of a class's anti-rollback counter: the highest programmed row, or 0 (25 R370). -/
def ImageClass.counter (c : ImageClass) : Nat := (c.rows.map (·.toNat)).foldl max 0

def ImageClass.none : ImageClass := ⟨Option.none, Option.none, []⟩

/-- The class numbered 1 to 5. -/
def State.classOf (s : State) (k : Nat) : ImageClass := s.images.getD (k - 1) ImageClass.none

/-- Checks 2 and 3 of R369: the key's hash is that fused in KEYSLOT, which is not revoked, and the signature over header and payload
verifies (R368: the key at 0x40, the signature at 0x7E0, the payload at 0x2000). -/
def State.imageSigned (s : State) (bs : List Byte) (slot len : Nat) : Bool :=
  let part (off n : Nat) : List Byte := (bs.drop off).take n
  let key := part 0x40 1952
  !(s.revoked.getD slot true) && decide (some (Config.shake256 key) = s.keyHashes[slot]?) &&
    Config.mlDsa65Verifies key (part 0x7E0 3309) (part 0 0x40 ++ part 0x2000 len)

/-- The image that these bytes are, when R369 and R373 accept it. -/
def State.acceptImage (s : State) (bs : List Byte) : Option Image :=
  let w := bytesWords bs 8
  let x (i lo n : Nat) : Nat := (w.getD i 0).toNat / 2 ^ lo % 2 ^ n
  let cls := x 0 32 8
  let len := x 2 0 64
  let header := decide (x 0 0 32 = 0x00474D49) && decide (1 ≤ cls) && decide (cls ≤ 5) && decide (x 0 56 8 = 0) &&
    decide (x 1 0 32 ≠ 0) && decide (x 1 32 32 = 0) && decide (1 ≤ len) && decide (len ≤ 2 ^ 28) && decide (x 3 2 62 = 0) &&
    (w.drop 4).all fun v => decide (v = 0)
  let signed := s.imageSigned bs (x 3 0 2) len
  let fresh := decide ((s.classOf cls).counter ≤ x 0 40 16)
  let slots := if cls = 5 then patchSlots ((bs.drop 0x2000).take len) else some []
  if header && decide (0x2000 + len ≤ bs.length) && signed && fresh then
    slots.map fun p => ⟨cls, BitVec.ofNat 16 (x 0 40 16), BitVec.ofNat 32 (x 1 0 32), p, bs⟩
  else none

/-- R369 accepts an image that stands in flash. -/
def State.verifies (s : State) (im : Image) : Bool := (s.acceptImage im.raw).isSome

/-- The digest of an image and the counter of its class, as flash keeps them from its last verification (25 R371). -/
def State.checkOf (s : State) (im : Image) : List Byte × Nat := (Config.shake256 im.raw, (s.classOf im.iclass).counter)

/-- An image has been verified. -/
def State.noteVerified (s : State) (im : Image) : State :=
  { s with flash := { s.flash with checks := (s.flash.checks ++ [s.checkOf im]).dedup } }

def State.setClass (s : State) (k : Nat) (f : ImageClass → ImageClass) : State := { s with images := s.images.modify (k - 1) f }

/-- IMG_STAGE: the image at a host address of function 0's link goes to the staged place of its class. -/
def execImgStage (s : State) : Res :=
  let bs := (List.range (s.mgmt.arg 1)).map fun i => s.hostRead 0 (s.mgmt.arg 0 + i)
  match s.acceptImage bs with
  | none => s.command 5 .refused id
  | some im => s.command 5 .ok fun s => (s.setClass im.iclass fun c => { c with staged := some im }).noteVerified im

/-- Whether the staged image of a class may become active: MARG0 names a class, it has a staged image, whose VERSION is not
below the counter (25 R369, 26 R395), and which, as a patch image, is verified again (25 R378). -/
def State.activation (s : State) : CmdResult :=
  let k := s.mgmt.arg 0
  firstOf [
    (decide (k < 1) || decide (5 < k), .range),
    (match (s.classOf k).staged with
      | none => true
      | some im => decide (im.version.toNat < (s.classOf k).counter) || (decide (k = 5) && !s.verifies im), .refused)]

/-- The staged and the active image change places. -/
def ImageClass.exchange (c : ImageClass) : ImageClass := { c with active := c.staged, staged := c.active }

/-- The standby Hive controller becomes the active one; the other is fenced from now on, or becomes the standby (25 R367, 26
R395). -/
def State.takeOver (s : State) (fence : Bool) : State :=
  { s with
    hive := { s.hive with
      activeOne := 1 - s.hive.activeOne, missed := 0
      fenced := if fence then some s.hive.activeOne else s.hive.fenced }
    telemetry := { s.telemetry with takeover := satInc s.telemetry.takeover } }

/-- The effect of IMG_ACTIVATE and IMG_REVERT. A Hive image takes effect at once, by a takeover of the standby controller, which the
other then follows as standby; with no standby left, at the next start. -/
def State.activate (s : State) : State :=
  let s1 := s.setClass (s.mgmt.arg 0) ImageClass.exchange
  if s.mgmt.arg 0 = 2 ∧ s.hive.fenced.isNone then s1.takeOver false else s1

/-- IMG_ACTIVATE and IMG_REVERT. A patch image that may become active does so in PATCH_IMAGE_SWITCH. -/
def State.activateCommand (s : State) (op : Nat) : Res :=
  if s.mgmt.arg 0 = 5 ∧ s.activation = .ok then .next s else s.command op s.activation State.activate

def execImgActivate (s : State) : Res := s.activateCommand 6
def execImgRevert (s : State) : Res := s.activateCommand 8

/-- The group is held on an instruction that it has decoded and no slot has taken. -/
def Group.onDecoded (g : Group) : Bool := g.rewriting.isNone && decide (g.stall ≠ .issued) && decide (g.stall ≠ .trapped) && match g.run with
  | .running => true
  | .barWait _ => true
  | .parked _ _ _ => true
  | .stepHeld => true
  | _ => false

/-- Words that groups are held on complete under the image that is replaced (25 R378). -/
def State.keepDecoded (s : State) : State :=
  { s with teams := s.teams.map fun t => { t with groups := t.groups.zipIdx.map fun g =>
      if g.1.onDecoded then { g.1 with decoded := g.1.decoded.or (s.wordAt? ⟨t.id, g.2⟩) } else g.1 } }

/-- The effect of a switch: what was decoded or matched under the old image keeps it. -/
def State.switchImage (s : State) : State :=
  let s1 := s.keepDecoded.activate
  (s1.classOf 5).active.elim s1 s1.noteVerified

/-- PATCH_IMAGE_SWITCH: every core switches to the image that is activated, at one instant (25 R378). -/
def execPatchImageSwitch (s : State) : Res :=
  if s.mgmt.arg 0 = 5 ∧ s.activation = .ok then s.command (if s.mgmt.runs 6 then 6 else 8) .ok State.switchImage
  else .next s

/-- IMG_COMMIT: the counter of a class advances to the VERSION of its active image (25 R370). -/
def execImgCommit (s : State) : Res :=
  let k := s.mgmt.arg 0
  let c := s.classOf k
  let v := (c.active.map (·.version)).getD 0
  s.command 7 (firstOf [
      (decide (k < 1) || decide (5 < k), .range),
      (decide (64 ≤ c.rows.length), .counterFull),
      (decide (v.toNat ≤ c.counter), .refused)]) fun s =>
    s.setClass k fun c => { c with rows := c.rows ++ [v] }

/-! The dump, and the end of a command. -/

/-- The dump region of a lake die (R392). -/
def dumpRegion (lake : Nat) : Nat := 0x05F800000000 + lake * 0x020000000000

/-- VALID of a dump header. -/
def State.dumpValid (s : State) (lake : Nat) : Bool := (s.mem.read (dumpRegion lake + 6)).getLsbD 0

/-- DUMP_CLEAR: VALID and DUMPS_LOST become 0 (R393). -/
def execDumpClear (s : State) : Res :=
  let clear (m : Memory) (lake : Nat) : Memory :=
    (m.write (dumpRegion lake + 6) 0).writeLe (dumpRegion lake + 0x24) 2 0
  s.command 9 .ok fun s => { s with mem := [0, 1].foldl clear s.mem, dumpsLost := 0 }

/-- UNKNOWN_COMMAND: any other OP. -/
def execUnknownCommand (s : State) : Res :=
  if (List.range 9).any fun k => decide (s.mgmt.op.toNat = k + 1) then .next s
  else s.command s.mgmt.op.toNat .unknown id

/-- MCMD_COMPLETE: MSTAT shows the result and the TAG, and BUSY = 0. -/
def execMcmdComplete (s : State) : Res :=
  .next (if s.mgmt.busy && s.mgmt.ran then
    { s with mgmt := { s.mgmt with busy := false, ran := false, result := s.mgmt.outcome, lastTag := s.mgmt.tag } }
  else s)

end Sys2Proof.Machine
end

