-- ==== Sys2Proof/Machine/Events.lean ====
section
/-! DEFINITION. Events of a group: the VTIME compare and the taking of pending events at a boundary (spec 07 R152, 13 R264,
R271). -/

namespace Sys2Proof.Machine

/-- The VTIME compare becomes pending, and VTCMP all ones (07 R152). -/
def State.vtimeCheck (s : State) (id : GroupId) : State :=
  match s.group? id, s.team? id.team with
  | some g, some t =>
    if g.vtcmp ≠ BitVec.allOnes 64 && decide (g.vtcmp.toNat ≤ (s.vtime t).toNat) then
      s.setGroup id { g with evVtime := true, vtcmp := BitVec.allOnes 64 }
    else s
  | _, _ => s

/-- An event is pending that may be taken now (13 R266, R271). -/
def Group.eventReady (g : Group) : Bool :=
  !g.inTrap && (g.evStream || !g.evCollective.isEmpty || g.evVtime || g.evStop)

/-- Take the pending event that comes first (13 R271). -/
def State.takeEvent (s : State) (id : GroupId) : State :=
  match s.group? id, s.team? id.team with
  | some g, some t =>
    if g.evStream then
      let q := t.seq.elim ((0 : W64), (0 : W64)) fun q => (q.sqfault, q.faultPtr)
      (s.setGroup id { g with evStream := false }).deliver id (.stream (BitVec.ofNat 8 (q.1.toNat % 8)) q.2 q.1) false 0
    else match g.evCollective with
      | (h, n) :: rest => (s.setGroup id { g with evCollective := rest }).deliver id (.collective h n) false 0
      | [] =>
        if g.evVtime then (s.setGroup id { g with evVtime := false }).deliver id (.vtimeCompare (s.vtime t)) false 0
        else if g.evStop then s.setGroup id { g with evStop := false, run := .debugStopped }
        else s
  | _, _ => s

/-- A group may issue: it runs, or it is held where an event releases it (13 R271). -/
def Group.mayIssue (g : Group) : Bool := match g.run with
  | .running => true
  | .parked _ _ _ => g.eventReady
  | .barWait _ => g.eventReady
  | _ => false

/-- VTIME_COMPARE_MATCH: VTIME has reached VTCMP. -/
def execVtimeCompareMatch (launch team group : Nat) (s : State) : Res := .next (s.vtimeCheck ⟨⟨launch, team⟩, group⟩)

/-- EVENT_TRAP: a pending event is taken at the group's boundary. A fault of the instruction there comes first (R271):
Step notes the groups at a boundary whose instruction has none. -/
def execEventTrap (launch team group : Nat) (s : State) : Res :=
  let id : GroupId := ⟨⟨launch, team⟩, group⟩
  match s.group? id, s.team? id.team with
  | some g, some t =>
    .next (if g.eventReady && g.mayIssue && g.rewriting.isNone && !t.frozen && t.core?.isSome && s.noted.contains id then
      ((s.setGroup id { g with run := .running }).takeEvent id).finishStops else s)
  | _, _ => .next s

end Sys2Proof.Machine
end

