-- ==== Sys2Proof/Machine/Gang.lean ====
section
/-! DEFINITION. Gang launch (spec 23 R346) and the resident-time limit of the quarantine cell (R348). -/

namespace Sys2Proof.Machine

/-- Refuse a launch: its record says REFUSED and why; it places nothing (R342, R344). -/
def State.writeRefusal (s : State) (l : Launch) (reason : Nat) : State :=
  s.cpWrite l.fn l.compDev l.compAddr.toNat (wordBytes (completionRecord l l.lid 1 reason 7 s.clock.gtime))

/-- Submit a launch that is not refused. -/
def State.addLaunch (s : State) (l : Launch) : State :=
  { (if s.waitsDone l then s.markPair l else s) with
    launches := s.launches ++ [{ l with stage := if s.waitsDone l then s.afterWaits l else .waiting }] }

def State.gang? (s : State) (id : W32) : Option Gang := s.gangs.find? fun g => decide (g.id = id)

def State.mapGang (s : State) (id : W32) (f : Gang → Gang) : State :=
  { s with gangs := s.gangs.map fun g => if g.id = id then f g else g }

/-- A further part of a refused gang has been read; after GANGN parts the gang is forgotten. -/
def State.countPart (s : State) (id : W32) : State :=
  { s with gangs := (s.gangs.map fun g => if g.id = id then { g with seen := g.seen + 1 } else g).filter fun g =>
      decide (g.id ≠ id ∨ g.seen < g.size) }

/-- Every part collected so far reads GANG; a gang all of whose parts have been read is forgotten. -/
def State.refuseParts (s : State) (g : Gang) : State :=
  let mine (l : Launch) : Bool := g.parts.any fun p => decide (p.2 = l.seq)
  let s1 := (s.launches.filter mine).foldl (fun (s : State) l => s.writeRefusal l 8) s
  State.releaseWaits { s1 with
    gangs := (s1.gangs.map fun x => if x.id = g.id then { x with state := .refused, parts := [] } else x).filter fun x =>
      decide (x.id ≠ g.id ∨ x.seen < x.size)
    launches := s1.launches.filter fun l => !mine l }

/-- A part of a gang lies on another module, known as a peer, so that its event comes from there. -/
def State.gangAbroad (s : State) (g : Gang) : Bool := decide (g.parts.length < g.size) && !s.peers.isEmpty

/-- The refusal record of a part collected so far meets a page in transit (03 R86). -/
def State.partsStall (s : State) (g : Gang) : Bool :=
  s.launches.any fun l => (g.parts.any fun p => decide (p.2 = l.seq)) && s.cpStalls l.fn l.compDev l.compAddr.toNat 96 true

/-- A part that is read now makes the gang refused: it is refused itself, or does not agree with the parts collected. -/
def Gang.clashes (g : Gang) (l : Launch) (reason : Nat) : Bool :=
  decide (reason ≠ 0) || decide (l.gangN ≠ g.size) || g.parts.any fun p => decide (p.1 = l.gpart)

/-- The part has to wait for the record of another. -/
def State.gangHeld (s : State) (l : Launch) (reason : Nat) : Bool := match s.gang? l.gang with
  | some g => decide (g.state = .collect) && g.clashes l reason && s.partsStall g
  | none => false

/-- Gangs in COLLECT that hold a part of a queue. -/
def State.collecting (s : State) (fn k : Nat) : List Gang :=
  s.gangs.filter fun g => decide (g.state = .collect) && s.launches.any fun l =>
    decide (l.fn = fn) && decide (l.queue = k) && l.node.isNone && g.parts.any fun p => decide (p.2 = l.seq)

/-- A part is read: refused for its own `reason`, refused with its gang, or collected. -/
def State.gangPart (s : State) (l : Launch) (reason : Nat) : State :=
  match s.gang? l.gang with
  | none =>
    let g : Gang := ⟨l.gang, l.gangN, [], .collect, s.clock.gtime, 1, [], false⟩
    if reason = 0 then { s.addLaunch l with gangs := s.gangs ++ [{ g with parts := [(l.gpart, l.seq)] }] }
    else { s.writeRefusal l reason with gangs := s.gangs ++ (if 1 < l.gangN then [{ g with state := .refused }] else []) }
  | some g =>
    if g.state = .refused then (s.writeRefusal l (if reason = 0 then 8 else reason)).countPart g.id
    else if g.state ≠ .collect then s.writeRefusal l (if reason = 0 then 8 else reason)
    else if g.clashes l reason then
      ((s.refuseParts g).writeRefusal l (if reason = 0 then 8 else reason)).countPart g.id
    else (s.addLaunch l).mapGang g.id fun g => { g with parts := g.parts ++ [(l.gpart, l.seq)], seen := g.seen + 1 }

/-- Teams of a launch that an empty core holds (01 R28, 10 R206). -/
def Launch.perCore (l : Launch) : Nat :=
  let cap := l.pool.capacity
  let dem := l.krec.demand
  let r := cap.getD (limiting cap dem) 0 / max 1 (dem.getD (limiting cap dem) 0)
  if l.krec.nt = 0 then r else min r (4 / l.krec.nt)

/-- Teams of a launch that the cores of a die hold at once, with their private areas in the die's part of the near share (03
R73). -/
def State.teamsOnDie (s : State) (l : Launch) (die : Nat) : Nat :=
  let n := ((s.coresOf l.domain).filter fun c => decide (dieOfCore c = die)).length * l.perCore
  if l.privBytes = 0 then n else min n (s.privShare l.fn / l.privBytes)

/-- The grid can at some time be placed at once. -/
def State.gangFits (s : State) (l : Launch) : Bool := decide (l.grid ≤ ((List.range 8).map (s.teamsOnDie l)).sum)

/-! RESERVE, BACKOFF and COMMIT. -/

/-- Hold a core's resources for one team of a part; an empty core of another configuration is switched for it. -/
def State.reserveTeam (l : Launch) (s : State) (index : Nat) : Option State :=
  let hold (s : State) (c : Nat) : State := s.mapGang l.gang fun g => { g with reserved := g.reserved ++ [(l.seq, index, c)] }
  match bestCore (fun c => (s.freeOn c).getD (limiting l.pool.capacity l.krec.demand) 0)
      ((s.coresOf l.domain).filter (s.fitsOn l)) with
  | some c => some (hold s c)
  | none =>
    let open' := (s.toSwitch l).filter fun c => (s.cores.getD c Core.reset).marked.isNone && s.privRoom l 1 (dieOfCore c)
    open'.head?.map fun c => hold (s.mapCore c fun x => x.setPool l.pool) c

/-- Hold resources for every team of a part, or for none. -/
def State.reservePart (s : State) (n : Nat) : State := match s.launch? n with
  | none => s
  | some l => ((List.range l.grid).foldlM (State.reserveTeam l) s).getD s

/-- Every part of the gang has its resources. -/
def Gang.allHeld (g : Gang) : Bool := g.parts.all fun p => g.reserved.any fun r => decide (r.1 = p.2)

/-- All parts are read and their waits satisfied, as far as they lie on this module. -/
def State.gangCollected (s : State) (g : Gang) : Bool :=
  (decide (g.parts.length = g.size) || s.gangAbroad g) && g.parts.all fun p =>
    ((s.launch? p.2).map fun l => decide (l.stage = .gang)).getD false

/-- Partitions of a gang's parts. -/
def State.gangFns (s : State) (g : Gang) : List Nat := g.parts.filterMap fun p => (s.launch? p.2).map (·.fn)

/-- Both have backed off, and a gang of lower number is making its reservation in a partition of this one. -/
def State.gangYields (s : State) (g : Gang) : Bool :=
  g.backed && s.gangs.any fun h => h.backed && decide (h.id.toNat < g.id.toNat) && decide (h.state = .reserve) &&
    (s.gangFns h).any fun f => (s.gangFns g).contains f

/-- A part on another module is refused, and every part with it. -/
def State.refusedAbroad (s : State) (g : Gang) : Bool :=
  decide (g.state = .collect) && s.gangAbroad g && Config.abroadRefuses s.free

/-- The parts on other modules hold their resources too. -/
def State.abroadHeld (s : State) (g : Gang) : Bool := !s.gangAbroad g || Config.abroadHolds s.free

/-- A look at the other modules takes the next free value. -/
def State.lookAbroad (s : State) (g : Gang) : State := if s.gangAbroad g then { s with free := s.free + 1 } else s

/-- A part on another module is refused: it counts as read, and the parts collected here are refused with it. -/
def State.refuseAbroad (s : State) (g : Gang) : State :=
  if s.partsStall g then s
  else ((s.lookAbroad g).mapGang g.id fun x => { x with seen := x.seen + 1 }).refuseParts g

/-- GANG_RESERVE: from COLLECT once every part is read and its waits satisfied, or again in RESERVE; what the other modules of a
gang do is a free value at each look (DESIGN CHOICE, assumption 57). -/
def execGangReserve (gang : BitVec 32) (s : State) : Res :=
  match s.gang? gang with
  | none => .next s
  | some g =>
    if s.refusedAbroad g then .next (s.refuseAbroad g)
    else if g.state = .reserve ∨ (g.state = .collect ∧ s.gangCollected g) then
      let start (x : Gang) : Gang := if x.state = .collect then { x with state := .reserve, since := s.clock.gtime } else x
      let s1 := s.mapGang gang start
      if s1.gangYields g then .next s1
      else
        let todo := g.parts.filter fun p => !(g.reserved.any fun r => decide (r.1 = p.2))
        let s2 := todo.foldl (fun (s : State) p => s.reservePart p.2) s1
        .next ((s2.mapGang gang fun x => if x.allHeld && s.abroadHeld g then { x with state := .commit } else x).lookAbroad g)
    else .next s

/-- GANG_RESERVE_TIMEOUT: 100 µs have passed; every reservation is released. -/
def execGangReserveTimeout (gang : BitVec 32) (s : State) : Res :=
  .next (s.mapGang gang fun g => if g.state = .reserve && decide (g.since + 100000 ≤ s.clock.gtime) then
    { g with state := .backoff, since := s.clock.gtime, reserved := [], backed := true } else g)

/-- GANG_BACKOFF_RETRY: 50 µs have passed; the retirement of a team does the same in the distributor. -/
def execGangBackoffRetry (gang : BitVec 32) (s : State) : Res :=
  .next (s.mapGang gang fun g => if g.state = .backoff && decide (g.since + 50000 ≤ s.clock.gtime) then
    { g with state := .reserve, since := s.clock.gtime } else g)

/-- GANG_COMMIT: every team of every part is placed at once. -/
def execGangCommit (gang : BitVec 32) (s : State) : Res :=
  match s.gang? gang with
  | none => .next s
  | some g =>
    if g.state ≠ .commit then .next s
    else
      let mine (l : Launch) : Bool := g.parts.any fun p => decide (p.2 = l.seq)
      let s1 := s.mapGang gang fun g => { g with state := .run, reserved := [] }
      let s2 := { s1 with launches := s1.launches.map fun l => if mine l then { l with stage := .ready } else l }
      .next (g.reserved.foldl (fun (s : State) r => match s.launch? r.1 with
        | some l => s.placeTeam l r.2.1 r.2.2
        | none => s) s2)

/-- QUARANTINE_TIMEOUT: a launch on the quarantine cell is stopped at the operator's limit, and completes FAULTED with TIMEOUT
(R348, 26 R394). -/
def execQuarantineTimeout (launch : Nat) (s : State) : Res :=
  match s.launch? launch with
  | none => .next s
  | some l =>
    .next (if l.quarantined && decide (l.stage = .ready) && decide (0 < l.nextTeam) && decide (l.retired < l.grid) &&
        l.away.isNone && decide (l.placedAt + 1000 * l.qlimitUs ≤ s.clock.gtime) then
      ({ s with telemetry := { s.telemetry with qtimeout := satInc s.telemetry.qtimeout } }.abortLaunch l 9).mapLaunch launch
        fun m => { m with aborted := l.aborted, dieLost := l.dieLost, reason := 9 }
    else s)

end Sys2Proof.Machine
end

