-- ==== Sys2Proof/Machine/SysReg.lean ====
section
/-! DEFINITION. System registers, MODE, SHAPE and STEP (spec 07 R151-R157, R161) and ICINV (09 R198). -/

namespace Sys2Proof.Machine

/-- IDENT (07 R153). -/
def identWord : W64 := 0x0D17090901010000

/-- GTSTAT (04 R109). -/
def GtStat.word (g : GtStat) : W64 :=
  BitVec.ofNat 64 (g.losses.toNat * 2 ^ 16 + (if g.slewing then 2 else 0) + (if g.locked then 1 else 0))

/-- PATCHID of the active image (07 R154); without an enabled slot IMAGE reads 0 (25 R378). -/
def patchIdOf : Option Image → W64
  | none => 0
  | some im =>
    let slots := im.slots.zipIdx.foldl (fun a p => if p.1.enable then a + 2 ^ p.2 else a) 0
    let name := if slots = 0 then 0 else im.image.toNat
    BitVec.ofNat 64 (name * 2 ^ 32 + slots % 2 ^ 16 * 2 ^ 16 + im.version.toNat)

/-- The value of a system register (07 R151). -/
def Ctx.sysReg (c : Ctx) (n : Nat) : W64 :=
  let core := c.s.cores.getD c.core Core.reset
  if n = 0x00 then BitVec.ofNat 64 (c.s.clock.cycles - core.cycleBase)
  else if n = 0x01 then c.s.vtime c.team
  else if n = 0x02 then BitVec.ofNat 64 c.s.clock.gtime
  else if n = 0x03 then c.s.gtstat.word
  else if n = 0x04 then c.s.chstat c.team
  else if n = 0x05 then core.poolReg.zeroExtend 64
  else if n = 0x06 then core.poolScr.zeroExtend 64
  else if n = 0x07 then core.poolL1.zeroExtend 64
  else if n = 0x08 then identWord
  else if n = 0x09 then patchIdOf c.s.patchImage?
  else if n = 0x0A then c.group.vtcmp
  else c.group.stepcnt

/-- SREAD. A GTIME read is ordered after an earlier ACQ or ACQREL access (04 R108). -/
def execSread (d y : BitVec 8) (s : State) : Res :=
  issue (.sread d y) s ([.dstS 0 d, .field 1 (decide (y.toNat < 0x0C))] ++ if y = 0x02 then [.access] else []) fun c => c.finishS d (c.sysReg y.toNat)

/-- SWRITE: VTCMP is the one register a program writes. -/
def execSwrite (y b : BitVec 8) (s : State) : Res :=
  issue (.swrite y b) s [.field 1 (decide (y = 0x0A)), .srcS 2 .epb b] fun c =>
    .next (c.put ({ c.group with vtcmp := c.readS b }).advance)

/-- The channels on which this group has an operation that is not acknowledged, a copy with chunks to be sent included. -/
def Ctx.ownChannels (c : Ctx) : List Nat :=
  (List.range 16).filter fun ch =>
    (c.s.packets.any fun p =>
      decide (p.stream.owner = .team c.id.team) && decide (p.stream.chan = ch) && decide (p.group = c.id.group) && !p.acked) ||
    c.s.copies.any fun k => decide (k.group = c.id) && c.s.unsentOn c.id.team ch k

/-- The bounds check of a whole range from a pointer's offset (03 R70, step 4). -/
def checkRange (v : SegView) (p : W64) (n : Nat) : Chk Unit :=
  if ptrOff p + n ≤ v.limit then .ok () else .trap (.bounds p 0 0)

/-- ICINV (09 R198): a byte count of 0 completes at once; what the drain waits for is performed, and local stores are performed
when they issue. Instruction caches are not state of the model (assumption 7). -/
def execIcinv (a b : BitVec 8) (s : State) : Res :=
  issue (.icinv a b) s [.srcS 1 .epa a, .srcS 2 .epb b] fun c =>
    let p := c.readS a
    let n := (c.readS b).toNat
    if n = 0 then .next (c.put c.group.advance)
    else c.check (.icinv a b) ((checkSeg c.launch (ptrSeg p) p [.px, .pc] false 0 0).andThen fun v => checkRange v p n) fun _ =>
      c.check (.icinv a b) c.lostAny fun _ =>
        c.drain (c.ownChannels.flatMap fun ch => c.s.unackedOn c.id.team ch) fun _ => .next (c.put c.group.advance)

/-- MODE IMM24 (R138, R156). -/
def execMode (i : BitVec 24) (s : State) : Res :=
  issue (.mode i) s [.field 10 (modeLegal i)] fun c => .next (c.put ({ c.group with mode := i }).advance)

def execModerd (d : BitVec 8) (s : State) : Res :=
  issue (.moderd d) s [.dstS 0 d] fun c => c.finishS d (c.group.mode.zeroExtend 64)

/-- SHAPE A (R157): a NaN pattern is an illegal operand. -/
def execShape (a : BitVec 8) (s : State) : Res :=
  issue (.shape a) s [.srcS 1 .epa a] fun c =>
    let w : W32 := (c.readS a).truncate 32
    if fp32.decode w.toNat = .nan then c.fault (.shape a) (.illegalOperand (wordOf (.shape a)) 10)
    else .next (c.put ({ c.group with shape := w }).advance)

def execShaperd (d : BitVec 8) (s : State) : Res :=
  issue (.shaperd d) s [.dstS 0 d] fun c => c.finishS d (c.group.shape.zeroExtend 64)

/-- A STEP that a stop request acts on: one of a stepped kernel (14 R290, 24 R358), and in fused code one of the step table
(22 R329). -/
def Ctx.stepListed (c : Ctx) : Bool :=
  c.launch.krec.stepped && match c.launch.fused with
    | none => true
    | some m => decide (ptrSeg c.group.pc ≠ 0xFFFD) || m.steps.contains (ptrOff c.group.pc)

/-- STEP (R161): a pending stop request of the launch holds the group after it, among rewritten words after the last (25 R376). -/
def execStep (s : State) : Res :=
  issue .step s [] fun c =>
    .next (c.put { c.group with
      stepcnt := c.group.stepcnt + 1
      due := if c.launch.stopReq && c.stepListed then some .stepHeld else c.group.due }.advance)

end Sys2Proof.Machine
end

