-- ==== Sys2Proof/Machine/Packets.lean ====
section
/-! DEFINITION. The command processor's reading of queues (spec 23 R336-R340, R348) and the packets NOP, INVAL, DEBUG (R338, 13
R272, R273) and PFREPLY (R345). -/

namespace Sys2Proof.Machine

/-! Reading a queue. -/

/-- A packet that has been read holds its queue: a LAUNCH whose awaited launches are outstanding, and a GLOAD that waits for
replays (R340). -/
def State.queueHeld (s : State) (fn k : Nat) : Bool :=
  (s.launches.any fun l => decide (l.fn = fn) && decide (l.queue = k) && l.node.isNone && decide (l.stage = .waiting)) ||
  s.deferred.any fun d => decide (d.fn = fn) && decide (d.queue = k)

/-- The command processor may read the next packet of a queue. -/
def State.queueLive (s : State) (fn k : Nat) : Bool :=
  let q := (s.fns.getD fn Fn.reset).queues.getD k Queue.reset
  q.enable && (decide (q.qstate = .active) || decide (q.qstate = .quarantined)) && decide (q.qhead ≠ q.qtail) &&
    !s.queueHeld fn k

/-- The address of the entry that a queue reads next (R336). -/
def Queue.nextAddr (q : Queue) : Nat := q.entryAddr q.qhead

/-- The next entry of the queue lies in a page in transit, so that this queue waits (03 R86). -/
def State.queueStalls (s : State) (fn k : Nat) : Bool :=
  let q := (s.fns.getD fn Fn.reset).queues.getD k Queue.reset
  s.cpStalls fn q.qloc q.nextAddr 64 false

/-- The level of a queue. -/
def Fn.level (f : Fn) (k : Nat) : Nat := (f.queues.getD k Queue.reset).prio.toNat

/-- The queues of a function that have a packet to be read. -/
def State.readable (s : State) (fn : Nat) : List Nat := (List.range 64).filter fun k => s.queueLive fn k && !s.queueStalls fn k

/-- The queue of a level that is read next: in turn by ascending number (R340). -/
def State.levelNext (s : State) (fn p : Nat) : Option Nat :=
  let f := s.fns.getD fn Fn.reset
  let level := (s.readable fn).filter fun k => decide (f.level k = p)
  (level.find? fun k => decide (f.served.getD p 63 < k)).or level.head?

/-- The queue of a function that is read next: of the highest level that has a packet (R340). -/
def State.nextQueue (s : State) (fn : Nat) : Option Nat :=
  s.levelNext fn (((s.readable fn).map (s.fns.getD fn Fn.reset).level).max?.getD 0)

/-- An ACTIVE queue whose doorbell rang long enough ago, no packet of it read since, is read whatever the load on other levels, when
it is next in its own (R340). -/
def State.queueDue (s : State) (fn k : Nat) : Bool :=
  let q := (s.fns.getD fn Fn.reset).queues.getD k Queue.reset
  decide (q.qstate = .active) && (q.rung.any fun t => decide (t + Config.queueWait (k + 64 * q.qhead.toNat) % 10000 ≤ s.clock.gtime)) &&
    decide (s.levelNext fn q.prio.toNat = some k)

/-- The next packet of a queue whose turn it is: the queue, and the packet's words when they can be read. -/
def State.nextPacket (s : State) (fn k : Nat) : Option (Queue × Option (List W64)) :=
  if s.nextQueue fn ≠ some k && !s.queueDue fn k then none
  else
    let q := (s.fns.getD fn Fn.reset).queues.getD k Queue.reset
    some (q, s.queueEntry fn q q.qhead)

/-- A word of a packet as a number. -/
def pword (w : List W64) (k : Nat) : Nat := (w.getD k 0).toNat

def packetKind (w : List W64) : Nat := pword w 0 % 2 ^ 8
/-- LID of a LAUNCH; the tag of any other packet. -/
def packetTag (w : List W64) : W32 := BitVec.ofNat 32 (pword w 0 / 2 ^ 32)
/-- The command of a DEBUG packet. -/
def debugCommand (w : List W64) : Nat := pword w 2 / 2 ^ 8 % 2 ^ 8

/-- The packet's type is assigned and no reserved bit or code of it is set (R337). -/
def packetWellFormed (w : List W64) : Bool :=
  let zero (ks : List Nat) : Bool := ks.all fun k => decide (pword w k = 0)
  decide (pword w 0 / 2 ^ 8 % 2 ^ 24 = 0) &&
  if packetKind w = 1 then ([2, 3, 4, 5].all fun k => decide (pword w k < 2 ^ 32)) && zero [7]
  else if packetKind w = 2 then zero [1, 2, 3, 4, 5, 7]
  else if packetKind w = 3 then zero [3, 4, 5, 7]
  else if packetKind w = 4 then
    decide (1 ≤ debugCommand w ∧ debugCommand w ≤ 5) && decide (pword w 2 / 2 ^ 18 % 2 ^ 6 = 0) && zero [4, 5, 7]
  else if packetKind w = 5 then decide (pword w 2 ≤ 1) && zero [3, 4, 5, 6, 7]
  else if packetKind w = 6 then
    decide (pword w 2 / 2 ^ 17 % 2 ^ 15 = 0) && decide (pword w 2 / 2 ^ 33 = 0) && zero [3, 4, 5, 7]
  else false

def State.mapQueue (s : State) (fn k : Nat) (f : Queue → Queue) : State :=
  s.mapFn fn fun x => { x with queues := x.queues.modify k f }

/-- The packet has been read: its page has been accessed, QHEAD moves on, and the level remembers the queue. -/
def State.consume (s : State) (fn k : Nat) : State :=
  let q := (s.fns.getD fn Fn.reset).queues.getD k Queue.reset
  (s.cpMark fn q.qloc q.nextAddr 64).mapFn fn fun f =>
    { f with
      queues := f.queues.modify k fun q => { q with qhead := q.qhead + 1, rung := none }
      served := f.served.set (f.queues.getD k Queue.reset).prio.toNat k }

/-- A producer of the queue that waits for its splice consumer runs unspliced after all (22 R320). -/
def State.unpair (s : State) (fn k : Nat) : State :=
  { s with launches := s.launches.map fun l =>
      if l.fn = fn ∧ l.queue = k ∧ l.stage = .pairing then { l with stage := .ready } else l }

/-- Launches read from a queue that is quarantined now and placed nowhere yet go to the quarantine cell, alone and without cut
protection; a gang that is still collected and has a part among them is refused (R348). -/
def State.quarantine (s : State) (fn k : Nat) : State :=
  let s1 := (s.collecting fn k).foldl State.refuseParts s
  { s1 with launches := s1.launches.map fun l =>
      if l.fn = fn ∧ l.queue = k ∧ l.node.isNone ∧ l.gang = 0 ∧ l.nextTeam = 0 ∧ l.stage ≠ .complete then
        { l with quarantined := true, cutp := false }
      else l }

/-- The demotion of a queue has to wait for the record of a part that it refuses. -/
def State.demoteHeld (s : State) (fn k : Nat) : Bool :=
  s.mgmt.qcell.isSome && (s.collecting fn k).any s.partsStall

/-- Demote a queue (R348). -/
def State.demote (s : State) (fn k err : Nat) (index : W32) : State :=
  let s1 := s.unpair fn k
  (if s.mgmt.qcell.isSome then s1.quarantine fn k else s1).mapQueue fn k fun q =>
    { q with
      qstate := if s.mgmt.qcell.isSome then .quarantined else .stopped
      qerr := BitVec.ofNat 8 err
      qerrix := index }

/-- A packet other than LAUNCH that is malformed is consumed: its queue is demoted and the packet completes with MALFORMED; a
PFREPLY writes no completion (R338, R348). -/
def State.malformed (s : State) (fn k : Nat) (q : Queue) (w : List W64) : State :=
  let s1 := (s.consume fn k).demote fn k 1 q.qhead
  if packetKind w = 5 then s1 else s1.cpComplete fn q.qloc (w.getD 6 0) (packetTag w) 5 false 0

/-- Read the next packet of a queue, if it is of a kind that `ok` accepts, and do `f` with it. -/
def packetOf (fn k : Nat) (ok : List W64 → Bool) (s : State) (f : Queue → List W64 → State) : Res :=
  match s.nextPacket fn k with
  | some (q, some w) =>
    if ok w && !(decide (packetKind w ≠ 5) && s.cpStalls fn q.qloc (pword w 6) 16 true) &&
        (packetWellFormed w || !s.demoteHeld fn k) then .next (f q w)
    else .next s
  | _ => .next s

/-- A NOP packet after which the queue has more: a splice waits over such packets alone (22 R320). -/
def passesNop (q : Queue) (w : List W64) : Bool := decide (packetKind w = 2) && decide (q.qhead + 1 ≠ q.qtail)

/-- A packet other than LAUNCH of one kind: malformed, or its effect with the packet consumed. -/
def plainPacket (fn k : Nat) (ok : List W64 → Bool) (s : State) (f : State → Queue → List W64 → State) : Res :=
  packetOf fn k ok s fun q w =>
    if packetWellFormed w then
      f ((if passesNop q w then s else s.unpair fn k).consume fn k) q w
    else s.malformed fn k q w

/-- Complete a packet with a status. -/
def State.answer (s : State) (fn : Nat) (q : Queue) (w : List W64) (status : Nat) (empty : Bool) (data : W64) : State :=
  s.cpComplete fn q.qloc (w.getD 6 0) (packetTag w) status empty data

/-- RESERVED_PACKET: a packet of reserved PTYPE or with a reserved command is malformed; an unreadable one demotes the queue
(R348). -/
def execReservedPacket (fn q : Nat) (s : State) : Res :=
  match s.nextPacket fn q with
  | some (x, none) => .next (if s.demoteHeld fn q then s else (s.consume fn q).demote fn q 2 x.qhead)
  | _ => packetOf fn q (fun w => !packetWellFormed w && decide (packetKind w ≠ 1)) s fun x w => s.malformed fn q x w

/-- NOP. -/
def execNopPacket (fn q : Nat) (s : State) : Res :=
  plainPacket fn q (fun w => decide (packetKind w = 2)) s fun s x w => s.answer fn x w 0 false 0

/-! Invalidation (03 R81). -/

/-- INVAL waits for every access of the function that may have used a removed translation. -/
def execInval (fn q : Nat) (s : State) : Res :=
  plainPacket fn q (fun w => decide (packetKind w = 3)) s fun s x w =>
    { s with invals := s.invals ++ [{
        fn := fn
        waits := (s.packets.filter fun p => !p.performed).map (·.id)
        start := pword w 1
        len := pword w 2
        tag := packetTag w
        compAddr := w.getD 6 0
        compDev := x.qloc }] }

/-- INVAL_COMPLETE: those accesses have been performed. The model keeps no translation but in the tables. -/
def execInvalComplete (k : Nat) (s : State) : Res := match s.invals[k]? with
  | none => .next s
  | some v =>
    .next (if (s.packets.all fun p => p.performed || !v.waits.contains p.id) && !s.cpStalls v.fn v.compDev v.compAddr.toNat 16 true then
      { (s.cpComplete v.fn v.compDev v.compAddr v.tag 0 false 0) with invals := s.invals.eraseIdx k }
    else s)

/-! DEBUG (R338; 13 R272, R273). -/

/-- The group that a DEBUG packet names: of an outstanding launch of the function, its team resident or saved. -/
def State.debugTarget (s : State) (fn : Nat) (w : List W64) : Option (Launch × Team × GroupId × Group) :=
  match s.launches.find? fun l => decide (l.fn = fn) && decide (l.lid = BitVec.ofNat 32 (pword w 1)) && decide (l.stage ≠ .complete) with
  | none => none
  | some l =>
    let id : GroupId := ⟨⟨l.seq, pword w 1 / 2 ^ 32⟩, pword w 2 % 2 ^ 8⟩
    match s.team? id.team, s.group? id with
    | some t, some g => if t.core?.isSome || decide (t.place = .saved) then some (l, t, id, g) else none
    | _, _ => none

/-- A DEBUG packet of one command. -/
def debugPacket (fn k cmd : Nat) (s : State)
    (f : State → Queue → List W64 → Launch → Team → GroupId → Group → State) : Res :=
  plainPacket fn k (fun w => decide (packetKind w = 4) && decide (debugCommand w = cmd)) s fun s x w =>
    match s.debugTarget fn w with
    | none => s.answer fn x w 3 false 0
    | some (l, t, id, g) => f s x w l t id g

/-- DEBUG STOP completes once the group has stopped. -/
def execDebugStop (fn q : Nat) (s : State) : Res :=
  debugPacket fn q 1 s fun s x w _ _ id g =>
    if g.atRest then s.answer fn x w 0 false 0
    else { (s.mapGroup id fun g => { g with evStop := true }) with
      stops := s.stops ++ [⟨id, fn, packetTag w, w.getD 6 0, x.qloc⟩] }

/-- DEBUG RESUME, with STEP for one instruction. -/
def execDebugResume (fn q : Nat) (s : State) : Res :=
  debugPacket fn q 2 s fun s x w _ _ id g =>
    if !g.atRest then s.answer fn x w 2 false 0
    else
      let go (g : Group) : Group :=
        if g.run = .ended then g else { g with run := .running, stepOnce := if pword w 2 / 2 ^ 17 % 2 = 1 then .armed else .off }
      (s.mapGroup id go).answer fn x w 0 false 0

/-- DEBUG BREAK arms or disarms the BRK stops of the launch. -/
def execDebugBreak (fn q : Nat) (s : State) : Res :=
  debugPacket fn q 5 s fun s x w l _ _ _ =>
    (s.mapLaunch l.seq fun l => { l with breakArmed := decide (pword w 3 % 2 = 1) }).answer fn x w 0 false 0

/-- What a DEBUG WRITE answers. -/
inductive DebugWrite where
  | ok (g : Group)
  | pending
  | bad
  deriving DecidableEq, Repr

/-- The element of a lane of a slot. -/
def VSlot.lane (x : VSlot) (l : Nat) : W32 := x.val.at l

/-- Value and emptiness of an item (R338); `none` when it does not exist. `un` is the unspecified content of an empty one. -/
def debugItem (g : Group) (budget : Nat) (vt : W64) (un : W64) (cls ix : Nat) : Option (W64 × Bool) :=
  let lane := ix % 128
  let slotV (q : List VSlot) (k : Nat) : Option (W64 × Bool) := (q[k]?).map fun x =>
    if x.pend.isSome then (un, true) else ((x.lane lane).zeroExtend 64, false)
  let slotS (q : List SSlot) (k : Nat) : Option (W64 × Bool) := (q[k]?).map fun x =>
    if x.pend.isSome then (un, true) else (x.val, false)
  let fullOf (o : Option Bool) : Option (W64 × Bool) := o.map fun b => (if b then 1 else 0, false)
  if cls = 1 then (if ix < 2 ^ 14 ∧ ix / 128 < budget then slotV g.vregs (ix / 128) else none)
  else if cls = 2 then (if ix < 2 ^ 12 then slotV g.vqueue (ix / 128) else none)
  else if cls = 3 then slotS g.sregs ix
  else if cls = 4 then slotS g.squeue ix
  else if cls = 5 then
    (if ix < 128 then (if ix < budget then fullOf ((g.vregs[ix]?).map (·.pend.isNone)) else none)
    else if ix < 256 then fullOf ((g.sregs[ix - 128]?).map (·.pend.isNone))
    else if ix < 384 then fullOf ((g.vqueue[ix - 256]?).map (·.pend.isNone))
    else fullOf ((g.squeue[ix - 384]?).map (·.pend.isNone)))
  else if cls = 6 then (g.preds[ix]?).map fun b => (b.zeroExtend 64, false)
  else if cls = 7 then (g.nest[ix]?).map fun b => (b.zeroExtend 64, false)
  else if cls = 8 then
    if ix = 0 then some (g.pc, false)
    else if ix = 1 then some (g.mode.zeroExtend 64, false)
    else if ix = 2 then some (g.shape.zeroExtend 64, false)
    else if ix = 3 then some (g.vtcmp, false)
    else if ix = 4 then some (if g.inTrap then 1 else 0, false)
    else if ix = 5 then some (vt, false)
    else if ix = 6 then some (g.stepcnt, false)
    else if ix = 7 then some (g.family.zeroExtend 64, false)
    else none
  else if cls = 9 then (if ix < 8 then some (g.record.word ix, false) else none)
  else if cls = 10 then slotS g.trapQueue ix
  else if cls = 11 then
    if ix < 2 ^ 11 then
      (g.ns[ix / 128 % 4]?).map fun n =>
        let p := ix / 512
        (((if p = 0 then n.x else if p = 1 then n.s else if p = 2 then n.n else n.m).at lane).zeroExtend 64, false)
    else none
  else none

/-- The origin record of a fused PC (22 R331, 20 R308): it stands beside the completion, as data for the host, since the spec
gives it no place (assumption 86). -/
def originBytes (l : Launch) (pc : W64) : List Byte := match l.fused with
  | none => []
  | some m => match m.origin? pc with
    | none => []
    | some o => wordBytes [BitVec.ofNat 64 (ptrOff pc + o.side * 2 ^ 32), BitVec.ofNat 64 o.off]

/-- DEBUG READ. -/
def execDebugRead (fn q : Nat) (s : State) : Res :=
  debugPacket fn q 3 s fun s x w l t id g =>
    if !g.atRest then s.answer fn x w 2 false 0
    else
      let un : W64 := (Config.unstated s.free 0).zeroExtend 64
      let cls := pword w 2 / 2 ^ 24 % 2 ^ 8
      let ix := pword w 2 / 2 ^ 32
      match debugItem g (t.budgetOf l id.group) (s.vtime t) un cls ix with
      | none => s.answer fn x w 3 false 0
      | some (v, e) =>
        let origin := if cls = 8 ∧ ix = 0 then originBytes l g.pc else []
        { s with free := s.free + 1, hostData := if origin.isEmpty then s.hostData else origin }.answer fn x w 0 e v

/-- Write an item of a slot list: refused while a writeback is pending, unless forced, which cancels it (13 R273). -/
def writeSlot {α : Type} (q : List (Slot α)) (k : Nat) (force : Bool) (f : α → α) (put : List (Slot α) → Group) : DebugWrite :=
  match q[k]? with
  | none => .bad
  | some x => if x.pend.isSome && !force then .pending else .ok (put (q.set k ⟨f x.val, none⟩))

/-- Write the element of a lane. -/
def setLane (lane : Nat) (v : W64) (x : Lanes) : Lanes := x.set lane (v.truncate 32)

/-- DEBUG WRITE of one item (R338, 13 R272, R273). -/
def debugPut (g : Group) (budget : Nat) (force : Bool) (cls ix : Nat) (v : W64) : DebugWrite :=
  let lane := ix % 128
  let vreg (q : List VSlot) : Group := { g with vregs := q }
  let vque (q : List VSlot) : Group := { g with vqueue := q }
  let sreg (q : List SSlot) : Group := { g with sregs := q }
  let sque (q : List SSlot) : Group := { g with squeue := q }
  if cls = 1 then (if ix < 2 ^ 14 ∧ ix / 128 < budget then writeSlot g.vregs (ix / 128) force (setLane lane v) vreg else .bad)
  else if cls = 2 then (if ix < 2 ^ 12 then writeSlot g.vqueue (ix / 128) force (setLane lane v) vque else .bad)
  else if cls = 3 then writeSlot g.sregs ix force (fun _ => v) sreg
  else if cls = 4 then writeSlot g.squeue ix force (fun _ => v) sque
  else if cls = 5 then
    if v.toNat % 2 = 0 then .bad
    else if ix < 128 then (if ix < budget then writeSlot g.vregs ix force id vreg else .bad)
    else if ix < 256 then writeSlot g.sregs (ix - 128) force id sreg
    else if ix < 384 then writeSlot g.vqueue (ix - 256) force id vque
    else writeSlot g.squeue (ix - 384) force id sque
  else if cls = 6 then (if ix < g.preds.length then .ok { g with preds := g.preds.set ix (v.truncate 8) } else .bad)
  else if cls = 7 then (if ix < g.nest.length then .ok { g with nest := g.nest.set ix (v.truncate 8) } else .bad)
  else if cls = 8 then
    if ix = 0 then .ok { g with pc := v, rewriting := none }
    else if ix = 1 then (if modeLegal (v.truncate 24) then .ok { g with mode := v.truncate 24 } else .bad)
    else if ix = 2 then
      (if fp32.decode (v.toNat % 2 ^ 32) = .nan then .bad else .ok { g with shape := v.truncate 32 })
    else if ix = 3 then .ok { g with vtcmp := v }
    else .bad
  else if cls = 10 then writeSlot g.trapQueue ix force (fun _ => v) fun q => { g with trapQueue := q }
  else if cls = 11 then
    if ix < 2 ^ 11 then .ok { g with ns := g.ns.modify (ix / 128 % 4) fun n =>
      let p := ix / 512
      if p = 0 then { n with x := setLane lane v n.x }
      else if p = 1 then { n with s := setLane lane v n.s }
      else if p = 2 then { n with n := setLane lane v n.n }
      else { n with m := setLane lane v n.m } }
    else .bad
  else .bad

/-- DEBUG WRITE. -/
def execDebugWrite (fn q : Nat) (s : State) : Res :=
  debugPacket fn q 4 s fun s x w l t id g =>
    if !g.atRest then s.answer fn x w 2 false 0
    else match debugPut g (t.budgetOf l id.group) (decide (pword w 2 / 2 ^ 16 % 2 = 1)) (pword w 2 / 2 ^ 24 % 2 ^ 8)
        (pword w 2 / 2 ^ 32) (w.getD 3 0) with
      | .ok g' => (State.noteWrites s id [] (s.setGroup id g')).answer fn x w 0 false 0
      | .pending => s.answer fn x w 1 false 0
      | .bad => s.answer fn x w 3 false 0

/-! Page faults answered (R345, 03 R80). -/

/-- The outstanding fault of a function with a sequence number. -/
def State.faultOf? (s : State) (fn : Nat) (n : Nat) : Option PageFault :=
  (s.fns.getD fn Fn.reset).faults.find? fun p => decide (p.seqno = some n)

def State.dropFault (s : State) (fn : Nat) (p : PageFault) : State :=
  s.mapFn fn fun f => { f with faults := f.faults.filter fun x => decide (x ≠ p) }

/-- A declined page fault reaches its group at once, also in a trap handler or between rewritten words; a group that has ended or has
been stopped takes none (DESIGN CHOICE, assumption 101: R268 does not say when the fault of an engine's command is taken). -/
def State.deliverPage (s : State) (id : GroupId) (p : PageFault) : State := match s.group? id with
  | none => s
  | some g =>
    if g.atRest then s
    else
      let s1 := s.setGroup id { g.replayed with run := .running }
      match p.who, s.team? id.team, s.launch? id.team.launch with
      | .handler _ slot, some t, some l =>
        s1.deliverPatched id slot (mkRecord l g (.page p.va p.write p.maskLo p.maskHi) false (s.vtime t))
      | _, _, _ => s1.deliver id (.page p.va p.write p.maskLo p.maskHi) false (s.wordAt id)

/-- Replay: the group executes its instruction again; a sequencer, a copy or a replay goes on where it was. -/
def State.resumeFault (s : State) (p : PageFault) : State := match p.who with
  | .group id => s.mapGroup id fun g => if g.run = .pageWait then { g.replayed with run := .running } else g
  | .handler id _ => s.mapGroup id fun g => if g.run = .pageWait then { g with run := .running } else g
  | .sequencer t => s.mapTeam t fun t => { t with seq := t.seq.map fun q => { q with pageWait := false } }
  | .copy id => s.mapCopy id fun k => { k with pageWait := false }
  | .node r n =>
    { s with replays := s.replays.map fun x =>
      if x.id = r then
        { x with paged := false, states := x.states.modify n fun st => if st = .paged then .started else st }
      else x }

/-- PFREPLY with replay. One that names no outstanding entry has no effect. -/
def execPfreplyReplay (fn q : Nat) (s : State) : Res :=
  plainPacket fn q (fun w => decide (packetKind w = 5) && decide (pword w 2 = 0)) s fun s _ w =>
    match s.faultOf? fn (pword w 1) with
    | none => s
    | some p => (s.dropFault fn p).resumeFault p

/-- The group to which a declined fault is delivered: that which issued the engine command; for a sequencer group 0. -/
def State.faultGroup (s : State) : FaultWho → Option GroupId
  | .group id => some id
  | .handler id _ => some id
  | .sequencer t => some ⟨t, 0⟩
  | .copy id => (s.copies.find? fun k => decide (k.id = id)).map (·.group)
  | .node r _ => (s.replays.find? fun x => decide (x.id = r)).map (·.group)

/-- PFREPLY with deliver: PAGE at the group (13 R268). What an engine or a sequencer was doing stays held. -/
def execPfreplyDeliver (fn q : Nat) (s : State) : Res :=
  plainPacket fn q (fun w => decide (packetKind w = 5) && decide (pword w 2 = 1)) s fun s _ w =>
    match s.faultOf? fn (pword w 1) with
    | none => s
    | some p => match s.faultGroup p.who with
      | none => s.dropFault fn p
      | some id => (s.dropFault fn p).deliverPage id p

end Sys2Proof.Machine
end

