-- ==== Sys2Proof/Machine/Registers.lean ====
section
/-! DEFINITION. What hosts do to the module: registers of a function and of its queues (spec 23 R334, R336, R345), the management
window (26 R380), the host aperture (23 R335), CXL (R349), PRI and ATS (R345). -/

namespace Sys2Proof.Machine

/-! Queue registers (R336). -/

/-- A doorbell write: ignored while the queue is disabled; an invalid one demotes the queue. -/
def State.doorbell (s : State) (fn k : Nat) (t : W32) : State :=
  match (s.fns.getD fn Fn.reset).queues[k]? with
  | none => s
  | some q =>
    if !q.enable then s
    else if (t - q.qhead).toNat ≤ 2 ^ q.qsize.toNat ∧ (t - q.qtail).toNat < 2 ^ 31 then
      s.mapQueue fn k fun q => { q with qtail := t, rung := q.rung.or (some s.clock.gtime) }
    else if s.demoteHeld fn k then s
    else s.demote fn k 3 t

def execQtailDoorbell (fn q : Nat) (t : BitVec 32) (s : State) : Res := .next (s.doorbell fn q t)

/-- ENABLE from 0 to 1. -/
def Queue.start (q : Queue) : Queue :=
  if q.enable then q else { q with enable := true, qhead := 0, qtail := 0, qstate := .active }

/-- ENABLE cleared: any demotion is forgotten. -/
def Queue.stop (q : Queue) : Queue :=
  if q.enable then { q with enable := false, qstate := .disabled, qerr := 0, qerrix := 0 } else q

def execQueueEnable (fn q : Nat) (s : State) : Res := .next (s.mapQueue fn q Queue.start)

def execQueueDisable (fn q : Nat) (s : State) : Res := .next ((s.unpair fn q).mapQueue fn q Queue.stop)

/-- QCLEAR: a QUARANTINED or STOPPED queue becomes ACTIVE; on a DISABLED one it is ignored. -/
def Queue.clear (q : Queue) : Queue :=
  if q.qstate = .quarantined ∨ q.qstate = .stopped then { q with qstate := .active } else q

def execQclear (fn q : Nat) (s : State) : Res := .next (s.mapQueue fn q Queue.clear)

/-- A write of a queue's word 1. QSIZE and QLOC stand while ENABLE = 1. -/
def Queue.writeControl (q : Queue) (v : W64) : Queue :=
  let x := v.toNat
  let q1 := { q with prio := BitVec.ofNat 2 (x / 2 ^ 5), splice := decide (x / 2 ^ 8 % 2 = 1) }
  let q2 := if q.enable then q1 else { q1 with qsize := BitVec.ofNat 5 x, qloc := decide (x / 2 ^ 7 % 2 = 1) }
  if x / 2 ^ 9 % 2 = 1 then q2.start else q2.stop

/-- A write of word `w` of a queue. -/
def State.writeQueueWord (s : State) (fn k w : Nat) (v : W64) : State :=
  if w = 0 then s.mapQueue fn k fun q => if q.enable then q else { q with qbase := v }
  else if w = 1 then
    (if v.toNat / 2 ^ 9 % 2 = 0 then s.unpair fn k else s).mapQueue fn k fun q => q.writeControl v
  else if w = 3 then s.doorbell fn k (v.truncate 32)
  else if w = 5 then (if v.toNat % 2 = 1 then s.mapQueue fn k Queue.clear else s)
  else s

/-! The fault queue (R345). -/

/-- Faults that wait for room enter the queue, oldest first, while there is room. -/
def State.enterWaiting (s : State) (fn : Nat) : State :=
  (s.fns.getD fn Fn.reset).faults.foldl (fun s p =>
    if p.seqno.isSome || p.pri || !(s.fns.getD fn Fn.reset).faultRoom then s
    else (s.dropFault fn p).enterFault fn p) s

def State.writeFqctl (s : State) (fn : Nat) (v : W64) : State :=
  s.mapFn fn fun f => if f.faults.isEmpty then { f with fqctl := v &&& 0x1F, fqhead := 0, fqtail := 0, fseq := 0 } else f

def State.writeFqtail (s : State) (fn : Nat) (v : W64) : State :=
  (s.mapFn fn fun f => { f with fqtail := v.truncate 32 }).enterWaiting fn

def execFqctlWrite (fn : Nat) (v : BitVec 64) (s : State) : Res := .next (s.writeFqctl fn v)
def execFqtailWrite (fn : Nat) (v : BitVec 64) (s : State) : Res := .next (s.writeFqtail fn v)

/-! Register areas. -/

/-- An entry of the aperture keeps VALID, WRITABLE and VBASE; its other bits are reserved and read as zero (R335, 00 R4). -/
def apteWritten (v : W64) : W64 := v &&& BitVec.ofNat 64 (3 + (2 ^ 31 - 1) * 2 ^ 26)

/-- A write into the register area of a function (R334). -/
def State.writeFnReg (s : State) (fn off : Nat) (v : W64) : State :=
  if off % 8 ≠ 0 then s
  else if off = 0x10 then s.mapFn fn fun f => if f.faults.isEmpty then { f with fqbase := v } else f
  else if off = 0x18 then s.writeFqctl fn v
  else if off = 0x28 then s.writeFqtail fn v
  else if 0x1000 ≤ off ∧ off < 0x2000 then s.writeQueueWord fn ((off - 0x1000) / 64) (off / 8 % 8) v
  else if 0x3000 ≤ off ∧ off < 0x3200 then s.mapFn fn fun f => { f with aptes := f.aptes.set ((off - 0x3000) / 8) (apteWritten v) }
  else s

/-- A write into the management window (26 R380). Writing MCMD starts a command, unless one runs. -/
def State.writeMgmt (s : State) (off : Nat) (v : W64) : State :=
  if off = 0 then
    if s.mgmt.busy then s
    else { s with mgmt := { s.mgmt with busy := true, op := v.truncate 8, tag := BitVec.ofNat 32 (v.toNat / 2 ^ 32), ran := false } }
  else if off % 8 = 0 ∧ 8 ≤ off ∧ off ≤ 0x20 then
    { s with mgmt := { s.mgmt with margs := s.mgmt.margs.set (off / 8 - 1) v } }
  else s

/-- REGISTER_WRITE: areas 0 to 16 are those of the functions, 17 is the management window; in area 18, which stands for the
driver's setting of page table roots (03 R77), offset 8p is partition p's root; a write of 1 at offset 8k of area 19 programs the
revocation fuse of key slot k, which stays programmed (25 R370; assumption 62). -/
def execRegisterWrite (area off : Nat) (v : BitVec 64) (s : State) : Res :=
  .next (if area < 17 then s.writeFnReg area off v
    else if area = 17 then s.writeMgmt off v
    else if area = 18 && decide (off % 8 = 0) then
      { s with parts := s.parts.modify (off / 8) fun p => { p with ptRoot := v.toNat % 2 ^ 56 } }
    else if area = 19 && decide (off % 8 = 0) && v.getLsbD 0 then { s with revoked := s.revoked.set (off / 8) true }
    else s)

/-- The telemetry words from 0x100 (R389). -/
def State.telemetryWords (s : State) : List W64 :=
  let t := s.telemetry
  [BitVec.ofNat 64 (1400 - 50 * s.mgmt.clockStep + s.mgmt.clockStep * 2 ^ 16), t.power, t.capmiss, t.sramCorr, t.sramUncorr,
    t.dramCorr, t.dramUncorr, t.pchSpared, t.pageRetired, t.coreSpared, t.coreLost, t.linkDown, t.resync, t.dieFenced,
    t.rollback, t.aborted, t.cutDone, t.cutAbandoned, t.qtimeout, t.patchActs, t.takeover, s.dumpsLost.zeroExtend 64]

def QState.code : QState → Nat
  | .active => 0 | .quarantined => 1 | .stopped => 2 | .disabled => 3

/-- The eight register words of a queue (23 R336). -/
def Queue.words (q : Queue) : List W64 :=
  let bit (b : Bool) (n : Nat) : Nat := if b then 2 ^ n else 0
  [q.qbase, BitVec.ofNat 64 (q.qsize.toNat + q.prio.toNat * 2 ^ 5 + bit q.qloc 7 + bit q.splice 8 + bit q.enable 9),
    q.qhead.zeroExtend 64, q.qtail.zeroExtend 64,
    BitVec.ofNat 64 (q.qstate.code + q.qerr.toNat * 2 ^ 8 + q.qerrix.toNat * 2 ^ 32), 0, 0, 0]

/-- What a read of the register area of a function gives (R334, R336): offsets not listed read as zero. -/
def State.fnRegister (s : State) (fn off : Nat) : W64 :=
  let f := s.fns.getD fn Fn.reset
  if off % 8 ≠ 0 then 0
  else if off = 0 then identWord
  else if off = 8 then BitVec.ofNat 64 ((if f.ready then 1 else 0) + if s.mgmt.qcell.isSome then 2 else 0)
  else if off = 0x10 then f.fqbase
  else if off = 0x18 then f.fqctl
  else if off = 0x20 then f.fqhead.zeroExtend 64
  else if off = 0x28 then f.fqtail.zeroExtend 64
  else if off = 0x30 then f.aperr
  else if 0x1000 ≤ off ∧ off < 0x2000 then ((f.queues.getD ((off - 0x1000) / 64) Queue.reset).words).getD (off / 8 % 8) 0
  else if 0x3000 ≤ off ∧ off < 0x3200 then f.aptes.getD ((off - 0x3000) / 8) 0
  else 0

/-- What a read of the management window gives (26 R380, R389). -/
def State.mgmtRegister (s : State) (off : Nat) : W64 :=
  if off % 8 ≠ 0 then 0
  else if 8 ≤ off ∧ off ≤ 0x20 then s.mgmt.margs.getD (off / 8 - 1) 0
  else if off = 0x28 then BitVec.ofNat 64 ((if s.mgmt.busy then 1 else 0) + s.mgmt.result.toNat * 2 ^ 8 + s.mgmt.lastTag.toNat * 2 ^ 32)
  else if 0x100 ≤ off ∧ off < 0x200 then s.telemetryWords.getD ((off - 0x100) / 8) 0
  else 0

/-- The register that firmware sees at a physical address: function and offset (R334). -/
def registerAt (pa : Nat) : Option (Nat × Nat) :=
  if 0x0C0000000000 ≤ pa ∧ pa < 0x0C0000000000 + 17 * 0x10000 then
    some ((pa - 0x0C0000000000) / 0x10000, pa % 0x10000)
  else none

/-- What a read of the registers at a physical address gives. -/
def State.registerRead (s : State) (pa : Nat) : Option W64 := (registerAt pa).map fun x => s.fnRegister x.1 x.2

/-! The windows of cores in the physical map (03 R76). -/

/-- The core and the offset in its window of a physical address. -/
def coreWindow? (pa : Nat) : Option (Nat × Nat) :=
  if 0x080000000000 ≤ pa ∧ pa < 0x080000000000 + 8 * 0x10000000 then
    some ((pa - 0x080000000000) / 0x800000, pa % 0x800000)
  else none

/-- The tile registers of a core that teams hold, T0 first: those of its teams in their order (which physical tile backs a team's
is chosen at placement, 10 R206; DESIGN CHOICE, assumption 72). -/
def State.coreTiles (s : State) (core : Nat) : List Loc :=
  (s.teams.filter fun t => decide (t.core? = some core)).flatMap fun t => (List.range t.tiles.length).map fun k => .tileWin t.id k 0

/-- The tile byte at an offset of a core's window. -/
def State.windowTile? (s : State) (core off : Nat) : Option Loc :=
  if 0x400000 ≤ off ∧ off < 0x480000 then
    ((s.coreTiles core)[(off - 0x400000) / 0x20000]?).map fun l => l.plus (off % 0x20000)
  else none

/-- The holders of a core's register region: the named registers of each group of its teams, and their bytes. -/
def State.regHolders (s : State) (core : Nat) : List (Loc × Nat) :=
  (s.teams.filter fun t => decide (t.core? = some core)).flatMap fun t =>
    t.groups.zipIdx.map fun g => (.regWin t.id g.2 0, 512 * g.1.vregs.length)

/-- The holders of a core's scratchpad region. -/
def State.spadHolders (s : State) (core : Nat) : List (Loc × Nat) :=
  (s.teams.filter fun t => decide (t.core? = some core)).filterMap fun t =>
    (s.launch? t.id.launch).map fun l => (.spad t.id 0, l.krec.spadsz)

/-- The register or scratchpad byte at an offset of a core's pool image. -/
def State.windowUnit? (s : State) (core off : Nat) : Option Loc :=
  let p := (s.cores.getD core Core.reset).pool
  let hs := (if off / 4096 < p.reg.toNat then s.regHolders core
    else if off / 4096 < p.scr.toNat then s.spadHolders core else []).filter fun h => decide (0 < h.2)
  let x := Config.poolPlace core off
  (hs[x.1 % hs.length]?).map fun h => h.1.plus (x.2 % h.2)

/-- What stands at an offset of a core's window. -/
def State.windowLoc? (s : State) (core off : Nat) : Option Loc :=
  if off < 0x400000 then s.windowUnit? core off else s.windowTile? core off

/-- What a read of a core's window gives: in the pool image the L1 region and powered-off units read as zero; `none` where no team
holds the register, the scratchpad byte or the tile. -/
def State.windowRead (s : State) (pa : Nat) : Option Byte := match coreWindow? pa with
  | none => none
  | some (core, off) =>
    if off < 0x400000 ∧ (s.cores.getD core Core.reset).pool.scr.toNat ≤ off / 4096 then some 0
    else (s.windowLoc? core off).map s.readLoc

/-- A write into a core's window; one into the L1 region or a powered-off unit is ignored. -/
def State.windowWrite (s : State) (pa : Nat) (b : Byte) : State :=
  match (coreWindow? pa).bind fun x => s.windowLoc? x.1 x.2 with
  | some l => s.storeCells [(l, b)]
  | none => s

/-! The host aperture (R335). -/

/-- The device virtual address behind an aperture offset, or none when the window does not admit the access. -/
def Fn.aperture (f : Fn) (off : Nat) (write : Bool) : Option Nat :=
  let e := (f.aptes.getD (off / 2 ^ 26) 0).toNat
  if e % 2 = 1 ∧ (write = false ∨ e / 2 % 2 = 1) then some (e / 2 ^ 26 % 2 ^ 31 * 2 ^ 26 + off % 2 ^ 26) else none

/-- An access of 1 to 64 bytes within one 64-byte block of the 4 GiB aperture. -/
def apertureShape (off n : Nat) : Bool := decide (1 ≤ n) && decide (off % 64 + n ≤ 64) && decide (off < 2 ^ 32)

/-- A refused access counts in APERR. -/
def State.apertureError (s : State) (fn : Nat) : State := s.mapFn fn fun f => { f with aperr := satInc f.aperr }

/-- The walks of an aperture access, or none when its window refuses it. -/
def State.apertureWalks (s : State) (fn off n : Nat) (write : Bool) : Option (List Walk) :=
  ((s.fns.getD fn Fn.reset).aperture off write).map fun va => s.partWalks fn va n write

/-- HOST_APERTURE_READ: the data, all ones where the access is refused. -/
def execHostApertureRead (fn off n : Nat) (s : State) : Res :=
  if !apertureShape off n || decide (17 ≤ fn) then .next s
  else match s.apertureWalks fn off n false with
    | none => .next { s.apertureError fn with hostData := List.replicate n 0xFF }
    | some ws =>
      if ws.any fun w => decide (w = .transit) then .next s
      else match pagesOf ws with
        | none => .next { s.apertureError fn with hostData := List.replicate n 0xFF }
        | some l => .next { s with
            mem := l.foldl (fun (m : Memory) x => markEntry m x.2 false) s.mem
            hostData := l.map fun x => s.mem.read x.1 }

/-- HOST_APERTURE_WRITE: performed at its home; a refused one is discarded. -/
def execHostApertureWrite (fn off : Nat) (bytes : List (BitVec 8)) (s : State) : Res :=
  if !apertureShape off bytes.length || decide (17 ≤ fn) then .next s
  else match s.apertureWalks fn off bytes.length true with
    | none => .next (s.apertureError fn)
    | some ws =>
      if ws.any fun w => decide (w = .transit) then .next s
      else match pagesOf ws with
        | none => .next (s.apertureError fn)
        | some l =>
          let m := l.foldl (fun (m : Memory) x => markEntry m x.2 true) s.mem
          .next { s with mem := (l.zip bytes).foldl (fun (m : Memory) x => m.write x.1.1 x.2) m }

/-! CXL (R349, 03 R86). -/

/-- Physical address of an offset in a lake die. -/
def lakeAddr (lake off : Nat) : Nat := 0x040000000000 + lake * 0x020000000000 + off

/-- Where the byte at a lake address lies now: in a page that has moved, at its new place (03 R86). -/
def State.cxlPlace (s : State) (a : Nat) : Nat :=
  match s.moved.find? fun x => decide (x.1 ≤ a) && decide (a < x.1 + x.2.1) with
  | some x => a - x.1 + x.2.2
  | none => a

/-- The places of `n` bytes from an offset in a lake die. -/
def State.cxlPlaces (s : State) (lake off n : Nat) : List Nat := (List.range n).map fun i => s.cxlPlace (lakeAddr lake off + i)

/-- An access of a CXL device: inside the lake die, for a function other than the physical function of link 0 below its dump region
(26 R393), and to no page in transit. -/
def State.cxlOpen (s : State) (fn lake off n : Nat) : Bool :=
  decide (lake < 2) && decide (off + n ≤ if fn = 0 then 0x020000000000 else 0x01F800000000) &&
  (s.cxlPlaces lake off n).all fun a => !(s.transits.any fun t => decide (t.oldPage ≤ a) && decide (a < t.oldPage + t.size))

def execCxlMemRead (port : CxlPort) (off n : Nat) (s : State) : Res :=
  .next (if s.cxlOpen port.fn port.lake off n then { s with hostData := (s.cxlPlaces port.lake off n).map s.mem.read } else s)

def execCxlMemWrite (port : CxlPort) (off : Nat) (bytes : List (BitVec 8)) (s : State) : Res :=
  .next (if s.cxlOpen port.fn port.lake off bytes.length then { s with
    mem := ((s.cxlPlaces port.lake off bytes.length).zip bytes).foldl (fun (m : Memory) x => m.write x.1 x.2) s.mem } else s)

/-! PRI and ATS (R345). -/

/-- HOST_PRI_RESPONSE: the host's page request handler answers the fault at place `k`. With a translation the access is tried
again; a failure goes to the driver. -/
def execHostPriResponse (fn k : Nat) (granted : Bool) (bus : Nat) (writable : Bool) (s : State) : Res :=
  match (s.fns.getD fn Fn.reset).faults[k]? with
  | none => .next s
  | some p =>
    if !p.pri then .next s
    else
      let s1 := s.mapFn fn fun f => { f with faults := f.faults.eraseIdx k }
      if granted then
        let page := p.va / 0x10000
        .next ((s1.mapFn fn fun f =>
          { f with ats := (f.ats.filter fun e => decide (e.page ≠ page)) ++ [⟨page, bus, writable⟩] }).resumeFault p)
      else .next (s1.enterFault fn { p with pri := false })

/-- ATS_INVALIDATION: the device keeps no translation of the page. -/
def execAtsInvalidation (fn page : Nat) (s : State) : Res :=
  .next (s.mapFn fn fun f => { f with ats := f.ats.filter fun e => decide (e.page ≠ page) })

end Sys2Proof.Machine
end

