-- ==== Sys2Proof/Machine/Firmware.lean ====
section
/-! DEFINITION. The firmware tree, starts, the power cap, the time lock and what the module absorbs or not (spec 25 R366, R367,
R371, R372; 04 R109; 26 R384-R388, R391-R393). -/

namespace Sys2Proof.Machine

/-! Command links and Hive controllers (25 R366, R367). -/

/-- A message is sent: it uses a permit of its class, and a sender with none waits. -/
def CmdLink.send (l : CmdLink) (urgent : Bool) (msg : BitVec 512) : CmdLink :=
  if urgent then
    (if l.urgentPermits = 0 then l else { l with urgentPermits := l.urgentPermits - 1, urgent := l.urgent ++ [msg] })
  else if l.normalPermits = 0 then l
  else { l with normalPermits := l.normalPermits - 1, normal := l.normal ++ [msg] }

/-- The oldest message of a class is consumed, and its permit returns. -/
def CmdLink.consume (l : CmdLink) (urgent : Bool) : CmdLink :=
  if urgent then match l.urgent with
    | [] => l
    | _ :: rest => { l with urgent := rest, urgentPermits := l.urgentPermits + 1 }
  else match l.normal with
    | [] => l
    | _ :: rest => { l with normal := rest, normalPermits := l.normalPermits + 1 }

/-- The message waits for no permit: it is carried. -/
def CmdLink.carries (l : CmdLink) (urgent : Bool) : Bool := decide ((if urgent then l.urgentPermits else l.normalPermits) ≠ 0)

/-- COMMAND_LINK_MESSAGE: a message of a link starts on its way, and the cell controller logs it, or arrives and its permit returns. -/
def execCommandLinkMessage (cell : Nat) (toCell urgent send : Bool) (msg : BitVec 512) (s : State) : Res :=
  let f (l : CmdLink) : CmdLink := if send then l.send urgent msg else l.consume urgent
  let links := if toCell then s.hive.toCells else s.hive.fromCells
  let logged := send && (links[cell]?).any fun l => l.carries urgent
  let h := { s.hive with logs := if logged then s.hive.logs.modify cell (· ++ [msg]) else s.hive.logs }
  .next (if s.hive.lostCells.contains cell then s
    else { s with hive := if toCell then { h with toCells := h.toCells.modify cell f }
      else { h with fromCells := h.fromCells.modify cell f } })

/-- HIVE_HEARTBEAT: every 100 µs of GTIME the standby receives the heartbeat, or misses it. After a takeover there is no
standby. -/
def execHiveHeartbeat (received : Bool) (s : State) : Res :=
  .next (if s.hive.fenced.isSome || decide (s.clock.gtime < s.hive.beatAt + 100000) then s
    else { s with hive := { s.hive with missed := if received then 0 else s.hive.missed + 1, beatAt := s.clock.gtime } })

/-- HIVE_TAKEOVER: three heartbeats in a row were missed. The other controller is fenced; no team, launch or record changes. -/
def execHiveTakeover (s : State) : Res :=
  .next (if s.hive.fenced.isNone && decide (3 ≤ s.hive.missed) then s.takeOver true else s)

/-- CELL_LINK_FAILURE: the cell is lost; its cores are fenced and its teams are handled as those of a fenced die. -/
def execCellLinkFailure (cell : Nat) (s : State) : Res :=
  if s.hive.lostCells.contains cell || decide (64 ≤ cell) then .next s
  else
    let mine (core : Nat) : Bool := decide (core / 4 = cell)
    let here (t : Team) : Bool := (t.core?.map mine).getD false
    let affected := s.launches.filter fun l => s.teams.any fun t => here t && decide (t.id.launch = l.seq)
    let s1 := s.loseAll affected here
    .next { s1 with
      hive := { s1.hive with lostCells := s1.hive.lostCells ++ [cell] }
      cores := s1.cores.zipIdx.map fun c => if mine c.2 then { Core.reset with enabled := false } else c.1 }

/-! Power (26 R384). -/

/-- The clock step after a millisecond with this average, and whether CAPMISS counts, by the cap alone. -/
def Mgmt.capStep (m : Mgmt) (average : Nat) : Nat × Bool :=
  if m.powerCap < average then (if m.clockStep < 14 then (m.clockStep + 1, false) else (m.clockStep, true))
  else if average + 200 ≤ m.powerCap ∧ 0 < m.clockStep then (m.clockStep - 1, false)
  else (m.clockStep, false)

/-- POWER_CAP_TICK: a millisecond of GTIME has passed since the last. The cold plate's thermal limit acts through the same steps: it
holds the step (`some false`) or takes it up (`some true`), and counts in CAPMISS where it holds it above the cap's. -/
def execPowerCapTick (average : Nat) (plate : Option Bool) (s : State) : Res :=
  if s.clock.gtime < s.mgmt.capAt + 1000000 then .next s
  else
    let a := s.mgmt.capStep average
    let hot := match plate with
      | none => 0
      | some up => min 14 (s.mgmt.clockStep + if up then 1 else 0)
    let k := max a.1 hot
    let miss := a.2 || decide (a.1 < k)
    .next { s with
      mgmt := { s.mgmt with clockStep := k, capAt := s.clock.gtime }
      telemetry := { s.telemetry with
        power := BitVec.ofNat 64 average
        capmiss := if miss then satInc s.telemetry.capmiss else s.telemetry.capmiss } }

/-! The time lock (04 R108, R109). -/

/-- GTIME_LOCK_LOSS. SLEWING stays as it is: one that was set reads 1 until GTIME_SLEW_COMPLETE (assumption 69). -/
def execGtimeLockLoss (s : State) : Res :=
  .next (if s.gtstat.locked then
    { s with gtstat := { s.gtstat with
      locked := false
      losses := if s.gtstat.losses.toNat < 0xFFFF then s.gtstat.losses + 1 else s.gtstat.losses } }
  else s)

def execGtimeRelock (s : State) : Res :=
  .next (if s.started && !s.gtstat.locked then { s with gtstat := { s.gtstat with locked := true, slewing := true } } else s)

def execGtimeSlewComplete (s : State) : Res := .next { s with gtstat := { s.gtstat with slewing := false } }

/-! Starts (25 R371, R372). -/

/-- An enabled core that fails its start-up test is replaced by a spare of its die, or lost (26 R387). -/
def State.failCore (s : State) (core : Nat) : State :=
  let n := s.spares.getD (dieOfCore core) 0
  if s.cores.length ≤ core then s
  else if 0 < n then
    { s with
      spares := s.spares.set (dieOfCore core) (n - 1)
      telemetry := { s.telemetry with coreSpared := satInc s.telemetry.coreSpared } }
  else
    { s with
      cores := s.cores.set core { Core.reset with enabled := false }
      telemetry := { s.telemetry with coreLost := satInc s.telemetry.coreLost } }

/-- The items that flash saves (25 R371). -/
inductive SavedItem where
  | hbm | lpddr | links | spareMaps | digests
  deriving DecidableEq, Repr

def SavedItem.all : List SavedItem := [.hbm, .lpddr, .links, .spareMaps, .digests]

def SavedItem.place : SavedItem → Nat
  | .hbm => 0 | .lpddr => 1 | .links => 2 | .spareMaps => 3 | .digests => 4

/-- A start: cold or warm, with the stepping and the temperature of the die, in °C. -/
structure Start where
  warm : Bool
  stepping : Nat
  celsius : Int
  deriving DecidableEq, Repr

/-- A warm start uses a saved item when the stepping matches and the temperature lies within 15 °C of that at which it was saved; for
any other item its cold step runs (R372). -/
def Start.uses (w : Start) (f : Flash) (i : SavedItem) : Bool := w.warm && match (f.saved[i.place]?).getD none with
  | some (st, t) => decide (st = w.stepping) && decide ((t - w.celsius).natAbs ≤ 15)
  | none => false

/-- Flash after a start: an item that was not reused is saved anew. -/
def Start.saves (w : Start) (f : Flash) : List (Option (Nat × Int)) :=
  SavedItem.all.map fun i => if w.uses f i then (f.saved[i.place]?).getD none else some (w.stepping, w.celsius)

/-- An active image passes a start: it is verified by R369, or that is skipped for one whose digest and class counter are those of its
last verification (R371 steps 3 and 10). -/
def State.startOk (s : State) (w : Start) (im : Image) : Bool :=
  (w.uses s.flash .digests && s.flash.checks.contains (s.checkOf im)) || s.verifies im

/-- The classes' images after a start: a patch image that fails is not loaded (DESIGN CHOICE, assumption 98). -/
def State.loadPatch (s : State) (w : Start) : State :=
  if (s.classOf 5).active.all (s.startOk w) then s else s.setClass 5 fun c => { c with active := none }

/-- The images that run after a start have been verified. -/
def State.noteActive (s : State) : State := (s.images.filterMap (·.active)).foldl State.noteVerified s

/-- What every start sets up: everything at its reset value but what lies outside the module, its flash and its fuses, and
the model's own counters; links that are up, tested cores, GTIME under lock, and every partition ready. -/
def State.startUp (s : State) (w : Start) (failedCores upLinks : List Nat) : State :=
  let s1 := (s.loadPatch w).noteActive
  failedCores.foldl State.failCore { State.reset with
    schedule := s.schedule
    clock := ⟨s.clock.tick, 0, 0⟩
    free := s.free
    nextId := s.nextId
    started := true
    gtstat := ⟨0, false, true⟩
    hostMem := s.hostMem
    peers := s.peers
    parts := s.parts.map fun p => { p with ptRoot := 0 }
    fns := State.reset.fns.zipIdx.map fun f => { f.1 with ready := decide ((s.parts.getD f.2 Partition.reset).mask ≠ 0) }
    images := s1.images
    flash := { s1.flash with saved := w.saves s.flash }
    revoked := s.revoked
    keyHashes := s.keyHashes
    links := s.links.zipIdx.map fun l => ⟨upLinks.contains l.2, .full, 0, 0⟩
    mem := if w.warm then s.mem.filter fun c => isLake c.1 else []
    remaps := if w.uses s.flash .spareMaps then s.remaps else []
    retiredPages := if w.uses s.flash .spareMaps then s.retiredPages else []
    dumpsLost := if w.warm then s.dumpsLost else 0 }

/-- A start. One that meets a boot, Hive, cell or lake-die image that fails R369 goes no further: the module stays held (DESIGN CHOICE,
assumption 98). -/
def State.start (s : State) (w : Start) (failedCores upLinks : List Nat) : State :=
  if (List.range 4).all fun k => (s.classOf (k + 1)).active.all (s.startOk w) then s.startUp w failedCores upLinks
  else { s with fatal := true, started := false, fns := s.fns.map fun f => { f with ready := false } }

/-- COLD_START. -/
def execColdStart (failedCores : List Nat) (found : Conditions) (s : State) : Res :=
  .next (s.start ⟨false, found.stepping, found.celsius⟩ failedCores found.upLinks)

/-- WARM_START: the lake's contents, the dump among them, are kept, and the saved items that R372 admits. -/
def execWarmStart (failedCores : List Nat) (found : Conditions) (s : State) : Res :=
  .next (s.start ⟨true, found.stepping, found.celsius⟩ failedCores found.upLinks)

/-! Errors that are absorbed (26 R385, R386). -/

/-- CORRECTED_ERROR: of memory, or of an array or link. -/
def execCorrectedError (dram : Bool) (s : State) : Res :=
  .next { s with telemetry := if dram then { s.telemetry with dramCorr := satInc s.telemetry.dramCorr }
    else { s.telemetry with sramCorr := satInc s.telemetry.sramCorr } }

/-- Bytes of a stack that programs use; 32 and 33 stand for the lake dies, whose rows are spared. -/
def stackBytes (stack : Nat) : Nat := if stack < 32 then 64 * 2 ^ 30 - 2 ^ 29 else 2 ^ 41

/-- PSEUDO_CHANNEL_SPARING: the copy of a pseudo-channel's range, or of a lake row, into the reserve starts; one
pseudo-channel per stack. -/
def execPseudoChannelSparing (stack base size : Nat) (s : State) : Res :=
  let taken := decide (stack < 32) && ((s.sparings.any fun x => decide (x.stack = stack)) ||
    s.remaps.any fun x => decide (x.1 = stack))
  .next (if taken || decide (34 ≤ stack) || decide (size = 0) || decide (2 ^ 29 < size) || decide (stackBytes stack < base + size)
    then s
    else { s with sparings := s.sparings ++ [⟨stack, base, size, 0⟩] })

/-- SPARING_CHUNK_COPY: 2 MiB more are at the new place; with the last the range is remapped. -/
def execSparingChunkCopy (k : Nat) (s : State) : Res := match s.sparings[k]? with
  | none => .next s
  | some x =>
    .next (if x.next + 0x200000 < x.size then { s with sparings := s.sparings.set k { x with next := x.next + 0x200000 } }
    else { s with
      sparings := s.sparings.eraseIdx k
      remaps := s.remaps ++ [(x.stack, x.base, x.size)]
      telemetry := { s.telemetry with pchSpared := satInc s.telemetry.pchSpared } })

/-- The mapped page that holds a physical address, with its partition. -/
def State.mappedAt (s : State) (pa : Nat) : Option (Nat × Leaf) :=
  (List.range 17).findSome? fun p => (s.leafAt p pa).map fun x => (p, x)

/-- PAGE_RETIREMENT: a failing 64 KiB page of near or lake memory is retired; where it is mapped a Spring engine moves it to the lake,
and it counts once it is there. -/
def execPageRetirement (page target : Nat) (s : State) : Res :=
  if !(isNear page || isLake page) || decide (page % 0x10000 ≠ 0) || s.retiredPages.contains page then .next s
  else
    let s1 := { s with retiredPages := s.retiredPages ++ [page] }
    match s.mappedAt page with
    | none => .next { s1 with telemetry := { s.telemetry with pageRetired := satInc s.telemetry.pageRetired } }
    | some (p, x) =>
      .next (if (s.mem.read64 x.entry).getLsbD 5 then s1
      else if s.movable x target && isLake target then s1.startMove p x target
      else s)

/-! Errors that are not (26 R391-R393). -/

/-- The header of a team's area in a dump: of steps 1 and 6 of 24 R352 alone. -/
def State.dumpSaveHeader (s : State) (l : Launch) (t : Team) : SaveHeader :=
  ⟨0, 1, BitVec.ofNat 32 t.id.index, l.lid.zeroExtend 64, BitVec.ofNat 64 (saveBytes l t), BitVec.ofNat 64 s.clock.gtime⟩

/-- The save areas of the teams whose core can be reached: those resident on enabled cores. -/
def State.dumpAreas (s : State) : List (List Byte) := s.teams.filterMap fun t =>
  match t.core?, s.launch? t.id.launch with
  | some c, some l => if (s.cores.getD c Core.reset).enabled then some (s.saveArea l t (s.dumpSaveHeader l t)) else none
  | _, _ => none

/-- A section: its bytes, at most 1 MiB, on a 4 KiB boundary. -/
def logPage (bs : List Byte) : List Byte := blockPage (bs.take 0x100000)

/-- The error log of a die: 0 to 7 the compute dies, 8 and 9 the lake dies. -/
def State.dieLog (s : State) (die : Nat) : List Byte := Config.errorLogBytes
  ((s.errorLog.filter fun e => decide (e.die = die)).map fun e => (e.addr, e.syndrome, e.gtime))

/-- The message logs and the permit counts. -/
def State.cellLog (s : State) : List Byte := Config.cellLogBytes s.hive.logs
  ((s.hive.toCells ++ s.hive.fromCells).flatMap fun l => [l.urgentPermits, l.normalPermits])

/-- The sections of the dump: the telemetry words, the error log of each die, the queue registers, the message logs and the save areas.
The spec gives what sections 2 and 5 hold and not how: their bytes are free, up to a length that the model bounds (assumption 34). -/
def State.dumpSections (s : State) : List (Nat × List Byte) :=
  (1, blockPage (wordBytes s.telemetryWords)) :: ((List.range 10).map fun d => (2, logPage (s.dieLog d))) ++
  [(4, blockPage (wordBytes (s.fns.flatMap fun f => f.queues.flatMap Queue.words))), (5, logPage s.cellLog)] ++
  s.dumpAreas.map fun a => (3, a)

/-- The dump's header (R392). -/
def State.dumpHeader (s : State) (cause sections : Nat) : List W64 :=
  let img (k : Nat) : Nat := ((s.classOf k).active.map (·.image.toNat)).getD 0
  [BitVec.ofNat 64 (0x504D5544 + 2 ^ 32 + cause * 2 ^ 40 + 2 ^ 48), BitVec.ofNat 64 s.clock.gtime, patchIdOf s.patchImage?,
    BitVec.ofNat 64 (img 2 + img 3 * 2 ^ 32), BitVec.ofNat 64 (sections + s.dumpsLost.toNat * 2 ^ 32), 0, 0, 0]

/-- Entry of a section: KIND, byte offset and size in 4 KiB units. -/
def dumpEntry (kind off units : Nat) : List W64 := [BitVec.ofNat 64 kind, BitVec.ofNat 64 (off + units * 2 ^ 40)]

/-- Write sections one after the other from an offset of the region, each with its entry. -/
def writeSections (base : Nat) : List (Nat × List Byte) → Nat → Nat → Memory → Memory
  | [], _, _, m => m
  | x :: rest, k, off, m =>
    let m1 := m.writeBytes (base + off) x.2
    writeSections base rest (k + 1) (off + x.2.length)
      (m1.writeBytes (base + 0x40 + 16 * k) (wordBytes (dumpEntry x.1 off (x.2.length / 4096))))

/-- Write the dump, the header last; another fatal error while it is written leaves it without one. The sections follow the entries,
on 4 KiB boundaries. -/
def State.writeDump (s : State) (cause lake : Nat) (again : Bool) : State :=
  let at' := dumpRegion lake
  let sections := s.dumpSections
  let m := writeSections at' sections 0 (up4K (0x40 + 16 * sections.length)) s.mem
  { s with mem := if again then m else m.writeBytes at' (wordBytes (s.dumpHeader cause sections.length)) }

/-- A fatal error while VALID = 1 is only counted (R393). -/
def State.loseDump (s : State) (lake : Nat) : State :=
  let n := if s.dumpsLost.toNat < 0xFFFF then s.dumpsLost + 1 else s.dumpsLost
  { s with dumpsLost := n, mem := s.mem.writeLe (dumpRegion lake + 0x24) 2 n.toNat }

/-- FATAL_ERROR: placement stops, no partition is ready, the dump is written, and the module is held until a start. `again`: another
comes while the dump is written (R393). One that comes to a module that is held, its dump left without VALID, writes none. -/
def execFatalError (cause : Nat) (trouble : DumpTrouble) (s : State) : Res :=
  if cause < 1 ∨ 5 < cause then .next s
  else
    let lake := if trouble.lakeZeroLost then 1 else 0
    let s1 := if s.dumpValid lake then s.loseDump lake else if s.fatal then s else s.writeDump cause lake trouble.again
    .next { s1 with fatal := true, fns := s1.fns.map fun f => { f with ready := false } }

end Sys2Proof.Machine
end

