-- ==== Sys2Proof/Machine/GraphLoad.lean ====
section
/-! DEFINITION. Graph images: their layout (spec 12 R246, R247, R254), their validation (R251), GLOAD and unloading (23 R339). -/

namespace Sys2Proof.Machine

/-! The layout. -/

/-- BIDX and BOFF of an operand word. -/
def operandOf (w : Nat) : Nat × Nat := (w % 2 ^ 8, w / 2 ^ 8 % 2 ^ 48)

/-- A node record from its eight words (R247). -/
def nodeOf (w : List W64) : GraphNode where
  kind := pword w 0 % 2 ^ 4
  op := pword w 0 / 2 ^ 4 % 2 ^ 4
  typ := pword w 0 / 2 ^ 8 % 2 ^ 4
  ch := pword w 0 / 2 ^ 12 % 2 ^ 4
  npred := pword w 0 / 2 ^ 16 % 2 ^ 12
  sfirst := pword w 0 / 2 ^ 32 % 2 ^ 16
  scount := pword w 0 / 2 ^ 48
  src := operandOf (pword w 1)
  src2 := operandOf (pword w 2)
  dst := operandOf (pword w 3)
  count := pword w 4 % 2 ^ 32
  value := w.getD 5 0
  inst := BitVec.ofNat 32 (pword w 6)

/-- No reserved bit of a node record is set. -/
def nodeBitsOk (w : List W64) : Bool :=
  decide (pword w 0 / 2 ^ 28 % 2 ^ 4 = 0) && ([1, 2, 3].all fun k => decide (pword w k / 2 ^ 56 = 0)) &&
  decide (pword w 4 / 2 ^ 32 = 0) && decide (pword w 6 / 2 ^ 32 = 0) && decide (pword w 7 = 0)

/-- Byte `k` of an instance record. -/
def recByte (w : List W64) (k : Nat) : Nat := pword w (k / 8) / 256 ^ (k % 8) % 256

/-- An instance record from its ten words (R254). -/
def instOf (w : List W64) : InstRec where
  inst := BitVec.ofNat 32 (pword w 0)
  nmemb := pword w 0 / 2 ^ 32 % 2 ^ 8
  count := BitVec.ofNat 32 (pword w 1)
  typ := pword w 1 / 2 ^ 32 % 2 ^ 4
  op := pword w 1 / 2 ^ 36 % 2 ^ 4
  members := (List.range (pword w 0 / 2 ^ 32 % 2 ^ 8 - 1)).map fun i => recByte w (16 + i)

/-- Fields of an instance record in range, no reserved bit or code set. A MEMBER index at or above NBASE counts as out of range
(DESIGN CHOICE, assumption 100: R251 names BIDX alone). -/
def instOk (w : List W64) (r : InstRec) (nbase : Nat) : Bool :=
  decide (r.inst ≠ 0) && decide (2 ≤ r.nmemb ∧ r.nmemb ≤ 64) && decide (pword w 0 / 2 ^ 40 = 0) &&
  decide (pword w 1 / 2 ^ 40 = 0) && decide (recByte w 79 = 0) && decide (r.typ < 6) && decide (r.op < 6) &&
  r.members.all fun m => decide (m < nbase)

/-! Validation (R251). -/

/-- KIND, TYPE and OP as R248, R252 and R253 allow them. -/
def nodeCodesOk (n : GraphNode) : Bool :=
  decide (n.kind ≤ 6) && decide (n.typ ≤ 5) &&
  if n.kind = 2 then (if n.op ≤ 2 then decide (n.typ ≤ 4) else decide (n.op ≤ 5 ∧ n.typ = 5))
  else if n.kind = 3 then decide (n.typ ≤ 4 ∧ n.op ≤ 4 ∧ n.typ ≠ n.op)
  else decide (n.op = 0)

/-- A node against its image: base table indices, successor range, predecessor count and collective instance. -/
def nodeFits (g : GraphImage) (n : GraphNode × Nat) : Bool :=
  decide (n.1.src.1 < g.nbase) && decide (n.1.src2.1 < g.nbase) && decide (n.1.dst.1 < g.nbase) &&
  decide (n.1.sfirst + n.1.scount ≤ g.succs.length) && decide (n.1.npred = g.succs.count n.2) &&
  (decide (n.1.inst = 0) || match g.insts.find? fun r => decide (r.inst = n.1.inst) with
    | some r => decide (r.typ = n.1.typ) && decide (r.op = n.1.op)
    | none => false)

/-- The successor entries of a node. -/
def GraphImage.succsOf (g : GraphImage) (n : GraphNode) : List Nat := (g.succs.drop n.sfirst).take n.scount

/-- Take away the nodes to which no edge leads any more, a round at a time; what is left after `fuel` rounds. -/
def GraphImage.peel (g : GraphImage) : Nat → List Nat → List Nat → List Nat
  | 0, left, _ => left
  | fuel + 1, left, pend =>
    let now := left.filter fun i => decide (pend.getD i 0 = 0)
    let gone := now.flatMap fun i => ((g.nodes[i]?).map g.succsOf).getD []
    g.peel fuel (left.filter fun i => !now.contains i) (pend.zipIdx.map fun p => p.1 - gone.count p.2)

/-- The edges that lead to each node: those of the nodes' successor ranges, which may share entries of the list. -/
def GraphImage.inDegrees (g : GraphImage) : List Nat :=
  let all := g.nodes.flatMap g.succsOf
  (List.range g.nodes.length).map fun i => all.count i

/-- The graph has no cycle. -/
def GraphImage.acyclic (g : GraphImage) : Bool :=
  (g.peel g.nodes.length (List.range g.nodes.length) g.inDegrees).isEmpty

/-- Bytes of the successor list, padded. -/
def succBytes (n : Nat) : Nat := (2 * n + 7) / 8 * 8

/-- The 64-bit words of `n` bytes of a byte list from an offset. -/
def wordsAt (bs : List Byte) (off n : Nat) : List W64 := bytesWords ((bs.drop off).take (8 * n)) n

/-- The image that a list of bytes holds, when layout, size and validation pass. -/
def parseGraph (bs : List Byte) : Option GraphImage :=
  let h := wordsAt bs 0 8
  let nn := pword h 0 % 2 ^ 16
  let ns := pword h 0 / 2 ^ 16 % 2 ^ 16
  let nb := pword h 0 / 2 ^ 32 % 2 ^ 8
  let ni := pword h 0 / 2 ^ 40 % 2 ^ 8
  let succAt := 64 + 64 * nn
  let instAt := succAt + succBytes ns
  if pword h 0 / 2 ^ 48 ≠ 0 ∨ (h.drop 1).any (fun w => decide (w ≠ 0)) ∨ nn = 0 ∨ 4096 < nn ∨ nb = 0 ∨ 15 < ni ∨
      bs.length ≠ instAt + 80 * ni then none
  else
    let nodeWords := (List.range nn).map fun i => wordsAt bs (64 + 64 * i) 8
    let instWords := (List.range ni).map fun i => wordsAt bs (instAt + 80 * i) 10
    let list := (List.range ns).map fun i => leNat ((bs.drop (succAt + 2 * i)).take 2)
    let pad := ((bs.drop (succAt + 2 * ns)).take (succBytes ns - 2 * ns)).all fun b => decide (b = 0)
    let g : GraphImage := ⟨nb, nodeWords.map nodeOf, list, instWords.map instOf⟩
    if pad && nodeWords.all nodeBitsOk && g.nodes.all nodeCodesOk && (instWords.all fun w => instOk w (instOf w) nb) &&
        (list.all fun x => decide (x < nn)) && g.nodes.zipIdx.all (nodeFits g) && g.acyclic then some g
    else none

/-! GLOAD. -/

/-- Whether `n` bytes at a device physical address are near or lake memory. -/
def physRange (pa n : Nat) : Bool := (isNear pa || isLake pa) && (isNear (pa + n - 1) || isLake (pa + n - 1))

/-- LOADED of a graph table's entry. -/
def State.graphBit (s : State) (table entry : Nat) : Bool := (s.mem.read64 (table + 16 * entry)).getLsbD 63

/-- The image that an entry holds: one that a GLOAD of the function validated, with LOADED set. -/
def State.graph? (s : State) (fn table entry : Nat) : Option GraphImage :=
  if s.graphBit table entry then
    (s.graphs.find? fun g => decide (g.fn = fn) && decide (g.table = table) && decide (g.entry = entry)).map (·.image)
  else none

/-- The image that the driver wrote for an entry, when it is valid. -/
def State.graphWritten (s : State) (table entry : Nat) : Option GraphImage :=
  let w0 := (s.mem.read64 (table + 16 * entry)).toNat
  let w1 := (s.mem.read64 (table + 16 * entry + 8)).toNat
  let addr := w0 % 2 ^ 56
  let size := w1 % 2 ^ 32
  if w0 / 2 ^ 56 % 2 ^ 7 ≠ 0 ∨ w1 / 2 ^ 32 ≠ 0 ∨ addr % 8 ≠ 0 ∨ size = 0 ∨ physRange addr size = false then none
  else parseGraph (s.mem.readBytes addr size)

/-- Put an image into an entry, or take it out; LOADED follows. -/
def State.setGraph (s : State) (fn table entry : Nat) (g : Option GraphImage) : State :=
  let w := (s.mem.read64 (table + 16 * entry)).toNat % 2 ^ 63
  let rest := s.graphs.filter fun x => decide (x.fn ≠ fn ∨ x.table ≠ table ∨ x.entry ≠ entry)
  { s with
    mem := s.mem.writeLe (table + 16 * entry) 8 (if g.isSome then w + 2 ^ 63 else w)
    graphs := rest ++ (g.map fun g => [⟨fn, table, entry, g⟩]).getD [] }

/-- A replay of the entry is running. -/
def State.replaying (s : State) (fn table entry : Nat) : Bool :=
  s.replays.any fun r => decide (r.fn = fn) && decide (r.table = table) && decide (r.entry = entry)

def gloadEntry (w : List W64) : Nat := pword w 2 % 2 ^ 17

/-- Loading or unloading an entry: at once, or when the replays of the image that is loaded have ended (R339). -/
def State.loadGraph (s : State) (fn k : Nat) (q : Queue) (w : List W64) (g : Option GraphImage) : State :=
  if (s.graph? fn (pword w 1) (gloadEntry w)).isSome && s.replaying fn (pword w 1) (gloadEntry w) then
    { s with deferred := s.deferred ++ [⟨fn, k, pword w 1, gloadEntry w, g, packetTag w, w.getD 6 0, q.qloc⟩] }
  else (s.setGraph fn (pword w 1) (gloadEntry w) g).answer fn q w 0 false 0

/-- An entry that a GLOAD may name. -/
def gloadTarget (w : List W64) : Bool := decide (gloadEntry w < 65536) && physRange (pword w 1 + 16 * gloadEntry w) 16

/-- GLOAD of a written image; one that is not valid is refused. -/
def execGload (fn q : Nat) (s : State) : Res :=
  plainPacket fn q (fun w => decide (packetKind w = 6) && decide (pword w 2 / 2 ^ 32 % 2 = 0)) s fun s x w =>
    match (if gloadTarget w then s.graphWritten (pword w 1) (gloadEntry w) else none) with
    | none => s.answer fn x w 4 false 0
    | some g => s.loadGraph fn q x w (some g)

/-- GLOAD with UNLOAD. -/
def execGloadUnload (fn q : Nat) (s : State) : Res :=
  plainPacket fn q (fun w => decide (packetKind w = 6) && decide (pword w 2 / 2 ^ 32 % 2 = 1)) s fun s x w =>
    if gloadTarget w then s.loadGraph fn q x w none else s.answer fn x w 4 false 0

/-- GLOAD_DEFERRED_COMPLETE: the replays have ended. -/
def execGloadDeferredComplete (k : Nat) (s : State) : Res := match s.deferred[k]? with
  | none => .next s
  | some d =>
    .next (if s.replaying d.fn d.table d.entry || s.cpStalls d.fn d.compDev d.compAddr.toNat 16 true then s
      else
        let s1 := { s with deferred := s.deferred.eraseIdx k }.setGraph d.fn d.table d.entry d.image
        s1.cpComplete d.fn d.compDev d.compAddr d.tag 0 false 0)

end Sys2Proof.Machine
end

