-- ==== Sys2Proof/Machine/LaunchCmd.lean ====
section
/-! DEFINITION. Launch descriptors (spec 20 R302, R309; 23 R341) and the refusal of a launch at submission (R342), with the checks of
01 R18, R25, R27, 03 R69, 07 R158 and 10 R206. -/

namespace Sys2Proof.Machine

/-! The descriptor. -/

/-- A field of a descriptor word: bits `lo` to `lo + n - 1`. -/
def dfield (d : List W64) (w lo n : Nat) : Nat := pword d w / 2 ^ lo % 2 ^ n

/-- The bits of descriptor words that are not reserved. -/
def descMask (w : Nat) : Nat :=
  if w = 0 then 0x7FFFFFFFF
  else if w = 1 ∨ w = 6 ∨ w = 7 ∨ w = 17 then 2 ^ 64 - 1
  else if w = 2 then 2 ^ 51 - 1
  else if w = 3 then 0xFFFFFF
  else if w = 4 then 0xFFFFFFFF007FFFFF
  else if w = 5 then 0xFF1FFF1FFF1FFF1F
  else if w = 8 ∨ w = 16 then 2 ^ 48 - 1
  else if w = 18 then 0x07FF07FF07FF
  else if w = 20 ∨ w = 22 then 2 ^ 56 - 1
  else if w = 21 then 0xFFFFFFFF
  else if w = 23 then 0x1FFFF
  else if w = 24 then 2 ^ 44 - 1
  else 0

def descBitsOk (d : List W64) : Bool := (List.range 32).all fun w => decide (pword d w &&& descMask w = pword d w)

/-- The declared roles: group count and budget (R302 word 5). -/
def rolesOf (d : List W64) : List (Nat × Nat) :=
  ((List.range 4).map fun n => (dfield d 5 (16 * n) 5, dfield d 5 (16 * n + 8) 8)).filter fun r => decide (r.1 ≠ 0)

/-- Roles are declared from ROLE0 without a gap (14 R286; assumption 87). -/
def rolesInOrder (d : List W64) : Bool :=
  (List.range 4).all fun n => decide (n < (rolesOf d).length ↔ dfield d 5 (16 * n) 5 ≠ 0)

/-- The roles of a kernel: those declared, or one role that holds every group with the budget of a kernel that declares none (01
R19, 14 R286). -/
def rolesIn (d : List W64) : List (Nat × Nat) :=
  if (rolesOf d).isEmpty then [(groupCount (dfield d 2 32 12), 32)] else rolesOf d

/-- The kernel record (20 R302). -/
def kernelOf (d : List W64) : KernelRec where
  levels := BitVec.ofNat 3 (dfield d 0 32 3)
  entry := BitVec.ofNat 32 (dfield d 1 0 32)
  strent := BitVec.ofNat 32 (dfield d 1 32 32)
  traph := BitVec.ofNat 32 (dfield d 2 0 32)
  lanes := dfield d 2 32 12
  nt := dfield d 2 44 3
  idem := decide (dfield d 2 47 1 = 1)
  stepped := decide (dfield d 2 48 1 = 1)
  splice := BitVec.ofNat 2 (dfield d 2 49 2)
  mode := BitVec.ofNat 24 (dfield d 3 0 24)
  spadsz := dfield d 4 0 23
  priv := dfield d 4 32 32
  roles := rolesIn d
  exps := (List.range 16).map fun n => dfield d (6 + n / 8) (8 * (n % 8)) 8
  regu := dfield d 8 0 16
  spadu := dfield d 8 16 16
  slots := dfield d 8 32 8
  seq := dfield d 8 40 8

/-- The demand that R27 gives from the other fields of a kernel record (01 R27). -/
def KernelRec.computed (k : KernelRec) : List Nat :=
  [k.roles.foldl (fun a r => a + r.1 * (r.2 / 8 + 2)) 0, (k.spadsz + 4095) / 4096, groupCount k.lanes,
    if k.matrix then 1 else 0]

/-- The bytes of TEXT rounded up to a multiple of 256 (20 R304). -/
def streamBase (text : Nat) : Nat := (text + 255) / 256 * 256

/-- The segment table: NSEG descriptors at SEGTAB (03 R68, 23 R341). -/
def State.segTable (s : State) (d : List W64) : List SegDesc :=
  (List.range (dfield d 21 0 16)).map fun i =>
    let a := dfield d 20 0 56 + 32 * i
    ⟨s.mem.read64 a, s.mem.read64 (a + 8), s.mem.read64 (a + 16), s.mem.read64 (a + 24)⟩

/-- Cut protection by CUTP (R341). -/
def cutProtected (cutp gang : Nat) (quarantined : Bool) : Bool :=
  !quarantined && (decide (cutp = 1) || (decide (cutp = 0) && decide (gang ≠ 0)))

/-- The launch that a LAUNCH packet `w` and its descriptor `d` describe, read from queue `k` of a function. `spad`, `text` and
`marks` are what the loader holds beside the descriptor: the .spad image, the bytes of TEXT and the SPLICE section. -/
def State.launchOf (s : State) (fn k : Nat) (q : Queue) (w d : List W64) (spad : List Byte) (text : Nat) (marks : List W64)
    (node : Option (Nat × Nat)) : Launch where
  seq := s.nextId
  lid := packetTag w
  fn := fn
  queue := k
  prio := q.prio.toNat
  waits := [2, 3, 4, 5].map fun i => BitVec.ofNat 32 (pword w i)
  compAddr := w.getD 6 0
  compDev := q.qloc
  krec := kernelOf d
  gridX := dfield d 17 0 32
  gridY := dfield d 17 32 16
  gridZ := dfield d 17 48 16
  pool := ⟨BitVec.ofNat 11 (dfield d 18 0 11), BitVec.ofNat 11 (dfield d 18 16 11), BitVec.ofNat 11 (dfield d 18 32 11)⟩
  segs := s.segTable d
  codeSeg := dfield d 21 16 16
  trapHandler := if dfield d 2 0 32 = 2 ^ 32 - 1 then 0 else mkPtr (dfield d 21 16 16) (dfield d 2 0 32)
  streamEntry := mkPtr (dfield d 21 16 16) (streamBase text + dfield d 1 32 32)
  graphTab := dfield d 22 0 56
  ngraph := dfield d 23 0 17
  gang := BitVec.ofNat 32 (dfield d 24 0 32)
  gangN := dfield d 24 32 5
  gpart := dfield d 24 37 4
  cutp := cutProtected (dfield d 24 41 2) (dfield d 24 0 32) (decide (q.qstate = .quarantined))
  dbg := decide (dfield d 24 43 1 = 1)
  breakArmed := false
  spadImage := spad.take (kernelOf d).spadsz
  stage := .waiting
  nextTeam := 0
  retired := 0
  vtSum := 0
  lostTeams := 0
  nstop := 0
  firstStop := none
  reports := []
  stopReq := false
  quarantined := decide (q.qstate = .quarantined)
  placedAt := 0
  away := none
  qlimitUs := 0
  reason := 0
  aborted := false
  dieLost := false
  spliceCode := 7
  fused := none
  node := node
  refill := []
  textBytes := text
  marks := marks

/-! The checks of R342, in their order. -/

/-- x precedes y, by serial arithmetic (R343). -/
def precedes (x y : W32) : Bool := decide (1 ≤ (y - x).toNat) && decide ((y - x).toNat < 2 ^ 31)

/-- Fields of the descriptor in range (reason MALFORMED). A PRIV that is no multiple of 4 is accepted (DESIGN CHOICE, assumption 55). -/
def State.fieldsOk (s : State) (d : List W64) (l : Launch) : Bool :=
  let k := l.krec
  descBitsOk d && rolesInOrder d && decide (1 ≤ k.lanes ∧ k.lanes ≤ 2048) && decide (k.nt ≤ 4) &&
  decide (k.strent ≠ BitVec.allOnes 32 → k.strent.toNat % 4 = 0) &&
  decide (k.entry.toNat % 4 = 0 ∧ k.entry.toNat < l.textBytes) &&
  decide (k.traph = BitVec.allOnes 32 ∨ (k.traph.toNat % 4 = 0 ∧ k.traph.toNat < l.textBytes)) &&
  modeLegal k.mode && decide (k.spadsz ≤ 4194304) &&
  decide ((k.roles.map (·.1)).sum = groupCount k.lanes) &&
  (k.roles.all fun r => decide (8 ≤ r.2 ∧ r.2 ≤ 128 ∧ r.2 % 8 = 0)) &&
  decide (1 ≤ l.gridX ∧ l.gridX < 2 ^ 31 ∧ 1 ≤ l.gridY ∧ 1 ≤ l.gridZ ∧ l.grid < 2 ^ 32) &&
  decide (l.segs.length ≤ 65533) && decide (1 ≤ l.codeSeg ∧ l.codeSeg ≤ l.segs.length) &&
  decide (dfield d 20 0 56 % 32 = 0) && (decide (l.segs.length = 0) || physRange (dfield d 20 0 56) (32 * l.segs.length)) &&
  decide (l.ngraph ≤ 65536) && (decide (l.ngraph = 0) || physRange l.graphTab (16 * l.ngraph)) &&
  decide (dfield d 24 41 2 ≠ 3) && decide (l.gang ≠ 0 → 2 ≤ l.gangN ∧ l.gangN ≤ 16 ∧ l.gpart < l.gangN) &&
  decide (k.demand = k.computed) &&
  !(s.launches.any fun m => decide (m.fn = l.fn) && decide (m.lid = l.lid) && decide (m.stage ≠ .complete))

/-- A wait on itself or on a later launch (reason DEPEND). -/
def Launch.waitsOk (l : Launch) : Bool := l.waits.all fun w => decide (w = 0) || (decide (w ≠ l.lid) && !precedes l.lid w)

/-- A segment descriptor that is in use (03 R69). -/
def SegDesc.acceptable (d : SegDesc) (l : Launch) : Bool :=
  let b (k : Nat) : Bool := d.w2.getLsbD k
  let sp := d.spaceCode
  decide (d.w0.toNat / 2 ^ 57 = 0) && decide (d.w1.toNat / 2 ^ 48 = 0) && decide (d.w2.toNat / 2 ^ 12 % 2 ^ 4 = 0) &&
  decide (d.w2.toNat / 2 ^ 29 = 0) && decide (d.w3.toNat / 2 ^ 43 = 0) && decide (sp ≤ 4) && decide (d.wreg ≤ 5) &&
  decide (sp = 4 ∨ d.base % 65536 = 0) && decide (sp ≠ 4 ∨ d.base = 0) &&
  decide (d.peerPart ≤ 16) && decide (sp = 3 ∨ d.peerPart = 0) &&
  decide (d.base + d.limit ≤ 2 ^ 57) && !(b 1 && b 2 && !b 6) && !(b 6 && !b 2) &&
  !(b 5 && (decide (sp ≠ 0) || b 11)) && !(b 11 && decide (sp ≠ 1)) && !(b 3 && decide (sp = 2)) &&
  !(decide (sp = 4) && (b 2 || b 3 || b 4)) && decide (d.wteam = 2 ^ 32 - 1 ∨ d.wteam < l.grid) &&
  !(decide (d.wreg = 0) && decide (groupCount l.krec.lanes ≤ d.wgroup))

/-- Every descriptor in use is acceptable (reason SEGMENT). -/
def Launch.segsOk (l : Launch) : Bool := l.segs.all fun d => !d.valid || d.acceptable l

/-- R18, R158 and R206 (reason KERNEL): a stream entry and a tile count are declared together. -/
def KernelRec.kernelOk (k : KernelRec) : Bool :=
  decide (k.matrix = true → 4 ≤ groupCount k.lanes) && decide (k.nt ≠ 0 ↔ k.strent ≠ BitVec.allOnes 32) &&
  k.exps.all fun e => decide (1 ≤ e ∧ e ≤ 17 ∧ e ≤ groupCount k.lanes + (if k.matrix then 1 else 0))

/-- The words of a launch's code segment from an offset, when they can be read. -/
def State.codeWords (s : State) (l : Launch) (off n : Nat) : Option (List W32) :=
  match l.desc? l.codeSeg with
  | none => none
  | some d => (s.cpRead l.fn true (d.base + off) (4 * n)).map fun bs =>
      (List.range n).map fun i => BitVec.ofNat 32 (leNat ((bs.drop (4 * i)).take 4))

/-- Those words lie in a page in transit, which the reader waits for (03 R86). -/
def State.codeStalls (s : State) (l : Launch) (n : Nat) : Bool := match l.desc? l.codeSeg with
  | none => false
  | some d => s.cpStalls l.fn true d.base n false

/-- The words have been read: their pages have been accessed (03 R78). -/
def State.codeRead (s : State) (l : Launch) (n : Nat) : State := match l.desc? l.codeSeg with
  | none => s
  | some d => s.cpMark l.fn true d.base n

/-- A container's CLASS, and the kernel of a CLASS 0 container within the floors, its TEXT words where they can be read (21 R319;
reason CLASS). -/
def State.classOk (s : State) (l : Launch) (cls : Nat) : Bool :=
  decide (cls = 0x0901) || (decide (cls = 0) && l.krec.inFloors && ((s.codeWords l 0 (l.textBytes / 4)).getD []).all wordInFloors)

/-- R25, and one team on an empty core (reason POOL). A private area is no part of it: one that exceeds a die's whole part of the
near share waits for ever (assumption 83). -/
def Launch.poolOk (l : Launch) : Bool :=
  let r := l.pool.reg.toNat
  let c := l.pool.scr.toNat
  let m := l.pool.l1.toNat
  decide (3 ≤ r ∧ r ≤ c ∧ c ≤ m ∧ m ≤ 1024 ∧ (m - c) % 8 = 0 ∧ 8 ≤ m - c) && fitsIn l.pool.capacity l.krec.demand

/-- No entry of the graph table names an image that has not been loaded (reason GRAPH). -/
def State.graphsOk (s : State) (l : Launch) : Bool :=
  (List.range l.ngraph).all fun h =>
    let w0 := (s.mem.read64 (l.graphTab + 16 * h)).toNat
    let w1 := (s.mem.read64 (l.graphTab + 16 * h + 8)).toNat
    decide (w0 % 2 ^ 56 = 0 ∧ w1 % 2 ^ 32 = 0) || decide (w0 / 2 ^ 63 = 1)

/-- A part of a gang: not from a quarantined queue or a graph node, and one that its partition can hold (reason GANG). -/
def State.gangOk (s : State) (l : Launch) : Bool :=
  decide (l.gang = 0) || (!l.quarantined && l.node.isNone && s.gangFits l)

/-- The first reason that applies, 0 for none. `cls` is the container's CLASS (21 R319). -/
def State.refusal (s : State) (d : List W64) (l : Launch) (cls : Nat) : Nat :=
  if !s.fieldsOk d l then 1
  else if !l.waitsOk then 2
  else if !s.classOk l cls then 3
  else if !l.segsOk then 4
  else if !l.krec.kernelOk then 5
  else if !l.poolOk then 6
  else if !s.graphsOk l then 7
  else if !s.gangOk l then 8
  else 0

/-- The descriptor of a LAUNCH packet, at a device physical address, when it can be read. -/
def State.descriptor (s : State) (w : List W64) : Option (List W64) :=
  let a := pword w 1
  if a % 64 = 0 ∧ physRange a 256 = true then some (bytesWords (s.mem.readBytes a 256) 32) else none

end Sys2Proof.Machine
end

