-- ==== Sys2Proof/Machine/Splice.lean ====
section
/-! DEFINITION. The splice linker (spec 22): the shape of a kernel's text (R321), the fused layout (R323), renumbering (R324),
queue ages (R325), forwarding (R326, R327), the refusals in their order (R328), the fused launch and its origin records
(R329, R330). -/

namespace Sys2Proof.Machine

/-! A kernel's text (R321). -/

/-- One side of a pair: its launch, text and stream, and the parts of its text. -/
structure Side where
  launch : Launch
  text : List W32
  stream : List W32
  first : Nat
  last : Nat
  exit : Nat
  deriving DecidableEq, Repr

def Side.entry (k : Side) : Nat := k.launch.krec.entry.toNat
def Side.word (k : Side) (o : Nat) : W32 := k.text.getD (o / 4) 0

/-- The part an offset lies in: 0 prologue, 1 body, 2 epilogue, 3 tail. -/
def Side.part (k : Side) (o : Nat) : Nat :=
  if k.entry ≤ o ∧ o < k.first then 0
  else if k.first ≤ o ∧ o ≤ k.last then 1
  else if k.last < o ∧ o ≤ k.exit then 2
  else 3

def Side.offsets (k : Side) : List Nat := (List.range k.text.length).map (4 * ·)
def Side.offsetsOf (k : Side) (p : Nat) : List Nat := k.offsets.filter fun o => decide (k.part o = p)

/-- A relative branch, and its target. -/
def isRelative (w : W32) : Bool := decide ((0x10 ≤ opByte w ∧ opByte w ≤ 0x15) ∨ opByte w = 0x19)
def relTarget (w : W32) (o : Nat) : Int := o + 4 * (BitVec.ofNat 16 w.toNat).toInt

/-- The shape of R321. -/
def Side.shaped (k : Side) (consumer : Bool) : Bool :=
  let op (o : Nat) : Nat := opByte (k.word o)
  let fine (o : Nat) : Bool :=
    let x := op o
    let p := k.part o
    (decide (p = 3) || !([0x15, 0x16, 0x17, 0x18, 0xF1].contains x)) && (decide (2 ≤ p) || decide (x ≠ 0xF4)) &&
    (!isRelative (k.word o) || (decide (0 ≤ relTarget (k.word o) o) &&
      decide (relTarget (k.word o) o < 4 * k.text.length) && decide (k.part (relTarget (k.word o) o).toNat = p)))
  let traph := k.launch.krec.traph
  decide (k.entry ≤ k.first ∧ k.first < k.last ∧ k.last < k.exit ∧ k.exit < 4 * k.text.length) &&
  decide (k.entry % 4 = 0 ∧ k.first % 4 = 0 ∧ k.last % 4 = 0) &&
  decide (op k.first = 0x30) && decide (op k.last = 0x19) && decide (relTarget (k.word k.last) k.last = k.first) &&
  (decide (op (k.last + 4) = 0x30) || decide (op (k.last + 4) = 0xF4)) && decide (op k.exit = 0xF4) &&
  (!consumer || decide (op k.entry = 0x30)) && k.offsets.all fine &&
  (decide (traph = BitVec.allOnes 32) || decide (k.part traph.toNat = 3)) && !(k.text.any readsBudget) &&
  k.launch.segs.all fun d => !d.valid || !(d.w2.getLsbD 6)

/-- The size of a launch's code segment. -/
def Launch.codeLimit (l : Launch) : Nat := ((l.desc? l.codeSeg).map (·.limit)).getD 0

/-- The bytes of the code segment that hold what the linker reads. -/
def Launch.codeBytes (l : Launch) : Nat := if l.krec.matrix then l.codeLimit else l.textBytes

/-- A side of a pair, read from memory. -/
def State.sideOf (s : State) (l : Launch) : Option Side :=
  let base := streamBase l.textBytes
  let limit := l.codeLimit
  let loop := pword l.marks 0
  match s.codeWords l 0 (l.textBytes / 4), s.codeWords l base (if l.krec.matrix then (limit - base) / 4 else 0) with
  | some text, some stream =>
    let last := loop / 2 ^ 32
    let exit := ((List.range text.length).map (4 * ·)).find? fun o => decide (last < o) && decide (opByte (text.getD (o / 4) 0) = 0xF4)
    exit.map fun e => ⟨l, text, stream, loop % 2 ^ 32, last, e⟩
  | _, _ => none

/-! Matched pairs of marks (R326). -/

/-- The marks of a SPLICE section (20 R308): offset, kind and buffer. -/
def marksOf (ws : List W64) : List (Nat × Nat × Nat) :=
  (List.range ((ws.length - 1) / 2)).map fun i =>
    (pword ws (1 + 2 * i) % 2 ^ 32, pword ws (1 + 2 * i) / 2 ^ 32 % 4, pword ws (2 + 2 * i) % 2 ^ 32)

/-- Offsets that an offset of the body can lead to, short of leaving LAST. -/
def Side.bodyNext (k : Side) (o : Nat) : List Nat :=
  if o = k.last then []
  else if isRelative (k.word o) then
    let t := (relTarget (k.word o) o).toNat
    if opByte (k.word o) = 0x10 then [t] else [t, o + 4]
  else [o + 4]

/-- Offsets of the body reachable from FIRST without passing `avoid`. -/
def Side.reach (k : Side) (avoid : Nat) : Nat → List Nat → List Nat
  | 0, seen => seen
  | fuel + 1, seen =>
    k.reach avoid fuel (seen ++ ((seen.flatMap k.bodyNext).filter fun o => decide (o ≠ avoid) && !seen.contains o)).dedup

/-- An offset lies on every path from FIRST to LAST. -/
def Side.onEveryPath (k : Side) (o : Nat) : Bool :=
  decide (o = k.first) || decide (o = k.last) || !((k.reach o k.text.length [k.first]).contains k.last)

/-- A word writes vector register `d`. -/
def writesV (w : W32) (d : Nat) : Bool :=
  (decide (pushClass w = some true) && decide (bitListOf w 16 8 = d)) ||
  (decide (opByte w = 0xD6) && decide (bitListOf w 16 7 ≤ d ∧ d ≤ bitListOf w 16 7 + 3))

/-- The store and the load of a buffer's matched pair. -/
def matchedPair (p c : Side) (buf : Nat) : Option (Nat × Nat) :=
  let here (k : Side) (kind : Nat) : List Nat :=
    ((marksOf k.launch.marks).filter fun m => decide (m.2.1 = kind) && decide (m.2.2 = buf) && decide (k.part m.1 = 1)).map (·.1)
  match here p 1, here c 2 with
  | [so], [lo] =>
    let sw := p.word so
    let lw := c.word lo
    let d := bitListOf sw 16 8
    let after := (p.offsetsOf 1).filter fun o => decide (so < o)
    if opByte sw = 0x95 ∧ opByte lw = 0x92 ∧ bitListOf sw 6 2 = 0 ∧ bitListOf lw 6 2 = 0 ∧ d < 0x80 ∧
        p.onEveryPath so = true ∧ c.onEveryPath lo = true ∧ after.all (fun o => !writesV (p.word o) d) = true then some (so, lo)
    else none
  | _, _ => none

/-- Every matched pair with its buffer. -/
def matchedPairs (p c : Side) : List (Nat × Nat × Nat) :=
  (((marksOf p.launch.marks).map (·.2.2)).dedup).filterMap fun b => (matchedPair p c b).map fun x => (b, x.1, x.2)

/-- A buffer that either kernel marks transient. -/
def transient (p c : Side) (buf : Nat) : Bool :=
  (marksOf p.launch.marks ++ marksOf c.launch.marks).any fun m => decide (m.2.1 = 3) && decide (m.2.2 = buf)

/-! The fused layout (R323). -/

/-- A word of the fused code: the side that it was copied from, if any, its original offset, and its origin record. `read` is the
word whose queue reads it keeps: the copied word before its renumbering. -/
structure FusedWord where
  side : Option Nat
  off : Nat
  word : W32
  read : W32
  origin : Origin
  deriving DecidableEq, Repr

def nopWord : W32 := 0xF3000000
def swWord : W32 := 0x36000F00

/-- A word of P in the fused code: its EXIT and its elided stores become NOP (R323, R327). -/
def producerWord (p : Side) (elided : List Nat) (o : Nat) : FusedWord :=
  let w := if o = p.exit ∨ elided.contains o then nopWord else p.word o
  ⟨some 0, o, w, w, ⟨0, o, p.word o⟩⟩

/-- A word of C: renumbered, or the VOR of a matched load (R326). -/
def consumerWord (c : Side) (vP sP hP : Nat) (loads : List (Nat × Nat)) (o : Nat) : FusedWord :=
  match loads.find? fun x => decide (x.1 = o) with
  | none => ⟨some 1, o, renumber vP sP hP (c.word o), c.word o, ⟨1, o, c.word o⟩⟩
  | some x =>
    let d := bitListOf (c.word o) 16 8
    let w : W32 := BitVec.ofNat 32 (0x510000F0 + (if d < 0x80 then (vP + d) % 256 else 0xFF) * 2 ^ 16 + x.2 * 2 ^ 8)
    ⟨some 1, o, w, w, ⟨1, o, c.word o⟩⟩

/-- An inserted word, its origin a word of a side. -/
def inserted (k : Side) (side off : Nat) (w : W32) : FusedWord := ⟨none, off, w, w, ⟨side, off, k.word off⟩⟩

/-- A store, atomic, CST, CATOM, CCOPY, COPY or FGRAPH (R323). -/
def mayWrite (w : W32) : Bool :=
  let op := opByte w
  decide ((0x24 ≤ op ∧ op ≤ 0x27) ∨ (0x93 ≤ op ∧ op ≤ 0x95) ∨ (0xA0 ≤ op ∧ op ≤ 0xAB) ∨ op = 0xAD ∨ op = 0xAE ∨
    (0xB0 ≤ op ∧ op ≤ 0xB2) ∨ op = 0xE0 ∨ op = 0xE1)

/-- Main path and tail of the fused code. -/
def fusedLayout (p c : Side) (vP sP hP groups : Nat) (elided : List Nat) (loads : List (Nat × Nat)) :
    List FusedWord × List FusedWord :=
  let pw := producerWord p elided
  let cw := consumerWord c vP sP hP loads
  let sw (k : Side) (side off : Nat) : List FusedWord := if 1 < groups then [inserted k side off swWord] else []
  let pMain := [0, 1, 2].flatMap p.offsetsOf
  let dr : List FusedWord := if (pMain.map pw).any fun x => mayWrite x.word then
      (List.range 16).map fun ch => inserted c 1 (c.last + 4) (BitVec.ofNat 32 (0xB4000000 + ch * 2 ^ 20))
    else []
  ((p.offsetsOf 0).map pw ++ (c.offsetsOf 0).map cw ++ ((p.offsetsOf 1).filter fun o => decide (o ≠ p.last)).map pw ++
    sw c 1 c.first ++ (c.offsetsOf 1).map cw ++ sw p 0 p.last ++ [pw p.last] ++ (p.offsetsOf 2).map pw ++
    dr ++ sw c 1 (c.last + 4) ++ (c.offsetsOf 2).map cw,
   (p.offsetsOf 3).map pw ++ (c.offsetsOf 3).map cw)

/-- The place in the fused code of a side's original offset. -/
def placeOf (lay : List FusedWord) (side off : Nat) : Option Nat :=
  lay.findIdx? fun x => decide (x.side = some side) && decide (x.off = off)

/-- Where the relative branch at place `i` goes: P's LAST to the start of the body, C's LAST to the next word, any other to
its old target. -/
def fusedTarget (p c : Side) (lay : List FusedWord) (body i : Nat) : Nat := match lay[i]? with
  | none => 0
  | some x =>
    if x.side = some 0 ∧ x.off = p.last then body
    else if x.side = some 1 ∧ x.off = c.last then i + 1
    else (placeOf lay (x.side.getD 0) (relTarget x.word x.off).toNat).getD 0

/-- Places that a place of the main path leads to. -/
def fusedNext (p c : Side) (lay : List FusedWord) (body i : Nat) : List Nat := match lay[i]? with
  | none => []
  | some x =>
    if x.side.isSome ∧ isRelative x.word = true then
      (if opByte x.word = 0x10 then [fusedTarget p c lay body i] else [fusedTarget p c lay body i, i + 1])
    else if opByte x.word = 0xF4 then [] else [i + 1]

/-! Queue ages (R325). -/

/-- Go back from a read over every path: `own` pushes of its side and `m` of the other side have been passed. The answers are
the values of `m` at the push that the read names, or at the entry; none when one exceeds 16. -/
def walkBack (lay : List FusedWord) (preds : Nat → List Nat) (side : Option Nat) (q : Bool) (k : Nat) :
    Nat → List (Nat × Nat × Nat) → List (Nat × Nat × Nat) → List Nat → Option (List Nat)
  | 0, _, _, _ => none
  | _, [], _, res => some res
  | fuel + 1, (j, own, m) :: todo, seen, res =>
    let res1 := if j = 0 then m :: res else res
    let stepTo (pj : Nat) : Nat × Nat × Nat := match lay[pj]? with
      | none => (pj, own, m)
      | some x => if pushClass x.word = some q then (if x.side = side then (pj, own + 1, m) else (pj, own, m + 1)) else (pj, own, m)
    let nexts := (preds j).map stepTo
    let ended := (nexts.filter fun x => decide (x.2.1 = k)).map (·.2.2)
    let more := (nexts.filter fun x => decide (x.2.1 ≠ k) && !seen.contains x).dedup
    if nexts.any fun x => decide (16 < x.2.2) then none
    else walkBack lay preds side q k fuel (todo ++ more) (seen ++ more) (res1 ++ ended)

/-- How far a read of age `k` moves; none when the paths differ or the entry is gone. -/
def ageShift (lay : List FusedWord) (preds : Nat → List Nat) (i : Nat) (side : Option Nat) (q : Bool) (k : Nat) : Option Nat :=
  match walkBack lay preds side q k (lay.length * 300 + 1) [(i, 0, 0)] [(i, 0, 0)] [] with
  | none => none
  | some [] => some 0
  | some (m :: ms) => if ms.all (fun x => decide (x = m)) && decide (k + m ≤ 16) then some m else none

/-- A main-path word with the ages of its queue reads moved, or none. -/
def shiftAges (lay : List FusedWord) (preds : Nat → List Nat) (i : Nat) (x : FusedWord) : Option FusedWord :=
  (nameFields x.read).foldlM (fun (y : FusedWord) f => match f.queueRead x.read with
    | none => some y
    | some (q, k) => (ageShift lay preds i x.side q k).map fun m =>
        { y with word := putBits y.word f.place.1 f.place.2 (f.read x.read + m) }) x

/-! The decision (R328) and the fused launch (R329, R330). -/

/-- Barriers that a kernel names in its code or declares with an EXP of its own. -/
def Side.bars (k : Side) : List Nat :=
  barsOf (k.text ++ k.stream) ++ (List.range 16).filter fun n =>
    decide (k.launch.krec.exps.getD n 0 ≠ groupCount k.launch.krec.lanes)

/-- PAIR: the launches agree, and segment 0xFFFD is free. -/
def pairAgrees (p c : Launch) : Bool :=
  decide ((p.gridX, p.gridY, p.gridZ) = (c.gridX, c.gridY, c.gridZ)) && decide (p.krec.lanes = c.krec.lanes) &&
  decide (p.krec.roles.map (·.1) = c.krec.roles.map (·.1)) && decide (p.pool = c.pool) && decide (p.cutp = c.cutp) &&
  decide (p.segs = c.segs) && (p.desc? 0xFFFD).isNone

/-- STATE: matrix use, Nectar state or SHAPE, scratchpad and private bytes each on one side at most; no RQUOTA in P. -/
def statesApart (p c : Side) : Bool :=
  let nectar (k : Side) : Bool := k.text.any fun w => decide (opByte w / 16 = 0xD) || decide (opByte w = 0x32)
  let a := p.launch.krec
  let b := c.launch.krec
  !(a.matrix && b.matrix) && !(nectar p && nectar c) && !(decide (a.spadsz ≠ 0) && decide (b.spadsz ≠ 0)) &&
  !(decide (a.priv ≠ 0) && decide (b.priv ≠ 0)) && !(p.text.any fun w => decide (opByte w = 0x37))

/-- The kernel record of the fused team. -/
def fusedKernel (p c : Side) (vP hP : Nat) : KernelRec :=
  let a := p.launch.krec
  let b := c.launch.krec
  let groups := groupCount a.lanes
  let exps := c.bars.foldl (fun (e : List Nat) n => e.set (n + hP) (b.exps.getD n groups)) a.exps
  let k : KernelRec := { a with
    entry := 0, traph := BitVec.allOnes 32
    strent := if a.matrix then a.strent else b.strent
    nt := max a.nt b.nt
    idem := a.idem && b.idem
    stepped := a.stepped && b.stepped
    spadsz := max a.spadsz b.spadsz
    priv := max a.priv b.priv
    roles := b.roles.map fun r => (r.1, vP + r.2)
    exps := exps.set 15 groups }
  { k with
    regu := k.computed.getD 0 0, spadu := k.computed.getD 1 0, slots := k.computed.getD 2 0, seq := k.computed.getD 3 0 }

/-- Retarget a branch of the fused code; none when its offset does not fit. -/
def retarget (p c : Side) (lay : List FusedWord) (body : Nat) (x : FusedWord × Nat) : Option W32 :=
  if x.1.side.isSome ∧ isRelative x.1.word = true then
    let d : Int := (fusedTarget p c lay body x.2 : Int) - x.2
    if -32768 ≤ d ∧ d < 32768 then some (putBits x.1.word 0 16 (BitVec.ofInt 16 d).toNat) else none
  else some x.1.word

/-- The offsets of the STEP words of a text (R329, 20 R307). -/
def stepOffsets (text : List W32) : List Nat :=
  (text.zipIdx.filter fun x => decide (opByte x.1 = 0x38)).map fun x => 4 * x.2

/-- The fused launch, or the code of R328 that refuses it. -/
def spliceSides (p c : Side) : Nat ⊕ Launch :=
  let groups := groupCount p.launch.krec.lanes
  if !p.shaped false || !c.shaped true then .inl 2
  else if !statesApart p c then .inl 3
  else
    let tp := topsOf (p.text ++ p.stream)
    let tc := topsOf (c.text ++ c.stream)
    let vP := (tp.1 + 7) / 8 * 8
    let sP := tp.2.1
    let hP := (p.bars.map (· + 1)).max?.getD 0
    let pairs := matchedPairs p c
    let elided := (pairs.filter fun x => transient p c x.1).map (·.2.1)
    let loads := pairs.map fun x => (x.2.2, bitListOf (p.word x.2.1) 16 8)
    let both := fusedLayout p c vP sP hP groups elided loads
    let lay := both.1 ++ both.2
    let body := (p.offsetsOf 0).length + (c.offsetsOf 0).length
    let main := both.1
    let edges := (List.range main.length).flatMap fun i => (fusedNext p c lay body i).map fun j => (i, j)
    let preds (j : Nat) : List Nat := (edges.filter fun e => decide (e.2 = j)).map (·.1)
    match main.zipIdx.mapM fun x => shiftAges main preds x.2 x.1 with
    | none => .inl 4
    | some aged =>
      let k := fusedKernel p c vP hP
      let cMain := c.offsets.filter fun o => !(loads.any fun x => decide (x.1 = o))
      let l0 : Launch := { p.launch with krec := k }
      if (p.bars ++ c.bars).contains 15 || c.bars.any (fun n => decide (15 ≤ n + hP)) then .inl 5
      else if k.roles.any (fun r => decide (128 < r.2)) || (decide (tc.2.1 ≠ 0) && decide (128 < sP + tc.2.1)) ||
          !(cMain.all fun o => renumberFits vP sP hP (c.word o)) || !(c.stream.all (renumberFits vP sP hP)) ||
          !(fitsIn l0.pool.capacity k.demand) then .inl 6
      else match ((aged ++ both.2).zipIdx).mapM (retarget p c lay body) with
        | none => .inl 2
        | some text =>
          let base := streamBase (4 * text.length)
          let stream := if p.launch.krec.matrix then p.stream else c.stream.map (renumber vP sP hP)
          let code := if stream.isEmpty then text
            else text ++ List.replicate (base / 4 - text.length) nopWord ++ stream
          let trapOf (side : Nat) (r : KernelRec) : W64 :=
            if r.traph = BitVec.allOnes 32 then 0 else mkPtr 0xFFFD (4 * ((placeOf lay side r.traph.toNat).getD 0))
          let one := if p.launch.krec.spadsz ≠ 0 then p.launch.spadImage else c.launch.spadImage
          .inr { l0 with
            codeSeg := 0xFFFD
            streamEntry := mkPtr 0xFFFD (base + k.strent.toNat)
            trapHandler := trapOf 0 p.launch.krec
            spadImage := one
            stage := .ready
            spliceCode := 0
            fused := some ⟨[p.launch.codeSeg, c.launch.codeSeg], [trapOf 0 p.launch.krec, trapOf 1 c.launch.krec],
              lay.map (·.origin), c.launch.seq, code, stepOffsets text⟩ }

/-- What becomes of a pair: a code of R328, or the fused launch. -/
def State.splicePair (s : State) (p c : Launch) : Nat ⊕ Launch :=
  if !pairAgrees p c then .inl 1
  else match s.sideOf p, s.sideOf c with
    | some a, some b => spliceSides a b
    | _, _ => .inl 2

/-- The linker's reads of a pair wait for a page in transit. -/
def State.pairStalls (s : State) (p c : Launch) : Bool := s.codeStalls p p.codeBytes || s.codeStalls c c.codeBytes

/-- The linker has read both sides. -/
def State.pairRead (s : State) (p c : Launch) : State := (s.codeRead p p.codeBytes).codeRead c c.codeBytes

/-- The linker considers a pair: C's mark, no gang, and a wait on P alone (R320). -/
def considersPair (p c : Launch) : Bool :=
  (decide (c.krec.splice = 2) || decide (c.krec.splice = 3)) && decide (c.gang = 0) &&
  (c.waits.any fun w => decide (w = p.lid)) && c.waits.all fun w => decide (w = 0) || decide (w = p.lid)

end Sys2Proof.Machine
end

