-- ==== Sys2Proof/Machine/Submit.lean ====
section
/-! DEFINITION. The packet LAUNCH (spec 23 R337, R340-R343, R348) and the hand-over of a pair to the splice linker (22 R320,
R328, R329). -/

namespace Sys2Proof.Machine

/-- The refusal record of a LAUNCH of queue `q`, whose descriptor may be unreadable. -/
def State.refusePacket (s : State) (fn k : Nat) (q : Queue) (w : List W64) (reason : Nat) : State :=
  s.writeRefusal (s.launchOf fn k q w [] [] 0 [] none) reason

/-- The producer of a queue that waits for its splice consumer. -/
def State.producerOf (s : State) (fn k : Nat) : Option Launch :=
  s.launches.find? fun l => decide (l.fn = fn) && decide (l.queue = k) && decide (l.stage = .pairing)

/-- A launch that is not refused: alone, or as the consumer that its producer waits for. A producer that is not spliced goes
on, with the linker's code when the pair was considered. -/
def State.acceptLaunch (s : State) (l : Launch) : State := match s.producerOf l.fn l.queue with
  | none => s.addLaunch l
  | some p =>
    if considersPair p l then
      let s1 := if pairAgrees p l then s.pairRead p l else s
      match s.splicePair p l with
      | .inl code => (s1.mapLaunch p.seq fun m => { m with stage := .ready, spliceCode := code }).addLaunch l
      | .inr f => { s1 with
          launches := (s1.launches.map fun m => if m.seq = p.seq then f else m) ++ [{ l with stage := .spliced }] }
    else (s.unpair l.fn l.queue).addLaunch l

/-- The reading of a LAUNCH waits for a page in transit (03 R86): that of TEXT which R319 or the linker reads, or that of another
part's record in a gang that this part makes refused. -/
def State.launchHeld (s : State) (l : Launch) (cls reason : Nat) : Bool :=
  (decide (cls = 0) && s.codeStalls l l.textBytes) ||
  (decide (l.gang ≠ 0) && s.gangHeld l reason) || (decide (reason = 1) && s.demoteHeld l.fn l.queue) ||
  ((s.producerOf l.fn l.queue).map fun p => considersPair p l && s.pairStalls p l).getD false

/-- LAUNCH: consumed as malformed, refused with the first reason of R342, or submitted. `spad`, `text`, `cls` and `splice` are
what the loader holds beside the descriptor (20 R301): the .spad image, the bytes of TEXT, CLASS and the SPLICE section. -/
def execLaunch (fn q : Nat) (spad : List (BitVec 8)) (text cls : Nat) (splice : List (BitVec 64)) (s : State) : Res :=
  match s.nextPacket fn q with
  | some (x, some w) =>
    if packetKind w ≠ 1 ∨ s.cpStalls fn x.qloc (pword w 6) 96 true = true then .next s
    else if !packetWellFormed w then
      .next (if s.demoteHeld fn q then s else ((s.consume fn q).demote fn q 1 x.qhead).refusePacket fn q x w 1)
    else match s.descriptor w with
      | none => .next (if s.demoteHeld fn q then s else ((s.consume fn q).demote fn q 2 x.qhead).refusePacket fn q x w 1)
      | some d =>
        let l := s.launchOf fn q x w d spad text splice none
        let r := s.refusal d l cls
        let s1 := { s.consume fn q with nextId := s.nextId + 1 }
        if s.launchHeld l cls r then .next s
        else if r ≠ 0 then
          let s2 := s1.unpair fn q
          let s3 := if l.gang = 0 then s2.writeRefusal l r else s2.gangPart l r
          .next (if r = 1 then s3.demote fn q 4 x.qhead else s3)
        else if l.gang ≠ 0 then .next ((s1.unpair fn q).gangPart l 0)
        else .next (s1.acceptLaunch l)
  | _ => .next s

end Sys2Proof.Machine
end

