-- ==== Sys2Proof/Machine/Forager.lean ====
section
/-! DEFINITION. FGRAPH and the Forager's replays (spec 12 R245-R259, 19 R299): starting and completing nodes, waits, launch nodes,
collective signatures and the status of a replay. -/

namespace Sys2Proof.Machine

/-! FGRAPH (R257). -/

/-- The checks of the base table: NBASE × 8 bytes, 8-byte aligned, with PR. The answer is the place of each word. -/
def State.checkBase (s : State) (l : Launch) (t : TeamId) (die : Nat) (p : W64) (n : Nat) : Chk (List Hit) :=
  (checkSeg l (ptrSeg p) p [.pr] false 0 0).andThen fun v =>
    if ptrOff p % 8 ≠ 0 then .trap (.alignment p 0 0)
    else if v.limit < ptrOff p + 8 * n then .trap (.bounds p 0 0)
    else (List.range n).foldl (fun (acc : Chk (List Hit)) i => acc.andThen fun hs =>
      (s.checkScalar l t die p (ptrOff p + 8 * i) 8 [.pr] false).andThen fun h => .ok (hs ++ [h])) (.ok [])

/-- Replays that a die's Forager runs. -/
def State.replaysOn (s : State) (die : Nat) : Nat := (s.replays.filter fun r => decide (r.die = die)).length

/-- The image that a handle names in the launch's graph table. -/
def Ctx.graphOf (c : Ctx) (h : W64) : Option GraphImage :=
  if h.toNat < c.launch.ngraph then c.s.graph? c.launch.fn c.launch.graphTab h.toNat else none

/-- FGRAPH: the base table is read once, and a replay starts on the issuing die's Forager; the status is pushed empty. A
seventeenth replay holds the group. -/
def execFgraph (d a b : BitVec 8) (s : State) : Res :=
  let i : Instr := .fgraph d a b
  issue i s [.dstS 0 d, .srcS 1 .epa a, .srcS 2 .epb b, .access] fun c =>
    let h := c.readS a
    c.check i (match c.graphOf h with
      | some g => .ok g
      | none => .trap (.bounds h 0 0)) fun g =>
    c.check i (c.s.checkBase c.launch c.id.team c.die (c.readS b) g.nbase) fun hs =>
      if 16 ≤ c.s.replaysOn c.die then c.held .barrier
      else if c.s.loadHeld c.id (hs.flatMap fun x => bytesOf x.loc 8) then .next c.s
      else c.wideRelease i none fun _ =>
        let k := c.s.nextId
        let r : Replay := {
          id := k, die := c.die, group := c.id, prod := k, fn := c.launch.fn, table := c.launch.graphTab
          entry := h.toNat, image := g, base := hs.map fun x => BitVec.ofNat 64 (c.s.loadLoc x.loc 8)
          pending := g.nodes.map (·.npred), states := g.nodes.map fun _ => .idle
          code := 0, codeNode := 0, sent := false, paged := false, names := [], sigs := [], mismatch := none, waitAt := [] }
        let s1 := ((c.s.markHits hs false).trafficTo c.die hs).setGroup c.id ((c.group.pendS d k).advance)
        .next { s1 with nextId := k + 1, replays := s1.replays ++ [r] }

/-! Operands of a node (R248). -/

def State.replay? (s : State) (id : Nat) : Option Replay := s.replays.find? fun r => decide (r.id = id)

def State.mapReplay (s : State) (id : Nat) (f : Replay → Replay) : State :=
  { s with replays := s.replays.map fun r => if r.id = id then f r else r }

def Replay.setNode (r : Replay) (n : Nat) (st : NodeState) : Replay := { r with states := r.states.set n st }

/-- A node ends the replay with a code; the first such node counts (R250). -/
def Replay.fail (r : Replay) (n : Nat) (code : BitVec 8) : Replay :=
  if r.code = 0 then { r with code := code, codeNode := if code = 1 then 0 else n } else r

/-- base[BIDX] + BOFF: its segment and its exact offset. -/
def Replay.operand (r : Replay) (o : Nat × Nat) : Nat × Nat :=
  let p := r.base.getD o.1 0
  (ptrSeg p, ptrOff p + o.2)

/-- Steps 1, 2 and 4 of R70 over a node's range, windows included; 0 when they pass, else NODE_FAULT or the code of its window
(R241). -/
def State.rangeCode (s : State) (l : Launch) (r : Replay) (o : Nat × Nat) (n : Nat) (rights : List Right) : BitVec 8 :=
  match l.copySeg? true (mkPtr o.1 0) with
  | none => 4
  | some v =>
    if rights.any fun x => !v.rights.contains x then 4
    else if v.space ≠ .window then (if o.2 < 2 ^ 48 ∧ o.2 + n ≤ v.limit then 0 else 4)
    else s.windowCode l r.group.team r.die o.1 o.2 n

/-- NODE_FAULTs come before the codes of windows: no window is resolved before every check has passed. -/
def rangesCode (cs : List (BitVec 8)) : BitVec 8 := if cs.contains 4 then 4 else firstCode cs

/-- What a node that transfers needs: source and destination bytes, the rights, and what it computes. -/
structure Transfer where
  src : List (Nat × Nat × Nat)
  dst : Nat × Nat × Nat
  rights : List Right
  always : Bool
  work : Option Calc
  deriving DecidableEq, Repr

/-- The transfer of a COPY, RCOPY, REDUCE, CONVERT or SIGNAL node. -/
def Replay.transfer (r : Replay) (n : GraphNode) : Option Transfer :=
  let at' (o : Nat × Nat) (k : Nat) : Nat × Nat × Nat := ((r.operand o).1, (r.operand o).2, k)
  let e := typeBytes n.typ * n.count
  if n.kind = 0 then some ⟨[at' n.src n.count], at' n.dst n.count, [.pw], false, none⟩
  else if n.kind = 1 then some ⟨[at' n.src n.count], at' n.dst n.count, [.pw, .pm], true, none⟩
  else if n.kind = 2 then
    some ⟨[at' n.src e, at' n.src2 e], at' n.dst e, [.pw], false,
      some (.reduce n.op n.typ (mkPtr (r.operand n.src2).1 (r.operand n.src2).2))⟩
  else if n.kind = 3 then
    some ⟨[at' n.src e], at' n.dst (typeBytes n.op * n.count), [.pw], false, some (.convert n.typ n.op)⟩
  else if n.kind = 4 then some ⟨[], at' n.dst 8, [.pw], false, some (.signal n.value)⟩
  else none

/-- The code with which a transfer ends at its start: NODE_FAULT also for a COPY to a peer and a misaligned SIGNAL. -/
def State.transferCode (s : State) (l : Launch) (r : Replay) (n : GraphNode) (t : Transfer) : BitVec 8 :=
  let peer := decide (n.kind = 0) && ((l.seg? t.dst.1).map fun v => decide (v.space = .peer)).getD false
  if t.dst.2.2 = 0 then 0
  else if peer || (decide (n.kind = 4) && decide (t.dst.2.1 % 8 ≠ 0)) then 4
  else rangesCode ((t.src.map fun x => s.rangeCode l r (x.1, x.2.1) x.2.2 [.pr]) ++
    [s.rangeCode l r (t.dst.1, t.dst.2.1) t.dst.2.2 t.rights])

/-- Start a transfer: it goes to the copy machinery as a command of the Forager, on the node's channel. -/
def State.startTransfer (s : State) (l : Launch) (r : Replay) (i : Nat) (n : GraphNode) (t : Transfer) : State :=
  let code := s.transferCode l r n t
  if code ≠ 0 then s.mapReplay r.id fun x => (x.fail i code).setNode i .done
  else
    let src := (t.src.head?.map fun x => mkPtr x.1 x.2.1).getD 0
    let srcs := (t.src.head?.map fun x => x.2.2).getD 0
    { (s.mapReplay r.id fun x => x.setNode i .started) with
      nextId := s.nextId + 1
      copies := s.copies ++
        [s.newCopy l r.die r.group n.ch t.always (some (r.id, i)) t.work src (mkPtr t.dst.1 t.dst.2.1) srcs t.dst.2.2 []] }

/-- A node meets a page fault, which goes to the driver. -/
def State.nodePageFault (s : State) (l : Launch) (r : Replay) (i va : Nat) (write : Bool) (peer : Option (Nat × Nat))
    (pri : Bool) : State :=
  s.enterFault l.fn ⟨none, pri, va, write, peer, l.lid, BitVec.ofNat 32 r.group.team.index, .node r.id i, 0, 0⟩

/-- The code that ends a WAIT or LAUNCH node at its SRC of `n` bytes: R70 with PR, windows included, and the alignment of a WAIT's
word (R248). -/
def State.sourceCode (s : State) (l : Launch) (r : Replay) (x : GraphNode) (n : Nat) : BitVec 8 :=
  let o := r.operand x.src
  if x.kind = 5 ∧ o.2 % 8 ≠ 0 then 4 else s.rangeCode l r o n [.pr]

/-- The window of that source, resolved when the node starts (03 R74). -/
def State.sourceWindow (s : State) (l : Launch) (r : Replay) (x : GraphNode) (n : Nat) : Option WindowAt :=
  let o := r.operand x.src
  (s.windowOf l r.group.team r.die o.1 o.2 n).bind Window.place?

/-- The bytes of that source, in the window of its start or where they lie now. -/
def State.sourceHits (s : State) (l : Launch) (r : Replay) (i : Nat) (x : GraphNode) (n : Nat) : List Tr :=
  let o := r.operand x.src
  let w := (r.waitAt.find? fun y => decide (y.1 = i)).map (·.2)
  (List.range n).map fun k => s.copyByte l r.group.team r.die (mkPtr o.1 o.2) w k false

/-- A page fault among translations. -/
def Tr.paged? : Tr → Option (Nat × Option (Nat × Nat) × Bool)
  | .page va peer pri => some (va, peer, pri)
  | _ => none

/-- The place that a translation gives. -/
def Tr.hit? : Tr → Option Hit
  | .ok h => some h
  | _ => none

/-- A translation that ends at a physical address without memory. -/
def Tr.stopped? : Tr → Option Fault
  | .stop e => some e
  | _ => none

/-- Read the `n` bytes of a started node's SRC and do `f` with their places: a page fault goes to the driver, or the read waits. -/
def State.nodeRead (s : State) (l : Launch) (r : Replay) (i : Nat) (x : GraphNode) (n : Nat) (f : State → List Hit → State) : Res :=
  let ts := s.sourceHits l r i x n
  match ts.findSome? Tr.stopped?, ts.findSome? Tr.paged? with
  | some e, _ => .fault e
  | none, some (va, peer, pri) =>
    .next ((s.mapReplay r.id fun y => y.setNode i .paged).nodePageFault l r i va false peer pri)
  | none, none =>
    let hs := ts.filterMap Tr.hit?
    .next (if decide (hs.length = n) && hs.all fun h => s.locReady h.loc then f (s.trafficTo r.die hs) hs else s)

/-- A WAIT or LAUNCH node starts, with the window of its SRC of `n` bytes, or ends with a code (R248, 03 R74). -/
def State.startRead (s : State) (l : Launch) (r : Replay) (i : Nat) (x : GraphNode) (n : Nat) : State :=
  let code := s.sourceCode l r x n
  if code ≠ 0 then s.mapReplay r.id fun y => (y.fail i code).setNode i .done
  else s.mapReplay r.id fun y =>
    { y.setNode i .started with waitAt := y.waitAt ++ ((s.sourceWindow l r x n).map fun w => (i, w)).toList }

/-- A LAUNCH node submits the launch of its packet image for the issuing team's queue, or is refused (R249). -/
def State.submitNode (s : State) (l : Launch) (r : Replay) (i : Nat) (hs : List Hit) (spad : List Byte) (text cls : Nat) : State :=
  let w := bytesWords (hs.map fun h => s.readLoc h.loc) 8
  let q := (s.fns.getD l.fn Fn.reset).queues.getD l.queue Queue.reset
  let refuse (s : State) : State := s.mapReplay r.id fun x => (x.fail i 5).setNode i .done
  let s1 := s.markHits hs false
  if s.cpStalls l.fn q.qloc (pword w 6) 96 true then s
  else match (if packetKind w = 1 && packetWellFormed w then s.descriptor w else none) with
    | none => refuse (s1.refusePacket l.fn l.queue q w 1)
    | some d =>
      let m := s.launchOf l.fn l.queue q w d spad text [] (some (r.id, i))
      let reason := s.refusal d m cls
      if cls = 0 ∧ s.codeStalls m m.textBytes = true then s
      else if reason ≠ 0 then refuse (s1.writeRefusal m reason)
      else { s1 with nextId := s.nextId + 1 }.addLaunch m

/-! Collectives (R254-R256, 19 R299). -/

/-- Steps 1 and 4 of R70 for one byte at a member pointer, and its translation. -/
def State.memberDest (s : State) (l : Launch) (r : Replay) (p : W64) : Tr :=
  match l.copySeg? false p with
  | none => .stop (.reservedPhysicalAddress 0)
  | some v => if v.limit ≤ ptrOff p then .stop (.reservedPhysicalAddress 0) else s.translate l r.group.team r.die v (ptrOff p) false

/-- What resolving the members of a replay gives. -/
inductive Resolve where
  | ok (ms : List SigMsg)
  | page (va : Nat) (peer : Option (Nat × Nat)) (pri : Bool)
  | stall
  | bad (inst : W32)
  deriving DecidableEq, Repr

/-- Resolve one member pointer after the others. -/
def State.resolveMember (s : State) (l : Launch) (r : Replay) (acc : Resolve) (x : InstRec × Nat) : Resolve := match acc with
  | .ok ms => match s.memberDest l r (r.base.getD x.2 0) with
    | .ok h => .ok (ms ++ [⟨⟨l.seq, l.gang, r.die, r.id⟩, h.dest.getD (.die r.die), x.1.signature⟩])
    | .page va peer pri => .page va peer pri
    | .stall => .stall
    | .stop _ => .bad x.1.inst
  | a => a

def State.resolve (s : State) (l : Launch) (r : Replay) : Resolve :=
  (r.image.insts.flatMap fun i => i.members.map fun m => (i, m)).foldl (s.resolveMember l r) (.ok [])

/-- When a replay starts, and before its nodes do, its signatures are sent, also by one that a signature of another member has
stopped already: every member receives every signature (R255, R256). A pointer that fails ends the instance's lowest node. -/
def State.sendSignatures (s : State) (l : Launch) (r : Replay) (i : Nat) : State := match s.resolve l r with
  | .ok ms =>
    let names := ms.filterMap fun m => m.dest.member?.map fun d => (m.sig.inst, d)
    { (s.mapReplay r.id fun x => { x with sent := true, names := names }) with signatures := s.signatures ++ ms }
  | .page va peer pri => (s.mapReplay r.id fun x => { x with paged := true }).nodePageFault l r i va false peer pri
  | .stall => s
  | .bad inst => s.mapReplay r.id fun x => { (x.fail (x.image.instNode inst) 4) with sent := true }

/-- The node is the one that starts next: no predecessor pending, and no lower one ready (R250). -/
def Replay.startsNext (r : Replay) (i : Nat) : Bool :=
  let ready (j : Nat) : Bool := decide (r.states[j]? = some .idle) && decide (r.pending.getD j 1 = 0)
  decide (r.code = 0) && ready i && !((List.range i).any ready)

/-- A LAUNCH node that has started reads its packet and submits the launch, unless it has. -/
def State.launchNode (s : State) (l : Launch) (replay node : Nat) (x : GraphNode) (spad : List Byte) (text cls : Nat) : Res :=
  match s.replay? replay with
  | none => .next s
  | some r =>
    if x.kind ≠ 6 || r.states[node]? ≠ some .started || s.launches.any fun y => decide (y.node = some (replay, node)) then .next s
    else s.nodeRead l r node x 64 fun s hs => s.submitNode l r node hs spad text cls

/-- FORAGER_NODE_START. A LAUNCH node whose read has to wait is read again by the same step; its `spad`, `text` and `cls` are what the
loader holds beside the descriptor. -/
def execForagerNodeStart (replay node : Nat) (spad : List (BitVec 8)) (text cls : Nat) (s : State) : Res :=
  match s.replay? replay with
  | none => .next s
  | some r => match s.launch? r.group.team.launch, r.image.nodes[node]? with
    | some l, some n =>
      if r.paged then .next s
      else if r.unsent then .next (s.sendSignatures l r node)
      else if !r.startsNext node then s.launchNode l replay node n spad text cls
      else match r.transfer n with
        | some t => .next (s.startTransfer l r node n t)
        | none =>
          if n.kind = 5 then .next (s.startRead l r node n 8)
          else (s.startRead l r node n 64).launchNode l replay node n spad text cls
    | _, _ => .next s

/-- FORAGER_WAIT_RECHECK: a WAIT reads its flag again, as an ACQ at SYSTEM scope. -/
def execForagerWaitRecheck (replay node : Nat) (s : State) : Res :=
  match s.replay? replay with
  | none => .next s
  | some r => match s.launch? r.group.team.launch, r.image.nodes[node]? with
    | some l, some n =>
      if n.kind ≠ 5 || r.states[node]? ≠ some .started then .next s
      else s.nodeRead l r node n 8 fun s hs =>
        let met := reached64 (BitVec.ofNat 64 (leNat (hs.map fun h => s.readLoc h.loc))) n.value
        (s.markHits hs false).mapReplay replay fun x => if met then x.setNode node .met else x
    | _, _ => .next s

/-- A node has completed: its successors have one predecessor less. -/
def Replay.complete (r : Replay) (i : Nat) : Replay :=
  let gone := ((r.image.nodes[i]?).map r.image.succsOf).getD []
  { r.setNode i .done with pending := r.pending.zipIdx.map fun p => p.1 - gone.count p.2 }

/-- FORAGER_NODE_COMPLETE: every write of the node is performed and acknowledged, its WAIT is met, or its launch has completed
with its record written. -/
def execForagerNodeComplete (replay node : Nat) (s : State) : Res :=
  match s.replay? replay with
  | none => .next s
  | some r =>
    if r.states[node]? = some .met then .next (s.mapReplay replay fun x => x.complete node)
    else if r.states[node]? ≠ some .started then .next s
    else match s.copies.find? fun k => decide (k.node = some (replay, node)) with
      | some k =>
        if s.copyEnded k then
          .next ({ s with copies := s.copies.filter fun x => decide (x.id ≠ k.id) }.mapReplay replay fun x =>
            if k.code = 0 then x.complete node else (x.fail node k.code).setNode node .done)
        else .next s
      | none => match s.launches.find? fun l => decide (l.node = some (replay, node)) && decide (l.stage = .complete) with
        | some l => .next ({ s with launches := s.launches.filter fun x => decide (x.seq ≠ l.seq) }.mapReplay replay fun x =>
            x.complete node)
        | none => .next s

/-- Nothing of the replay runs any more: every node has completed, or a code stopped it and no node that started is left; and its
signatures have been sent. -/
def Replay.ended (r : Replay) : Bool :=
  !r.unsent && r.states.all fun x => decide (x = .done) || (decide (r.code ≠ 0) && decide (x = .idle))

/-- The status word of R241. -/
def Replay.status (r : Replay) : W64 := BitVec.ofNat 64 (r.code.toNat + r.codeNode * 2 ^ 8)

/-- The collective event of a replay whose status says COLLECTIVE_MISMATCH (R258): handle and instance. -/
def Replay.event (r : Replay) : List (W64 × W64) :=
  if r.code = 6 then (r.mismatch.map fun n => (BitVec.ofNat 64 r.entry, n.zeroExtend 64)).toList else []

/-- REPLAY_COMPLETE: the status becomes full, its reading an acquire before which the core gives up the lines of its L1 (R258); a
mismatch makes a collective event of the group pending beside those that are. -/
def execReplayComplete (replay : Nat) (s : State) : Res :=
  match s.replay? replay with
  | none => .next s
  | some r =>
    .next (if r.ended then
      let s1 := s.mapGroup r.group fun g => { g.landS r.prod r.status with evCollective := g.evCollective ++ r.event }
      { ((s1.mapTeam r.group.team fun t => { t with saveBarred := false }).clearL1Of r.group.team) with
        replays := s.replays.filter fun x => decide (x.id ≠ replay) }
    else s)

/-- A signature reaches a replay, which counts it; an unequal one stops the replay and every node of the instance. -/
def State.takeSignature (s : State) (r : Replay) (i : InstRec) (member : Member) (sentBy : Option Nat) (sig : Signature) : State :=
  let s1 := s.mapReplay r.id fun x => { x with sigs := x.sigs ++ [⟨i.inst, member, sentBy, decide (sig = i.signature)⟩] }
  if sig = i.signature then s1 else s1.mismatched r i.inst

/-- The signature of an instance in the word of R254 that another module sends. -/
def signatureOf (inst : W32) (w : W64) : Signature :=
  ⟨inst, BitVec.ofNat 32 w.toNat, w.toNat / 2 ^ 32 % 2 ^ 4, w.toNat / 2 ^ 36 % 2 ^ 4⟩

/-- The replay of a job that a signature from another module meets (19 R299): of the same gang, on whichever die, the one that
started first of those that wait for it. -/
def State.meetsForeign (s : State) (gang : W32) (inst : W32) (sender : Nat) : Option Replay :=
  s.replays.find? fun x => (x.image.inst? inst).isSome && (x.unsent || x.awaits inst (.module sender)) &&
    ((s.launch? x.group.team.launch).map fun y => decide (gang ≠ 0) && decide (y.gang = gang)).getD false

/-- COLLECTIVE_SIGNATURE: signature `sender` of those under way reaches a replay of the same job at the Forager that it names, the
earliest that may take it; or a signature from member `sender` of another module arrives at a part of its gang, its word as in
R254. A replay that has not yet resolved its members keeps it waiting. -/
def execCollectiveSignature (sender receiver : Nat) (inst : BitVec 32) (foreign : Option (BitVec 64)) (s : State) : Res :=
  match s.replay? receiver with
  | none => .next s
  | some r => match s.launch? r.group.team.launch, r.image.inst? inst with
    | some l, some i =>
      if r.unsent then .next s
      else match foreign with
        | some w =>
          .next (if (s.meetsForeign l.gang inst sender).map (·.id) = some receiver then
            s.takeSignature r i (.module sender) none (signatureOf inst w) else s)
        | none => match s.signatures[sender]? with
          | none => .next s
          | some m =>
            .next (if m.sig.inst = inst && decide ((s.meets m.origin m.dest m.sig.inst).map (·.id) = some receiver) then
              { s with signatures := s.signatures.eraseIdx sender }.takeSignature r i (.die m.origin.die) (some m.origin.replay)
                m.sig
            else s)
    | _, _ => .next s

end Sys2Proof.Machine
end

