-- ==== Sys2Proof/Machine/Matrix.lean ====
section
/-! DEFINITION. Row 0xC of the opcode map, the matrix stream (spec 10 R206-R222), and the steps of the array. -/

namespace Sys2Proof.Machine

/-- Stream fault kinds (R209). -/
def kindOperand : Nat := 1
def kindFormat : Nat := 2
def kindBounds : Nat := 3
def kindRegister : Nat := 4
def kindFetch : Nat := 5

/-- Issue a stream instruction: a group that fetches one takes an illegal-instruction fault (R214). -/
def streamIssue (i : Instr) (s : State) (body : TeamId → Launch → Team → Sequencer → Res) : Res :=
  match s.cur with
  | .none => .next s
  | .group id => .next (s.deliver id (.illegalInstruction (wordOf i)) false (wordOf i))
  | .sequencer id => match s.team? id, s.launch? id.launch with
    | some t, some l => match t.seq with
      | some q => body id l t q
      | none => .next s
    | _, _ => .next s

/-- The sequencer replaced, at the next word. -/
def State.putSeq (s : State) (t : Team) (q : Sequencer) : State :=
  s.setTeam { t with seq := some { q with spc := q.spc + 4 } }

/-- A check of a stream instruction. -/
def streamCheck (s : State) (id : TeamId) (ok : Bool) (kind : Nat) (k : Unit → Res) : Res :=
  if ok then k () else .next (s.streamStop id kind)

/-- An MSTORE of the stream is still to write the scratchpad; a later read of the stream waits for it (R208). -/
def Sequencer.storing (q : Sequencer) : Bool := q.ops.any fun x => match x.2 with
  | .mstore _ _ _ _ => true
  | _ => false

/-- MMAP (R215). -/
def execMmap (n : BitVec 2) (i : BitVec 16) (s : State) : Res :=
  streamIssue (.mmap n i) s fun id l t q =>
    streamCheck s id (decide (16 * i.toNat + 16 ≤ l.krec.spadsz)) kindBounds fun _ =>
      if q.storing then .next s
      else .next (s.putSeq t { q with m := q.m.set n.toNat (BitVec.ofNat 128 (t.spad.readLe (16 * i.toNat) 16)) })

/-- MFMT (R213, R215). -/
def execMfmt (n : BitVec 2) (i : BitVec 16) (s : State) : Res :=
  streamIssue (.mfmt n i) s fun id l t q =>
    streamCheck s id (decide (32 * i.toNat + 32 ≤ l.krec.spadsz)) kindBounds fun _ =>
      if q.storing then .next s else
      let f := BitVec.ofNat 256 (t.spad.readLe (32 * i.toNat) 32)
      streamCheck s id (formatOk f) kindFormat fun _ => .next (s.putSeq t { q with f := q.f.set n.toNat f })

/-- A stream operation issued into the current batch. -/
def Sequencer.addOp (q : Sequencer) (op : StreamOp) : Sequencer := { q with ops := q.ops ++ [(q.closed + 1, op)], opened := true }

/-- The MMA as one whose batch no group has passed, with its operands that a group wrote and did not publish (R224). -/
def Sequencer.addLive (q : Sequencer) (m : LiveMma) : Sequencer :=
  { q with live := q.live ++ [{ m with early := ((q.unread.map (·.place)).filter m.reads).dedup }] }

/-- MMA (R216): the checks in their order; the format block is sampled at issue. -/
def execMma (t f m h : BitVec 2) (v p : BitVec 7) (s : State) : Res :=
  streamIssue (.mma t f m h v p) s fun id l tm q =>
    let fb := q.f.getD f.toNat 0
    let mb := q.m.getD m.toNat 0
    let holders := (List.range 4).map fun k => 4 * h.toNat + k
    streamCheck s id (decide (t.toNat < l.krec.nt) && decide (1 ≤ p.toNat) && decide (p.toNat ≤ 64)) kindOperand fun _ =>
    streamCheck s id (decide (MapBlock.fmt mb = FormatBlock.afmt fb) && !MapBlock.reserved mb &&
      decide (1 ≤ MapBlock.kext mb) && decide (MapBlock.kext mb ≤ 4096)) kindFormat fun _ =>
    streamCheck s id (mmaInBounds fb mb l.krec.spadsz) kindBounds fun _ =>
    streamCheck s id (decide (4 * h.toNat + 3 < groupCount l.krec.lanes) &&
      holders.all fun g => decide (v.toNat + quarterRegs fb mb ≤ tm.budgetOf l g)) kindRegister fun _ =>
    .next (s.putSeq tm ((q.addOp (.mma t.toNat fb mb h.toNat v.toNat p.toNat)).addLive
      ⟨q.closed + 1, t.toNat, fb, mb, h.toNat, v.toNat, p.toNat, []⟩))

/-- MZERO (R217). -/
def execMzero (t : BitVec 2) (s : State) : Res :=
  streamIssue (.mzero t) s fun id l tm q =>
    streamCheck s id (decide (t.toNat < l.krec.nt)) kindOperand fun _ => .next (s.putSeq tm (q.addOp (.mzero t.toNat)))

/-- MXREAD (R218). -/
def execMxread (t : BitVec 2) (o : BitVec 1) (g : BitVec 4) (h : BitVec 1) (v : BitVec 7) (sl : BitVec 3) (s : State) : Res :=
  streamIssue (.mxread t o g h v sl) s fun id l tm q =>
    streamCheck s id (decide (t.toNat < l.krec.nt) &&
      (if o = 0 then decide (h = 0) else decide (sl.toNat ≤ 3))) kindOperand fun _ =>
    streamCheck s id (decide (g.toNat < groupCount l.krec.lanes) && decide (v.toNat + 32 ≤ tm.budgetOf l g.toNat))
      kindRegister fun _ =>
    .next (s.putSeq tm (q.addOp (.mxread t.toNat (decide (o = 1)) g.toNat (decide (h = 1)) v.toNat sl.toNat)))

/-- The scratchpad range of an MSTORE (R219). -/
def mstoreInBounds (m : BitVec 128) (outf spadsz : Nat) : Bool :=
  let e := if outf = 0 then 4 else 2
  let rows := if MapBlock.trans m then 256 else 128
  decide (MapBlock.base m % 4 = 0) && decide (MapBlock.stride m % 4 = 0) &&
  decide (MapBlock.base m + (rows - 1) * MapBlock.stride m + (if MapBlock.trans m then 128 else 256) * e ≤ spadsz)

/-- MSTORE (R219). -/
def execMstore (t m f : BitVec 2) (s : State) : Res :=
  streamIssue (.mstore t m f) s fun id l tm q =>
    let mb := q.m.getD m.toNat 0
    streamCheck s id (decide (t.toNat < l.krec.nt) && decide (f.toNat ≤ 2)) kindOperand fun _ =>
    streamCheck s id (mstoreInBounds mb f.toNat l.krec.spadsz) kindBounds fun _ =>
    .next (s.putSeq tm (q.addOp (.mstore t.toNat mb f.toNat [])))

/-- Close a batch (R220). -/
def Sequencer.closeBatch (q : Sequencer) : Sequencer := { q with closed := q.closed + 1, opened := false }

/-- MFENCE (R220). -/
def execMfence (s : State) : Res := streamIssue .mfence s fun _ _ t q => .next (s.putSeq t q.closeBatch)

/-- MBARWAIT (R221). -/
def execMbarwait (n : BitVec 4) (s : State) : Res :=
  streamIssue (.mbarwait n) s fun _ _ t q =>
    let owe := q.owe.getD n.toNat 0
    if owe ≠ 0 then .next (s.putSeq t (Sequencer.consume n.toNat { q with owe := q.owe.set n.toNat (owe - 1) }))
    else .next (s.setTeam { t with seq := some { q with sqstate := .wait, waitBar := some n.toNat } })

/-- MBARARR (R221): it waits for every earlier operation, then arrives as the sequencer. -/
def execMbararr (n : BitVec 4) (s : State) : Res :=
  streamIssue (.mbararr n) s fun _ l t q =>
    match t.bars[n.toNat]? with
    | none => .next s
    | some b =>
      if !q.ops.isEmpty || b.arrSeq then .next s
      else .next (s.setTeam (({ t with seq := some { q with spc := q.spc + 4 } } : Team).arrived l n.toNat
        { b with arrSeq := true, count := b.count + 1 }))

/-- A stream branch by `off` words: the target passes the fetch checks, or the branch is a fetch stream fault; a page fault
holds the sequencer (R222). -/
def streamBranch (s : State) (id : TeamId) (l : Launch) (t : Team) (q : Sequencer) (off : Int) : Res :=
  let o : Int := (ptrOff q.spc : Int) + 4 * off
  if o < 0 || o ≥ 2 ^ 48 then .next (s.streamStop id kindFetch)
  else
    let target := mkPtr (ptrSeg q.spc) o.toNat
    match s.checkFetch l id (dieOfCore (t.core?.getD 0)) target with
    | .ok h => .next ((s.markHits [h] false).setTeam { t with seq := some { q with spc := target } })
    | .trap _ => .next (s.streamStop id kindFetch)
    | .page va write peer pri lo hi =>
      .next ((s.mapTeam id fun t => { t with seq := t.seq.map fun q => { q with pageWait := true } }).enterFault l.fn
        ⟨none, pri, va, write, peer, l.lid, BitVec.ofNat 32 id.index, .sequencer id, lo, hi⟩)
    | .hold => .next s
    | .stop f => .fault f

/-- MBRA (R222). -/
def execMbra (o : BitVec 16) (s : State) : Res := streamIssue (.mbra o) s fun id l t q => streamBranch s id l t q o.toInt

/-- MLOOP (R222): the arming read, then the counter decides. -/
def execMloop (n : BitVec 2) (o : BitVec 8) (i : BitVec 8) (s : State) : Res :=
  streamIssue (.mloop n o i) s fun id l t q =>
    let old := q.lc.getD n.toNat 0
    streamCheck s id (decide (old ≠ 0) || decide (4 * i.toNat + 4 ≤ l.krec.spadsz)) kindBounds fun _ =>
      if decide (old = 0) && q.storing then .next s else
      let c : W32 := if old = 0 then BitVec.ofNat 32 (t.spad.readLe (4 * i.toNat) 4) else old
      if c.toNat ≤ 1 then .next (s.putSeq t { q with lc := q.lc.set n.toNat 0 })
      else streamBranch s id l t { q with lc := q.lc.set n.toNat (c - 1) } o.toInt

/-- The stream has ended once every batch is done (R222). -/
def Sequencer.endIfDone (q : Sequencer) : Sequencer :=
  if q.ending && decide (q.doneb = q.closed) then { q with sqstate := .ended, ending := false } else q

/-- MEND (R222). -/
def execMend (s : State) : Res :=
  streamIssue .mend s fun _ _ t q =>
    let q1 := if q.opened then q.closeBatch else q
    .next (s.setTeam { t with seq := some ({ q1 with ending := true } : Sequencer).endIfDone })

/-! The array and the ports at work. -/

/-- The named register of a group; one that is discarded or pending is undefined to the crossbar (R212, R224). -/
def Team.regReady (t : Team) (g r : Nat) : Bool := match t.groups[g]? with
  | some g => match g.vregs[r]? with
    | some x => x.pend.isNone
    | none => false
  | none => false

def Team.reg (t : Team) (g r : Nat) : Lanes := match t.groups[g]? with
  | some g => (g.vregs.getD r ⟨Lanes.zero, none⟩).val
  | none => Lanes.zero

/-- The tile after an MMA (R216). The columns that read an undefined register are undefined (R212), and so is an element with
an operand that was written too early (R224). -/
def Team.mmaTile (t : Team) (free : Nat) (old : List Lanes) (f : BitVec 256) (m : BitVec 128) (hs vb p : Nat)
    (early : Nat → Nat → Bool) : List Lanes :=
  (List.range 256).map fun j =>
    let holder := 4 * hs + j / 64
    if (List.range (quarterRegs f m)).all fun r => t.regReady holder (vb + r) || !quarterReads f m j r then
      Lanes.tab fun i => if early i j then Config.undefElem free (256 * i + j)
        else mmaElem f (MapBlock.kext m) p (fun k => aElem t.spad f m i k)
          (fun k => bElem t.spad (t.reg holder) f vb k j) ((old.getD j Lanes.zero).at i)
    else Lanes.tab fun i => Config.undefElem free (256 * i + j)

/-- The oldest MMA that is not executed. -/
def Sequencer.nextMma (q : Sequencer) : Option LiveMma := q.live[q.live.length - q.mmasLeft]?

/-- MZERO makes a tile anew: the MMAs executed on it before no longer count. -/
def Sequencer.forgetTile (q : Sequencer) (tile : Nat) : Sequencer :=
  let n := q.live.length - q.mmasLeft
  { q with live := (q.live.take n).filter (fun m => decide (m.tile ≠ tile)) ++ q.live.drop n }

def Team.dropOp (t : Team) : Team := { t with seq := t.seq.map fun q => { q with ops := q.ops.drop 1 } }

/-- MMA_ARRAY_EXECUTE: the oldest operation, an MMA or an MZERO, takes effect on its tile (R208, R216, R217). -/
def execMmaArrayExecute (launch team : Nat) (s : State) : Res :=
  match s.team? ⟨launch, team⟩ with
  | none => .next s
  | some t => match t.seq.bind fun q => q.ops.head? with
    | some (_, .mma tile f m hs vb p) =>
      let early (i j : Nat) : Bool := (t.seq.bind Sequencer.nextMma).any fun x => x.spoiled i j
      let t1 := { t with tiles := t.tiles.set tile (t.mmaTile s.free (t.tiles.getD tile tileZero) f m hs vb p early) }
      .next { s.setTeam t1.dropOp with free := s.free + 1 }
    | some (_, .mzero tile) => .next (s.setTeam ({ t with
        tiles := t.tiles.set tile tileZero, seq := t.seq.map fun q => q.forgetTile tile } : Team).dropOp)
    | _ => .next s

/-- The slab of an MXREAD: register `c` of the 32 (R218). -/
def mxreadReg (tile : List Lanes) (port h : Bool) (sl c : Nat) : Lanes :=
  if !port then tile.getD (32 * sl + c) Lanes.zero
  else Lanes.tab fun l => (tile.getD (128 * (if h then 1 else 0) + l) Lanes.zero).at (32 * sl + c)

/-- The scratchpad after an MSTORE has stored the elements that `now` names (R219). Where stored rows overlap, elements are stored by
rising i and in it by rising j (DESIGN CHOICE, assumption 97: the spec gives no order). -/
def mstoreSpad (sp : Memory) (tile : List Lanes) (m : BitVec 128) (outf : Nat) (now : Nat → Bool) : Memory :=
  (List.range 128).foldl (fun sp i => (List.range 256).foldl (fun sp j =>
    let p := mstorePlace m outf i j
    if now (256 * i + j) then sp.writeLe p.1 p.2 (storeVal outf ((tile.getD j Lanes.zero).at i)) else sp) sp) sp

/-- An MSTORE stores some elements, or all that are left. -/
def Team.storeTile (t : Team) (tile : Nat) (m : BitVec 128) (outf : Nat) (now : Nat → Bool) : Team :=
  { t with spad := mstoreSpad t.spad (t.tiles.getD tile tileZero) m outf now }

/-- The oldest operation has taken effect, and its batch is still to be passed in MWAIT. -/
def Team.dropOut (t : Team) (batch : W32) (op : StreamOp) : Team :=
  { t with seq := t.seq.map fun q => { q with ops := q.ops.drop 1, outs := q.outs ++ [(batch, op)] } }

/-- The oldest operation goes on as `op`. -/
def Team.headOp (t : Team) (op : W32 × StreamOp) : Team :=
  { t with seq := t.seq.map fun q => { q with ops := op :: q.ops.drop 1 } }

/-- MXREAD_MSTORE_EXECUTE: the oldest operation, an MXREAD or an MSTORE, takes effect. A write that reaches an empty register
waits (R218, 03 R75). With a part an MSTORE stores those elements alone and stays, so that a read of its target before the MWAIT
finds, element by element, the old or the new value (04 R103). An MXREAD whose target group's budget has shrunk below its registers since it issued writes nothing
(DESIGN CHOICE, assumption 82: the spec does not say). -/
def execMxreadMstoreExecute (launch : Nat) (step : SeqStep) (s : State) : Res :=
  match s.team? ⟨launch, step.team⟩ with
  | none => .next s
  | some t => match t.seq.bind fun q => q.ops.head? with
    | some (b, .mxread tile port grp h vd sl) =>
      if (List.range 32).all fun c => t.regReady grp (vd + c) then
        let tl := t.tiles.getD tile tileZero
        let put (g : Group) (c : Nat) : Group :=
          { g with vregs := g.vregs.modify (vd + c) fun x => { x with val := mxreadReg tl port h sl c } }
        let t1 := { t with groups := t.groups.modify grp fun g => (List.range 32).foldl put g }
        .next (s.setTeam (t1.dropOut b (.mxread tile port grp h vd sl)))
      else if (t.groups[grp]?.map fun g => decide (g.vregs.length < vd + 32)).getD true then .next (s.setTeam t.dropOp)
      else .next s
    | some (b, .mstore tile m outf stored) => match step.part with
      | some js =>
        let t1 := t.storeTile tile m outf fun e => js.contains e && !stored.contains e
        .next (s.setTeam (t1.headOp (b, .mstore tile m outf (stored ++ js))))
      | none => .next (s.setTeam ((t.storeTile tile m outf fun e => !stored.contains e).dropOut b (.mstore tile m outf [])))
    | _ => .next s

/-- BATCH_COMPLETE: the next closed batch is done when none of its operations is left (R220); a waiting MEND ends the
stream. -/
def execBatchComplete (launch team : Nat) (s : State) : Res :=
  .next (s.mapTeam ⟨launch, team⟩ fun t => { t with seq := t.seq.map fun q =>
    if q.doneb ≠ q.closed && !(q.ops.any fun x => decide (x.1 = q.doneb + 1)) then
      ({ q with doneb := q.doneb + 1 } : Sequencer).endIfDone
    else q })

end Sys2Proof.Machine
end

