-- ==== Sys2Proof/Machine/Nectar.lean ====
section
/-! DEFINITION. Row 0xD of the opcode map: the Nectar instructions (spec 11 R227, R232, R233, R235-R238). -/

namespace Sys2Proof.Machine

/-- FAMILY, SHAPE and the user pair, sampled at issue. -/
def Ctx.family? (c : Ctx) : Option Family := familyOf c.group.family c.group.shape c.group.user

/-- The exponential family with a shape it does not admit is an illegal operand (R232). -/
def familyOk : Need := .sampled fun c => c.family?.isSome

def Ctx.fam (c : Ctx) : Family := c.family?.getD .arithmetic
def Ctx.fmt (c : Ctx) : FpFmt := c.ty.fmt?.getD fp32

def Ctx.ns (c : Ctx) (n : BitVec 2) : NState := c.group.ns.getD n.toNat NState.cleared

def Group.setNs (g : Group) (n : BitVec 2) (x : NState) : Group := { g with ns := g.ns.set n.toNat x }

/-- The sub-elements of an element as values. -/
def Ctx.subVals (c : Ctx) (w : W32) : List Fp := (c.ty.split w).map c.fmt.decode

/-- A domain fault naming the lanes in error, when DPOL asks for one (R233). -/
def Ctx.domainCheck (c : Ctx) (n : BitVec 2) (i : Instr) (bad : Nat → Bool) : Chk Unit :=
  if !modeDpol c.group.mode && (List.range numLanes).any bad then
    .trap (.domain n.toNat (wordOf i) (laneMask bad).1 (laneMask bad).2)
  else .ok ()

def execNacc (k : BitVec 1) (n : BitVec 2) (a b : BitVec 8) (s : State) : Res :=
  let i : Instr := .nacc k n a b
  issue i s ([.srcV 1 .epa a, .etype tyF, familyOk] ++ (if k = 1 then [.srcV 2 .epb b] else [])) fun c =>
    let x := c.readV a
    let y := c.readV b
    let rs := (List.range numLanes).map fun l =>
      if c.active l then
        ((c.ns n).lane l).terms c.fam (c.subVals (x.at l) ++ (if k = 1 then c.subVals (y.at l) else []))
      else ((c.ns n).lane l, false)
    c.check i (c.domainCheck n i fun l => (rs.getD l (⟨none, 0, 0, 0⟩, false)).2) fun _ =>
      .next (c.put ((c.group.setNs n ((c.ns n).setLanes c.active fun l => (rs.getD l (⟨none, 0, 0, 0⟩, false)).1)).advance))

/-- A Nectar result pending in D and its writeback on the way (06 R135). -/
def Ctx.finishN (c : Ctx) (d : BitVec 8) (g : Group) (f : Nat → W32) : Res :=
  let k := c.s.nextId
  .next ({ c.s.setGroup c.id ((c.pendV g d k).advance) with free := c.s.free + 1 }.addFlight
    ⟨k, c.id, .nectar, .vector (Lanes.tab f), c.activeMask, []⟩)

/-- The pattern of a unit result: the canonical NaN for a domain error that does not fault, a free value where the spec
states none. -/
def Ctx.nresBits (c : Ctx) (l : Nat) : NRes → Nat
  | .val w => w
  | .err => c.fmt.nan
  | .open => (Config.unstated c.s.free l).toNat % 2 ^ c.fmt.width

def execNeval (d a : BitVec 8) (k : BitVec 1) (n : BitVec 2) (s : State) : Res :=
  let i : Instr := .neval d a k n
  issue i s [.dstV d, .srcV 1 .epa a, .etype tyF, familyOk] fun c =>
    let x := c.readV a
    let rs := (List.range numLanes).map fun l =>
      if c.active l then
        (c.subVals (x.at l)).map fun v => ((c.ns n).lane l).eval c.fam (decide (k = 1)) c.fmt c.rnd c.sat v
      else []
    c.check i (c.domainCheck n i fun l => (rs.getD l []).any fun r => decide (r = .err)) fun _ =>
      let f (l : Nat) : W32 := c.ty.join ((rs.getD l []).map (c.nresBits l))
      c.finishN d c.group f

def execNrescale (d : BitVec 8) (n : BitVec 2) (s : State) : Res :=
  issue (.nrescale d n) s [.dstV d, .etype tyF] fun c =>
    let ns := c.ns n
    let g := c.resultV d fun l => c.ty.fill ((ns.lane l).factor c.fmt c.rnd c.sat)
    .next (c.putFree (g.setNs n { ns with m := Lanes.tab fun l => if c.active l then ns.x.at l else ns.m.at l }))

def execNfin (d : BitVec 8) (p : BitVec 3) (t : BitVec 1) (n : BitVec 2) (s : State) : Res :=
  let i : Instr := .nfin d p t n
  issue i s [.dstV d, .etype tyF, familyOk] fun c =>
    let ns := c.ns n
    let rs := (List.range numLanes).map fun l =>
      if c.active l then (ns.lane l).finish c.fam (decide (t = 1)) c.fmt c.rnd c.sat else .val 0
    c.check i (c.domainCheck n i fun l => decide (rs.getD l (.val 0) = .err)) fun _ =>
      let g := c.group.setPred p.toNat c.active fun l => (ns.lane l).x.isNone
      let f (l : Nat) : W32 := c.ty.fill (c.nresBits l (rs.getD l (.val 0)))
      c.finishN d g f

def execNclear (m : BitVec 4) (s : State) : Res :=
  issue (.nclear m) s [] fun c =>
    let clear (x : NState × Nat) : NState :=
      if m.getLsbD x.2 then x.1.setLanes c.active (fun l => NState.cleared.lane l) else x.1
    .next (c.put ({ c.group with ns := c.group.ns.zipIdx.map clear }).advance)

def execNselect (f : BitVec 2) (s : State) : Res :=
  issue (.nselect f) s [.field 0 (decide (f ≠ 3)), .sampled fun c => decide (f ≠ 2) || c.group.user.isSome] fun c =>
    .next (c.put ({ c.group with family := f }).advance)

/-- The element of a named vector register; undefined when the group reads it too early (10 R224). -/
def Ctx.regAt (c : Ctx) (r l : Nat) : W32 :=
  if c.tooEarly (BitVec.ofNat 8 r) then Config.undefElem c.s.free (numLanes * r + l)
  else ((c.group.vregs.getD r ⟨Lanes.zero, none⟩).val).at l

/-- The state record in V(v) onwards, M from `m` (R238). -/
def Ctx.record (c : Ctx) (v l : Nat) (m : W32) : LaneN :=
  ⟨xOf (c.regAt v l), (c.regAt (v + 1) l).toNat, (c.regAt (v + 2) l).toNat, m⟩

def execNsave (v : BitVec 7) (n : BitVec 2) (s : State) : Res :=
  issue (.nsave v n) s [.rangeV 0 v.toNat 4] fun c =>
    let ns := c.ns n
    let word (j : Nat) : Lanes := [ns.x, ns.s, ns.n, ns.m].getD j Lanes.zero
    let put (g : Group) (j : Nat) : Group :=
      { g with vregs := g.vregs.modify (v.toNat + j) fun r =>
          { r with val := c.regEntry r.val fun l => (word j).at l } }
    .next (c.putFree (((List.range 4).foldl put c.group).advance))

def execNload (n : BitVec 2) (v : BitVec 7) (s : State) : Res :=
  issue (.nload n v) s [.rangeV 1 v.toNat 4] fun c =>
    .next (c.putFree ((c.group.setNs n ((c.ns n).setLanes c.active fun l => c.record v.toNat l (c.regAt (v.toNat + 3) l))).advance))

def execNmerge (n : BitVec 2) (v : BitVec 7) (s : State) : Res :=
  issue (.nmerge n v) s [.rangeV 1 v.toNat 3] fun c =>
    let ns := c.ns n
    let ext := c.family?.bind Family.ext
    .next (c.putFree ((c.group.setNs n (ns.setLanes c.active fun l =>
      (ns.lane l).merge ext (c.record v.toNat l 0))).advance))

/-- NTABLE (R235): all 128 lanes of four registers, and two scalar registers. -/
def execNtable (d : BitVec 8) (v : BitVec 7) (b : BitVec 8) (s : State) : Res :=
  issue (.ntable d v b) s [.dstS 0 d, .rangeV 1 v.toNat 4, .pairS b] fun c =>
    let elem (r l : Nat) : W32 := if c.absent l then Config.undefElem c.s.free (numLanes * r + l) else c.regAt r l
    let table (r : Nat) : List W32 := (List.range 256).map fun k => elem (r + k / 128) (k % 128)
    let lo := c.readS b
    let hi := c.readS (b + 1)
    let u : UserPair := ⟨table v.toNat, table (v.toNat + 2), lo.truncate 32, (lo >>> 32).truncate 32, hi.truncate 32,
      (hi >>> 32).truncate 32⟩
    let st := tableStatus u
    let g := if st = 0 then { c.group with user := some u } else c.group
    .next (c.putFree (g.resultS d (BitVec.ofNat 64 st)))

end Sys2Proof.Machine
end

