-- ==== Sys2Proof/Machine/Patch.lean ====
section
/-! DEFINITION. The Propolis fabric: the handlers of TRAP and EMULATE slots on the micro-engine (spec 25 R375, R377). The
micro-code that a handler runs is not given: what it writes and how it ends are operands of its step. -/

namespace Sys2Proof.Machine

/-! What a handler writes (R377). -/

/-- Slot `k` of a list is empty. -/
def busySlot {α : Type} (q : List (Slot α)) (k : Nat) : Bool := (q[k]?).any fun x => x.pend.isSome

/-- The handler waits for an item that it reads or writes and that is empty (R377, 06 R135). -/
def Group.handlerWaits (g : Group) (x : PatchWrites) : Bool :=
  (x.readSregs ++ x.sregs.map (·.1)).any (busySlot g.sregs) || (x.readVregs ++ x.vregs.map (·.1)).any (busySlot g.vregs) ||
  (x.readSqueue ++ x.squeue.map (·.1)).any (busySlot g.scalarQueue) ||
  (x.readVqueue ++ x.vqueue.map (·.1)).any (busySlot g.vqueue)

/-- The sizes of the handler's accesses are those of the scalar loads and stores (07 R150). -/
def patchSized (x : PatchWrites) : Bool :=
  (x.loads.map (·.2) ++ x.stores.map fun y => y.2.length).all fun n => [1, 2, 4, 8].contains n

/-- A vector as a register holds it: 128 elements. -/
def fullLanes (v : List W32) : Lanes := Lanes.tab fun l => Lanes.at v l

/-- The registers, queue entries, predicates and MODE that a handler has written; `budget` bounds the vector registers of the
group. An illegal MODE is not written. -/
def Group.handlerWrite (g : Group) (budget : Nat) (x : PatchWrites) : Group :=
  let setS (q : List SSlot) (e : Nat × W64) : List SSlot := q.set e.1 ⟨e.2, none⟩
  let setV (q : List VSlot) (e : Nat × List W32) : List VSlot := q.set e.1 ⟨fullLanes e.2, none⟩
  let g1 := { g with
    sregs := x.sregs.foldl setS g.sregs
    vregs := (x.vregs.filter fun e => decide (e.1 < budget)).foldl setV g.vregs
    squeue := if g.inTrap then g.squeue else x.squeue.foldl setS g.squeue
    trapQueue := if g.inTrap then x.squeue.foldl setS g.trapQueue else g.trapQueue
    vqueue := x.vqueue.foldl setV g.vqueue
    preds := x.preds.foldl (fun (p : List (BitVec 8)) e => p.set e.1 e.2) g.preds
    mode := match x.mode with
      | some m => if modeLegal m then m else g.mode
      | none => g.mode }
  let g2 := match x.spush with
    | some v => g1.pushS ⟨v, none⟩
    | none => g1
  match x.vpush with
  | some v => g2.pushV ⟨fullLanes v, none⟩
  | none => g2

/-- The places that a handler reads, each with its bytes, and those that it stores to, with the cells. -/
structure HandlerHits where
  loads : List (Hit × Nat)
  stores : List (Hit × List (Loc × Byte))
  deriving DecidableEq, Repr

/-- The checks of R70 on the handler's loads, in order. -/
def Ctx.handlerLoads (c : Ctx) : List (W64 × Nat) → Chk (List (Hit × Nat))
  | [] => .ok []
  | (p, n) :: rest => (c.s.checkScalar c.launch c.id.team c.die p (ptrOff p) n [.pr] false).andThen fun h =>
      (c.handlerLoads rest).andThen fun hs => .ok ((h, n) :: hs)

/-- The checks of R70 on the handler's stores, in order. -/
def Ctx.handlerStores (c : Ctx) : List (W64 × List Byte) → Chk (List (Hit × List (Loc × Byte)))
  | [] => .ok []
  | (p, bs) :: rest =>
    (c.peerLost p (c.s.checkScalar c.launch c.id.team c.die p (ptrOff p) bs.length [.pw] true)).andThen fun h =>
      (c.handlerStores rest).andThen fun hs => .ok ((h, storeCellsOf h.loc bs.length (leNat bs)) :: hs)

/-- The checks of the handler's accesses; a remote store travels on C0, whose LOST bit faults it (05 R123). -/
def Ctx.handlerChecks (c : Ctx) (x : PatchWrites) : Chk HandlerHits :=
  (c.handlerLoads x.loads).andThen fun ls => (c.handlerStores x.stores).andThen fun ss =>
    (if ss.any fun y => y.1.dest.isSome then c.lostCheck 0 else .ok ()).andThen fun _ => .ok ⟨ls, ss⟩

/-- The handler's reads are made and its writes stand: local stores at once, remote ones as operations on C0 (03 R66). -/
def Ctx.handlerStands (c : Ctx) (x : PatchWrites) (h : HandlerHits) (k : State → Res) : Res :=
  let locs := h.loads.flatMap fun y => bytesOf y.1.loc y.2
  let remote := h.stores.filterMap fun y => y.1.dest.map fun d => (⟨d, false, .store y.2⟩ : Outgoing)
  let here := (h.stores.filter fun y => y.1.dest.isNone).flatMap (·.2)
  if c.s.loadHeld c.id locs || c.s.ownHeld c.id (here.map (·.1)) then .next c.s
  else
    c.send ((c.sample (h.loads.map (·.1)) false locs).markHits (h.stores.map (·.1)) true) 0 none remote fun s1 =>
      k ((s1.storeThrough c.core here).setGroup c.id ({ c.group with run := .running }.handlerWrite c.budget x))

/-- The named registers and the scratchpad bytes that the handler writes. -/
def Ctx.handlerPlaces (c : Ctx) (x : PatchWrites) (h : HandlerHits) : List OpPlace :=
  x.vregs.map (fun e => OpPlace.reg c.id.group e.1) ++
    ((h.stores.flatMap (·.2)).filterMap fun y => y.1.opPlace?).filterMap fun y => if y.1 = c.id.team then some y.2 else none

/-! How it ends (R375). -/

/-- The micro-engine of a core runs one handler at a time, in order of arrival. -/
def State.handlerTurn (s : State) (k : Nat) : Bool :=
  let coreOf (p : PatchAction) : Option Nat := (s.team? p.group.team).bind Team.core?
  match s.patchActs[k]? with
  | none => false
  | some p => (coreOf p).isSome && (s.patchActs.take k).all fun q => decide (coreOf q ≠ coreOf p)

/-- The record of the fault that was matched, or of ILLEGAL_INSTRUCTION for a decode match, with PATCHED set (R270). VSTAMP of a
matched fault stays VTIME at the match (13 R267 says VTIME at delivery: DESIGN CHOICE, assumption 94). -/
def State.reflected (s : State) (c : Ctx) (p : PatchAction) : FaultRecord := match p.fault with
  | some r => r
  | none => { mkRecord c.launch c.group (.illegalInstruction p.word) false (s.vtime c.team) with
      patched := true, pslot := BitVec.ofNat 4 p.slot }

/-- The sub-codes that 13 R268 and R396 give a fault code. -/
def subOk (code sub : BitVec 8) : Bool :=
  if code = 0x02 then decide (sub.toNat ≤ 10)
  else if code = 0x04 then decide (sub.toNat ≤ 5)
  else if code = 0x07 then decide (sub.toNat ≤ 1)
  else if code = 0x09 then decide (sub.toNat ≤ 4)
  else if code = 0x0A then decide (sub.toNat ≤ 3)
  else if code = 0x0B then decide (sub.toNat ≤ 15)
  else decide (sub = 0)

/-- A fault of the instruction as an EMULATE handler ends with it: code and SUB in the low bytes of `value`, ADDR, INFO and the
lane mask as 13 R268 gives them for the code. -/
def Ctx.emulatedFault (c : Ctx) (value addr : W64) (lanes : BitVec 128) (word : W32) : TrapInfo :=
  let code := (value.truncate 8 : BitVec 8)
  let sub := BitVec.ofNat 8 (value.toNat / 256)
  let info : W64 := if code = 0x01 ∨ code = 0x02 ∨ code = 0x0A then word.zeroExtend 64
    else if code = 0x09 then (operandAt word sub).zeroExtend 64
    else if code = 0x0B then c.s.chstat c.team
    else 0
  let named := decide (3 ≤ code.toNat ∧ code.toNat ≤ 8) || decide (code = 0x0A)
  ⟨code, sub, if 3 ≤ code.toNat ∧ code.toNat ≤ 7 then addr else 0, info,
    if named then lanes.truncate 64 else 0, if named then lanes.extractLsb' 64 64 else 0⟩

/-- Where a group goes on after RETIRE: PC + 4, or the target that the handler names (all ones: none). -/
def Group.retire (g : Group) (target : W64) : Group := if target = BitVec.allOnes 64 then g.advance else g.jump target

/-- A trap that the handler's own access met, or a page fault of it, is one of the instruction (R377). -/
def Ctx.handlerFault {α : Type} (c : Ctx) (p : PatchAction) (x : Chk α) (k : α → Res) : Res :=
  match x with
  | .ok hs => k hs
  | .trap t => .next (({ c.s with patchActs := c.s.patchActs.filter fun q => decide (q ≠ p) } : State).deliverPatched c.id p.slot
      (mkRecord c.launch c.group t false (c.s.vtime c.team)))
  | .page va write peer pri lo hi =>
    let s1 := { c.s with patchActs := c.s.patchActs.filter fun q => decide (q ≠ p) }.mapGroup c.id fun g => { g with run := .pageWait }
    .next (s1.enterFault c.launch.fn
      ⟨none, pri, va, write, peer, c.launch.lid, BitVec.ofNat 32 c.id.team.index, .handler c.id p.slot, lo, hi⟩)
  | .hold => .next c.s
  | .stop f => .fault f

/-- The action that a handler ran for, with the slot's ACTION under the image it was matched under (R378). -/
def State.handlerOf? (s : State) (k : Nat) : Option (PatchAction × Ctx × Bool) := match s.patchActs[k]? with
  | none => none
  | some p => match s.ctx? p.group with
    | none => none
    | some c => if s.handlerTurn k then
        some (p, c, decide (((p.image.slots[p.slot]?).map (·.action)) = some 2)) else none

/-- SEGMENT to PAGE: the faults that an access meets (13 R268). -/
def accessCode (code : BitVec 8) : Bool := decide (3 ≤ code.toNat ∧ code.toNat ≤ 7)

/-- PATCH_HANDLER. A TRAP handler ends with RETIRE 0, RETRY 1, REFLECT 2 or RAISE 3; an EMULATE handler with RETIRE 0 or a
fault of the instruction 4, which changes nothing else. A TRAP handler whose own read meets a fault ends with 4 too (R377). -/
def execPatchHandler (k outcome : Nat) (value target : BitVec 64) (writes : PatchWrites) (s : State) : Res :=
  match s.handlerOf? k with
  | none => .next s
  | some (p, c, emulate) =>
    if c.group.handlerWaits writes || !patchSized writes then .next s
    else if outcome == 4 && (emulate || accessCode (value.truncate 8)) then
      let t := c.emulatedFault value target writes.lanes p.word
      if !isFaultClass t.code || !subOk t.code t.sub then .next s
      else if t.code = 0x07 then
        c.handlerFault p (.page target.toNat (t.sub.getLsbD 0) none false t.lo t.hi : Chk Unit) fun _ => .next s
      else c.handlerFault p (.trap t : Chk Unit) fun _ => .next s
    else if (emulate && outcome != 0) || decide (3 < outcome) then .next s
    else c.handlerFault p (c.handlerChecks writes) fun hits => c.handlerStands writes hits fun s0 =>
      let s1 := { s0 with patchActs := s.patchActs.eraseIdx k }
      let s2 := if outcome = 0 then s1.mapGroup c.id fun g => g.retire target
        else if outcome = 1 then s1
        else if outcome = 2 then s1.deliverPatched c.id p.slot (s1.reflected c p)
        else s1.deliverPatched c.id p.slot (mkRecord c.launch c.group (.patchTrap value) false (s.vtime c.team))
      .next ((State.noteWrites s c.id (c.handlerPlaces writes hits) s2).recordSteps c.id.team).finishStops

/-- PATCH_HANDLER_TIMEOUT: after 65,536 micro-engine cycles the handler is stopped; its writes stand, and the original fault,
or ILLEGAL_INSTRUCTION, is delivered. -/
def execPatchHandlerTimeout (k : Nat) (writes : PatchWrites) (s : State) : Res :=
  match s.handlerOf? k with
  | none => .next s
  | some (p, c, _) =>
    if c.group.handlerWaits writes || !patchSized writes then .next s
    else c.handlerFault p (c.handlerChecks writes) fun hits => c.handlerStands writes hits fun s0 =>
      let s1 := { s0 with patchActs := s.patchActs.eraseIdx k }
      let s2 := s1.deliverPatched c.id p.slot (s1.reflected c p)
      .next ((State.noteWrites s c.id (c.handlerPlaces writes hits) s2).recordSteps c.id.team).finishStops

end Sys2Proof.Machine
end

