-- ==== Sys2Proof/Machine/Predicate.lean ====
section
/-! DEFINITION. Row 0x7 of the opcode map: comparisons, predicate logic and the nesting instructions (spec 08
R176-R180). -/

namespace Sys2Proof.Machine

/-! Comparisons (R177). -/

/-- Whether a comparison holds between two sub-elements: `unord` when an F operand is a NaN, else `test` of the sign of
A − B. -/
def subCmp (t : ElemType) (unord : Bool) (test : Int → Bool) (a b : Nat) : Bool :=
  match t.fmt? with
  | some f =>
    let x := f.decode a
    let y := f.decode b
    if x = .nan ∨ y = .nan then unord else test (x.cmp y)
  | none => test (t.toInt a - t.toInt b)

/-- A comparison: PD in every active lane; nothing is pushed. -/
def vecCmp (i : Instr) (q : BitVec 3) (a b : BitVec 8) (ok : ElemType → Bool) (unord : Bool) (test : Int → Bool)
    (s : State) : Res :=
  issue i s [.srcV 1 .epa a, .srcV 2 .epb b, .etype ok] fun c =>
    let x := c.readV a
    let y := c.readV b
    let holds (l : Nat) : Bool :=
      ((c.ty.split (x.at l)).zip (c.ty.split (y.at l))).all fun p => subCmp c.ty unord test p.1 p.2
    .next (c.put ((c.group.setPred q.toNat c.active holds).advance))

def execVceq (q : BitVec 3) (a b : BitVec 8) (s : State) : Res :=
  vecCmp (.vceq q a b) q a b tyAny false (fun d => decide (d = 0)) s
def execVcne (q : BitVec 3) (a b : BitVec 8) (s : State) : Res :=
  vecCmp (.vcne q a b) q a b tyAny true (fun d => decide (d ≠ 0)) s
def execVclt (q : BitVec 3) (a b : BitVec 8) (s : State) : Res :=
  vecCmp (.vclt q a b) q a b tyAny false (fun d => decide (d < 0)) s
def execVcle (q : BitVec 3) (a b : BitVec 8) (s : State) : Res :=
  vecCmp (.vcle q a b) q a b tyAny false (fun d => decide (d ≤ 0)) s
def execVcgt (q : BitVec 3) (a b : BitVec 8) (s : State) : Res :=
  vecCmp (.vcgt q a b) q a b tyAny false (fun d => decide (0 < d)) s
def execVcge (q : BitVec 3) (a b : BitVec 8) (s : State) : Res :=
  vecCmp (.vcge q a b) q a b tyAny false (fun d => decide (0 ≤ d)) s
def execVcuno (q : BitVec 3) (a b : BitVec 8) (s : State) : Res :=
  vecCmp (.vcuno q a b) q a b tyF true (fun _ => false) s

/-! Predicate logic (R178). A source predicate with NEG reads the complement (R176). -/

/-- A source predicate in a lane. -/
def Ctx.predSrc (c : Ctx) (neg : BitVec 1) (p : BitVec 3) (l : Nat) : Bool := c.pred p.toNat l != decide (neg = 1)

def predOp (i : Instr) (d : BitVec 3) (f : Ctx → Nat → Bool) (s : State) : Res :=
  issue i s [] fun c => .next (c.put ((c.group.setPred d.toNat c.active (f c)).advance))

def execPand (d : BitVec 3) (x : BitVec 1) (a : BitVec 3) (y : BitVec 1) (b : BitVec 3) (s : State) : Res :=
  predOp (.pand d x a y b) d (fun c l => c.predSrc x a l && c.predSrc y b l) s
def execPor (d : BitVec 3) (x : BitVec 1) (a : BitVec 3) (y : BitVec 1) (b : BitVec 3) (s : State) : Res :=
  predOp (.por d x a y b) d (fun c l => c.predSrc x a l || c.predSrc y b l) s
def execPxor (d : BitVec 3) (x : BitVec 1) (a : BitVec 3) (y : BitVec 1) (b : BitVec 3) (s : State) : Res :=
  predOp (.pxor d x a y b) d (fun c l => c.predSrc x a l != c.predSrc y b l) s
def execPnot (d : BitVec 3) (x : BitVec 1) (a : BitVec 3) (s : State) : Res :=
  predOp (.pnot d x a) d (fun c l => !c.predSrc x a l) s

/-! Conditional regions (R179): the counters of the lanes that are not absent. -/

/-- The group with the counter of every present lane changed. -/
def Ctx.setNest (c : Ctx) (f : Nat → BitVec 8 → BitVec 8) : Group :=
  { c.group with nest := (List.range numLanes).map fun l =>
      let n := c.group.nest.getD l 0
      if c.absent l then n else f l n }

def execVif (x : BitVec 1) (a : BitVec 3) (s : State) : Res :=
  issue (.vif x a) s [] fun c =>
    let takes (l : Nat) : Bool := c.active l && c.predSrc x a l
    let full (l : Nat) : Bool := !c.absent l && decide (c.group.nest.getD l 0 = 255) && !takes l
    if (List.range numLanes).any full then
      let m := laneMask full
      c.fault (.vif x a) (.nesting m.1 m.2)
    else .next (c.put (c.setNest fun l n => if takes l then 0 else n + 1).advance)

def execVelse (s : State) : Res :=
  issue .velse s [] fun c =>
    .next (c.put (c.setNest fun _ n => if n = 0 then 1 else if n = 1 then 0 else n).advance)

def execVendif (s : State) : Res :=
  issue .vendif s [] fun c => .next (c.put (c.setNest fun _ n => if n = 0 then 0 else n - 1).advance)

/-! Reductions of a predicate (R180). -/

def execVany (d : BitVec 8) (x : BitVec 1) (a : BitVec 3) (s : State) : Res :=
  issue (.vany d x a) s [.dstS 0 d] fun c =>
    c.finishS d (if (List.range numLanes).any fun l => c.active l && c.predSrc x a l then 1 else 0)

def execVall (d : BitVec 8) (x : BitVec 1) (a : BitVec 3) (s : State) : Res :=
  issue (.vall d x a) s [.dstS 0 d] fun c =>
    c.finishS d (if (List.range numLanes).all fun l => !c.active l || c.predSrc x a l then 1 else 0)

end Sys2Proof.Machine
end

