-- ==== Sys2Proof/Machine/Returns.lean ====
section
/-! DEFINITION. The writebacks of long-latency results (spec 06 R135, 09 R192-R194) and uncorrectable reads (26 R386). -/

namespace Sys2Proof.Machine

/-- Write a long-latency result back to every slot that waits for it; it becomes full. -/
def State.land (s : State) (f : Flight) : State :=
  { (s.mapGroup f.group fun g => match f.value with
      | .scalar v => g.landS f.id v
      | .vector v => g.landV f.id f.mask v) with
    flights := s.flights.filter fun x => decide (x.id ≠ f.id) }

/-- The result waits for no remote access that is not acknowledged. -/
def State.flightReady (s : State) (f : Flight) : Bool :=
  s.packets.all fun p => p.acked || match p.op with
    | .atomic _ prod => decide (prod ≠ some f.id)
    | _ => true

/-- The writeback of a result of some kinds. -/
def landKind (ks : List FlightKind) (id : Nat) (s : State) : Res :=
  match s.flights.find? fun f => decide (f.id = id) with
  | none => .next s
  | some f => .next (if ks.contains f.kind && s.flightReady f then s.land f else s)

/-- The page of a physical address has not been written since the last complete cut of a job, and its journal copy serves the
read: near pages show it by DIRTY, lake pages by being read-only to the job. -/
def State.journalServes (s : State) (l : Launch) (j : CutJob) (pa : Nat) : Bool :=
  j.complete && match s.leafAt l.fn pa with
  | none => false
  | some p =>
    if isNear pa then (j.journal.any fun x => decide (x.page = p.pa)) && !s.pageDirty p
    else j.cow.any fun x => decide (x.1 = p.pa)

/-- The die whose error log takes an error at a physical address: a compute die, or 8 and 9 for the lake dies. -/
def errorDie (pa : Nat) : Nat := if isNear pa then nearDie pa else 8 + lakeDie pa

/-- What an uncorrectable near or lake error does to a load (26 R386): the journal copy serves it, the job rolls back, or the
launch completes ABORTED with DIE_LOST. -/
def State.uncorrectable (s : State) (f : Flight) : State :=
  let pa := (f.locs.findSome? fun x => match x with
    | .phys a => some a
    | _ => none).getD 0
  let s0 := { s.logError (errorDie pa) pa with telemetry := { s.telemetry with dramUncorr := satInc s.telemetry.dramUncorr } }
  match s.launch? f.group.team.launch with
  | none => s0
  | some l => match s.job? l.seq with
    | some j =>
      let served := f.locs.all fun x => match x with
        | .phys pa => s.journalServes l j pa
        | _ => true
      if served then s0.land f
      else if l.cutp && j.complete then s0.rollback j
      else s0.abortLaunch l 11
    | none => s0.abortLaunch l 11

/-- LOAD_RETURN: the data of a load returns; `uncorrectable` says that near or lake memory met an uncorrectable error. -/
def execLoadReturn (id : Nat) (uncorrectable : Bool) (s : State) : Res :=
  match s.flights.find? fun f => decide (f.id = id) with
  | none => .next s
  | some f =>
    .next (if f.kind ≠ .load then s
      else if uncorrectable && f.locs.any fun x => match x with
        | .phys _ => true
        | _ => false
      then s.uncorrectable f
      else s.land f)

/-- ATOMIC_RETURN: every access of the atomic, a CATOM included, has been performed and its results are back. -/
def execAtomicReturn (id : Nat) (s : State) : Res := landKind [.atomic, .engine] id s

/-- NECTAR_WRITEBACK. -/
def execNectarWriteback (id : Nat) (s : State) : Res := landKind [.nectar] id s

end Sys2Proof.Machine
end

