-- ==== Sys2Proof/Machine/Scalar.lean ====
section
/-! DEFINITION. Rows 0x0 and 0x1 of the opcode map: scalar arithmetic (spec 07 R144-R147) and control flow (R148, R149). -/

namespace Sys2Proof.Machine

/-! Arithmetic (R146). -/

/-- MULHI: the high half of the signed product. -/
def mulHi (a b : W64) : W64 := BitVec.ofInt 64 (a.toInt * b.toInt / 2 ^ 64)

/-- DIV: truncated towards zero; by zero all ones; −2^63 ÷ −1 is −2^63. -/
def divS (a b : W64) : W64 := if b = 0 then BitVec.allOnes 64 else BitVec.ofInt 64 (Int.tdiv a.toInt b.toInt)

/-- The shift amount B[5:0]. -/
def shAmt (b : W64) : Nat := b.toNat % 64

def execAdd (d a b : BitVec 8) (s : State) : Res := scalar2 (.add d a b) d a b (fun x y => x + y) s
def execSub (d a b : BitVec 8) (s : State) : Res := scalar2 (.sub d a b) d a b (fun x y => x - y) s
def execMul (d a b : BitVec 8) (s : State) : Res := scalar2 (.mul d a b) d a b (fun x y => x * y) s
def execMulhi (d a b : BitVec 8) (s : State) : Res := scalar2 (.mulhi d a b) d a b mulHi s
def execDiv (d a b : BitVec 8) (s : State) : Res := scalar2 (.div d a b) d a b divS s
def execAnd (d a b : BitVec 8) (s : State) : Res := scalar2 (.and d a b) d a b (fun x y => x &&& y) s
def execOr (d a b : BitVec 8) (s : State) : Res := scalar2 (.or d a b) d a b (fun x y => x ||| y) s
def execXor (d a b : BitVec 8) (s : State) : Res := scalar2 (.xor d a b) d a b (fun x y => x ^^^ y) s
def execShl (d a b : BitVec 8) (s : State) : Res := scalar2 (.shl d a b) d a b (fun x y => x <<< shAmt y) s
def execShr (d a b : BitVec 8) (s : State) : Res := scalar2 (.shr d a b) d a b (fun x y => x >>> shAmt y) s
def execShra (d a b : BitVec 8) (s : State) : Res := scalar2 (.shra d a b) d a b (fun x y => x.sshiftRight (shAmt y)) s
def execSlt (d a b : BitVec 8) (s : State) : Res :=
  scalar2 (.slt d a b) d a b (fun x y => if x.toInt < y.toInt then 1 else 0) s

/-- SEL reads D as its condition and writes its result to the same register (R145, R146). -/
def execSel (d a b : BitVec 8) (s : State) : Res :=
  issue (.sel d a b) s [.rmwS 0 d, .srcS 1 .epa a, .srcS 2 .epb b] fun c =>
    c.finishS d (if c.readS d ≠ 0 then c.readS a else c.readS b)

/-- SETLO (R147). -/
def execSetlo (d : BitVec 8) (imm : BitVec 16) (s : State) : Res :=
  issue (.setlo d imm) s [.dstS 0 d] fun c => c.finishS d (imm.signExtend 64)

/-- SETHI (R147): D is read and written. -/
def execSethi (d : BitVec 8) (imm : BitVec 16) (s : State) : Res :=
  issue (.sethi d imm) s [.rmwS 0 d] fun c => c.finishS d ((c.readS d <<< 16) ||| imm.zeroExtend 64)

/-! Control flow (R148, R149). -/

def execBra (o : BitVec 16) (s : State) : Res := issue (.bra o) s [] fun c => c.branchRel (.bra o) o c.group

/-- A conditional branch: PC + 4 with nothing checked when the condition fails. -/
def condBranch (i : Instr) (a : BitVec 8) (o : BitVec 16) (p : W64 → Bool) (s : State) : Res :=
  issue i s [.srcS 0 .epa a] fun c =>
    if p (c.readS a) then c.branchRel i o c.group else .next (c.put c.group.advance)

def execBz (a : BitVec 8) (o : BitVec 16) (s : State) : Res := condBranch (.bz a o) a o (fun x => decide (x = 0)) s
def execBnz (a : BitVec 8) (o : BitVec 16) (s : State) : Res := condBranch (.bnz a o) a o (fun x => decide (x ≠ 0)) s
def execBlt (a : BitVec 8) (o : BitVec 16) (s : State) : Res := condBranch (.blt a o) a o (fun x => decide (x.toInt < 0)) s
def execBge (a : BitVec 8) (o : BitVec 16) (s : State) : Res := condBranch (.bge a o) a o (fun x => decide (0 ≤ x.toInt)) s

/-- The group with the link PC + 4 pushed and written to D. -/
def Group.link (g : Group) (d : BitVec 8) : Group :=
  let v : SSlot := ⟨g.pc + 4, none⟩
  (g.pushS v).writeS d v

def execCall (a : BitVec 8) (o : BitVec 16) (s : State) : Res :=
  issue (.call a o) s [.dstS 0 a] fun c => c.branchRel (.call a o) o (c.group.link a)

/-- CALLX leaves the link on the queue only. -/
def execCallx (a : BitVec 8) (s : State) : Res :=
  issue (.callx a) s [.srcS 0 .epa a] fun c => c.branchTo (.callx a) (c.readS a) (c.group.link 0xFF)

def execRet (a : BitVec 8) (s : State) : Res :=
  issue (.ret a) s [.srcS 0 .epa a] fun c => c.branchTo (.ret a) (c.readS a) c.group

def execJmpx (a : BitVec 8) (s : State) : Res :=
  issue (.jmpx a) s [.srcS 0 .epa a] fun c => c.branchTo (.jmpx a) (c.readS a) c.group

/-- LOOP: A is decremented in place; a branch that faults leaves it (R149). -/
def execLoop (a : BitVec 8) (o : BitVec 16) (s : State) : Res :=
  issue (.loop a o) s [.rmwS 0 a] fun c =>
    let v := c.readS a - 1
    let g := c.group.writeS a ⟨v, none⟩
    if v ≠ 0 then c.branchRel (.loop a o) o g else .next (c.put g.advance)

end Sys2Proof.Machine
end

