-- ==== Sys2Proof/Machine/Dispatch.lean ====
section
/-! DEFINITION. The meaning of every instruction: one arm per constructor of Instr. -/

namespace Sys2Proof.Machine

def exec (i : Instr) (s : State) : Host.Outcome State Fault Refusal :=
  match i with
  | .add d a b => Sys2Proof.Machine.execAdd d a b s
  | .sub d a b => Sys2Proof.Machine.execSub d a b s
  | .mul d a b => Sys2Proof.Machine.execMul d a b s
  | .mulhi d a b => Sys2Proof.Machine.execMulhi d a b s
  | .div d a b => Sys2Proof.Machine.execDiv d a b s
  | .and d a b => Sys2Proof.Machine.execAnd d a b s
  | .or d a b => Sys2Proof.Machine.execOr d a b s
  | .xor d a b => Sys2Proof.Machine.execXor d a b s
  | .shl d a b => Sys2Proof.Machine.execShl d a b s
  | .shr d a b => Sys2Proof.Machine.execShr d a b s
  | .shra d a b => Sys2Proof.Machine.execShra d a b s
  | .slt d a b => Sys2Proof.Machine.execSlt d a b s
  | .sel d a b => Sys2Proof.Machine.execSel d a b s
  | .setlo d im => Sys2Proof.Machine.execSetlo d im s
  | .sethi d im => Sys2Proof.Machine.execSethi d im s
  | .bra o => Sys2Proof.Machine.execBra o s
  | .bz a o => Sys2Proof.Machine.execBz a o s
  | .bnz a o => Sys2Proof.Machine.execBnz a o s
  | .blt a o => Sys2Proof.Machine.execBlt a o s
  | .bge a o => Sys2Proof.Machine.execBge a o s
  | .call a o => Sys2Proof.Machine.execCall a o s
  | .callx a => Sys2Proof.Machine.execCallx a s
  | .ret a => Sys2Proof.Machine.execRet a s
  | .jmpx a => Sys2Proof.Machine.execJmpx a s
  | .loop a o => Sys2Proof.Machine.execLoop a o s
  | .sld8 d p sc o b => Sys2Proof.Machine.execSld8 d p sc o b s
  | .sld16 d p sc o b => Sys2Proof.Machine.execSld16 d p sc o b s
  | .sld32 d p sc o b => Sys2Proof.Machine.execSld32 d p sc o b s
  | .sld64 d p sc o b => Sys2Proof.Machine.execSld64 d p sc o b s
  | .sst8 d p sc o b => Sys2Proof.Machine.execSst8 d p sc o b s
  | .sst16 d p sc o b => Sys2Proof.Machine.execSst16 d p sc o b s
  | .sst32 d p sc o b => Sys2Proof.Machine.execSst32 d p sc o b s
  | .sst64 d p sc o b => Sys2Proof.Machine.execSst64 d p sc o b s
  | .sread d y => Sys2Proof.Machine.execSread d y s
  | .swrite y b => Sys2Proof.Machine.execSwrite y b s
  | .icinv a b => Sys2Proof.Machine.execIcinv a b s
  | .mode im => Sys2Proof.Machine.execMode im s
  | .moderd d => Sys2Proof.Machine.execModerd d s
  | .shape a => Sys2Proof.Machine.execShape a s
  | .shaperd d => Sys2Proof.Machine.execShaperd d s
  | .bararr n => Sys2Proof.Machine.execBararr n s
  | .barwait n => Sys2Proof.Machine.execBarwait n s
  | .barsync n => Sys2Proof.Machine.execBarsync n s
  | .rquota d n b => Sys2Proof.Machine.execRquota d n b s
  | .step => Sys2Proof.Machine.execStep s
  | .vadd d a b => Sys2Proof.Machine.execVadd d a b s
  | .vsub d a b => Sys2Proof.Machine.execVsub d a b s
  | .vmul d a b => Sys2Proof.Machine.execVmul d a b s
  | .vfma d a b => Sys2Proof.Machine.execVfma d a b s
  | .vfms d a b => Sys2Proof.Machine.execVfms d a b s
  | .vfnma d a b => Sys2Proof.Machine.execVfnma d a b s
  | .vmin d a b => Sys2Proof.Machine.execVmin d a b s
  | .vmax d a b => Sys2Proof.Machine.execVmax d a b s
  | .vabs d a => Sys2Proof.Machine.execVabs d a s
  | .vneg d a => Sys2Proof.Machine.execVneg d a s
  | .vdiv d a b => Sys2Proof.Machine.execVdiv d a b s
  | .vsqrt d a => Sys2Proof.Machine.execVsqrt d a s
  | .vrcp d a => Sys2Proof.Machine.execVrcp d a s
  | .vrsq d a => Sys2Proof.Machine.execVrsq d a s
  | .vexp2 d a => Sys2Proof.Machine.execVexp2 d a s
  | .vlog2 d a => Sys2Proof.Machine.execVlog2 d a s
  | .vand d a b => Sys2Proof.Machine.execVand d a b s
  | .vor d a b => Sys2Proof.Machine.execVor d a b s
  | .vxor d a b => Sys2Proof.Machine.execVxor d a b s
  | .vnot d a => Sys2Proof.Machine.execVnot d a s
  | .vshl d a b => Sys2Proof.Machine.execVshl d a b s
  | .vshr d a b => Sys2Proof.Machine.execVshr d a b s
  | .vshra d a b => Sys2Proof.Machine.execVshra d a b s
  | .vrot d a b => Sys2Proof.Machine.execVrot d a b s
  | .vmulhi d a b => Sys2Proof.Machine.execVmulhi d a b s
  | .vsel d a b => Sys2Proof.Machine.execVsel d a b s
  | .vclz d a => Sys2Proof.Machine.execVclz d a s
  | .vpopc d a => Sys2Proof.Machine.execVpopc d a s
  | .vfloor d a => Sys2Proof.Machine.execVfloor d a s
  | .vceil d a => Sys2Proof.Machine.execVceil d a s
  | .vround d a => Sys2Proof.Machine.execVround d a s
  | .vtrunc d a => Sys2Proof.Machine.execVtrunc d a s
  | .vbcast d a b => Sys2Proof.Machine.execVbcast d a b s
  | .vperm d a b => Sys2Proof.Machine.execVperm d a b s
  | .vlrot d a b => Sys2Proof.Machine.execVlrot d a b s
  | .vscan d a => Sys2Proof.Machine.execVscan d a s
  | .vradd d a => Sys2Proof.Machine.execVradd d a s
  | .vrmin d a => Sys2Proof.Machine.execVrmin d a s
  | .vrmax d a => Sys2Proof.Machine.execVrmax d a s
  | .vmovs d a b => Sys2Proof.Machine.execVmovs d a b s
  | .vins d a b => Sys2Proof.Machine.execVins d a b s
  | .vcsign d a b => Sys2Proof.Machine.execVcsign d a b s
  | .vceq q a b => Sys2Proof.Machine.execVceq q a b s
  | .vcne q a b => Sys2Proof.Machine.execVcne q a b s
  | .vclt q a b => Sys2Proof.Machine.execVclt q a b s
  | .vcle q a b => Sys2Proof.Machine.execVcle q a b s
  | .vcgt q a b => Sys2Proof.Machine.execVcgt q a b s
  | .vcge q a b => Sys2Proof.Machine.execVcge q a b s
  | .vcuno q a b => Sys2Proof.Machine.execVcuno q a b s
  | .pand d x a y b => Sys2Proof.Machine.execPand d x a y b s
  | .por d x a y b => Sys2Proof.Machine.execPor d x a y b s
  | .pxor d x a y b => Sys2Proof.Machine.execPxor d x a y b s
  | .pnot d x a => Sys2Proof.Machine.execPnot d x a s
  | .vif x a => Sys2Proof.Machine.execVif x a s
  | .velse => Sys2Proof.Machine.execVelse s
  | .vendif => Sys2Proof.Machine.execVendif s
  | .vany d x a => Sys2Proof.Machine.execVany d x a s
  | .vall d x a => Sys2Proof.Machine.execVall d x a s
  | .cvtif d a => Sys2Proof.Machine.execCvtif d a s
  | .cvtfi d a => Sys2Proof.Machine.execCvtfi d a s
  | .cvtnf d a f => Sys2Proof.Machine.execCvtnf d a f s
  | .cvtfn d a f => Sys2Proof.Machine.execCvtfn d a f s
  | .cvtfh d a b => Sys2Proof.Machine.execCvtfh d a b s
  | .cvthf d a sc => Sys2Proof.Machine.execCvthf d a sc s
  | .cvtfb d a b => Sys2Proof.Machine.execCvtfb d a b s
  | .cvtbf d a sc => Sys2Proof.Machine.execCvtbf d a sc s
  | .pack16 d a b => Sys2Proof.Machine.execPack16 d a b s
  | .unpk16 d a sc => Sys2Proof.Machine.execUnpk16 d a sc s
  | .pack8 d a b => Sys2Proof.Machine.execPack8 d a b s
  | .unpk8 d a sc => Sys2Proof.Machine.execUnpk8 d a sc s
  | .cvtn8 d a b => Sys2Proof.Machine.execCvtn8 d a b s
  | .cvtn6 d a b => Sys2Proof.Machine.execCvtn6 d a b s
  | .cvtn4 d a b => Sys2Proof.Machine.execCvtn4 d a b s
  | .cvtnx d a f => Sys2Proof.Machine.execCvtnx d a f s
  | .vld8 d p sc o b => Sys2Proof.Machine.execVld8 d p sc o b s
  | .vld16 d p sc o b => Sys2Proof.Machine.execVld16 d p sc o b s
  | .vld32 d p sc o b => Sys2Proof.Machine.execVld32 d p sc o b s
  | .vst8 d p sc o b => Sys2Proof.Machine.execVst8 d p sc o b s
  | .vst16 d p sc o b => Sys2Proof.Machine.execVst16 d p sc o b s
  | .vst32 d p sc o b => Sys2Proof.Machine.execVst32 d p sc o b s
  | .vpref p sc o b => Sys2Proof.Machine.execVpref p sc o b s
  | .atadd d p sc o b => Sys2Proof.Machine.execAtadd d p sc o b s
  | .atmin d p sc o b => Sys2Proof.Machine.execAtmin d p sc o b s
  | .atmax d p sc o b => Sys2Proof.Machine.execAtmax d p sc o b s
  | .atand d p sc o b => Sys2Proof.Machine.execAtand d p sc o b s
  | .ator d p sc o b => Sys2Proof.Machine.execAtor d p sc o b s
  | .atxor d p sc o b => Sys2Proof.Machine.execAtxor d p sc o b s
  | .atxchg d p sc o b => Sys2Proof.Machine.execAtxchg d p sc o b s
  | .atcas d p sc o b => Sys2Proof.Machine.execAtcas d p sc o b s
  | .vatadd d p sc o b => Sys2Proof.Machine.execVatadd d p sc o b s
  | .vatmin d p sc o b => Sys2Proof.Machine.execVatmin d p sc o b s
  | .vatmax d p sc o b => Sys2Proof.Machine.execVatmax d p sc o b s
  | .vatxchg d p sc o b => Sys2Proof.Machine.execVatxchg d p sc o b s
  | .fence m sc => Sys2Proof.Machine.execFence m sc s
  | .vatand d p sc o b => Sys2Proof.Machine.execVatand d p sc o b s
  | .vator d p sc o b => Sys2Proof.Machine.execVator d p sc o b s
  | .cst c x a b => Sys2Proof.Machine.execCst c x a b s
  | .catom c x a b => Sys2Proof.Machine.execCatom c x a b s
  | .ccopy c a b => Sys2Proof.Machine.execCcopy c a b s
  | .cjoin c x => Sys2Proof.Machine.execCjoin c x s
  | .cdrain c => Sys2Proof.Machine.execCdrain c s
  | .mma t f m h v p => Sys2Proof.Machine.execMma t f m h v p s
  | .mzero t => Sys2Proof.Machine.execMzero t s
  | .mxread t o g h v sc => Sys2Proof.Machine.execMxread t o g h v sc s
  | .mstore t m f => Sys2Proof.Machine.execMstore t m f s
  | .mfence => Sys2Proof.Machine.execMfence s
  | .mbarwait n => Sys2Proof.Machine.execMbarwait n s
  | .mbararr n => Sys2Proof.Machine.execMbararr n s
  | .mfmt n im => Sys2Proof.Machine.execMfmt n im s
  | .mmap n im => Sys2Proof.Machine.execMmap n im s
  | .mbra o => Sys2Proof.Machine.execMbra o s
  | .mloop l o im => Sys2Proof.Machine.execMloop l o im s
  | .mend => Sys2Proof.Machine.execMend s
  | .nacc k n a b => Sys2Proof.Machine.execNacc k n a b s
  | .neval d a k n => Sys2Proof.Machine.execNeval d a k n s
  | .nrescale d n => Sys2Proof.Machine.execNrescale d n s
  | .nmerge n v => Sys2Proof.Machine.execNmerge n v s
  | .nfin d p t n => Sys2Proof.Machine.execNfin d p t n s
  | .nclear m => Sys2Proof.Machine.execNclear m s
  | .nsave v n => Sys2Proof.Machine.execNsave v n s
  | .nload n v => Sys2Proof.Machine.execNload n v s
  | .ntable d v b => Sys2Proof.Machine.execNtable d v b s
  | .nselect f => Sys2Proof.Machine.execNselect f s
  | .copy d a b => Sys2Proof.Machine.execCopy d a b s
  | .fgraph d a b => Sys2Proof.Machine.execFgraph d a b s
  | .waita d a b => Sys2Proof.Machine.execWaita d a b s
  | .lwake a => Sys2Proof.Machine.execLwake a s
  | .mhint a b => Sys2Proof.Machine.execMhint a b s
  | .mwait a => Sys2Proof.Machine.execMwait a s
  | .trap a => Sys2Proof.Machine.execTrap a s
  | .tret a => Sys2Proof.Machine.execTret a s
  | .brk t => Sys2Proof.Machine.execBrk t s
  | .nop => Sys2Proof.Machine.execNop s
  | .exit => Sys2Proof.Machine.execExit s
  | .faultrd d im => Sys2Proof.Machine.execFaultrd d im s
  | .loadReturn id uncorrectable => Sys2Proof.Machine.execLoadReturn id uncorrectable s
  | .atomicReturn id => Sys2Proof.Machine.execAtomicReturn id s
  | .nectarWriteback id => Sys2Proof.Machine.execNectarWriteback id s
  | .copyChunk id => Sys2Proof.Machine.execCopyChunk id s
  | .copyComplete id => Sys2Proof.Machine.execCopyComplete id s
  | .ccopyComplete id => Sys2Proof.Machine.execCcopyComplete id s
  | .foragerNodeStart replay node spad text cls => Sys2Proof.Machine.execForagerNodeStart replay node spad text cls s
  | .foragerNodeComplete replay node => Sys2Proof.Machine.execForagerNodeComplete replay node s
  | .foragerWaitRecheck replay node => Sys2Proof.Machine.execForagerWaitRecheck replay node s
  | .replayComplete replay => Sys2Proof.Machine.execReplayComplete replay s
  | .collectiveSignature sender receiver inst foreign => Sys2Proof.Machine.execCollectiveSignature sender receiver inst foreign s
  | .mmaArrayExecute launch team => Sys2Proof.Machine.execMmaArrayExecute launch team s
  | .batchComplete launch team => Sys2Proof.Machine.execBatchComplete launch team s
  | .waitaWake launch team group => Sys2Proof.Machine.execWaitaWake launch team group s
  | .vtimeCompareMatch launch team group => Sys2Proof.Machine.execVtimeCompareMatch launch team group s
  | .eventTrap launch team group => Sys2Proof.Machine.execEventTrap launch team group s
  | .groupExchange core launch team group => Sys2Proof.Machine.execGroupExchange core launch team group s
  | .groupStarved core launch team group => Sys2Proof.Machine.execGroupStarved core launch team group s
  | .forcedExchange core => Sys2Proof.Machine.execForcedExchange core s
  | .teamPlacement part => Sys2Proof.Machine.execTeamPlacement part s
  | .poolSwitch core => Sys2Proof.Machine.execPoolSwitch core s
  | .poolSwitchComplete core => Sys2Proof.Machine.execPoolSwitchComplete core s
  | .teamRetirement launch team => Sys2Proof.Machine.execTeamRetirement launch team s
  | .launchCompletion launch => Sys2Proof.Machine.execLaunchCompletion launch s
  | .launch fn q spad text cls splice => Sys2Proof.Machine.execLaunch fn q spad text cls splice s
  | .nopPacket fn q => Sys2Proof.Machine.execNopPacket fn q s
  | .inval fn q => Sys2Proof.Machine.execInval fn q s
  | .invalComplete k => Sys2Proof.Machine.execInvalComplete k s
  | .debugStop fn q => Sys2Proof.Machine.execDebugStop fn q s
  | .debugResume fn q => Sys2Proof.Machine.execDebugResume fn q s
  | .debugRead fn q => Sys2Proof.Machine.execDebugRead fn q s
  | .debugWrite fn q => Sys2Proof.Machine.execDebugWrite fn q s
  | .debugBreak fn q => Sys2Proof.Machine.execDebugBreak fn q s
  | .pfreplyReplay fn q => Sys2Proof.Machine.execPfreplyReplay fn q s
  | .pfreplyDeliver fn q => Sys2Proof.Machine.execPfreplyDeliver fn q s
  | .gload fn q => Sys2Proof.Machine.execGload fn q s
  | .gloadUnload fn q => Sys2Proof.Machine.execGloadUnload fn q s
  | .gloadDeferredComplete k => Sys2Proof.Machine.execGloadDeferredComplete k s
  | .reservedPacket fn q => Sys2Proof.Machine.execReservedPacket fn q s
  | .qtailDoorbell fn q t => Sys2Proof.Machine.execQtailDoorbell fn q t s
  | .queueEnable fn q => Sys2Proof.Machine.execQueueEnable fn q s
  | .queueDisable fn q => Sys2Proof.Machine.execQueueDisable fn q s
  | .qclear fn q => Sys2Proof.Machine.execQclear fn q s
  | .fqctlWrite fn v => Sys2Proof.Machine.execFqctlWrite fn v s
  | .fqtailWrite fn v => Sys2Proof.Machine.execFqtailWrite fn v s
  | .registerWrite area off v => Sys2Proof.Machine.execRegisterWrite area off v s
  | .hostApertureRead fn off n => Sys2Proof.Machine.execHostApertureRead fn off n s
  | .hostApertureWrite fn off bytes => Sys2Proof.Machine.execHostApertureWrite fn off bytes s
  | .cxlMemRead port off n => Sys2Proof.Machine.execCxlMemRead port off n s
  | .cxlMemWrite port off bytes => Sys2Proof.Machine.execCxlMemWrite port off bytes s
  | .hostPriResponse fn k granted bus writable => Sys2Proof.Machine.execHostPriResponse fn k granted bus writable s
  | .atsInvalidation fn page => Sys2Proof.Machine.execAtsInvalidation fn page s
  | .channelPacketArrival k => Sys2Proof.Machine.execChannelPacketArrival k s
  | .channelAck k => Sys2Proof.Machine.execChannelAck k s
  | .streamClose k => Sys2Proof.Machine.execStreamClose k s
  | .packetResend id => Sys2Proof.Machine.execPacketResend id s
  | .linkFailure link packets acks => Sys2Proof.Machine.execLinkFailure link packets acks s
  | .sync k => Sys2Proof.Machine.execSync k s
  | .syncRequest k => Sys2Proof.Machine.execSyncRequest k s
  | .linkRetrained link => Sys2Proof.Machine.execLinkRetrained link s
  | .linkNarrow link => Sys2Proof.Machine.execLinkNarrow link s
  | .linkSleep link => Sys2Proof.Machine.execLinkSleep link s
  | .lwakeExpiry link => Sys2Proof.Machine.execLwakeExpiry link s
  | .peerUnreachable mod => Sys2Proof.Machine.execPeerUnreachable mod s
  | .pageMigrationStart part va target => Sys2Proof.Machine.execPageMigrationStart part va target s
  | .pageMigrationComplete k => Sys2Proof.Machine.execPageMigrationComplete k s
  | .gangReserve gang => Sys2Proof.Machine.execGangReserve gang s
  | .gangReserveTimeout gang => Sys2Proof.Machine.execGangReserveTimeout gang s
  | .gangBackoffRetry gang => Sys2Proof.Machine.execGangBackoffRetry gang s
  | .gangCommit gang => Sys2Proof.Machine.execGangCommit gang s
  | .preemptRequest launch team budget => Sys2Proof.Machine.execPreemptRequest launch team budget s
  | .drainTimeout launch team => Sys2Proof.Machine.execDrainTimeout launch team s
  | .saveComplete launch team => Sys2Proof.Machine.execSaveComplete launch team s
  | .saveWithdraw launch team => Sys2Proof.Machine.execSaveWithdraw launch team s
  | .flushComplete launch team => Sys2Proof.Machine.execFlushComplete launch team s
  | .cutStopRequest launch => Sys2Proof.Machine.execCutStopRequest launch s
  | .cutCompletion launch => Sys2Proof.Machine.execCutCompletion launch s
  | .cutAbandon launch => Sys2Proof.Machine.execCutAbandon launch s
  | .journalCopyOnWrite launch page => Sys2Proof.Machine.execJournalCopyOnWrite launch page s
  | .dieFence at' => Sys2Proof.Machine.execDieFence at' s
  | .commandLinkMessage cell toCell urgent send msg => Sys2Proof.Machine.execCommandLinkMessage cell toCell urgent send msg s
  | .hiveHeartbeat received => Sys2Proof.Machine.execHiveHeartbeat received s
  | .hiveTakeover => Sys2Proof.Machine.execHiveTakeover s
  | .cellLinkFailure cell => Sys2Proof.Machine.execCellLinkFailure cell s
  | .powerCapTick average plate => Sys2Proof.Machine.execPowerCapTick average plate s
  | .gtimeLockLoss => Sys2Proof.Machine.execGtimeLockLoss s
  | .gtimeRelock => Sys2Proof.Machine.execGtimeRelock s
  | .coldStart failedCores found => Sys2Proof.Machine.execColdStart failedCores found s
  | .warmStart failedCores found => Sys2Proof.Machine.execWarmStart failedCores found s
  | .correctedError dram => Sys2Proof.Machine.execCorrectedError dram s
  | .uncorrectableTeamState core => Sys2Proof.Machine.execUncorrectableTeamState core s
  | .pseudoChannelSparing stack base size => Sys2Proof.Machine.execPseudoChannelSparing stack base size s
  | .sparingChunkCopy k => Sys2Proof.Machine.execSparingChunkCopy k s
  | .pageRetirement page target => Sys2Proof.Machine.execPageRetirement page target s
  | .fatalError cause trouble => Sys2Proof.Machine.execFatalError cause trouble s
  | .patchHandler k outcome value target writes => Sys2Proof.Machine.execPatchHandler k outcome value target writes s
  | .patchHandlerTimeout k writes => Sys2Proof.Machine.execPatchHandlerTimeout k writes s
  | .patchImageSwitch => Sys2Proof.Machine.execPatchImageSwitch s
  | .quarantineTimeout launch => Sys2Proof.Machine.execQuarantineTimeout launch s
  | .partSet => Sys2Proof.Machine.execPartSet s
  | .qcellSet => Sys2Proof.Machine.execQcellSet s
  | .powerCap => Sys2Proof.Machine.execPowerCap s
  | .cutSet => Sys2Proof.Machine.execCutSet s
  | .imgStage => Sys2Proof.Machine.execImgStage s
  | .imgActivate => Sys2Proof.Machine.execImgActivate s
  | .imgCommit => Sys2Proof.Machine.execImgCommit s
  | .imgRevert => Sys2Proof.Machine.execImgRevert s
  | .dumpClear => Sys2Proof.Machine.execDumpClear s
  | .unknownCommand => Sys2Proof.Machine.execUnknownCommand s
  | .mcmdComplete => Sys2Proof.Machine.execMcmdComplete s
  | .atomicReceiptConfirmation id => Sys2Proof.Machine.execAtomicReceiptConfirmation id s
  | .gtimeSlewComplete => Sys2Proof.Machine.execGtimeSlewComplete s
  | .mxreadMstoreExecute launch step => Sys2Proof.Machine.execMxreadMstoreExecute launch step s

end Sys2Proof.Machine
end

