-- ==== Sys2Proof/Machine/Turn.lean ====
section
/-! DEFINITION. One turn of an agent: fetching a word, the instruction boundary with its events (spec 13 R264, R271; 07
R152), the decode match of a patch image (25 R374), and running the decoded instruction. -/

namespace Sys2Proof.Machine

/-- Run a word of a group: decode it and execute it (06 R143, steps 2 and 3). -/
def State.runWord (s : State) (id : GroupId) (w : W32) : Res := match decode w with
  | .ok i => exec i { s with cur := .group id }
  | .unassigned => .next (s.deliver id (.illegalInstruction w) false w)
  | .reserved => .next (s.deliver id (.illegalInstruction w) false w)

/-- The decode slot that takes a word (25 R374). -/
def State.decodeSlot? (s : State) (w : W32) : Option (Nat × PatchSlot) := match s.patchImage? with
  | none => none
  | some im => bestSlot (fun p => !p.src && decide (w &&& p.mask = p.pmatch)) im.slots

/-- Fetch the word at the PC through the checks of R70 and run it (06 R125, R143). A word that was decoded under an image since
replaced completes under it (25 R378). -/
def State.fetchRun (s : State) (c : Ctx) : Res := match c.group.decoded with
  | some w => s.runWord c.id w
  | none => match s.checkFetch c.launch c.id.team c.die c.group.pc with
  | .ok h =>
    let w := BitVec.ofNat 32 (s.loadLoc h.loc 4)
    let s1 := (s.markHits [h] false).trafficTo c.die [h]
    match s1.decodeSlot? w with
    | some (k, p) => .next (s1.patchAct c.id k p w none)
    | none => s1.runWord c.id w
  | .trap t => .next (s.deliver c.id t false 0)
  | .page va write peer pri lo hi => .next (s.groupPageFault c.id c.launch va write peer pri lo hi)
  | .hold => .next s
  | .stop f => .fault f

/-- The word that the group's turn runs: a rewritten one, one decoded before, or that at the PC. -/
def State.nextWord? (s : State) (c : Ctx) : Option W32 := match c.group.rewriting, c.group.decoded with
  | some (w :: _, _), _ => some w
  | _, some w => some w
  | _, none => match s.checkFetch c.launch c.id.team c.die c.group.pc with
    | .ok h => some (BitVec.ofNat 32 (s.loadLoc h.loc 4))
    | _ => none

/-- The word at the PC is one that a decode slot takes: no fault of an instruction is due there. -/
def State.decodeMatched (s : State) (c : Ctx) : Bool :=
  c.group.decoded.isNone && match s.checkFetch c.launch c.id.team c.die c.group.pc with
  | .ok h => (s.decodeSlot? (BitVec.ofNat 32 (s.loadLoc h.loc 4))).isSome
  | _ => false

/-- Whether a turn ended in a fault of the group's own instruction, a page fault and a fault that a patch slot took
included; it comes before any event (13 R271). `matched`: a decode slot took the word, so that rewritten words are no fault's. -/
def tookFault (r : Res) (id : GroupId) (before : Group) (matched : Bool) : Bool := match r with
  | .next s => match s.group? id with
    | some g => ((g.inTrap != before.inTrap || decide (g.run = .stopped)) && isFaultClass g.record.code) ||
        decide (g.run = .pageWait) || (g.rewriting.isSome && !matched) ||
        (match g.run with
        | .patchWait _ => s.patchActs.any fun p => decide (p.group = id) && p.fault.isSome
        | _ => false)
    | none => false
  | _ => true

/-- MWAIT has found its stream stopped: a STREAM that was not pending before is (10 R223). -/
def raisedStream (r : Res) (id : GroupId) (before : Group) : Bool := match r with
  | .next s => !before.evStream && ((s.group? id).any fun g => g.evStream && !g.inTrap)
  | _ => false

/-- The boundary before a group's next instruction and the instruction itself: at most one trap is taken, in the order of 13
R271. The STREAM that MWAIT raises is taken before the MWAIT issues. -/
def State.boundary (s : State) (c : Ctx) : Res :=
  let r := match c.group.rewriting with
    | some (w :: _, _) => s.runWord c.id w
    | _ => s.fetchRun c
  match r with
  | .next s1 =>
    if raisedStream r c.id c.group then .next (s1.takeEvent c.id)
    else if c.group.eventReady && c.group.rewriting.isNone && !tookFault r c.id c.group (s.decodeMatched c) then
      .next (s.takeEvent c.id)
    else r
  | _ => r

/-- The group is in its core's active set (01 R34). -/
def State.isActive (s : State) (core : Nat) (id : GroupId) : Bool := match s.cores[core]? with
  | some c => c.active.any fun e => decide (e.group = id)
  | none => false

/-- The core notes that a group has issued (01 R34, R36). -/
def State.noteTurn (s : State) (core : Nat) (id : GroupId) : State :=
  s.mapCore core fun c => { c with active := c.active.map fun e =>
    if e.group = id then { e with lastIssue := s.clock.tick, kept := false } else e }

/-- A turn has issued an instruction: it completed, or it now waits at a barrier or in a drain, having arrived or begun (07 R159;
05 R120). -/
def Group.issuedSince (before after : Group) : Bool :=
  decide (after.stall = .issued) || (after.heldHere.isSome && before.heldHere.isNone) || match after.run with
    | .barWait _ => true
    | _ => false

/-- What follows a turn of group `id`: the core's note that it issued, the writes that the matrix array may have read, the record of
a single step, and the completion of a DEBUG STOP whose group has stopped. -/
def afterTurn (before : State) (core : Nat) (id : GroupId) (r : Res) : Res := match r with
  | .next s =>
    let issued := (before.group? id).any fun a => (s.group? id).any a.issuedSince
    let s1 := if issued then s.noteTurn core id else s
    let wrote := if issued then (before.ctx? id).elim [] fun c => ((before.nextWord? c).map c.writePlaces).getD [] else []
    .next ((before.noteWrites id wrote s1).recordSteps id.team).finishStops
  | r => r

/-- No team of a job that is being cut begins (24 R358). -/
def State.heldBack (s : State) (t : Team) : Bool := s.cutting t.id.launch && !t.begun

/-- The state in which a group's next instruction is looked at: it runs, and waits unless the turn says otherwise. -/
def State.atTurn (s : State) (c : Ctx) : State := s.setGroup c.id { c.group with run := .running, stall := .waits }

/-- How a group would stand after a turn. -/
def State.tried (s : State) (id : GroupId) : Option Group := match s.ctx? id with
  | none => none
  | some c =>
    let s1 := s.atTurn c
    match (s1.ctx? id).map s1.boundary with
    | some (.next s2) => s2.group? id
    | _ => some c.group

/-- A group that would stand so after its turn waits at a team barrier, or as at one (01 R34, 05 R114, R120): an instruction that
arrives, or begins a drain, in that turn issues in it. -/
def Group.atBarrier (before after : Group) : Bool :=
  decide (after.stall = .barrier) && (before.heldHere.isSome || after.heldHere.isNone)

/-- The group's next instruction waits on empty operands or at a team barrier, or as at one. -/
def Group.blocked (before after : Group) : Bool := before.atBarrier after || match after.stall with
  | .operands _ => true
  | _ => false

/-- The group is ready (01 R34): it may issue, no operand of its next instruction is empty under a blocking policy, and it is not
parked or waiting at a barrier. -/
def State.groupReady (s : State) (id : GroupId) : Bool := match s.ctx? id with
  | none => false
  | some c => c.group.mayIssue && !c.team.frozen && !s.heldBack c.team && !((s.tried id).any c.group.blocked)

/-- An empty operand whose producer is a load, an engine result or a Nectar finish (01 R35). -/
def State.slowProducer (s : State) (p : Nat) : Bool :=
  (s.flights.any fun f => decide (f.id = p) && decide (f.kind ≠ .atomic)) || (s.copies.any fun k => decide (k.id = p)) ||
    s.replays.any fun r => decide (r.prod = p)

/-- The group is in a long-latency stall, or parked, or it retires (01 R35); one held for a patch handler counts as stalled (25
R377), one held at STEP as waiting at a barrier (07 R161). -/
def State.groupStalled (s : State) (id : GroupId) : Bool := match s.group? id with
  | none => false
  | some g => match g.run with
    | .running => (s.tried id).any fun x => g.atBarrier x || match x.stall with
      | .operands ps => ps.any s.slowProducer
      | .mwait => true
      | _ => false
    | .barWait _ => true
    | .stepHeld => true
    | .parked _ _ _ => true
    | .patchWait _ => true
    | .ended => true
    | .stopped => true
    | .pageWait => false
    | .debugStopped => false

/-- The group's next instruction has no fault of its own and raises no STREAM. -/
def State.faultless (s : State) (id : GroupId) : Bool := match s.ctx? id with
  | none => false
  | some c =>
    let r := s.fetchRun c
    !tookFault r id c.group (s.decodeMatched c) && !raisedStream r id c.group

/-- What an exchange of groups or the taking of an event asks of the groups, looked up before the event (01 R35, R36;
13 R271). -/
def State.note (s : State) (i : Instr) : State :=
  let groupsOf (core : Nat) : List GroupId := match s.cores[core]? with
    | none => []
    | some c => (c.active ++ c.pending).map (·.group)
  let exchange (core : Nat) : State := { s with
    noted := (groupsOf core).filter s.groupReady, stalled := (groupsOf core).filter s.groupStalled }
  match i with
  | .groupExchange core _ _ _ => exchange core
  | .groupStarved core _ _ _ => exchange core
  | .forcedExchange core => exchange core
  | .eventTrap l t g => { s with noted := if s.faultless ⟨⟨l, t⟩, g⟩ then [⟨⟨l, t⟩, g⟩] else [], stalled := [] }
  | _ => { s with noted := [], stalled := [] }

/-- After a fatal error only a start, another fatal error, the host's reads and the clocks go on (26 R391, R393). -/
def State.admits (s : State) (i : Instr) : Bool := !s.fatal || match i with
  | .coldStart _ _ => true
  | .warmStart _ _ => true
  | .fatalError _ _ => true
  | .hostApertureRead _ _ _ => true
  | .cxlMemRead _ _ _ => true
  | _ => false

/-- A group's turn. -/
def State.groupTurn (s : State) (id : GroupId) : Res :=
  let s1 := if s.fatal then s else s.vtimeCheck id
  match s1.ctx? id with
  | none => .next s
  | some c =>
    if s1.fatal || !s1.isActive c.core id || !c.group.mayIssue || s1.heldBack c.team ||
        (c.team.frozen && c.group.rewriting.isNone) then .next s1
    else
      let s2 := s1.atTurn c
      match s2.ctx? id with
      | none => .next s2
      | some c2 => afterTurn s2 c.core id (s2.boundary c2)

/-- What follows a sequencer's turn: the record of a single step of a group that it released from a barrier. -/
def afterStream (id : TeamId) (r : Res) : Res := match r with
  | .next s => .next (s.recordSteps id).finishStops
  | r => r

/-- A sequencer's turn (10 R207-R209). -/
def State.sequencerTurn (s : State) (id : TeamId) : Res :=
  match s.team? id, s.launch? id.launch with
  | some t, some l => match t.seq, t.core? with
    | some q, some core =>
      if s.fatal || t.frozen || s.heldBack t || decide (q.sqstate ≠ .run) || q.pageWait || q.ending then .next s
      else match s.checkFetch l id (dieOfCore core) q.spc with
        | .ok h =>
          let w := BitVec.ofNat 32 (s.loadLoc h.loc 4)
          match decode w with
          | .ok i => afterStream id (exec i { (s.markHits [h] false).trafficTo (dieOfCore core) [h] with cur := .sequencer id })
          | .unassigned => .next (s.streamStop id 0)
          | .reserved => .next (s.streamStop id 0)
        | .trap _ => .next (s.streamStop id 5)
        | .page va write peer pri lo hi =>
          .next ((s.mapTeam id fun t => { t with seq := t.seq.map fun q => { q with pageWait := true } }).enterFault l.fn
            ⟨none, pri, va, write, peer, l.lid, BitVec.ofNat 32 id.index, .sequencer id, lo, hi⟩)
        | .hold => .next s
        | .stop f => .fault f
    | _, _ => .next s
  | _, _ => .next s

/-- The group whose operation or command a packet carries out, where the packet names it. -/
def State.writerOf (s : State) (p : Packet) : Option GroupId := match p.op, p.stream.owner with
  | .chunk id _ _, _ => (s.copies.find? fun k => decide (k.id = id)).map (·.group)
  | _, .team t => some ⟨t, p.group⟩
  | _, .forager _ => none

/-- The locations that a channel operation writes. -/
def ChanOp.locs : ChanOp → List Loc
  | .store cells => cells.map (·.1)
  | .atomic accs _ => accs.flatMap AtomAccess.locs
  | .chunk _ cells _ => cells.map (·.1)

/-- What the ports have written in a step: the operations performed in it. -/
def State.portWrites (before s : State) : List (Option GroupId × Loc) :=
  (s.packets.filter fun p => p.performed && (before.packet? p.id).any fun q => !q.performed).flatMap fun p =>
    p.op.locs.map fun l => (before.writerOf p, l)

/-- What a copy engine has written in its step, when the chunk was not sent. -/
def State.chunkWrites (before s : State) (id : Nat) : List (Option GroupId × Loc) :=
  match before.copies.find? fun k => decide (k.id = id), s.copies.find? fun k => decide (k.id = id) with
  | some k, some k1 =>
    if s.packets.length ≠ before.packets.length then []
    else (before.launch? k.group.team.launch).elim [] fun l =>
      (List.range (k1.next - k.next)).filterMap fun i =>
        match before.copyByte l k.group.team (before.copyDie k) k.dst k.dstAt (k.next + i) true with
        | .ok h => some (some k.group, h.loc)
        | _ => none
  | _, _ => []

/-- What follows an event: the writes of engines and ports that the matrix array may have read (10 R224). -/
def afterEvent (before : State) (i : Instr) (r : Res) : Res := match r with
  | .next s => .next (match i with
    | .copyChunk id => s.noteEngine (before.chunkWrites s id)
    | .channelPacketArrival _ => s.noteEngine (before.portWrites s)
    | _ => s)
  | r => r

/-- Time passes (assumption 1). -/
def State.tickOn (s : State) : State :=
  { s with clock := ⟨s.clock.tick + 1, s.clock.cycles + Config.stepCycles s.clock.tick,
      s.clock.gtime + Config.stepNanos s.clock.tick⟩ }

/-- A step without an encoding, which only the schedule brings about. -/
def isEvent (i : Instr) : Bool := (encode i).isNone

/-- The turn of an agent. -/
def State.turn (s : State) : Agent → Res
  | .none => .next s
  | .group id => s.groupTurn id
  | .sequencer id => s.sequencerTurn id

end Sys2Proof.Machine
end

