-- ==== Sys2Proof/Machine/Step.lean ====
section
/-! DEFINITION. One step of the machine, and the state in which a given word is the next one fetched. -/

namespace Sys2Proof.Machine

/-- One step: the schedule's next turn; with an empty schedule the current agent's. -/
def step (s : State) : Host.Outcome State Fault Refusal :=
  match s.schedule with
  | .event i :: rest =>
    let s1 := { s.tickOn with schedule := rest }
    if isEvent i && s1.admits i then afterEvent s1 i (exec i (s1.note i)) else .next s1
  | .issue a :: rest => { s.tickOn with schedule := rest, cur := a }.turn a
  | [] => s.tickOn.turn s.cur

/-- The kernel of the one-team launch that stands for a load: four groups of budget 16, matrix use. -/
def placedKernel : KernelRec where
  levels := 4
  entry := 0
  strent := 0
  traph := 0xFFFFFFFF
  lanes := 512
  nt := 4
  idem := false
  stepped := false
  splice := 0
  mode := 0
  spadsz := 4096
  priv := 64
  roles := [(4, 16)]
  exps := List.replicate 16 4
  regu := 16
  spadu := 1
  slots := 4
  seq := 1

/-- The launch that stands for a load: one team, segment 1 holding code and data with every right. -/
def placedLaunch : Launch where
  seq := 0
  lid := 1
  fn := 0
  queue := 0
  prio := 0
  waits := []
  compAddr := 0
  compDev := false
  krec := placedKernel
  gridX := 1
  gridY := 1
  gridZ := 1
  pool := ⟨0x200, 0x300, 0x400⟩
  segs := [⟨0x10000, 0x10000, 0xDF, 0⟩]
  codeSeg := 1
  trapHandler := 0
  streamEntry := mkPtr 1 0
  graphTab := 0
  ngraph := 0
  gang := 0
  gangN := 0
  gpart := 0
  cutp := false
  dbg := false
  breakArmed := false
  spadImage := []
  stage := .ready
  nextTeam := 1
  retired := 0
  vtSum := 0
  lostTeams := 0
  nstop := 0
  firstStop := none
  reports := []
  stopReq := false
  quarantined := false
  placedAt := 0
  away := none
  qlimitUs := 0
  reason := 0
  aborted := false
  dieLost := false
  spliceCode := 7
  fused := none
  node := none
  refill := []
  textBytes := 0
  marks := []

/-- Page tables that map virtual page 1 to physical page 1, from root 0x1000. -/
def placedTables (m : Memory) : Memory :=
  ((((m.writeLe 0x1000 8 0x2001).writeLe 0x2000 8 0x3001).writeLe 0x3000 8 0x4001).writeLe 0x4000 8 0x5001).writeLe
    0x5008 8 0x10009

/-- `s` with the word `w` where `step` fetches its next instruction. A program is loaded from outside the machine (by the
driver and the command processor); this stands for that load (assumption 9): a launch of one team placed on core 0. A
word of row 0xC is placed for the team's sequencer, any other for its group 0. -/
def State.withFetchWord (s : State) (nbits w : Nat) : State :=
  let word := w % 2 ^ nbits
  let id : TeamId := ⟨0, 0⟩
  let agent : Agent := if word / 2 ^ 28 % 16 = 0xC then .sequencer id else .group ⟨id, 0⟩
  { s with
    cur := agent
    schedule := []
    started := true
    fatal := false
    mem := (placedTables s.mem).writeLe 0x10000 4 word
    parts := s.parts.set 0 { (s.parts.getD 0 Partition.reset) with ptRoot := 0x1000 }
    cores := s.cores.modify 0 fun c => { c with active := (List.range 4).map fun g => ⟨⟨id, g⟩, 0, 0, false, false⟩ }
    launches := [placedLaunch]
    teams := [Team.fresh placedLaunch 0 0 s.clock.cycles [0, 1, 2, 3]]
    cuts := []
    images := s.images.set 4 ⟨none, none, []⟩ }

end Sys2Proof.Machine
end

