-- ==== Sys2Proof/Safety.lean ====
section
/-! DEFINITION. What a safe run is: a step that answers a next state, whose memories keep their canonical form. -/

namespace Sys2Proof

/-- The byte stores of a team, resident or recorded by a cut. -/
abbrev teamWf (t : Machine.Team) : Prop := Machine.Memory.wf t.spad = true ∧ Machine.Memory.wf t.priv = true

/-- Every byte store of the state is in its canonical form. -/
abbrev memoriesWf (s : Machine.State) : Prop :=
  Machine.Memory.wf s.mem = true ∧ (∀ h ∈ s.hostMem, Machine.Memory.wf h.2 = true) ∧
  (∀ p ∈ s.peers, Machine.Memory.wf p.mem = true) ∧ (∀ t ∈ s.teams, teamWf t) ∧ (∀ j ∈ s.cuts, ∀ t ∈ j.teams, teamWf t)

/-- A step goes on. -/
def stepsOn (s : Machine.State) : Prop := ∃ s', Machine.step s = .next s'

end Sys2Proof
end

