-- ==== Sys2Proof/Certificates/Slice0/Obligations.lean ====
section
/-! DEFINITION. The statements about the model, each named for what it states, and the words they are written in. An
instruction of a group is stated over the context `c` of the group that issues it; what an operand code reads is
`Obligations.OperandValues`; what replacing a group leaves alone is
`Obligations.GroupReplacedAlone`. -/

namespace Sys2Proof.Claims
open Sys2Proof.Machine

/-! The instruction's side of a statement: which group issues, and which operands it can take. -/

/-- The group `c.id` issues, and `c` is everything it reads. -/
def Issuing (s : State) (c : Ctx) : Prop := s.cur = .group c.id ∧ s.ctx? c.id = some c

/-- The group is not in a trap handler (13 R266). -/
def outside (c : Ctx) : Bool := !c.group.inTrap

/-- A scalar source: a legal code, a constant that has a scalar value, and what it names is full. -/
def srcS (c : Ctx) (a : BitVec 8) : Bool :=
  scalarSrcLegal a && !c.scalarEmpty a && (!isConst a || (scalarConst (a.toNat - 0x90)).isSome)

/-- A scalar destination: NONE, or a named register that is full. -/
def dstS (c : Ctx) (d : BitVec 8) : Bool := decide (d = 0xFF) || (decide (d.toNat < 0x80) && !c.scalarEmpty d)

/-- A named scalar register that is full. -/
def namedS (c : Ctx) (d : BitVec 8) : Bool := decide (d.toNat < 0x80) && !c.scalarEmpty d

/-- A vector source whose constants are extended to `t`. -/
def srcVT (c : Ctx) (t : ElemType) (a : BitVec 8) : Bool :=
  c.vectorSrcLegal a && !c.vectorEmpty a && (!isConst a || (vectorConst t c.rnd c.sat (a.toNat - 0x90)).isSome)

/-- A vector source under MODE.ETYPE. -/
def srcV (c : Ctx) (a : BitVec 8) : Bool := srcVT c c.ty a

/-- A vector destination: NONE, or a named register within the budget that is full. -/
def dstV (c : Ctx) (d : BitVec 8) : Bool :=
  decide (d = 0xFF) || (decide (d.toNat < 0x80 ∧ d.toNat < c.budget) && !c.vectorEmpty d)

/-- A named vector register within the budget that is full. -/
def namedV (c : Ctx) (d : BitVec 8) : Bool := decide (d.toNat < 0x80 ∧ d.toNat < c.budget) && !c.vectorEmpty d

/-- The pointer register of a PTR field is full. -/
def ptrFull (c : Ctx) (p : BitVec 5) : Bool := !c.scalarEmpty (p.zeroExtend 8)

/-- A short operand in scalar context. -/
def shortS (c : Ctx) (b : BitVec 6) : Bool := match b6Code b with
  | some code => !c.scalarEmpty code
  | none => false

/-- A short operand in vector context. -/
def shortV (c : Ctx) (b : BitVec 6) : Bool := match b6Code b with
  | some code => c.vectorSrcLegal code && !c.vectorEmpty code
  | none => false

/-- Two named scalar registers, both full. -/
def pairS (c : Ctx) (b : BitVec 8) : Bool :=
  decide (b.toNat < 0x7F) && !c.scalarEmpty b && !c.scalarEmpty (b + 1)

/-- `n` named vector registers from `v` within the budget, all full. -/
def rangeV (c : Ctx) (v : BitVec 7) (n : Nat) : Bool :=
  decide (v.toNat + n ≤ c.budget) && decide (v.toNat + n ≤ 128) &&
    !((List.range n).any fun i => c.vectorEmpty (BitVec.ofNat 8 (v.toNat + i)))

/-! The group's side: what it is after the instruction. -/

/-- At an instruction boundary a stop that is due takes place (25 R376); else a group that a debugger resumed for one instruction
stops, and its single step is still to be recorded (13 R272). -/
def StepsOnce (g g' : Group) : Prop := g'.due = none ∧ match g.due with
  | some r => g'.run = r ∧ g'.stepOnce = if r = .debugStopped then .off else g.stepOnce
  | none => if g.stepOnce = .armed then g'.run = .debugStopped ∧ g'.stepOnce = .done
    else g'.run = g.run ∧ g'.stepOnce = g.stepOnce

/-- The instruction has issued: what it held is given up, and the PC stands 4 bytes on; among the words of a rewritten
instruction (25 R376) the next of them is at the same PC. -/
def Passed (g g' : Group) : Prop :=
  g'.held = (g.held.filter fun h => decide (h.inTrap ≠ g.inTrap)) ∧ g'.begun = true ∧ g'.stall = .issued ∧ g'.decoded = none ∧
  match g.rewriting with
  | some (_ :: w :: ws, k) => g'.pc = g.pc ∧ g'.rewriting = some (w :: ws, k) ∧ g'.run = g.run ∧ g'.stepOnce = g.stepOnce ∧
    g'.due = g.due
  | _ => g'.pc = g.pc + 4 ∧ g'.rewriting = none ∧ StepsOnce g g'

/-- The instruction has moved the program counter to `target`. -/
def Jumped (g g' : Group) (target : W64) : Prop :=
  g'.held = (g.held.filter fun h => decide (h.inTrap ≠ g.inTrap)) ∧ g'.begun = true ∧ g'.stall = .issued ∧ g'.decoded = none ∧
  g'.pc = target ∧ g'.rewriting = none ∧ StepsOnce g g'

/-- `g` with where `g'` stands in its program: every other register, predicate, counter, Nectar state, mode, exception
register and event is `g`'s. -/
def goneOn (g g' : Group) : Group :=
  { g with pc := g'.pc, rewriting := g'.rewriting, held := g'.held, begun := g'.begun, stall := g'.stall, run := g'.run,
           stepOnce := g'.stepOnce, due := g'.due, decoded := g'.decoded }

/-- A slot `x` pushed onto the queue in use: the trap queue inside a handler, else the scalar queue (13 R266). -/
def PushedS (g g' : Group) (x : SSlot) : Prop :=
  if g.inTrap then g'.trapQueue = x :: g.trapQueue.take 15 ∧ g'.squeue = g.squeue
  else g'.squeue = x :: g.squeue.take 15 ∧ g'.trapQueue = g.trapQueue

/-- Only the scalar registers, the scalar queues and the place in the program differ. -/
def OnlyScalars (g g' : Group) : Prop :=
  g' = { goneOn g g' with sregs := g'.sregs, squeue := g'.squeue, trapQueue := g'.trapQueue }

/-- Only the vector registers, the vector queue and the place in the program differ. -/
def OnlyVectors (g g' : Group) : Prop := g' = { goneOn g g' with vregs := g'.vregs, vqueue := g'.vqueue }

/-- A scalar result `v`: pushed, and written to the register that D names (06 R132); nothing else. -/
def ScalarResult (d : BitVec 8) (v : W64) (g g' : Group) : Prop :=
  Passed g g' ∧ OnlyScalars g g' ∧ PushedS g g' ⟨v, none⟩ ∧
  g'.sregs = if d.toNat < 128 then g.sregs.set d.toNat ⟨v, none⟩ else g.sregs

/-- A scalar result still to come from producer `k`: the pushed entry and the named register are empty (06 R135). -/
def ScalarPending (d : BitVec 8) (k : Nat) (g g' : Group) : Prop :=
  Passed g g' ∧ OnlyScalars g g' ∧ PushedS g g' ⟨0, some k⟩ ∧
  g'.sregs = if d.toNat < 128 then g.sregs.set d.toNat ⟨0, some k⟩ else g.sregs

/-- A vector result, `f l` in lane `l`: pushed with zero in the inactive lanes, written to the register that D names in the
active lanes (06 R132, R133; 01 R13). An absent lane's elements are unspecified (01 R11): they are not stated. -/
def VectorWritten (c : Ctx) (d : BitVec 8) (f : Nat → W32) (g' : Group) : Prop :=
  ∃ e r : Lanes, e.length = 128 ∧ r.length = 128 ∧
    g'.vqueue = ⟨e, none⟩ :: c.group.vqueue.take 15 ∧
    (g'.vregs = if d.toNat < 128 then c.group.vregs.set d.toNat ⟨r, none⟩ else c.group.vregs) ∧
    ∀ l < 128, c.absent l = false →
      e.at l = (if c.active l then f l else 0) ∧ r.at l = (if c.active l then f l else (c.oldV d).at l)

def VectorResult (c : Ctx) (d : BitVec 8) (f : Nat → W32) (g g' : Group) : Prop :=
  Passed g g' ∧ OnlyVectors g g' ∧ VectorWritten c d f g'

/-- A vector result still to come from producer `k`: zero in the pushed entry's inactive lanes, and the named register's
elements as they were until it is written back (06 R135). -/
def VectorPending (c : Ctx) (d : BitVec 8) (k : Nat) (g' : Group) : Prop :=
  ∃ e : Lanes, e.length = 128 ∧ (∀ l < 128, c.absent l = false → e.at l = 0) ∧
    g'.vqueue = ⟨e, some k⟩ :: c.group.vqueue.take 15 ∧
    g'.vregs = if d.toNat < 128 then c.group.vregs.set d.toNat ⟨c.oldV d, some k⟩ else c.group.vregs

/-! The state's side. -/

/-- No ACQ or ACQREL access of the group is still to be performed, so that its next access may go on (04 R92, R95). -/
def mayAccess (s : State) (c : Ctx) : Prop :=
  ∀ p ∈ s.packets, p.stream.owner = .team c.id.team → p.group = c.id.group → p.acq.isSome = true → p.performed = true

/-- No store or atomic write of the group that is homed on its own die, of a colour in the mask, is still to be performed, so
that a release may go on (04 R93-R95). -/
def mayRelease (s : State) (c : Ctx) (mask : BitVec 8) : Prop :=
  ∀ p ∈ s.packets, p.stream.owner = .team c.id.team → p.group = c.id.group → p.own = true →
    (∃ k, p.colour = some k ∧ mask.getLsbD k.toNat = true) → p.performed = true

/-- The instruction is held with no effect; the group remembers on what (01 R34, R35). -/
def Waits (s : State) (c : Ctx) (r : Res) (x : Stall) : Prop := r = .next (s.setGroup c.id { c.group with stall := x })

/-- The instruction answers a next state in which its group has changed as `R` says, and nothing else has. -/
def GroupOnly (s : State) (c : Ctx) (r : Res) (R : Group → Group → Prop) : Prop :=
  ∃ g', R c.group g' ∧ r = .next (s.setGroup c.id g')

/-- The same, with the counter of the free values moved on (assumption 3). -/
def GroupFree (s : State) (c : Ctx) (r : Res) (R : Group → Group → Prop) : Prop :=
  ∃ g', R c.group g' ∧ r = .next { s.setGroup c.id g' with free := s.free + 1 }

/-- A scalar result of an instruction. -/
def Scalar (s : State) (c : Ctx) (r : Res) (d : BitVec 8) (v : W64) : Prop := GroupOnly s c r (ScalarResult d v)

/-- A vector result of an instruction. -/
def Vector (s : State) (c : Ctx) (r : Res) (d : BitVec 8) (f : Nat → W32) : Prop := GroupFree s c r (VectorResult c d f)

/-- The instruction issued and left every register as it was. -/
def Nothing (s : State) (c : Ctx) (r : Res) : Prop := GroupOnly s c r fun g g' => Passed g g' ∧ g' = goneOn g g'

end Sys2Proof.Claims

open Sys2Proof Sys2Proof.Machine Sys2Proof.Claims

/-! Scalar instructions (spec 07). -/

/-- 07 R147: SETLO and SETHI use format I; the one gives IMM16 sign-extended, the other D, read as a source, shifted left by 16,
OR IMM16. -/
def Obligations.SetImmediates : Prop := ∀ (s : State) (c : Ctx) (d : BitVec 8) (imm : BitVec 16), Issuing s c →
  wordOf (.setlo d imm) = (0x0E : BitVec 8) ++ d ++ imm ∧ wordOf (.sethi d imm) = (0x0F : BitVec 8) ++ d ++ imm ∧
  (dstS c d = true → Scalar s c (exec (.setlo d imm) s) d (imm.signExtend 64)) ∧
  (namedS c d = true → Scalar s c (exec (.sethi d imm) s) d ((c.readS d) <<< 16 ||| imm.zeroExtend 64))

/-- 07 R146: each instruction of the rows gives its value and changes nothing but its destination, the queue and the
PC. -/
def Obligations.ScalarArithmetic : Prop := ∀ (s : State) (c : Ctx) (d a b : BitVec 8), Issuing s c →
  (srcS c a = true → srcS c b = true →
  let x := c.readS a
  let y := c.readS b
  (dstS c d = true →
    Scalar s c (exec (.add d a b) s) d (BitVec.ofNat 64 (x.toNat + y.toNat)) ∧
    Scalar s c (exec (.sub d a b) s) d (BitVec.ofInt 64 ((x.toNat : Int) - y.toNat)) ∧
    Scalar s c (exec (.mul d a b) s) d (BitVec.ofNat 64 (x.toNat * y.toNat)) ∧
    Scalar s c (exec (.mulhi d a b) s) d (BitVec.ofInt 64 (x.toInt * y.toInt / 2 ^ 64)) ∧
    Scalar s c (exec (.div d a b) s) d (if y = 0 then BitVec.allOnes 64 else BitVec.ofInt 64 (x.toInt.tdiv y.toInt)) ∧
    Scalar s c (exec (.and d a b) s) d (x &&& y) ∧
    Scalar s c (exec (.or d a b) s) d (x ||| y) ∧
    Scalar s c (exec (.xor d a b) s) d (x ^^^ y) ∧
    Scalar s c (exec (.shl d a b) s) d (BitVec.ofNat 64 (x.toNat * 2 ^ (y.toNat % 64))) ∧
    Scalar s c (exec (.shr d a b) s) d (BitVec.ofNat 64 (x.toNat / 2 ^ (y.toNat % 64))) ∧
    Scalar s c (exec (.shra d a b) s) d (BitVec.ofInt 64 (x.toInt / 2 ^ (y.toNat % 64))) ∧
    Scalar s c (exec (.slt d a b) s) d (if x.toInt < y.toInt then 1 else 0)) ∧
  (namedS c d = true → Scalar s c (exec (.sel d a b) s) d (if c.readS d = 0 then y else x)))

namespace Sys2Proof.Claims

/-- The exact offset of a relative target (07 R148). -/
def branchOff (c : Ctx) (o : BitVec 16) : Int := (ptrOff c.group.pc : Int) + 4 * o.toInt

/-- A relative target: the program counter's segment, and the offset. -/
def branchTarget (c : Ctx) (o : BitVec 16) : W64 := mkPtr (ptrSeg c.group.pc) (branchOff c o).toNat

/-- The branch goes to `target`, whose fetch checks gave `h`: the group changes as `R` says beside the PC, and the table
entry that the checks went through is marked ACCESSED (03 R78). -/
def Branches (s : State) (c : Ctx) (r : Res) (target : W64) (h : Hit) (R : Group → Group → Prop) : Prop :=
  ∃ g', Jumped c.group g' target ∧ R c.group g' ∧ r = .next ((s.markHits [h] false).setGroup c.id g')

/-- Nothing but the place in the program. -/
def JustGoes (g g' : Group) : Prop := g' = goneOn g g'

/-- The link PC + 4 is pushed and written to D. -/
def Links (d : BitVec 8) (g g' : Group) : Prop :=
  OnlyScalars g g' ∧ PushedS g g' ⟨g.pc + 4, none⟩ ∧
  g'.sregs = if d.toNat < 128 then g.sregs.set d.toNat ⟨g.pc + 4, none⟩ else g.sregs

/-- A conditional branch that is taken. -/
def TakenBranch (c : Ctx) (a : BitVec 8) (o : BitVec 16) (i : Instr) : Prop :=
  srcS c a = true ∧ ((i = .bz a o ∧ c.readS a = 0) ∨ (i = .bnz a o ∧ c.readS a ≠ 0) ∨
    (i = .blt a o ∧ (c.readS a).toInt < 0) ∨ (i = .bge a o ∧ 0 ≤ (c.readS a).toInt))

/-- The named register holds `v`; nothing is pushed. -/
def Counts (a : BitVec 8) (v : W64) (g g' : Group) : Prop := g' = { goneOn g g' with sregs := g.sregs.set a.toNat ⟨v, none⟩ }

end Sys2Proof.Claims

/-- 07 R148, R149: the indirect branches, and the relative branches, taken and not taken, CALL and LOOP, where the target passes
the fetch checks. CALLX leaves its link on the queue only. -/
def Obligations.Branching : Prop := ∀ (s : State) (c : Ctx) (a : BitVec 8) (o : BitVec 16) (h : Hit), Issuing s c →
  (srcS c a = true → s.checkFetch c.launch c.id.team c.die (c.readS a) = .ok h →
    Branches s c (exec (.callx a) s) (c.readS a) h (Links 0xFF) ∧
    Branches s c (exec (.ret a) s) (c.readS a) h JustGoes ∧
    Branches s c (exec (.jmpx a) s) (c.readS a) h JustGoes) ∧
  (0 ≤ branchOff c o → branchOff c o < 2 ^ 48 → s.checkFetch c.launch c.id.team c.die (branchTarget c o) = .ok h →
  let x := c.readS a
  Branches s c (exec (.bra o) s) (branchTarget c o) h JustGoes ∧
  (srcS c a = true →
    (if x = 0 then Branches s c (exec (.bz a o) s) (branchTarget c o) h JustGoes else Nothing s c (exec (.bz a o) s)) ∧
    (if x = 0 then Nothing s c (exec (.bnz a o) s) else Branches s c (exec (.bnz a o) s) (branchTarget c o) h JustGoes) ∧
    (if x.toInt < 0 then Branches s c (exec (.blt a o) s) (branchTarget c o) h JustGoes else Nothing s c (exec (.blt a o) s)) ∧
    (if x.toInt < 0 then Nothing s c (exec (.bge a o) s) else Branches s c (exec (.bge a o) s) (branchTarget c o) h JustGoes)) ∧
  (dstS c a = true → Branches s c (exec (.call a o) s) (branchTarget c o) h (Links a)) ∧
  (namedS c a = true →
    if x = 1 then GroupOnly s c (exec (.loop a o) s) (fun g g' => Passed g g' ∧ Counts a 0 g g')
    else Branches s c (exec (.loop a o) s) (branchTarget c o) h (Counts a (x - 1))))

/-- 07 R148: a branch that goes to a target which fails a check takes that fault on this instruction and has no effect: LOOP keeps A,
CALL and CALLX push nothing; BZ, BNZ, BLT, BGE and LOOP check a target that they take. An offset below 0 or at or above 2⁴⁸ fails the
bounds check, for each of the relative forms; that the fault's ADDR is the displacement added modulo 2⁶⁴ is the model's choice
(assumptions 24, 77). -/
def Obligations.BranchFaults : Prop := ∀ (s : State) (c : Ctx) (a : BitVec 8) (o : BitVec 16) (t : TrapInfo), Issuing s c →
  (0 ≤ branchOff c o → branchOff c o < 2 ^ 48 → s.checkFetch c.launch c.id.team c.die (branchTarget c o) = .trap t →
    exec (.bra o) s = .next (s.deliver c.id t false (wordOf (.bra o))) ∧
    (dstS c a = true → exec (.call a o) s = .next (s.deliver c.id t false (wordOf (.call a o)))) ∧
    (namedS c a = true → c.readS a ≠ 1 → exec (.loop a o) s = .next (s.deliver c.id t false (wordOf (.loop a o)))) ∧
    (∀ i, TakenBranch c a o i → exec i s = .next (s.deliver c.id t false (wordOf i)))) ∧
  (srcS c a = true → s.checkFetch c.launch c.id.team c.die (c.readS a) = .trap t →
    exec (.callx a) s = .next (s.deliver c.id t false (wordOf (.callx a))) ∧
    exec (.ret a) s = .next (s.deliver c.id t false (wordOf (.ret a))) ∧
    exec (.jmpx a) s = .next (s.deliver c.id t false (wordOf (.jmpx a)))) ∧
  ((branchOff c o < 0 ∨ 2 ^ 48 ≤ branchOff c o) → (∃ v, checkSeg c.launch (ptrSeg c.group.pc) (faultPtr c.group.pc (branchOff c o))
    [.px] false 0 0 = .ok v) →
    ∀ i, (i = .bra o ∨ TakenBranch c a o i ∨ (i = .call a o ∧ dstS c a = true) ∨ (i = .loop a o ∧ namedS c a = true ∧ c.readS a ≠ 1)) →
      exec i s = .next (s.deliver c.id (.bounds (faultPtr c.group.pc (branchOff c o)) 0 0) false (wordOf i)))

namespace Sys2Proof.Claims

/-- What SREAD reads from a system register (07 R151-R155, 04 R109, 05 R121, 01 R24). -/
def systemValue (s : State) (c : Ctx) (y : BitVec 8) (v : W64) : Prop :=
  (y = 0x00 → v = BitVec.ofNat 64 (s.clock.cycles - (s.cores.getD c.core Core.reset).cycleBase)) ∧
  (y = 0x01 → v = BitVec.ofNat 64 (s.clock.cycles - c.team.vtBase)) ∧
  (y = 0x02 → v = BitVec.ofNat 64 s.clock.gtime) ∧
  (y = 0x03 → v = BitVec.ofNat 64 (s.gtstat.losses.toNat * 2 ^ 16 + s.gtstat.slewing.toNat * 2 + s.gtstat.locked.toNat)) ∧
  (y = 0x04 → v.toNat / 2 ^ 32 = c.team.resyncs.toNat ∧ v.toNat / 2 ^ 16 % 2 ^ 16 = c.team.lost.toNat) ∧
  (y = 0x05 → v = (s.cores.getD c.core Core.reset).poolReg.zeroExtend 64) ∧
  (y = 0x06 → v = (s.cores.getD c.core Core.reset).poolScr.zeroExtend 64) ∧
  (y = 0x07 → v = (s.cores.getD c.core Core.reset).poolL1.zeroExtend 64) ∧
  (y = 0x08 → v = 0x0D17090901010000) ∧
  (y = 0x09 → s.patchImage? = none → v = 0) ∧
  (y = 0x0A → v = c.group.vtcmp) ∧
  (y = 0x0B → v = c.group.stepcnt)

/-- The step count is one more, modulo 2⁶⁴; nothing else but the place in the program differs. -/
def StepCounted (g g' : Group) : Prop := g' = { goneOn g g' with stepcnt := BitVec.ofNat 64 (g.stepcnt.toNat + 1) }

end Sys2Proof.Claims

/-- 07 R151-R157, R161; 06 R138: SREAD gives the register's value at once, SWRITE writes VTCMP; MODE replaces the whole register
by a legal value, SHAPE the word by any pattern that is no NaN, MODERD and SHAPERD read them; STEP counts, modulo 2⁶⁴, and a
stop request of a stepped launch holds the group after it, in fused code at the STEPs of the step table (22 R329). The model's parts
in it: the hold of a STEP goes over an armed single step (assumption 36), which is why a stop that is due comes first in `StepsOnce`. -/
def Obligations.SystemState : Prop := ∀ (s : State) (c : Ctx) (d y a : BitVec 8) (m : BitVec 24), Issuing s c →
  (dstS c d = true → y.toNat < 0x0C → (y = 0x02 → mayAccess s c) → ∃ v, systemValue s c y v ∧ Scalar s c (exec (.sread d y) s) d v) ∧
  (srcS c a = true → GroupOnly s c (exec (.swrite 0x0A a) s) fun g g' =>
    Passed g g' ∧ g' = { goneOn g g' with vtcmp := c.readS a }) ∧
  (m.extractLsb' 20 4 = 0 → (m.extractLsb' 9 3).toNat ≤ 4 → (m.extractLsb' 5 4).toNat ≤ 8 →
    (m.getLsbD 4 = false → m.extractLsb' 0 4 = 0) →
    GroupOnly s c (exec (.mode m) s) fun g g' => Passed g g' ∧ g' = { goneOn g g' with mode := m }) ∧
  (dstS c d = true → Scalar s c (exec (.moderd d) s) d (c.group.mode.zeroExtend 64)) ∧
  (srcS c a = true → fp32.decode ((c.readS a).truncate 32 : W32).toNat ≠ .nan →
    GroupOnly s c (exec (.shape a) s) fun g g' => Passed g g' ∧ g' = { goneOn g g' with shape := (c.readS a).truncate 32 }) ∧
  (dstS c d = true → Scalar s c (exec (.shaperd d) s) d (c.group.shape.zeroExtend 64)) ∧
  (outside c = true →
    ((c.launch.stopReq = true ∧ c.launch.krec.stepped = true ∧
      ∀ m, c.launch.fused = some m → ptrSeg c.group.pc = 0xFFFD → ptrOff c.group.pc ∈ m.steps) →
      GroupOnly s c (exec .step s) fun g g' => Passed { g with due := some .stepHeld } g' ∧ StepCounted g g') ∧
    ((c.launch.stopReq = false ∨ c.launch.krec.stepped = false ∨
      ∃ m, c.launch.fused = some m ∧ ptrSeg c.group.pc = 0xFFFD ∧ ptrOff c.group.pc ∉ m.steps) →
      GroupOnly s c (exec .step s) fun g g' => Passed g g' ∧ StepCounted g g'))

namespace Sys2Proof.Claims

/-- The group after an arrival that leaves it waiting on barrier `n` in the same instruction (07 R159; 13 R271). -/
def waitsAt (g : Group) (n : Nat) : Group :=
  { g with held := (g.held.filter fun h => decide (h.inTrap ≠ g.inTrap)) ++ [⟨g.inTrap, g.pc, .arrived n⟩],
           run := .barWait n, stall := .barrier, begun := true }

/-- The stream after the arrival of group `g` on barrier `n`: what the group had written is published to the stream's later
operations once the stream has consumed the completion of this phase (10 R224). -/
def streamTold (n g : Nat) (q : Sequencer) : Sequencer :=
  { q with unread := q.unread.map fun w =>
      if w.group.all (fun h => decide (h = g)) ∧ ∀ d ∈ w.due, d.1 ≠ n then { w with due := w.due ++ [(n, (q.owe.getD n 0).toNat + 1)] } else w }

/-- The barrier after an arrival that does not complete its phase. -/
def arrivedAt (b : Barrier) (g : Nat) (reqs : List (Nat × W64 × Nat)) : Barrier :=
  { b with done := b.done.set g false, arr := b.arr.set g true, count := b.count + 1, reqs := b.reqs ++ reqs }

/-- The team with its barrier `n` and the issuing group replaced. -/
def teamAt (c : Ctx) (n : Nat) (b : Barrier) (g : Group) : Team :=
  { c.team with bars := c.team.bars.set n b, groups := c.team.groups.set c.id.group g }

/-- The team after an arrival of the issuing group. -/
def toldAt (c : Ctx) (n : Nat) (b : Barrier) (g : Group) : Team :=
  { teamAt c n b g with seq := c.team.seq.map (streamTold n c.id.group) }

/-- The sequencer of team `t` of launch `l` issues; `q` is what it holds. -/
def Streaming (s : State) (id : TeamId) (t : Team) (l : Launch) (q : Sequencer) : Prop :=
  s.cur = .sequencer id ∧ s.team? id = some t ∧ s.launch? id.launch = some l ∧ t.seq = some q ∧ t.id = id

/-- The stream has consumed a completion of barrier `n`: what was waiting for it alone is published to its later operations (10
R224). -/
def heard (n : Nat) (q : Sequencer) : Sequencer :=
  let count (w : OpWrite) : OpWrite := { w with due := w.due.map (fun d => if d.1 = n then (n, d.2 - 1) else d) }
  { q with unread := (q.unread.map count).filter (fun w => w.due.all fun d => decide (d.2 ≠ 0)) }

/-- FROM, TO and K of a request word (07 R160). -/
def quotaFrom (w : W64) : Nat := w.toNat % 4
def quotaTo (w : W64) : Nat := w.toNat / 4 % 4
def quotaK (w : W64) : Nat := w.toNat / 16 % 256

/-- The budget of role `r` if `w` is granted. -/
def quotaBudget (w : W64) (r b : Nat) : Nat :=
  if r = quotaFrom w then b - quotaK w else if r = quotaTo w then b + quotaK w else b

/-- The status of the phase's requests (07 R160, 01 R22): 0 granted, 1 refused, 2 pending. -/
def Decided (l : Launch) (t : Team) (B : Barrier) (w : W64) (st : Nat) : Prop :=
  let budget (r : Nat) : Nat := t.budgets.getD r 0
  let asked : Prop := (∀ j < B.arr.length, B.arr[j]? = some true ∧ ∃ r ∈ B.reqs, r.1 = j) ∧ (∀ r ∈ B.reqs, r.2.1 = w) ∧
    w.toNat < 2 ^ 12 ∧ quotaFrom w ≠ quotaTo w ∧ quotaFrom w < l.krec.roles.length ∧ quotaTo w < l.krec.roles.length ∧
    quotaK w ≠ 0 ∧ quotaK w % 8 = 0
  let refused : Prop := budget (quotaFrom w) < quotaK w + 8 ∨ 128 < budget (quotaTo w) + quotaK w ∨
    t.alloc < (l.krec.roles.zipIdx.map fun r => r.1.1 * quotaBudget w r.2 (budget r.2) / 8).sum
  let pending : Prop := ∃ (j : Nat) (x : Group), j < groupCount l.krec.lanes ∧ roleOf l.krec.roles j = quotaFrom w ∧
    t.groups[j]? = some x ∧ ∃ y ∈ x.vregs.drop (budget (quotaFrom w) - quotaK w), y.pend ≠ none
  (¬ asked → st = 1) ∧ (asked → (refused → st = 1) ∧ (¬ refused → (pending → st = 2) ∧ (¬ pending → st = 0)))

/-- Scalar entries that waited for one of the requests `ids` hold the status. -/
def statusIn (ids : List Nat) (st : Nat) (q : List SSlot) : List SSlot :=
  q.map fun x => if x.pend.any ids.contains then ⟨BitVec.ofNat 64 st, none⟩ else x

/-- Group `j` once the requests are decided: the status where it was awaited, and on a grant the registers given up discarded and
those received full and +0. -/
def quotaGroup (l : Launch) (t : Team) (B : Barrier) (w : W64) (st j : Nat) (x : Group) : Group :=
  let ids := B.reqs.map fun r => r.2.2
  { x with
    sregs := statusIn ids st x.sregs, squeue := statusIn ids st x.squeue, trapQueue := statusIn ids st x.trapQueue
    vregs := if st ≠ 0 then x.vregs
      else if roleOf l.krec.roles j = quotaFrom w then x.vregs.take (t.budgets.getD (quotaFrom w) 0 - quotaK w)
      else if roleOf l.krec.roles j = quotaTo w then x.vregs ++ List.replicate (quotaK w) ⟨Lanes.zero, none⟩
      else x.vregs }

/-- A completion of barrier `n` as the team's stream sees it (10 R221): OWEn counts it, or the MBARWAIT that waits consumes it. -/
def streamCompleted (n : Nat) (q : Sequencer) : Sequencer :=
  let owe := if q.owe.getD n 0 = 0xFFFF then 0xFFFF else q.owe.getD n 0 + 1
  if q.waitBar = some n then
    heard n { q with owe := q.owe.set n (owe - 1), waitBar := none, sqstate := .run, spc := q.spc + 4 }
  else { q with owe := q.owe.set n owe }

/-- COMPLETE(n) (07 R159) on team `t` of launch `l`, whose barrier `B` has all its arrivals: `T` is the team after it. Groups that wait
on `n` go on, and `self`, the group that arrives. -/
def Completed (l : Launch) (t : Team) (n : Nat) (B : Barrier) (self : Option Nat) (T : Team) : Prop :=
  let w := ((B.reqs.head?).map fun r => r.2.1).getD 0
  ∃ (st : Nat) (B' : Barrier), Decided l t B w st ∧
    T = { t with bars := t.bars.set n B', budgets := T.budgets, groups := T.groups, seq := t.seq.map (streamCompleted n) } ∧
    B' = { B with count := 0, arr := B'.arr, arrSeq := false, done := B'.done, reqs := [] } ∧ (∀ a ∈ B'.arr, a = false) ∧
    T.budgets.length = t.budgets.length ∧
    (∀ r b, t.budgets[r]? = some b → T.budgets[r]? = some (if st = 0 then quotaBudget w r b else b)) ∧
    T.groups.length = t.groups.length ∧
    ∀ j x, t.groups[j]? = some x → ∃ y, T.groups[j]? = some y ∧
      let x1 := quotaGroup l t B w st j x
      (x.run = .barWait n ∨ self = some j →
        Passed { x1 with run := .running } y ∧ y = goneOn { x1 with run := .running } y) ∧
      (x.run ≠ .barWait n → self ≠ some j → y = x1) ∧
      B'.done.getD j false = (decide (j < B.arr.length) && decide (x.run ≠ .barWait n) && (B.arr.getD j false || B.done.getD j false))

end Sys2Proof.Claims

/-- 07 R158-R160: an arrival that does not complete the phase is counted and clears DONE; BARARR goes on, BARSYNC and RQUOTA
wait, RQUOTA with its status pending and its request recorded.
07 R159: BARWAIT takes a completion that is there, and else waits for one; a second arrival in one phase waits for the
next.
07 R159, R160, 10 R221: the arrival that completes a phase, a group's or the matrix sequencer's, resets COUNT and the arrivals, gives
every group that had arrived and does not wait a completion, and lets every waiting group and a waiting MBARWAIT go on; requests of
RQUOTA are decided first: granted, refused or pending (01 R22), with the team's budgets and registers, and each reads the status.
An arrival is a release at TEAM scope (04 R100): it waits for the group's own operations on channels to its die.
The model's part in it: that a held instruction does not arrive twice is an inference (assumption 13). -/
def Obligations.Barriers : Prop :=
  (∀ (s : State) (c : Ctx) (n : BitVec 4) (b d : BitVec 8) (B : Barrier), Issuing s c →
  outside c = true → c.team.bars[n.toNat]? = some B → B.arr[c.id.group]? = some false → B.count + 1 ≠ B.exp →
  c.group.heldHere = none → mayAccess s c → mayRelease s c 0xFF →
  (∃ g', Passed c.group g' ∧ g' = goneOn c.group g' ∧
    exec (.bararr n) s = .next (s.setTeam (toldAt c n.toNat (arrivedAt B c.id.group []) g'))) ∧
  exec (.barsync n) s = .next (s.setTeam (toldAt c n.toNat (arrivedAt B c.id.group []) (waitsAt c.group n.toNat))) ∧
  (dstS c d = true → srcS c b = true →
    exec (.rquota d n b) s = .next { s.setTeam (toldAt c n.toNat (arrivedAt B c.id.group [(c.id.group, c.readS b, s.nextId)])
      (waitsAt { c.group with
        squeue := ⟨0, some s.nextId⟩ :: c.group.squeue.take 15
        sregs := if d.toNat < 128 then c.group.sregs.set d.toNat ⟨0, some s.nextId⟩ else c.group.sregs } n.toNat)) with
      nextId := s.nextId + 1 })) ∧
  (∀ (s : State) (c : Ctx) (n : BitVec 4) (B : Barrier), Issuing s c → outside c = true →
  c.team.bars[n.toNat]? = some B →
  (B.done[c.id.group]? = some true → ∃ g', Passed c.group g' ∧ g' = goneOn c.group g' ∧
    exec (.barwait n) s = .next (s.setTeam (teamAt c n.toNat { B with done := B.done.set c.id.group false } g'))) ∧
  (B.done[c.id.group]? = some false →
    exec (.barwait n) s = .next (s.setTeam (teamAt c n.toNat B { c.group with run := .barWait n.toNat, begun := true }))) ∧
  (B.arr[c.id.group]? = some true → c.group.heldHere = none → mayAccess s c → mayRelease s c 0xFF →
    Waits s c (exec (.bararr n) s) .barrier ∧ Waits s c (exec (.barsync n) s) .barrier)) ∧
  (∀ (s : State) (c : Ctx) (n : BitVec 4) (b d : BitVec 8) (B : Barrier), Issuing s c → outside c = true →
  c.team.bars[n.toNat]? = some B → B.arr[c.id.group]? = some false → B.count + 1 = B.exp →
  c.group.heldHere = none → c.group.run = .running → mayAccess s c → mayRelease s c 0xFF →
  let done (g : Group) (reqs : List (Nat × W64 × Nat)) (T : Team) : Prop :=
    Completed c.launch (toldAt c n.toNat (arrivedAt B c.id.group reqs) g) n.toNat (arrivedAt B c.id.group reqs) (some c.id.group) T
  (∃ T, exec (.bararr n) s = .next (s.setTeam T) ∧ done c.group [] T) ∧
  (∃ T, exec (.barsync n) s = .next (s.setTeam T) ∧ done { c.group with run := .barWait n.toNat } [] T) ∧
  (dstS c d = true → srcS c b = true → ∃ T,
    exec (.rquota d n b) s = .next { s.setTeam T with nextId := s.nextId + 1 } ∧
    done { c.group with
      run := .barWait n.toNat
      squeue := ⟨0, some s.nextId⟩ :: c.group.squeue.take 15
      sregs := if d.toNat < 128 then c.group.sregs.set d.toNat ⟨0, some s.nextId⟩ else c.group.sregs }
      [(c.id.group, c.readS b, s.nextId)] T)) ∧
  (∀ (s : State) (id : TeamId) (t : Team) (l : Launch) (q : Sequencer) (n : BitVec 4) (B : Barrier), Streaming s id t l q →
  t.bars[n.toNat]? = some B → B.arrSeq = false → q.ops = [] → B.count + 1 = B.exp →
  ∃ T, exec (.mbararr n) s = .next (s.setTeam T) ∧
    Completed l { t with seq := some { q with spc := q.spc + 4 } } n.toNat { B with arrSeq := true, count := B.count + 1 } none T)

/-! Vector instructions (spec 08). -/

namespace Sys2Proof.Claims

/-- A result of two sub-elements by R164: `fp` rounds the exact result of a floating type, and the exact integer is wrapped,
or clamped when MODE.SAT is set (02 R49). -/
def byType (c : Ctx) (fp : FpFmt → Nat) (int : Int) : Nat := match c.ty.fmt? with
  | some f => fp f
  | none => c.ty.wrap (if c.sat then c.ty.clamp int else int)

/-- The same operation in every sub-element of two elements. -/
def subs2 (c : Ctx) (f : Nat → Nat → Nat) (x y : W32) : W32 := c.ty.join (List.zipWith f (c.ty.split x) (c.ty.split y))

/-- The same operation in every sub-element. -/
def subs1 (c : Ctx) (f : Nat → Nat) (x : W32) : W32 := c.ty.join ((c.ty.split x).map f)

/-- The same operation in every sub-element of three elements. -/
def subs3 (c : Ctx) (f : Nat → Nat → Nat → Nat) (x y z : W32) : W32 :=
  c.ty.join (((c.ty.split x).zip ((c.ty.split y).zip (c.ty.split z))).map fun p => f p.1 p.2.1 p.2.2)

/-- The element type is one of the classes F, S and U of R163. -/
def isF (t : ElemType) : Bool := t.fmt?.isSome
def isS (t : ElemType) : Bool := t.fmt?.isNone && t.isSigned
def isU (t : ElemType) : Bool := t.fmt?.isNone && !t.isSigned

/-- The quotient of two sub-elements of an integer type (08 R166). -/
def quotient (c : Ctx) (a b : Nat) : Nat :=
  if b = 0 then 2 ^ c.ty.width - 1
  else c.ty.wrap (if c.sat then c.ty.clamp ((c.ty.toInt a).tdiv (c.ty.toInt b)) else (c.ty.toInt a).tdiv (c.ty.toInt b))

/-- The smaller and the larger sub-element of an integer type (08 R168). -/
def lesser (c : Ctx) (a b : Nat) : Nat := if c.ty.toInt a < c.ty.toInt b then a else b
def greater (c : Ctx) (a b : Nat) : Nat := if c.ty.toInt a < c.ty.toInt b then b else a

end Sys2Proof.Claims

/-- 08 R164, R166, R168: the two-source arithmetic of row 0x4.
08 R165, R167, R171, R175: the instructions that read D as a source; a D that is no register is not written. -/
def Obligations.VectorArithmetic : Prop :=
  (∀ (s : State) (c : Ctx) (d a b : BitVec 8), Issuing s c → outside c = true →
  srcV c a = true → srcV c b = true → dstV c d = true →
  let x := c.readV a
  let y := c.readV b
  let int := c.ty.toInt
  Vector s c (exec (.vadd d a b) s) d (fun l => subs2 c (fun p q =>
    byType c (fun f => f.add c.rnd c.sat (f.decode p) (f.decode q)) (int p + int q)) (x.at l) (y.at l)) ∧
  Vector s c (exec (.vsub d a b) s) d (fun l => subs2 c (fun p q =>
    byType c (fun f => f.sub c.rnd c.sat (f.decode p) (f.decode q)) (int p - int q)) (x.at l) (y.at l)) ∧
  Vector s c (exec (.vmul d a b) s) d (fun l => subs2 c (fun p q =>
    byType c (fun f => f.mul c.rnd c.sat (f.decode p) (f.decode q)) (int p * int q)) (x.at l) (y.at l)) ∧
  (isF c.ty = false → Vector s c (exec (.vdiv d a b) s) d (fun l => subs2 c (quotient c) (x.at l) (y.at l))) ∧
  (∀ f, c.ty.fmt? = some f → Vector s c (exec (.vdiv d a b) s) d (fun l => subs2 c (fun p q =>
    f.div c.rnd c.sat (f.decode p) (f.decode q)) (x.at l) (y.at l))) ∧
  (isF c.ty = false →
    Vector s c (exec (.vmin d a b) s) d (fun l => subs2 c (lesser c) (x.at l) (y.at l)) ∧
    Vector s c (exec (.vmax d a b) s) d (fun l => subs2 c (greater c) (x.at l) (y.at l))) ∧
  (∀ f, c.ty.fmt? = some f →
    Vector s c (exec (.vmin d a b) s) d (fun l => subs2 c (fpMinMax f false) (x.at l) (y.at l)) ∧
    Vector s c (exec (.vmax d a b) s) d (fun l => subs2 c (fpMinMax f true) (x.at l) (y.at l)))) ∧
  (∀ (s : State) (c : Ctx) (d a b : BitVec 8), Issuing s c → outside c = true →
  srcV c d = true →
  (srcV c a = true → srcV c b = true →
    let x := c.readV a
    let y := c.readV b
    let z := c.readV d
    let int := c.ty.toInt
    Vector s c (exec (.vfma d a b) s) d (fun l => subs3 c (fun p q r => byType c
      (fun f => f.add c.rnd c.sat ((f.decode p).mul (f.decode q)) (f.decode r)) (int p * int q + int r)) (x.at l) (y.at l) (z.at l)) ∧
    Vector s c (exec (.vfms d a b) s) d (fun l => subs3 c (fun p q r => byType c
      (fun f => f.add c.rnd c.sat ((f.decode p).mul (f.decode q)) (f.decode r).negate) (int p * int q - int r))
      (x.at l) (y.at l) (z.at l)) ∧
    Vector s c (exec (.vfnma d a b) s) d (fun l => subs3 c (fun p q r => byType c
      (fun f => f.add c.rnd c.sat ((f.decode p).mul (f.decode q)).negate (f.decode r)) (int r - int p * int q))
      (x.at l) (y.at l) (z.at l)) ∧
    Vector s c (exec (.vsel d a b) s) d (fun l => subs3 c (fun p q r => if r = 0 then q else p) (x.at l) (y.at l) (z.at l))) ∧
  (srcS c a = true → srcS c b = true →
    Vector s c (exec (.vins d a b) s) d (fun l =>
      if l = (c.readS b).toNat % 128 then (c.readS a).truncate 32 else (c.readV d).at l)))

/-- 08 R169: the one-source instructions and VCSIGN.
The model's part in it: VEXP2 and VLOG2 are the correctly rounded functions, as R169 is read (assumption 8). -/
def Obligations.VectorOneSource : Prop := ∀ (s : State) (c : Ctx) (d a b : BitVec 8), Issuing s c → outside c = true →
  srcV c a = true → dstV c d = true →
  let x := c.readV a
  (isS c.ty = true →
    Vector s c (exec (.vabs d a) s) d (fun l => subs1 c (fun p => byType c (fun _ => 0) |c.ty.toInt p|) (x.at l)) ∧
    Vector s c (exec (.vneg d a) s) d (fun l => subs1 c (fun p => byType c (fun _ => 0) (-(c.ty.toInt p))) (x.at l))) ∧
  (∀ f, c.ty.fmt? = some f →
    Vector s c (exec (.vabs d a) s) d (fun l => subs1 c (fun p =>
      if f.decode p = .nan then f.nan else p % f.signBit) (x.at l)) ∧
    Vector s c (exec (.vneg d a) s) d (fun l => subs1 c (fun p =>
      if f.decode p = .nan then f.nan else if p / f.signBit % 2 = 0 then p % f.signBit + f.signBit else p % f.signBit) (x.at l)) ∧
    Vector s c (exec (.vsqrt d a) s) d (fun l => subs1 c (fun p => f.sqrt c.rnd c.sat (f.decode p)) (x.at l)) ∧
    Vector s c (exec (.vrcp d a) s) d (fun l => subs1 c (fun p => f.div c.rnd c.sat (.fin false 1 0) (f.decode p)) (x.at l)) ∧
    Vector s c (exec (.vrsq d a) s) d (fun l => subs1 c (fun p => f.rsqrt c.rnd c.sat (f.decode p)) (x.at l)) ∧
    Vector s c (exec (.vexp2 d a) s) d (fun l => subs1 c (fun p => f.exp2 c.rnd c.sat (f.decode p)) (x.at l)) ∧
    Vector s c (exec (.vlog2 d a) s) d (fun l => subs1 c (fun p => f.log2 c.rnd c.sat (f.decode p)) (x.at l)) ∧
    (srcV c b = true → Vector s c (exec (.vcsign d a b) s) d (fun l => subs2 c (fun p q =>
      if f.decode p = .nan then f.nan else if q / f.signBit % 2 = 1 then p % f.signBit + f.signBit else p % f.signBit)
      (x.at l) ((c.readV b).at l))))

/-- 08 R170: the bit instructions; logic works on the 32-bit patterns, the others on sub-elements of width w, by the count
modulo w. -/
def Obligations.VectorBits : Prop := ∀ (s : State) (c : Ctx) (d a b : BitVec 8), Issuing s c → outside c = true →
  srcV c a = true → srcV c b = true → dstV c d = true →
  let x := c.readV a
  let y := c.readV b
  let w := c.ty.width
  Vector s c (exec (.vand d a b) s) d (fun l => x.at l &&& y.at l) ∧
  Vector s c (exec (.vor d a b) s) d (fun l => x.at l ||| y.at l) ∧
  Vector s c (exec (.vxor d a b) s) d (fun l => x.at l ^^^ y.at l) ∧
  Vector s c (exec (.vnot d a) s) d (fun l => ~~~(x.at l)) ∧
  (isF c.ty = false →
    Vector s c (exec (.vshl d a b) s) d (fun l => subs2 c (fun p q => p * 2 ^ (q % w) % 2 ^ w) (x.at l) (y.at l)) ∧
    Vector s c (exec (.vshr d a b) s) d (fun l => subs2 c (fun p q => p / 2 ^ (q % w)) (x.at l) (y.at l)) ∧
    Vector s c (exec (.vshra d a b) s) d (fun l => subs2 c (fun p q =>
      (((if 2 ^ (w - 1) ≤ p then (p : Int) - 2 ^ w else p) / 2 ^ (q % w)) % 2 ^ w).toNat) (x.at l) (y.at l)) ∧
    Vector s c (exec (.vrot d a b) s) d (fun l => subs2 c (fun p q =>
      p * 2 ^ (q % w) % 2 ^ w + p / 2 ^ (w - q % w)) (x.at l) (y.at l)) ∧
    Vector s c (exec (.vmulhi d a b) s) d (fun l => subs2 c (fun p q =>
      c.ty.wrap (c.ty.toInt p * c.ty.toInt q / 2 ^ w)) (x.at l) (y.at l)) ∧
    Vector s c (exec (.vclz d a) s) d (fun l => subs1 c (fun p => if p = 0 then w else w - 1 - Nat.log2 p) (x.at l)) ∧
    Vector s c (exec (.vpopc d a) s) d (fun l => subs1 c (fun p =>
      ((List.range w).filter fun k => p.testBit k).length) (x.at l)))

/-- 08 R172: rounding to integral. -/
def Obligations.VectorIntegral : Prop := ∀ (s : State) (c : Ctx) (d a : BitVec 8) (f : FpFmt), Issuing s c → outside c = true →
  srcV c a = true → dstV c d = true → c.ty.fmt? = some f →
  let toward (rnd : Rnd) (p : Nat) : Nat := match f.decode p with
    | .nan => f.nan
    | .inf _ => p
    | .fin neg m e =>
      if integralOf rnd neg m e = 0 then f.withSign neg 0 else f.roundInt .rtz false (integralOf rnd neg m e)
  let x := c.readV a
  Vector s c (exec (.vfloor d a) s) d (fun l => subs1 c (toward .rdn) (x.at l)) ∧
  Vector s c (exec (.vceil d a) s) d (fun l => subs1 c (toward .rup) (x.at l)) ∧
  Vector s c (exec (.vround d a) s) d (fun l => subs1 c (toward c.rnd) (x.at l)) ∧
  Vector s c (exec (.vtrunc d a) s) d (fun l => subs1 c (toward .rtz) (x.at l))

namespace Sys2Proof.Claims

/-- An element with every NaN of a floating type made canonical (02 R41). -/
def canonical (c : Ctx) (x : W32) : W32 := subs1 c (fun p => match c.ty.fmt? with
  | some f => if f.decode p = .nan then f.nan else p
  | none => p) x

/-- The combination of the active lanes up to lane `l` in ascending order, if one of them is active (08 R174). -/
def combine (c : Ctx) (op : W32 → W32 → W32) (x : Lanes) : Nat → Option W32
  | 0 => none
  | l + 1 =>
    if c.active l then some (match combine c op x l with
      | none => canonical c (x.at l)
      | some a => op a (canonical c (x.at l)))
    else combine c op x l

/-- `v` is what operand `code`, which reads `x`, holds in lane `l`: an absent lane of a register or a queue entry holds
anything (01 R11, 08 R173), every other lane and operand what it reads (06 R129). -/
def ElemOf (c : Ctx) (code : BitVec 8) (x : Lanes) (l : Nat) (v : W32) : Prop :=
  c.absent l = false ∨ 0x90 ≤ code.toNat → v = x.at l

/-- Addition of a type by R164. -/
def plus (c : Ctx) : W32 → W32 → W32 := subs2 c fun p q =>
  byType c (fun f => f.add c.rnd c.sat (f.decode p) (f.decode q)) (c.ty.toInt p + c.ty.toInt q)

/-- The smaller and the larger of two sub-elements (08 R168). -/
def lower (c : Ctx) : W32 → W32 → W32 := subs2 c fun p q => match c.ty.fmt? with
  | some f => fpMinMax f false p q
  | none => lesser c p q
def upper (c : Ctx) : W32 → W32 → W32 := subs2 c fun p q => match c.ty.fmt? with
  | some f => fpMinMax f true p q
  | none => greater c p q

/-- One pattern in every sub-element. -/
def everywhere (c : Ctx) (p : Nat) : W32 := c.ty.join (List.replicate (32 / c.ty.width) p)

end Sys2Proof.Claims

/-- 08 R173-R175: movement across lanes, the scan and the reductions, and VMOVS, for every element type, operand and lane: the
result is the element of the lane named, whatever that lane's activity, or the combination of the active lanes in ascending
order, and nothing but D, the queue and the place in the program changes. With its operands legal and full each of them
answers a next state.
The model's part in it: an absent lane of a constant, a special or a broadcast holds its element (assumption 79). -/
def Obligations.VectorMovement : Prop := ∀ (s : State) (c : Ctx) (d a b : BitVec 8), Issuing s c → outside c = true →
  srcV c a = true →
  let x := c.readV a
  (dstV c d = true →
    (srcS c b = true → ∃ v, ElemOf c a x ((c.readS b).toNat % 128) v ∧ Vector s c (exec (.vbcast d a b) s) d (fun _ => v)) ∧
    (srcVT c .nat32 b = true → ∃ f, (∀ l, ElemOf c a x (((c.readVT .nat32 b).at l).toNat % 128) (f l)) ∧
      Vector s c (exec (.vperm d a b) s) d f) ∧
    (srcS c b = true → ∃ f, (∀ l, ElemOf c a x ((l + (c.readS b).toNat) % 128) (f l)) ∧
      Vector s c (exec (.vlrot d a b) s) d f) ∧
    Vector s c (exec (.vscan d a) s) d (fun l => (combine c (plus c) x (l + 1)).getD 0)) ∧
  (dstS c d = true →
    Scalar s c (exec (.vradd d a) s) d (((combine c (plus c) x 128).getD (everywhere c 0)).zeroExtend 64) ∧
    Scalar s c (exec (.vrmin d a) s) d (((combine c (lower c) x 128).getD (everywhere c (match c.ty.fmt? with
      | some f => f.inf
      | none => c.ty.wrap c.ty.maxInt))).zeroExtend 64) ∧
    Scalar s c (exec (.vrmax d a) s) d (((combine c (upper c) x 128).getD (everywhere c (match c.ty.fmt? with
      | some f => f.withSign true f.inf
      | none => c.ty.wrap c.ty.minInt))).zeroExtend 64) ∧
    (srcS c b = true → ∃ v, ElemOf c a x ((c.readS b).toNat % 128) v ∧
      GroupFree s c (exec (.vmovs d a b) s) (ScalarResult d (v.zeroExtend 64)))) ∧
  (dstV c d = true → ∃ t, exec (.vscan d a) s = .next t) ∧
  (dstV c d = true → srcS c b = true → ∀ i ∈ [Instr.vbcast d a b, .vlrot d a b], ∃ t, exec i s = .next t) ∧
  (dstV c d = true → srcVT c .nat32 b = true → ∃ t, exec (.vperm d a b) s = .next t) ∧
  (dstS c d = true → ∀ i ∈ [Instr.vradd d a, .vrmin d a, .vrmax d a], ∃ t, exec i s = .next t) ∧
  (dstS c d = true → srcS c b = true → ∃ t, exec (.vmovs d a b) s = .next t)

/-! Comparisons, predicates, regions and conversions (spec 08 R176-R188). -/

namespace Sys2Proof.Claims

/-- The predicates afterwards: bit `p` of every active lane is what `f` says, and nothing else of them changes (08 R176). -/
def PredWritten (c : Ctx) (p : BitVec 3) (f : Nat → Bool) (g' : Group) : Prop :=
  g'.preds.length = 128 ∧ ∀ l < 128, ∀ k < 8,
    (g'.preds.getD l 0).getLsbD k = if k = p.toNat ∧ c.active l = true then f l else (c.group.preds.getD l 0).getLsbD k

/-- An instruction whose only effect is a predicate. -/
def Predicate (s : State) (c : Ctx) (r : Res) (p : BitVec 3) (f : Nat → Bool) : Prop :=
  GroupOnly s c r fun g g' => Passed g g' ∧ g' = { goneOn g g' with preds := g'.preds } ∧ PredWritten c p f g'

/-- A relation holds in every sub-element of a lane (08 R177). -/
def inAll (c : Ctx) (rel : Nat → Nat → Bool) (x y : Lanes) (l : Nat) : Bool :=
  ((c.ty.split (x.at l)).zip (c.ty.split (y.at l))).all fun p => rel p.1 p.2

/-- A comparison of two sub-elements by the sign of A − B; `nan` is its value when an operand of a floating type is a NaN. -/
def cmpBy (c : Ctx) (nan : Bool) (test : Int → Bool) (p q : Nat) : Bool := match c.ty.fmt? with
  | some f => if f.decode p = .nan ∨ f.decode q = .nan then nan else test ((f.decode p).cmp (f.decode q))
  | none => test (c.ty.toInt p - c.ty.toInt q)

/-- The value of a source predicate in a lane: with NEG the complement (08 R176). -/
def predIn (c : Ctx) (neg : BitVec 1) (p : BitVec 3) (l : Nat) : Bool :=
  if neg = 1 then !((c.group.preds.getD l 0).getLsbD p.toNat) else (c.group.preds.getD l 0).getLsbD p.toNat

/-- The counter of every present lane is what `f` makes of it; nothing else changes (08 R179). -/
def Counters (s : State) (c : Ctx) (r : Res) (f : Nat → Nat → Nat) : Prop :=
  GroupOnly s c r fun g g' => Passed g g' ∧ g' = { goneOn g g' with nest := g'.nest } ∧ g'.nest.length = 128 ∧
    ∀ l < 128, (g'.nest.getD l 0).toNat = if c.absent l then (g.nest.getD l 0).toNat else f l (g.nest.getD l 0).toNat

end Sys2Proof.Claims

/-- 08 R177: the comparisons write PD in the active lanes and push nothing. -/
def Obligations.Comparisons : Prop := ∀ (s : State) (c : Ctx) (q : BitVec 3) (a b : BitVec 8), Issuing s c → outside c = true →
  srcV c a = true → srcV c b = true →
  let x := c.readV a
  let y := c.readV b
  Predicate s c (exec (.vceq q a b) s) q (inAll c (cmpBy c false fun d => d == 0) x y) ∧
  Predicate s c (exec (.vcne q a b) s) q (inAll c (cmpBy c true fun d => d != 0) x y) ∧
  Predicate s c (exec (.vclt q a b) s) q (inAll c (cmpBy c false fun d => decide (d < 0)) x y) ∧
  Predicate s c (exec (.vcle q a b) s) q (inAll c (cmpBy c false fun d => decide (d ≤ 0)) x y) ∧
  Predicate s c (exec (.vcgt q a b) s) q (inAll c (cmpBy c false fun d => decide (d > 0)) x y) ∧
  Predicate s c (exec (.vcge q a b) s) q (inAll c (cmpBy c false fun d => decide (d ≥ 0)) x y) ∧
  (∀ f, c.ty.fmt? = some f → Predicate s c (exec (.vcuno q a b) s) q
    (inAll c (fun i j => decide (f.decode i = .nan) || decide (f.decode j = .nan)) x y))

/-- 08 R178: the predicate logic instructions accept any element type and ignore it; they write PD in active lanes only, and they
push nothing. -/
def Obligations.PredicateLogic : Prop := ∀ (s : State) (c : Ctx) (d a b : BitVec 3) (x y : BitVec 1),
  Issuing s c → outside c = true →
  Predicate s c (exec (.pand d x a y b) s) d (fun l => predIn c x a l && predIn c y b l) ∧
  Predicate s c (exec (.por d x a y b) s) d (fun l => predIn c x a l || predIn c y b l) ∧
  Predicate s c (exec (.pxor d x a y b) s) d (fun l => predIn c x a l ^^ predIn c y b l) ∧
  Predicate s c (exec (.pnot d x a) s) d (fun l => !predIn c x a l) ∧
  (wordOf (.pand d x a y b)).toNat / 2 ^ 24 = 0x77 ∧ (wordOf (.por d x a y b)).toNat / 2 ^ 24 = 0x78 ∧
  (wordOf (.pxor d x a y b)).toNat / 2 ^ 24 = 0x79 ∧ (wordOf (.pnot d x a)).toNat / 2 ^ 24 = 0x7A

/-- 08 R179, R180; 01 R14: VANY and VALL, and the nesting counters. VIF faults, and changes nothing else, exactly when a counter that
would rise is 255. -/
def Obligations.NestingCounters : Prop := ∀ (s : State) (c : Ctx) (x : BitVec 1) (p : BitVec 3) (d : BitVec 8), Issuing s c →
  outside c = true →
  let takes (l : Nat) : Bool := c.active l && predIn c x p l
  let full (l : Nat) : Bool := !c.absent l && (c.group.nest.getD l 0 == 255) && !takes l
  (dstS c d = true →
    ((∃ l < 128, takes l = true) → Scalar s c (exec (.vany d x p) s) d 1) ∧
    ((∀ l < 128, takes l = false) → Scalar s c (exec (.vany d x p) s) d 0) ∧
    ((∀ l < 128, c.active l = true → predIn c x p l = true) → Scalar s c (exec (.vall d x p) s) d 1) ∧
    ((∃ l < 128, c.active l = true ∧ predIn c x p l = false) → Scalar s c (exec (.vall d x p) s) d 0)) ∧
  ((∀ l < 128, full l = false) →
    Counters s c (exec (.vif x p) s) (fun l n => if takes l then 0 else n + 1)) ∧
  ((∃ l < 128, full l = true) → exec (.vif x p) s =
    .next (s.deliver c.id (.nesting (laneMask full).1 (laneMask full).2) false (wordOf (.vif x p)))) ∧
  Counters s c (exec .velse s) (fun _ n => if n = 0 then 1 else if n = 1 then 0 else n) ∧
  Counters s c (exec .vendif s) (fun _ n => n - 1)

/-- 08 R181-R183: conversions between integers and FP32 and between FP32 and the 16-bit types, packing and unpacking. -/
def Obligations.Conversions : Prop := ∀ (s : State) (c : Ctx) (d a b : BitVec 8) (e : BitVec 1), Issuing s c → outside c = true →
  dstV c d = true →
  let low (v : Lanes) (l : Nat) : Nat := (v.at l).toNat % 2 ^ 16
  let high (v : Lanes) (l : Nat) : Nat := (v.at l).toNat / 2 ^ 16
  (c.ty = .int32 ∨ c.ty = .nat32 →
    (srcV c a = true → Vector s c (exec (.cvtif d a) s) d (fun l =>
      BitVec.ofNat 32 (fp32.roundInt c.rnd c.sat (c.ty.toInt ((c.readV a).at l).toNat)))) ∧
    (srcVT c .fp32 a = true → Vector s c (exec (.cvtfi d a) s) d (fun l =>
      BitVec.ofNat 32 (match fp32.decode ((c.readVT .fp32 a).at l).toNat with
        | .nan => 0
        | .inf neg => c.ty.wrap (if neg then c.ty.minInt else c.ty.maxInt)
        | .fin neg m x => c.ty.wrap (c.ty.clamp (integralOf c.rnd neg m x)))))) ∧
  (srcVT c .fp32 a = true → srcVT c .fp32 b = true →
    Vector s c (exec (.cvtfh d a b) s) d (fun l => BitVec.ofNat 32
      (fp16.encode c.rnd c.sat (fp32.decode ((c.readVT .fp32 a).at l).toNat) +
        2 ^ 16 * fp16.encode c.rnd c.sat (fp32.decode ((c.readVT .fp32 b).at l).toNat))) ∧
    Vector s c (exec (.cvtfb d a b) s) d (fun l => BitVec.ofNat 32
      (bf16.encode c.rnd c.sat (fp32.decode ((c.readVT .fp32 a).at l).toNat) +
        2 ^ 16 * bf16.encode c.rnd c.sat (fp32.decode ((c.readVT .fp32 b).at l).toNat)))) ∧
  (srcVT c .hf16x2 a = true → Vector s c (exec (.cvthf d a e) s) d (fun l =>
    let v := c.readVT .hf16x2 a
    BitVec.ofNat 32 (fp32.encode .rne false (fp16.decode (if e = 1 then high v l else low v l))))) ∧
  (srcVT c .bf16x2 a = true → Vector s c (exec (.cvtbf d a e) s) d (fun l =>
    let v := c.readVT .bf16x2 a
    BitVec.ofNat 32 (fp32.encode .rne false (bf16.decode (if e = 1 then high v l else low v l))))) ∧
  (c.ty = .int16x2 ∨ c.ty = .nat16x2 →
    let wide : ElemType := if c.ty = .int16x2 then .int32 else .nat32
    (srcVT c wide a = true → srcVT c wide b = true → Vector s c (exec (.pack16 d a b) s) d (fun l =>
      c.ty.join ([(c.readVT wide a).at l, (c.readVT wide b).at l].map fun w => c.ty.ofInt c.sat (wide.toInt w.toNat)))) ∧
    (srcV c a = true → Vector s c (exec (.unpk16 d a e) s) d (fun l => BitVec.ofNat 32 (wide.wrap (c.ty.toInt
      (if e = 1 then high (c.readV a) l else low (c.readV a) l)))))) ∧
  (c.ty = .int8x4 ∨ c.ty = .nat8x4 →
    let wide : ElemType := if c.ty = .int8x4 then .int16x2 else .nat16x2
    (srcVT c wide a = true → srcVT c wide b = true → Vector s c (exec (.pack8 d a b) s) d (fun l =>
      c.ty.join ((wide.split ((c.readVT wide a).at l) ++ wide.split ((c.readVT wide b).at l)).map fun v =>
        c.ty.ofInt c.sat (wide.toInt v)))) ∧
    (srcV c a = true → Vector s c (exec (.unpk8 d a e) s) d (fun l =>
      wide.join ((if e = 1 then (c.ty.split ((c.readV a).at l)).drop 2 else (c.ty.split ((c.readV a).at l)).take 2).map fun v =>
        wide.wrap (c.ty.toInt v)))))

/-- 08 R184-R188: the conversions of narrow blocks. A poisoned header gives a NaN, a value that is not finite poisons its
block, and CVTNX joins the codes of each block below the headers.
The model's part in it: that a lane's own header decides whether it is poisoned (assumption 80), and that the operand of CVTNF and CVTNX
is read as an unsigned 32-bit value (assumption 18). -/
def Obligations.NarrowConversions : Prop := ∀ (s : State) (c : Ctx) (d a b : BitVec 8) (f : BitVec 4) (n : Narrow),
  Issuing s c → outside c = true → dstV c d = true → narrowOf f.toNat = some n →
  let bad (x : Lanes) (l : Nat) : Bool :=
    (List.range 128).any fun k => decide (k / 32 = l / 32) && c.active k && notFinite (x.at k)
  let lane (m : Narrow) (l : Nat) : W32 :=
    let h := ((c.readV b).at l).toNat % 2 ^ 16
    BitVec.ofNat 32 (if poisoned h then h * 2 ^ 16
      else if bad (c.readVT .fp32 a) l then 0xFFFF * 2 ^ 16
      else h * 2 ^ 16 + m.encode c.rnd h (fp32.decode ((c.readVT .fp32 a).at l).toNat))
  (c.ty = .fp32 → srcVT c .fp32 a = true →
    Vector s c (exec (.cvtfn d a f) s) d (fun l => BitVec.ofNat 32 (blockHeader n (c.blockVals (c.readVT .fp32 a) (l / 32)))) ∧
    (srcV c b = true →
      Vector s c (exec (.cvtn8 d a b) s) d (lane n8) ∧
      Vector s c (exec (.cvtn6 d a b) s) d (lane n6) ∧
      Vector s c (exec (.cvtn4 d a b) s) d (lane n4))) ∧
  (srcVT c .nat32 a = true →
    let x := c.readVT .nat32 a
    Vector s c (exec (.cvtnf d a f) s) d (fun l =>
      let h := (x.at l).toNat / 2 ^ 16
      BitVec.ofNat 32 (if poisoned h then fp32.nan
        else fp32.encode c.rnd c.sat (n.value h ((x.at l).toNat % 2 ^ n.width)))) ∧
    ∃ v, Vector s c (exec (.cvtnx d a f) s) d v ∧
      (∀ l, l < 4 * n.width → v l = BitVec.ofNat 32 (joinSubs n.width ((blockLanes (l / n.width)).map fun k =>
        if c.absent k then 0 else (x.at k).toNat % 2 ^ n.width) / 2 ^ (32 * (l % n.width)))) ∧
      (∀ k < 4, c.absent (32 * k) = false → v (64 + k) = BitVec.ofNat 32 ((x.at (32 * k)).toNat / 2 ^ 16)) ∧
      ∀ l, 4 * n.width ≤ l → (l < 64 ∨ 68 ≤ l) → v l = 0)

/-! Memory instructions (spec 07 R150, 09). -/

namespace Sys2Proof.Claims

/-- One name for a byte: both functions of a host link reach the same host memory (23 R334). -/
def byteKey : Loc → Loc
  | .host fn a => .host (if fn ≤ 8 then 0 else 9) a
  | l => l

/-- A byte of the table entry that an access through `h` marks (03 R78). -/
def inEntry (h : Hit) (loc : Loc) : Prop := match h.entry, loc with
  | some (none, e), .phys a => e ≤ a ∧ a < e + 8
  | some (some m, e), .peer m' a => m = m' ∧ e ≤ a ∧ a < e + 8
  | _, _ => False

/-- The `n` bytes from a location. -/
def spans (l : Loc) (n : Nat) : List Loc := (List.range n).map fun i => match l with
  | .phys a => .phys (a + i)
  | .host f a => .host f (a + i)
  | .peer m a => .peer m (a + i)
  | .spad t o => .spad t (o + i)
  | .priv t o => .priv t (o + i)
  | .regWin t g o => .regWin t g (o + i)
  | .tileWin t j o => .tileWin t j (o + i)
  | .fused k o => .fused k (o + i)

/-- Every byte of memory outside `stored` and outside the marked table entries reads in `t` as in `s`, whose byte stores are in
their canonical form (`Obligations.StepKeepsCanonicalMemories`). -/
def MemorySame (s t : State) (stored : List Loc) (hits : List Hit) : Prop :=
  memoriesWf s → ∀ loc, (∀ x ∈ stored, byteKey x ≠ byteKey loc) → (∀ h ∈ hits, ¬ inEntry h loc) → t.readLoc loc = s.readLoc loc

/-- SC and ORD of a load, of a store and of an atomic (06 R127, 09 R190). -/
def loadCodes (sc : BitVec 3) (o : BitVec 2) : Bool := decide (sc ≠ 7 ∧ (o = 0 ∧ sc = 0 ∨ o = 1))
def storeCodes (sc : BitVec 3) (o : BitVec 2) : Bool := decide (sc ≠ 7 ∧ (o = 0 ∧ sc = 0 ∨ o = 2))
def atomCodes (sc : BitVec 3) (o : BitVec 2) : Bool := decide (sc ≠ 7 ∧ (o = 0 → sc = 0))

/-- The memory order lets an access with ordering code `o` go on (04 R92-R95). -/
def ordered (s : State) (c : Ctx) (o : BitVec 2) : Prop := mayAccess s c ∧ (o = 2 ∨ o = 3 → mayRelease s c 0xFF)

/-- No wide release is due, or it has nothing to wait for (04 R96): no channel is LOST and every operation of the team is
acknowledged, the chunks of its copies included. -/
def released (s : State) (c : Ctx) (sc : BitVec 3) (o : BitVec 2) (p : W64) : Prop :=
  ordered s c o ∧ c.group.heldHere = none ∧ (isWide sc o (c.launch.spaceOf p) = true → c.team.lost = 0 ∧ s.unackedOf c.id.team = [])

/-- What a channel operation of the group carries: the colour of MODE (04 R93) and the scope of an acquire. -/
def tagOf (c : Ctx) (acq : Option (BitVec 3)) : SendTag := ⟨some (c.group.mode.extractLsb' 13 3), acq, false, none, []⟩

/-- The same, of a location that may lie in the near memory of the issuing die and then is not remote (03 R66). -/
def tagAt (c : Ctx) (h : Hit) : SendTag := { tagOf c none with own := h.dest.isNone }

/-- Beside the lines of core `k`'s L1 the cores are as before (03 R82). -/
def CoresSame (s t : State) (k : Nat) : Prop := t.cores.length = s.cores.length ∧ ∀ (j : Nat) (x : Core), s.cores[j]? = some x →
  ∃ y : Core, t.cores[j]? = some y ∧ (j ≠ k → y = x) ∧ y = { x with l1 := y.l1 }

/-- A byte that a load of the group's core is served: memory's, or that of a line which its L1 holds (03 R82); after an acquire
at CLUSTER scope or wider memory's (04 R95). -/
def LoadByte (s : State) (c : Ctx) (acquires : Prop) (hs : List Hit) (loc : Loc) (b : Byte) : Prop :=
  b = (s.markHits hs false).readLoc loc ∨
  (¬ acquires ∧ ∃ (x : Core) (n : L1Line), s.cores[c.core]? = some x ∧ n ∈ x.l1 ∧ loc.line = some n.start ∧ b = n.byteAt loc)

/-- `t` is `base` beside what a read leaves behind: the table entries marked, the links to remote bytes awake (12 R261), the cores
and the counter of the free values. -/
def Sampled (s t base : State) (hs : List Hit) : Prop :=
  t = { base with
    mem := (s.markHits hs false).mem
    peers := (s.markHits hs false).peers
    links := t.links
    cores := t.cores
    free := t.free } ∧ ((∀ h ∈ hs, h.dest = none) → t.links = s.links) ∧ MemorySame s t [] hs

/-- What a load leaves: its group, its result on the way, and lines of the core's L1. -/
def Loaded (s t : State) (c : Ctx) (hs : List Hit) (g' : Group) (f : Flight) : Prop :=
  Sampled s t { s.setGroup c.id g' with nextId := s.nextId + 1, flights := s.flights ++ [f] } hs ∧ CoresSame s t c.core

/-- A store of the core at these places updates the lines that its L1 holds (03 R82). -/
def LinesUpdated (s t : State) (k : Nat) (stored : List Loc) : Prop := ∀ (x y : Core), s.cores[k]? = some x → t.cores[k]? = some y →
  y.l1.length = x.l1.length ∧ ∀ (i : Nat) (n : L1Line), x.l1[i]? = some n → n.bytes.length = 128 → ∃ m : L1Line, y.l1[i]? = some m ∧
    m.start = n.start ∧ ∀ loc, loc.line = some n.start → m.byteAt loc = if loc ∈ stored then t.readLoc loc else n.byteAt loc

/-- An atomic bypasses the L1: no line of its bytes is left there (03 R82). -/
def LinesGone (t : State) (k : Nat) (locs : List Loc) : Prop := ∀ y : Core, t.cores[k]? = some y → ∀ n ∈ y.l1, ∀ loc ∈ locs,
  loc.line ≠ some n.start

/-- The bytes of a number, lowest first. -/
def byteOfNum (v i : Nat) : Byte := BitVec.ofNat 8 (v / 256 ^ i)

/-- The cells of an `n`-byte little-endian store at a location. -/
def cellsAt (l : Loc) (n v : Nat) : List (Loc × Byte) := (spans l n).zipIdx.map fun x => (x.1, byteOfNum v x.2)

end Sys2Proof.Claims

/-- 03 R65, R75, R78: what is stored at a location reads back there, and every other byte reads as before; marking table
entries changes no byte outside them, and sets ACCESSED, and DIRTY for a write. -/
def Obligations.StoresReadBack : Prop := ∀ (s : State) (loc : Loc) (v : Byte) (h : Hit) (w : Bool), memoriesWf s →
  MemorySame s (s.markHits [h] w) [] [h] ∧
  (∀ e, h.entry = some (none, e) → (s.markHits [h] w).mem.read64 e = s.mem.read64 e ||| (if w then 0xC0 else 0x40)) ∧
  (∀ loc', byteKey loc ≠ byteKey loc' → (s.writeLoc loc v).readLoc loc' = s.readLoc loc') ∧
  (match loc with
    | .phys _ => True
    | .host _ _ => True
    | .peer m _ => ∃ p ∈ s.peers, p.mod = m
    | .spad t _ => (s.team? t).isSome
    | .priv t _ => (s.team? t).isSome
    | .regWin t g o => ∃ x r, s.group? ⟨t, g⟩ = some x ∧ x.vregs[o / 512]? = some r ∧ r.val.length = 128
    | .tileWin t k o => ∃ x cs col, s.team? t = some x ∧ x.tiles[k]? = some cs ∧ cs[o / 4 % 256]? = some col ∧ o / 1024 < col.length
    | .fused _ _ => False) →
  (s.writeLoc loc v).readLoc loc = v

namespace Sys2Proof.Claims

/-- Lane `l` of a lane mask. -/
def inMask (lo hi : W64) (l : Nat) : Bool := if l < 64 then lo.getLsbD l else hi.getLsbD (l - 64)

/-- The mask holds the lanes of the access that fail. -/
def masks (os : List (Nat × Nat)) (lo hi : W64) (fails : Nat × Nat → Prop) : Prop :=
  ∀ l < 128, inMask lo hi l = true ↔ ∃ x ∈ os, x.1 = l ∧ fails x

/-- The group stops at a page fault, which goes to the driver (03 R80); `m` is what the instruction does to the group before. -/
def pageStops (s : State) (c : Ctx) (m : Group → Group) (va : Nat) (w : Bool) (peer : Option (Nat × Nat)) (pri : Bool) : State :=
  ((s.mapGroup c.id m).mapGroup c.id fun g => { g with run := .pageWait }).enterFault c.launch.fn
    ⟨none, pri, va, w, peer, c.launch.lid, BitVec.ofNat 32 c.id.team.index, .group c.id, 0, 0⟩

end Sys2Proof.Claims

/-- 03 R70-R73, R80: the five steps of an access in their order: the segment, the rights in the order named, alignment, bounds, and
only then translation, whose failure is a page fault at the address it names. A vector access takes the earliest step that fails in
any active lane, over its lanes, and its mask holds the lanes that fail it; a page fault reports the lowest failing address. The
private segment is a vector access's alone. A page fault of a scalar load or store stops the group, a load's destination emptied, and
enters the fault queue where there is room (23 R345).
The model's parts in it: the ADDR of an exact offset outside 0 to 2⁴⁸ − 1 is the displacement added modulo 2⁶⁴ (assumption 77). -/
def Obligations.AccessChecksInOrder : Prop :=
  (∀ (s : State) (l : Launch) (t : TeamId) (die n : Nat) (p : W64) (o : Int) (rights : List Right) (w : Bool),
  let r := s.checkScalar l t die p o n rights w
  (l.seg? (ptrSeg p) = none → r = .trap (.segment (faultPtr p o) 0 0)) ∧
  ∀ v, l.seg? (ptrSeg p) = some v →
    (v.space = .window ∨ v.space = .priv → r = .trap (.segment (faultPtr p o) 0 0)) ∧
    (v.space ≠ .window → v.space ≠ .priv →
      (∀ x, rights.find? (fun x => !v.rights.contains x) = some x → r = .trap (.permission x (faultPtr p o) 0 0)) ∧
      ((∀ x ∈ rights, v.rights.contains x = true) →
        (o % n ≠ 0 → r = .trap (.alignment (faultPtr p o) 0 0)) ∧
        (o % n = 0 → o < 0 ∨ 2 ^ 48 ≤ o ∨ v.limit < o + n → r = .trap (.bounds (faultPtr p o) 0 0)) ∧
        (o % n = 0 → 0 ≤ o → o < 2 ^ 48 → o + n ≤ v.limit →
          (∀ h, s.translate l t die v o.toNat w = .ok h → r = .ok h) ∧
          (∀ va peer pri, s.translate l t die v o.toNat w = .page va peer pri → r = .page va w peer pri 0 0) ∧
          (s.translate l t die v o.toNat w = .stall → r = .hold))))) ∧
  (∀ (c : Ctx) (p : W64) (n : Nat) (rights : List Right) (w : Bool) (os : List (Nat × Nat)) (first : Nat × Nat), os.head? = some first →
  let r := c.checkLanes p n rights w true os
  let traps (f : W64 → W64 → TrapInfo) (fails : Nat × Nat → Prop) : Prop := ∃ lo hi, r = .trap (f lo hi) ∧ masks os lo hi fails
  (c.launch.seg? (ptrSeg p) = none → traps (.segment (faultPtr p first.2)) fun _ => True) ∧
  ∀ v, c.launch.seg? (ptrSeg p) = some v →
    (v.space = .window → traps (.segment (faultPtr p first.2)) fun _ => True) ∧
    (v.space ≠ .window →
      (∀ x, rights.find? (fun x => !v.rights.contains x) = some x → traps (.permission x (faultPtr p first.2)) fun _ => True) ∧
      ((∀ x ∈ rights, v.rights.contains x = true) →
        (∀ x, os.find? (fun x => decide (x.2 % n ≠ 0)) = some x →
          traps (.alignment (faultPtr p x.2)) fun y => y.2 % n ≠ 0) ∧
        ((∀ x ∈ os, x.2 % n = 0) →
          (∀ x, os.find? (fun x => decide (v.limit < x.2 + n)) = some x →
            traps (.bounds (faultPtr p x.2)) fun y => v.limit < y.2 + n) ∧
          ((∀ x ∈ os, x.2 + n ≤ v.limit) →
            let tr (x : Nat × Nat) : Tr := c.s.translate c.launch c.id.team c.die v
              (if v.space = .priv then (128 * c.id.group + x.1) * c.launch.krec.priv + x.2 else x.2) w
            (∀ hs : List (Nat × Hit), hs.map (·.1) = os.map (·.1) → (∀ x y, (x, y) ∈ os.zip hs → tr x = .ok y.2) → r = .ok hs) ∧
            ((∃ x ∈ os, ∃ va peer pri, tr x = .page va peer pri) → ∃ va peer pri lo hi, r = .page va w peer pri lo hi ∧
              (∃ x ∈ os, tr x = .page va peer pri) ∧ (∀ x ∈ os, ∀ va' peer' pri', tr x = .page va' peer' pri' → va ≤ va') ∧
              masks os lo hi fun y => ∃ va' peer' pri', tr y = .page va' peer' pri')))))) ∧
  (∀ (s : State) (c : Ctx) (d : BitVec 8) (p : BitVec 5) (sc : BitVec 3) (o : BitVec 2) (b : BitVec 6) (va : Nat)
    (peer : Option (Nat × Nat)) (pri : Bool), Issuing s c → ptrFull c p = true → shortS c b = true → mayAccess s c →
  let off : Int := ptrOff (c.readPtr p) + (c.readB6S b).toInt
  (dstS c d = true → loadCodes sc o = true →
    ∀ x ∈ [(Instr.sld8 d p sc o b, 1), (.sld16 d p sc o b, 2), (.sld32 d p sc o b, 4), (.sld64 d p sc o b, 8)],
      s.checkScalar c.launch c.id.team c.die (c.readPtr p) off x.2 [.pr] false = .page va false peer pri 0 0 →
      exec x.1 s = .next (pageStops s c (fun g => g.emptyS d) va false peer pri)) ∧
  (srcS c d = true → storeCodes sc o = true → (o = 2 → mayRelease s c 0xFF) →
    ∀ x ∈ [(Instr.sst8 d p sc o b, 1), (.sst16 d p sc o b, 2), (.sst32 d p sc o b, 4), (.sst64 d p sc o b, 8)],
      s.checkScalar c.launch c.id.team c.die (c.readPtr p) off x.2 [.pw] true = .page va true peer pri 0 0 →
      exec x.1 s = .next ((s.mapGroup c.id fun g => { g with run := .pageWait }).enterFault c.launch.fn
        ⟨none, pri, va, true, peer, c.launch.lid, BitVec.ofNat 32 c.id.team.index, .group c.id, 0, 0⟩))) ∧
  (∀ (s : State) (fn : Nat) (p : PageFault) (f : Fn), s.fns[fn]? = some f →
  (p.pri = true ∨ 2 ^ (f.fqctl.toNat % 32) ≤ (f.fqhead - f.fqtail).toNat →
    s.enterFault fn p = { s with fns := s.fns.set fn { f with faults := f.faults ++ [{ p with seqno := none }] } }) ∧
  (p.pri = false → (f.fqhead - f.fqtail).toNat < 2 ^ (f.fqctl.toNat % 32) →
    s.enterFault fn p = { s.hostWriteBytes (linkOfFn fn) (f.fqbase.toNat + 32 * (f.fseq % 2 ^ (f.fqctl.toNat % 32)))
        (faultEntryBytes f.fseq p) with
      fns := s.fns.set fn { f with
        fseq := f.fseq + 1
        fqhead := BitVec.ofNat 32 (f.fseq + 1)
        faults := f.faults ++ [{ p with seqno := some f.fseq }] } }))

/-- 07 R150; 06 R135; 03 R82: a scalar load whose checks pass leaves its result pending, its value the little-endian bytes
that the core is served, zero-extended; memory changes only by the table entry marked. While an acquire of the group is to be
performed it waits (04 R95).
07 R150; 03 R66, R82: a scalar store. Here its bytes stand in memory at once, and the lines of the L1 are updated; for another
destination they travel on C0 as one operation. No register changes.
The model's part in it: that a local access takes effect at issue is the model's choice (assumption 7). -/
def Obligations.ScalarMemory : Prop :=
  (∀ (s : State) (c : Ctx) (d : BitVec 8) (p : BitVec 5) (sc : BitVec 3) (o : BitVec 2)
    (b : BitVec 6) (h : Hit), Issuing s c → dstS c d = true → ptrFull c p = true → shortS c b = true → loadCodes sc o = true →
  ∀ x ∈ [(Instr.sld8 d p sc o b, 1), (.sld16 d p sc o b, 2), (.sld32 d p sc o b, 4), (.sld64 d p sc o b, 8)],
    (¬ mayAccess s c → Waits s c (exec x.1 s) .waits) ∧
    (mayAccess s c →
    s.checkScalar c.launch c.id.team c.die (c.readPtr p) (ptrOff (c.readPtr p) + (c.readB6S b).toInt) x.2 [.pr] false = .ok h →
    s.loadHeld c.id (spans h.loc x.2) = false →
    ∃ g' t bs, ScalarPending d s.nextId c.group g' ∧ exec x.1 s = .next t ∧ bs.length = x.2 ∧
      (∀ i v, bs[i]? = some v → LoadByte s c (o = 1 ∧ 3 ≤ sc.toNat) [h] (h.loc.plus i) v) ∧
      Loaded s t c [h] g' ⟨s.nextId, c.id, .load, .scalar (BitVec.ofNat 64 (leNat bs)), [], spans h.loc x.2⟩)) ∧
  (∀ (s : State) (c : Ctx) (d : BitVec 8) (p : BitVec 5) (sc : BitVec 3) (o : BitVec 2)
    (b : BitVec 6) (h : Hit), Issuing s c → srcS c d = true → ptrFull c p = true → shortS c b = true → storeCodes sc o = true →
  released s c sc o (c.readPtr p) →
  ∀ x ∈ [(Instr.sst8 d p sc o b, 1), (.sst16 d p sc o b, 2), (.sst32 d p sc o b, 4), (.sst64 d p sc o b, 8)],
    s.checkScalar c.launch c.id.team c.die (c.readPtr p) (ptrOff (c.readPtr p) + (c.readB6S b).toInt) x.2 [.pw] true = .ok h →
    (h.dest = none → s.ownHeld c.id (spans h.loc x.2) = false →
      ∃ g' t, Passed c.group g' ∧ g' = goneOn c.group g' ∧ exec x.1 s = .next t ∧
      t = { ((s.markHits [h] true).storeCells (cellsAt h.loc x.2 (c.readS d).toNat)).setGroup c.id g' with cores := t.cores } ∧
      MemorySame s t (spans h.loc x.2) [h] ∧ CoresSame s t c.core ∧ LinesUpdated s t c.core (spans h.loc x.2)) ∧
    (∀ dest s1, h.dest = some dest → c.team.lost.getLsbD 0 = false →
      (s.markHits [h] true).copyBlocks c.id.team 0 dest s.nextId = false →
      (s.markHits [h] true).sendOp (.team c.id.team) 0 c.id.group (tagOf c none) dest
        (.store (cellsAt h.loc x.2 (c.readS d).toNat)) = some s1 →
      ∃ g', Passed c.group g' ∧ g' = goneOn c.group g' ∧ exec x.1 s = .next (s1.setGroup c.id g')))

/-- 05 R115; 04 R93, R95: an operation takes its stream's next number, follows every operation its channel's joins name, carries
its colour, the scope of its acquire and whether its location is remote, and is the newest on the wire; memory does not change.
04 R96: a release at PACKAGE or SYSTEM scope waits, with no effect, while operations of the team are not acknowledged. -/
def Obligations.ChannelNumbers : Prop :=
  (∀ (s s1 : State) (o : ChanOwner) (c g : Nat) (tag : SendTag) (dest : Dest) (op : ChanOp),
  s.sendOp o c g tag dest op = some s1 → ∃ p s0, s.openStream o c dest = some s0 ∧
    s1.packets = s0.packets ++ [p] ∧ s1.wire = s0.wire ++ [p.id] ∧ p.id = s0.nextId ∧ s1.nextId = s0.nextId + 1 ∧
    p.op = op ∧ p.stream = ⟨o, c, dest⟩ ∧ p.performed = false ∧ p.acked = false ∧ p.colour = tag.colour ∧ p.acq = tag.acq ∧
    p.own = tag.own ∧ p.after = tag.joins.getD ((s0.chansOf o).getD c Channel.empty).joins ++ tag.prior ∧
    (∀ e, ((s0.chansOf o).getD c Channel.empty).streams.find? (fun e => decide (e.dest = dest)) = some e → p.num = e.next) ∧
    ∀ loc, s1.readLoc loc = s.readLoc loc) ∧
  (∀ (s : State) (c : Ctx) (d : BitVec 8) (p : BitVec 5) (sc : BitVec 3) (o : BitVec 2)
    (b : BitVec 6) (h : Hit), Issuing s c → srcS c d = true → ptrFull c p = true → shortS c b = true → storeCodes sc o = true →
  isWide sc o (c.launch.spaceOf (c.readPtr p)) = true → ordered s c o → c.group.heldHere = none → c.team.lost = 0 → h.dest = none →
  s.unackedOf c.id.team ≠ [] →
  ∀ x ∈ [(Instr.sst8 d p sc o b, 1), (.sst16 d p sc o b, 2), (.sst32 d p sc o b, 4), (.sst64 d p sc o b, 8)],
    s.checkScalar c.launch c.id.team c.die (c.readPtr p) (ptrOff (c.readPtr p) + (c.readB6S b).toInt) x.2 [.pw] true = .ok h →
    exec x.1 s = .next (s.setGroup c.id { c.group with
      held := (c.group.held.filter fun h => decide (h.inTrap ≠ c.group.inTrap)) ++
        [⟨c.group.inTrap, c.group.pc, .draining (s.unackedOf c.id.team)⟩]
      stall := .barrier
      begun := true }))

namespace Sys2Proof.Claims

/-- The offset of a lane: PTR.OFF plus the short operand's element (09 R192). -/
def laneOffsets (c : Ctx) (p : BitVec 5) (b : BitVec 6) : List (Nat × Nat) :=
  ((List.range 128).filter c.active).map fun l => (l, ptrOff (c.readPtr p) + ((c.readB6V b).at l).toNat)

/-- A lane is active. -/
def someActive (c : Ctx) : Bool := (List.range 128).any c.active

end Sys2Proof.Claims

/-- 09 R192; 03 R71-R73, R82: a vector load whose checks pass in every active lane leaves its result pending, a lane's value the
little-endian bytes that the core is served, zero-extended; with no active lane it gives its zeros at once.
The model's part in it: that memory is sampled at issue is the model's choice (assumption 7). -/
def Obligations.VectorLoads : Prop := ∀ (s : State) (c : Ctx) (d : BitVec 8) (p : BitVec 5) (sc : BitVec 3) (o : BitVec 2)
    (b : BitVec 6) (hs : List (Nat × Hit)), Issuing s c → outside c = true → dstV c d = true → ptrFull c p = true →
  shortV c b = true → loadCodes sc o = true → mayAccess s c →
  ∀ x ∈ [(Instr.vld8 d p sc o b, 1), (.vld16 d p sc o b, 2), (.vld32 d p sc o b, 4)],
    (someActive c = false → Vector s c (exec x.1 s) d (fun _ => 0)) ∧
    (someActive c = true → c.checkLanes (c.readPtr p) x.2 [.pr] false true (laneOffsets c p b) = .ok hs →
      s.loadHeld c.id (hs.flatMap fun h => spans h.2.loc x.2) = false →
      ∃ g' t v, Passed c.group g' ∧ OnlyVectors c.group g' ∧ VectorPending c d s.nextId g' ∧ exec x.1 s = .next t ∧
        Loaded s t c (hs.map (·.2)) g' ⟨s.nextId, c.id, .load, .vector v, (List.range 128).map c.active,
          hs.flatMap fun h => spans h.2.loc x.2⟩ ∧
        ∀ l < 128, ∀ h, hs.find? (fun y => decide (y.1 = l)) = some h → ∃ bs : List Byte, bs.length = x.2 ∧
          (∀ i u, bs[i]? = some u → LoadByte s c (o = 1 ∧ 3 ≤ sc.toNat) (hs.map (·.2)) (h.2.loc.plus i) u) ∧
          v.at l = BitVec.ofNat 32 (leNat bs))

/-- 09 R192; 03 R82: a vector store whose checks pass in every active lane, all here: the lanes' bytes stand in memory in
ascending lane order, the lines of the L1 are updated, and no register changes; a constant is an unsigned 32-bit value,
whatever ETYPE says. With no active lane it only goes on.
The model's parts in it: that the stores take effect at issue (assumption 7), and that a constant of D is an unsigned 32-bit value,
read from R192's words that ETYPE has no effect (assumption 18). Lanes homed elsewhere are not stated here. -/
def Obligations.VectorStores : Prop := ∀ (s : State) (c : Ctx) (d : BitVec 8) (p : BitVec 5) (sc : BitVec 3) (o : BitVec 2)
    (b : BitVec 6) (hs : List (Nat × Hit)), Issuing s c → outside c = true → srcVT c .nat32 d = true → ptrFull c p = true →
  shortV c b = true → storeCodes sc o = true → released s c sc o (c.readPtr p) →
  ∀ x ∈ [(Instr.vst8 d p sc o b, 1), (.vst16 d p sc o b, 2), (.vst32 d p sc o b, 4)],
    (someActive c = false → Nothing s c (exec x.1 s)) ∧
    (someActive c = true → c.checkLanes (c.readPtr p) x.2 [.pw] true true (laneOffsets c p b) = .ok hs →
      (∀ h ∈ hs, h.2.dest = none) → s.ownHeld c.id (hs.flatMap fun h => spans h.2.loc x.2) = false →
      ∃ g' t, Passed c.group g' ∧ g' = goneOn c.group g' ∧ exec x.1 s = .next t ∧
        t = { ((s.markHits (hs.map (·.2)) true).storeCells
          (hs.flatMap fun h => cellsAt h.2.loc x.2 ((c.readVT .nat32 d).at h.1).toNat)).setGroup c.id g' with cores := t.cores } ∧
        MemorySame s t (hs.flatMap fun h => spans h.2.loc x.2) (hs.map (·.2)) ∧ CoresSame s t c.core ∧
        LinesUpdated s t c.core (hs.flatMap fun h => spans h.2.loc x.2))

namespace Sys2Proof.Claims

/-- What an atomic writes over a 64-bit location (09 R194): `v` is the operand, `cmp` the compare value. -/
def newWord (op : AtomOp) (old v cmp : W64) : W64 := match op with
  | .add => old + v
  | .min => if v.toInt < old.toInt then v else old
  | .max => if old.toInt < v.toInt then v else old
  | .and => old &&& v
  | .or => old ||| v
  | .xor => old ^^^ v
  | .xchg => v
  | .cas => if old = cmp then v else old

end Sys2Proof.Claims

/-- 09 R194; 03 R82: a scalar atomic on a location of this die: the old value is on its way, the new one stands there at once,
and no line of it is left in the L1.
09 R195: a vector atomic on locations of this die works lane after lane; D receives the old values. With no active lane
it gives its zeros at once.
04 R95; 05 R110: a scalar atomic of another destination travels on C0 with the scope of its acquire.
The model's part in it: that a local atomic takes effect at issue is the model's choice (assumption 7). -/
def Obligations.Atomics : Prop :=
  (∀ (s : State) (c : Ctx) (d : BitVec 8) (p : BitVec 5) (sc : BitVec 3) (o : BitVec 2)
    (b : BitVec 6) (h : Hit), Issuing s c → outside c = true → ptrFull c p = true → shortS c b = true →
  atomCodes sc o = true → released s c sc o (c.readPtr p) →
  s.checkScalar c.launch c.id.team c.die (c.readPtr p) (ptrOff (c.readPtr p)) 8 [.pa] true = .ok h →
  let s1 := s.markHits [h] true
  let old : W64 := BitVec.ofNat 64 (leNat ((spans h.loc 8).map s1.readLoc))
  ∀ x ∈ [(Instr.atadd d p sc o b, AtomOp.add), (.atmin d p sc o b, .min), (.atmax d p sc o b, .max), (.atand d p sc o b, .and),
      (.ator d p sc o b, .or), (.atxor d p sc o b, .xor), (.atxchg d p sc o b, .xchg), (.atcas d p sc o b, .cas)],
    (if x.2 = .cas then namedS c d else dstS c d) = true →
    (h.dest = none → s.ownHeld c.id (spans h.loc 8) = false → ∃ g' t, ScalarPending d s.nextId c.group g' ∧ exec x.1 s = .next t ∧
      t = { (s1.storeCells (cellsAt h.loc 8 (newWord x.2 old (c.readB6S b) (c.readS d)).toNat)).setGroup c.id g' with
        nextId := s.nextId + 1
        cores := t.cores
        flights := s.flights ++ [⟨s.nextId, c.id, .atomic, .scalar old, [], []⟩] } ∧
      MemorySame s t (spans h.loc 8) [h] ∧ CoresSame s t c.core ∧ LinesGone t c.core (spans h.loc 8)) ∧
    (∀ dest s2, h.dest = some dest → c.team.lost.getLsbD 0 = false →
      ({ s1 with nextId := s.nextId + 1 } : State).copyBlocks c.id.team 0 dest s.nextId = false →
      ({ s1 with nextId := s.nextId + 1 } : State).sendOp (.team c.id.team) 0 c.id.group
        (tagOf c (if o = 1 ∨ o = 3 then some sc else none)) dest
        (.atomic [⟨0, h.loc, x.2, .int64, c.readB6S b, if x.2 = .cas then c.readS d else 0, 0, false⟩] (some s.nextId)) = some s2 →
      ∃ g', ScalarPending d s.nextId c.group g' ∧ exec x.1 s = .next { s2.setGroup c.id g' with
        flights := s2.flights ++ [⟨s.nextId, c.id, .atomic, .scalar 0, [], []⟩] })) ∧
  (∀ (s : State) (c : Ctx) (d : BitVec 8) (p : BitVec 5) (sc : BitVec 3) (o : BitVec 2)
    (b : BitVec 6) (hs : List (Nat × Hit)) (ty : AtomType), Issuing s c → outside c = true → namedV c d = true →
  ptrFull c p = true → shortV c b = true → atomCodes sc o = true → released s c sc o (c.readPtr p) →
  (c.ty = .int32 ∧ ty = .int32 ∨ c.ty = .nat32 ∧ ty = .nat32 ∨ c.ty = .fp32 ∧ ty = .fp32) →
  ∀ x ∈ [(Instr.vatadd d p sc o b, AtomOp.add), (.vatmin d p sc o b, .min), (.vatmax d p sc o b, .max),
      (.vatxchg d p sc o b, .xchg), (.vatand d p sc o b, .and), (.vator d p sc o b, .or)],
    (someActive c = false → Vector s c (exec x.1 s) d (fun _ => 0)) ∧
    (someActive c = true → c.checkLanes (c.readPtr p) 4 [.pa] true true (laneOffsets c p b) = .ok hs →
      (∀ h ∈ hs, h.2.dest = none) → s.ownHeld c.id (hs.flatMap fun h => spans h.2.loc 4) = false →
      let r := ({ s.markHits (hs.map (·.2)) true with nextId := s.nextId + 1 } : State).atomAccesses (hs.map fun h =>
        ⟨h.1, h.2.loc, x.2, ty, ((c.readV d).at h.1).zeroExtend 64, 0, c.group.mode.extractLsb' 9 3, c.group.mode.getLsbD 12⟩)
      ∃ g' v t, Passed c.group g' ∧ OnlyVectors c.group g' ∧ VectorPending c d s.nextId g' ∧
        exec x.1 s = .next t ∧ t = { r.2.setGroup c.id g' with
          free := s.free + 1
          cores := t.cores
          flights := s.flights ++ [⟨s.nextId, c.id, .atomic, .vector v, (List.range 128).map c.active, []⟩] } ∧
        CoresSame s t c.core ∧ LinesGone t c.core (hs.flatMap fun h => spans h.2.loc 4) ∧
        ∀ l < 128, ∀ k, hs.findIdx? (fun y => decide (y.1 = l)) = some k → v.at l = (r.1.getD k 0).truncate 32))

/-- 09 R200-R202: CST and CATOM on a channel: the operation is sent on the channel named to the port of its home, with the
colour of MODE (04 R93); CATOM's old value is pending on the queue. In the vector CST lane l stores at A.OFF + n·l, the lanes of
one 256-byte block as one operation, and with no active lane it only goes on.
09 R204; 05 R119, R120: CJOIN makes later operations on one channel follow the unacknowledged ones of another and never
waits; CDRAIN goes on once every operation of its channel is acknowledged, the chunks of copies included, and waits with no
other effect until then. -/
def Obligations.ChannelOperations : Prop :=
  (∀ (s : State) (c : Ctx) (ch x : BitVec 4) (a b : BitVec 8) (h : Hit)
    (hs : List (Nat × Hit)) (s1 : State), Issuing s c → srcS c a = true → mayAccess s c →
  let op : AtomOp := [AtomOp.add, .min, .max, .and, .or, .xor, .xchg].getD x.toNat .xchg
  (srcS c b = true → c.team.lost.getLsbD ch.toNat = false →
  (s.markHits [h] true).copyBlocks c.id.team ch.toNat h.home s.nextId = false →
  (x.toNat < 4 →
    s.checkScalar c.launch c.id.team c.die (c.readS a) (ptrOff (c.readS a)) (2 ^ x.toNat) [.pm, .pw] true = .ok h →
    (s.markHits [h] true).sendOp (.team c.id.team) ch.toNat c.id.group (tagAt c h) h.home
      (.store (cellsAt h.loc (2 ^ x.toNat) (c.readS b).toNat)) = some s1 →
    ∃ g', Passed c.group g' ∧ g' = goneOn c.group g' ∧ exec (.cst ch x a b) s = .next (s1.setGroup c.id g')) ∧
  (x.toNat < 7 → outside c = true →
    s.checkScalar c.launch c.id.team c.die (c.readS a) (ptrOff (c.readS a)) 8 [.pm, .pa] true = .ok h →
    ({ s.markHits [h] true with nextId := s.nextId + 1 } : State).sendOp (.team c.id.team) ch.toNat c.id.group (tagAt c h) h.home
      (.atomic [⟨0, h.loc, op, .int64, c.readS b, 0, 0, false⟩] (some s.nextId)) = some s1 →
    ∃ g', ScalarPending 0xFF s.nextId c.group g' ∧ exec (.catom ch x a b) s = .next { s1.setGroup c.id g' with
      flights := s1.flights ++ [⟨s.nextId, c.id, .engine, .scalar 0, [], []⟩] })) ∧
  (outside c = true → 4 ≤ x.toNat → x.toNat < 7 → srcV c b = true →
  let n := 2 ^ (x.toNat - 4)
  let at' := ptrOff (c.readS a)
  let s0 := s.markHits (hs.map (·.2)) true
  (someActive c = false → Nothing s c (exec (.cst ch x a b) s)) ∧
  (someActive c = true → c.team.lost.getLsbD ch.toNat = false →
    c.checkLanes (c.readS a) n [.pm, .pw] true false (((List.range 128).filter c.active).map fun l => (l, at' + n * l)) = .ok hs →
    (∀ y ∈ cstChunks at' n (c.readV b) hs, s0.copyBlocks c.id.team ch.toNat y.dest s.nextId = false) →
    s0.sendOps (.team c.id.team) ch.toNat c.id.group (tagOf c none) (cstChunks at' n (c.readV b) hs) = some s1 →
    ∃ g', Passed c.group g' ∧ g' = goneOn c.group g' ∧ exec (.cst ch x a b) s = .next (s1.setGroup c.id g')))) ∧
  (∀ (s : State) (c : Ctx) (ch x : BitVec 4), Issuing s c →
  (outside c = true → ∃ g', Passed c.group g' ∧ g' = goneOn c.group g' ∧
    exec (.cjoin ch x) s = .next (((if s.unackedOn c.id.team x.toNat = [] then s
      else s.mapChan (.team c.id.team) ch.toNat fun y =>
        { y with joins := s.stillUnacked y.joins ++ s.unackedOn c.id.team x.toNat })).setGroup c.id g')) ∧
  (c.team.lost.getLsbD ch.toNat = true → exec (.cdrain ch) s = .next (s.deliver c.id
    (.channelLost ch.toNat (s.chstat c.team)) false (wordOf (.cdrain ch)))) ∧
  (c.team.lost.getLsbD ch.toNat = false → c.group.heldHere = none →
    (s.unackedOn c.id.team ch.toNat = [] → Nothing s c (exec (.cdrain ch) s)) ∧
    (s.unackedOn c.id.team ch.toNat ≠ [] → exec (.cdrain ch) s = .next (s.setGroup c.id { c.group with
      held := (c.group.held.filter fun h => decide (h.inTrap ≠ c.group.inTrap)) ++
        [⟨c.group.inTrap, c.group.pc, .draining (s.unackedOn c.id.team ch.toNat)⟩]
      stall := .barrier
      begun := true }))))

/-- 09 R193, R197, R198; 13 R269; 04 R94, R95: VPREF and NOP only go on, and so does ICINV of no bytes, or of a range whose
checks pass while no operation of the team is unacknowledged. FENCE goes on, giving up the lines of the L1 at CLUSTER scope or
wider, once the group's own operations of its colours are performed, and waits until then. (That instruction caches are no
state is assumption 7.) -/
def Obligations.OnlyGoOn : Prop := ∀ (s : State) (c : Ctx) (m x y : BitVec 8) (sc : BitVec 3) (p : BitVec 5) (b : BitVec 6)
    (v : SegView), Issuing s c →
  (srcS c x = true → srcS c y = true → (c.readS y ≠ 0 → c.group.heldHere = none ∧
      checkSeg c.launch (ptrSeg (c.readS x)) (c.readS x) [.px, .pc] false 0 0 = .ok v ∧ ptrOff (c.readS x) + (c.readS y).toNat ≤ v.limit ∧
      c.team.lost = 0 ∧ s.unackedOf c.id.team = []) →
    Nothing s c (exec (.icinv x y) s)) ∧
  (sc ≠ 7 → mayRelease s c m → ∃ g', Passed c.group g' ∧ g' = goneOn c.group g' ∧ exec (.fence m sc) s =
    .next ((if 3 ≤ sc.toNat then s.mapCore c.core (fun k => { k with l1 := [] }) else s).setGroup c.id g')) ∧
  (sc ≠ 7 → ¬ mayRelease s c m → Waits s c (exec (.fence m sc) s) .waits) ∧
  Nothing s c (exec .nop s) ∧
  (outside c = true → ptrFull c p = true → shortV c b = true → Nothing s c (exec (.vpref p 0 0 b) s))

/-! The matrix stream and array (spec 10). -/

namespace Sys2Proof.Claims

/-- The stream instruction has issued: the sequencer is as `q'` says, at the next word; nothing else of the module changes. -/
def Streams (s : State) (t : Team) (r : Res) (q' : Sequencer) : Prop :=
  r = .next (s.setTeam { t with seq := some { q' with spc := q'.spc + 4 } })

/-- The operation has joined the open batch, oldest first (10 R208, R220). -/
def queued (q : Sequencer) (op : StreamOp) : Sequencer :=
  { q with ops := q.ops ++ [(q.closed + 1, op)], opened := true }

/-- No MSTORE of the stream is still to write the scratchpad (10 R208). -/
def stored (q : Sequencer) : Prop := ∀ x ∈ q.ops, ∀ t m o d, x.2 ≠ .mstore t m o d

end Sys2Proof.Claims

/-- 10 R208, R215-R219: the stream instructions that sample a descriptor, once no MSTORE is still to write, or queue an operation
of the array or a port; an MMA with its operands that a group wrote and did not publish (R224).
10 R220-R222: batches, barriers, branches and the end of the stream. -/
def Obligations.StreamInstructions : Prop :=
  (∀ (s : State) (id : TeamId) (t : Team) (l : Launch) (q : Sequencer)
    (ti fi mi hi : BitVec 2) (v p : BitVec 7) (o h : BitVec 1) (g : BitVec 4) (sl : BitVec 3) (n : BitVec 16),
  Streaming s id t l q → ti.toNat < l.krec.nt →
  let fb := q.f.getD fi.toNat 0
  let mb := q.m.getD mi.toNat 0
  (stored q → 16 * n.toNat + 16 ≤ l.krec.spadsz →
    Streams s t (exec (.mmap mi n) s) { q with m := q.m.set mi.toNat (BitVec.ofNat 128 (leNat (t.spad.readBytes (16 * n.toNat) 16))) }) ∧
  (stored q → 32 * n.toNat + 32 ≤ l.krec.spadsz →
    formatOk (BitVec.ofNat 256 (leNat (t.spad.readBytes (32 * n.toNat) 32))) = true →
    Streams s t (exec (.mfmt fi n) s) { q with f := q.f.set fi.toNat (BitVec.ofNat 256 (leNat (t.spad.readBytes (32 * n.toNat) 32))) }) ∧
  Streams s t (exec (.mzero ti) s) (queued q (.mzero ti.toNat)) ∧
  (1 ≤ p.toNat → p.toNat ≤ 64 → MapBlock.fmt mb = FormatBlock.afmt fb → MapBlock.reserved mb = false →
    1 ≤ MapBlock.kext mb → MapBlock.kext mb ≤ 4096 → mmaInBounds fb mb l.krec.spadsz = true →
    4 * hi.toNat + 3 < groupCount l.krec.lanes →
    (∀ k < 4, v.toNat + quarterRegs fb mb ≤ t.budgetOf l (4 * hi.toNat + k)) →
    ∃ e : List OpPlace, (∀ x, x ∈ e ↔ (∃ w ∈ q.unread, w.place = x) ∧
      LiveMma.reads ⟨q.closed + 1, ti.toNat, fb, mb, hi.toNat, v.toNat, p.toNat, []⟩ x = true) ∧
    Streams s t (exec (.mma ti fi mi hi v p) s) { queued q (.mma ti.toNat fb mb hi.toNat v.toNat p.toNat) with
      live := q.live ++ [⟨q.closed + 1, ti.toNat, fb, mb, hi.toNat, v.toNat, p.toNat, e⟩] }) ∧
  ((o = 0 → h = 0) → (o = 1 → sl.toNat ≤ 3) → g.toNat < groupCount l.krec.lanes → v.toNat + 32 ≤ t.budgetOf l g.toNat →
    Streams s t (exec (.mxread ti o g h v sl) s)
      (queued q (.mxread ti.toNat (decide (o = 1)) g.toNat (decide (h = 1)) v.toNat sl.toNat))) ∧
  (fi.toNat ≤ 2 → mstoreInBounds mb fi.toNat l.krec.spadsz = true →
    Streams s t (exec (.mstore ti mi fi) s) (queued q (.mstore ti.toNat mb fi.toNat [])))) ∧
  (∀ (s : State) (id : TeamId) (t : Team) (l : Launch) (q : Sequencer) (n : BitVec 4)
    (o : BitVec 16) (lc : BitVec 2) (o8 i8 : BitVec 8) (h : Hit) (B : Barrier), Streaming s id t l q →
  let goes (r : Res) (q' : Sequencer) (off : Int) : Prop := 0 ≤ (ptrOff q.spc : Int) + 4 * off →
    (ptrOff q.spc : Int) + 4 * off < 2 ^ 48 →
    s.checkFetch l id (dieOfCore (t.core?.getD 0)) (mkPtr (ptrSeg q.spc) ((ptrOff q.spc : Int) + 4 * off).toNat) = .ok h →
    r = .next ((s.markHits [h] false).setTeam { t with seq := some { q' with
      spc := mkPtr (ptrSeg q.spc) ((ptrOff q.spc : Int) + 4 * off).toNat } })
  let count : W32 := if q.lc.getD lc.toNat 0 = 0 then BitVec.ofNat 32 (leNat (t.spad.readBytes (4 * i8.toNat) 4))
    else q.lc.getD lc.toNat 0
  Streams s t (exec .mfence s) { q with closed := q.closed + 1, opened := false } ∧
  (q.owe.getD n.toNat 0 ≠ 0 → Streams s t (exec (.mbarwait n) s)
    (heard n.toNat { q with owe := q.owe.set n.toNat (q.owe.getD n.toNat 0 - 1) })) ∧
  (q.owe.getD n.toNat 0 = 0 → exec (.mbarwait n) s =
    .next (s.setTeam { t with seq := some { q with sqstate := .wait, waitBar := some n.toNat } })) ∧
  (t.bars[n.toNat]? = some B → B.arrSeq = false → q.ops = [] → B.count + 1 ≠ B.exp → exec (.mbararr n) s =
    .next (s.setTeam { t with seq := some { q with spc := q.spc + 4 },
                              bars := t.bars.set n.toNat { B with arrSeq := true, count := B.count + 1 } })) ∧
  (t.bars[n.toNat]? = some B → q.ops ≠ [] → exec (.mbararr n) s = .next s) ∧
  goes (exec (.mbra o) s) q o.toInt ∧
  (q.lc.getD lc.toNat 0 ≠ 0 ∨ (stored q ∧ 4 * i8.toNat + 4 ≤ l.krec.spadsz) →
    (count.toNat ≤ 1 → Streams s t (exec (.mloop lc o8 i8) s) { q with lc := q.lc.set lc.toNat 0 }) ∧
    (1 < count.toNat → goes (exec (.mloop lc o8 i8) s) { q with lc := q.lc.set lc.toNat (count - 1) } o8.toInt)) ∧
  (q.opened = false → q.doneb = q.closed →
    exec .mend s = .next (s.setTeam { t with seq := some { q with sqstate := .ended, ending := false } })) ∧
  (q.opened = true → q.doneb ≠ q.closed + 1 →
    exec .mend s = .next (s.setTeam { t with seq := some { q with closed := q.closed + 1, opened := false, ending := true } })))

/-- 10 R208, R216-R220: the array and the ports take the oldest operation, and a batch is done when none of its operations
is left; an MSTORE stores all that it has still to store, or some elements and goes on (04 R103). An MMA's columns that read an undefined register are not stated (10 R212), nor its elements with an operand that a
group wrote too early (04 R103, 10 R224).
The model's parts in it: that operands are read at execution (assumption 25), and the order of elements in `mstoreSpad` where stored
rows overlap (assumption 97). -/
def Obligations.ArrayAndPorts : Prop := ∀ (s : State) (L T : Nat) (t : Team) (q : Sequencer) (b : W32) (op : StreamOp)
    (rest : List (W32 × StreamOp)), s.team? ⟨L, T⟩ = some t → t.seq = some q →
  let after (t' : Team) (q' : Sequencer) : State := s.setTeam { t' with seq := some { q' with ops := rest } }
  let executed := q.live.length - (q.ops.filter fun x => match x.2 with
    | .mma _ _ _ _ _ _ => true
    | _ => false).length
  let taken : Sequencer := { q with outs := q.outs ++ [(b, op)] }
  (q.ops = (b, op) :: rest →
    (∀ tile, op = .mzero tile → exec (.mmaArrayExecute L T) s = .next (after { t with tiles := t.tiles.set tile tileZero }
      { q with live := (q.live.take executed).filter (fun m => decide (m.tile ≠ tile)) ++ q.live.drop executed })) ∧
    (∀ tile f m hs vb p, op = .mma tile f m hs vb p → ∃ new, exec (.mmaArrayExecute L T) s =
        .next { after { t with tiles := t.tiles.set tile new } q with free := s.free + 1 } ∧ new.length = 256 ∧
      let w := fmtWidth (FormatBlock.bfmt f)
      ∀ j < 256, (∀ k < MapBlock.kext m, ∀ e < w,
        t.regReady (4 * hs + j / 64) (vb + ((64 * k + j % 64) * w + e) / 4096) = true) → ∀ i < 128,
        (∀ x, q.live[executed]? = some x → ∀ y ∈ x.early, x.touches y i j = false) →
        (new.getD j Lanes.zero).at i = mmaElem f (MapBlock.kext m) p (fun k => aElem t.spad f m i k)
          (fun k => bElem t.spad (t.reg (4 * hs + j / 64)) f vb k j)
          (((t.tiles.getD tile tileZero).getD j Lanes.zero).at i)) ∧
    (∀ tile m outf d, op = .mstore tile m outf d →
      let stores (now : Nat → Bool) : Team := { t with spad := mstoreSpad t.spad (t.tiles.getD tile tileZero) m outf now }
      exec (.mxreadMstoreExecute L ⟨T, none⟩) s = .next (after (stores fun e => !d.contains e)
        { q with outs := q.outs ++ [(b, .mstore tile m outf [])] }) ∧
      ∀ js : List Nat, exec (.mxreadMstoreExecute L ⟨T, some js⟩) s = .next (s.setTeam
        { stores (fun e => js.contains e && !d.contains e) with
          seq := some { q with ops := (b, .mstore tile m outf (d ++ js)) :: rest } })) ∧
    (∀ tile port grp h vd sl x, op = .mxread tile port grp h vd sl → t.groups[grp]? = some x →
      (∀ k < 32, t.regReady grp (vd + k) = true) → ∃ y, exec (.mxreadMstoreExecute L ⟨T, none⟩) s =
        .next (after { t with groups := t.groups.set grp y } taken) ∧ y = { x with vregs := y.vregs } ∧
        y.vregs.length = x.vregs.length ∧
        ∀ k r, x.vregs[k]? = some r → y.vregs[k]? = some (if vd ≤ k ∧ k < vd + 32
          then ⟨mxreadReg (t.tiles.getD tile tileZero) port h sl (k - vd), r.pend⟩ else r))) ∧
  (q.doneb ≠ q.closed → (∀ x ∈ q.ops, x.1 ≠ q.doneb + 1) → q.ending = false → ∃ s', exec (.batchComplete L T) s = .next s' ∧
    s'.team? ⟨L, T⟩ = some { t with seq := some { q with doneb := q.doneb + 1 } } ∧ s' = { s with teams := s'.teams } ∧
    ∀ id, id ≠ ⟨L, T⟩ → s'.team? id = s.team? id)

/-! Nectar (spec 11). -/

namespace Sys2Proof.Claims

/-- The Nectar state of a lane. -/
def laneOf (c : Ctx) (n : BitVec 2) (l : Nat) : LaneN := (c.group.ns.getD n.toNat NState.cleared).lane l

/-- NSn after the instruction: what `f` gives in the active lanes, and as it was in the others. -/
def NectarWritten (c : Ctx) (n : BitVec 2) (f : Nat → LaneN) (g' : Group) : Prop :=
  ∃ x : NState, g'.ns = c.group.ns.set n.toNat x ∧ ∀ l < 128, x.lane l =
    if c.active l then ⟨xOf (xBits (f l).x), (BitVec.ofNat 32 (f l).s).toNat, (BitVec.ofNat 32 (f l).n).toNat, (f l).m⟩
    else laneOf c n l

/-- The same with the counter of the free values moved on. -/
def Loads (s : State) (c : Ctx) (r : Res) (n : BitVec 2) (f : Nat → LaneN) : Prop :=
  GroupFree s c r fun g g' => Passed g g' ∧ g' = { goneOn g g' with ns := g'.ns } ∧ NectarWritten c n f g'

/-- The instruction changes the Nectar state NSn alone. -/
def Accumulates (s : State) (c : Ctx) (r : Res) (n : BitVec 2) (f : Nat → LaneN) : Prop :=
  GroupOnly s c r fun g g' => Passed g g' ∧ g' = { goneOn g g' with ns := g'.ns } ∧ NectarWritten c n f g'

/-- The element of a named vector register; of one that an MXREAD of a batch which the group has not passed writes, a free value (10
R224). -/
def regElem (c : Ctx) (r l : Nat) : W32 :=
  if c.tooEarly (BitVec.ofNat 8 r) = true then Config.undefElem c.s.free (128 * r + l)
  else ((c.group.vregs.getD r ⟨Lanes.zero, none⟩).val).at l

/-- The record in named vector registers from `v`, M as given (11 R238). -/
def recordAt (c : Ctx) (v : BitVec 7) (l : Nat) (m : W32) : LaneN :=
  ⟨xOf (regElem c v.toNat l), (regElem c (v.toNat + 1) l).toNat, (regElem c (v.toNat + 2) l).toNat, m⟩

/-- FAMILY and SHAPE admit an evaluation (11 R232, 07 R157): a power family whose SHAPE is no NaN, the exponential family with a
SHAPE that is finite and not zero, or a user pair that is loaded. -/
def admitted (c : Ctx) : Prop :=
  (c.group.family = 0 ∧ fp32.decode c.group.shape.toNat ≠ .nan) ∨
  (c.group.family = 1 ∧ ∃ neg m e, fp32.decode c.group.shape.toNat = .fin neg m e ∧ m ≠ 0) ∨
  (c.group.family = 2 ∧ c.group.user.isSome = true)

/-- The sign of the extremum family that FAMILY and SHAPE choose, if they do: true for SHAPE = −∞ (11 R229). -/
def extremum (c : Ctx) : Option Bool :=
  if c.group.family = 0 then match fp32.decode c.group.shape.toNat with
    | .inf neg => some neg
    | _ => none
  else none

/-- The user pair that NTABLE reads from V(v) onwards and S(b), S(b + 1) (11 R235); the coefficients of an absent lane are not
stated (01 R11). -/
def PairRead (c : Ctx) (v : BitVec 7) (b : BitVec 8) (u : UserPair) : Prop :=
  u.entry.length = 256 ∧ u.exit.length = 256 ∧
  (∀ k < 256, c.absent (k % 128) = false → u.entry[k]? = some (regElem c (v.toNat + k / 128) (k % 128)) ∧
    u.exit[k]? = some (regElem c (v.toNat + 2 + k / 128) (k % 128))) ∧
  u.dlo = (c.readS b).truncate 32 ∧ u.dhi = (c.readS b >>> 32).truncate 32 ∧
  u.elo = (c.readS (b + 1)).truncate 32 ∧ u.ehi = (c.readS (b + 1) >>> 32).truncate 32

/-- The monotone check of an entry table in one direction, on exact coefficients in units of 2^-149 (11 R235). -/
def Monotone (sg : Int) (tab : List W32) : Prop :=
  let c (i j : Nat) : ℚ := fixed (tab.getD (4 * i + j) 0)
  let slope (i : Nat) (t : ℚ) : ℚ := c i 1 + 2 * c i 2 * t + 3 * c i 3 * t ^ 2
  (∀ i < 64, 0 ≤ sg * slope i 0 ∧ 0 ≤ sg * slope i 1 ∧
    (c i 3 ≠ 0 → 0 < -(c i 2) / (3 * c i 3) → -(c i 2) / (3 * c i 3) < 1 → 0 ≤ sg * slope i (-(c i 2) / (3 * c i 3)))) ∧
  (∀ i < 63, 0 ≤ sg * (c (i + 1) 0 - (c i 0 + c i 1 + c i 2 + c i 3))) ∧
  0 < sg * (c 63 0 + c 63 1 + c 63 2 + c 63 3 - c 0 0)

/-- The status of NTABLE (11 R235). -/
def PairStatus (u : UserPair) (st : Nat) : Prop :=
  let finite (w : W32) : Prop := ∃ neg m e, fp32.decode w.toNat = .fin neg m e
  let sound : Prop := (∀ w ∈ u.entry ++ u.exit ++ [u.dlo, u.dhi, u.elo, u.ehi], finite w) ∧ fixed u.dlo < fixed u.dhi ∧
    fixed u.elo < fixed u.ehi
  (¬ sound → st = 2) ∧ (sound → ¬ (Monotone 1 u.entry ∨ Monotone (-1) u.entry) → st = 1) ∧
  (sound → (Monotone 1 u.entry ∨ Monotone (-1) u.entry) → st = 0)

/-- What a unit answers as the sub-element `w`: its value, or the canonical NaN for a domain error; a value that the spec does
not state may be anything. -/
def unitResult (c : Ctx) (r : NRes) (w : Nat) : Prop := match r with
  | .val v => w = v
  | .err => w = c.fmt.nan
  | .open => True

end Sys2Proof.Claims

/-- 11 R227, R232, R233, R235-R238: the ten Nectar instructions. NACC, NSELECT, NCLEAR, NLOAD and NMERGE change Nectar state or the
family, in the active lanes alone; NSAVE writes the record into its four registers; NTABLE reads the pair and its bounds, loads
it when it is finite, ordered and monotone, and gives the status. NRESCALE gives its factor at once and saves X as M; NEVAL and
NFIN give theirs through a pending result (06 R135), NFIN with its predicate: a domain error faults with the lanes in error, and
under MODE.DPOL gives the canonical NaN. Where FAMILY and SHAPE admit it, no lane in error faults and the operands are legal
and full, each of the ten answers a next state.
The model's parts in it: rounding is by bounds (assumption 8), an unstated result free (assumption 3); NEVAL of an exponent outside
the range and of an infinite S is `LaneN.eval`'s (assumption 99). -/
def Obligations.NectarInstructions : Prop :=
  (∀ (s : State) (c : Ctx) (k : BitVec 1) (n f : BitVec 2) (m : BitVec 4) (v : BitVec 7)
    (d a b : BitVec 8), Issuing s c → outside c = true →
  (srcV c a = true → (k = 1 → srcV c b = true) → isF c.ty = true → admitted c →
    let terms (l : Nat) : List Fp := c.subVals ((c.readV a).at l) ++ (if k = 1 then c.subVals ((c.readV b).at l) else [])
    let bad (l : Nat) : Bool := c.active l && ((laneOf c n l).terms c.fam (terms l)).2
    ((modeDpol c.group.mode = true ∨ ∀ l < 128, bad l = false) →
      Accumulates s c (exec (.nacc k n a b) s) n (fun l => ((laneOf c n l).terms c.fam (terms l)).1)) ∧
    (modeDpol c.group.mode = false → (∃ l < 128, bad l = true) → exec (.nacc k n a b) s = .next (s.deliver c.id
      (.domain n.toNat (wordOf (.nacc k n a b)) (laneMask bad).1 (laneMask bad).2) false (wordOf (.nacc k n a b))))) ∧
  (f ≠ 3 → (f = 2 → c.group.user.isSome = true) → GroupOnly s c (exec (.nselect f) s) fun g g' =>
    Passed g g' ∧ g' = { goneOn g g' with family := f }) ∧
  (GroupOnly s c (exec (.nclear m) s) fun g g' => Passed g g' ∧ g' = { goneOn g g' with ns := g'.ns } ∧
    g'.ns.length = g.ns.length ∧ ∀ j x, g.ns[j]? = some x → ∃ y, g'.ns[j]? = some y ∧
      (m.getLsbD j = false → y = x) ∧ (m.getLsbD j = true → ∀ l < 128, y.lane l =
        if c.active l then ⟨none, 0, 0, 0x80000000⟩ else x.lane l)) ∧
  (rangeV c v 4 = true → Loads s c (exec (.nload n v) s) n (fun l => recordAt c v l (regElem c (v.toNat + 3) l))) ∧
  (rangeV c v 3 = true → Loads s c (exec (.nmerge n v) s) n (fun l =>
    (laneOf c n l).merge (extremum c) (recordAt c v l 0))) ∧
  (rangeV c v 4 = true → GroupFree s c (exec (.nsave v n) s) fun g g' => Passed g g' ∧ g' = { goneOn g g' with vregs := g'.vregs } ∧
    g'.vregs.length = g.vregs.length ∧ ∀ j x, g.vregs[j]? = some x → ∃ y, g'.vregs[j]? = some y ∧
      ((j < v.toNat ∨ v.toNat + 4 ≤ j) → y = x) ∧
      (v.toNat ≤ j → j < v.toNat + 4 → y.pend = x.pend ∧ y.val.length = 128 ∧ ∀ l < 128, c.absent l = false → y.val.at l =
        if c.active l then ([xBits (laneOf c n l).x, BitVec.ofNat 32 (laneOf c n l).s, BitVec.ofNat 32 (laneOf c n l).n,
          (laneOf c n l).m] : List W32).getD (j - v.toNat) 0 else x.val.at l)) ∧
  (dstS c d = true → rangeV c v 4 = true → pairS c b = true → ∃ (u : UserPair) (st : Nat), PairRead c v b u ∧ PairStatus u st ∧
    GroupFree s c (exec (.ntable d v b) s) fun g g' => Passed g g' ∧
      g' = { goneOn g g' with sregs := g'.sregs, squeue := g'.squeue, user := g'.user } ∧
      g'.user = (if st = 0 then some u else g.user) ∧ PushedS g g' ⟨BitVec.ofNat 64 st, none⟩ ∧
      g'.sregs = if d.toNat < 128 then g.sregs.set d.toNat ⟨BitVec.ofNat 64 st, none⟩ else g.sregs)) ∧
  (∀ (s : State) (c : Ctx) (k t : BitVec 1) (n : BitVec 2) (p : BitVec 3) (d a : BitVec 8), Issuing s c → outside c = true →
  dstV c d = true → isF c.ty = true →
  let pend (r : Res) (preds : List (BitVec 8) → Prop) (f : Nat → W32 → Prop) : Prop :=
    ∃ g' v, Passed c.group g' ∧ g' = { goneOn c.group g' with vregs := g'.vregs, vqueue := g'.vqueue, preds := g'.preds } ∧
      VectorPending c d s.nextId g' ∧ preds g'.preds ∧
      r = .next { s.setGroup c.id g' with
        free := s.free + 1
        nextId := s.nextId + 1
        flights := s.flights ++ [⟨s.nextId, c.id, .nectar, .vector v, (List.range 128).map c.active, []⟩] } ∧
      ∀ l < 128, c.active l = true → f l (v.at l)
  let faults (i : Instr) (bad : Nat → Bool) : Prop := exec i s = .next (s.deliver c.id
    (.domain n.toNat (wordOf i) (laneMask bad).1 (laneMask bad).2) false (wordOf i))
  GroupFree s c (exec (.nrescale d n) s) (fun g g' => Passed g g' ∧
    g' = { goneOn g g' with vregs := g'.vregs, vqueue := g'.vqueue, ns := g'.ns } ∧
    VectorWritten c d (fun l => everywhere c ((laneOf c n l).factor c.fmt c.rnd c.sat)) g' ∧
    ∃ x, g'.ns = g.ns.set n.toNat x ∧ ∀ l < 128, x.lane l =
      if c.active l then { laneOf c n l with m := xBits (laneOf c n l).x } else laneOf c n l) ∧
  (admitted c →
  (srcV c a = true →
    let result (l : Nat) (x : Fp) : NRes := (laneOf c n l).eval c.fam (decide (k = 1)) c.fmt c.rnd c.sat x
    let bad (l : Nat) : Bool := c.active l && (c.subVals ((c.readV a).at l)).any fun x => decide (result l x = .err)
    ((modeDpol c.group.mode = true ∨ ∀ l < 128, bad l = false) →
      pend (exec (.neval d a k n) s) (fun ps => ps = c.group.preds) (fun l w => ∃ ws, w = c.ty.join ws ∧
        List.Forall₂ (unitResult c) ((c.subVals ((c.readV a).at l)).map (result l)) ws)) ∧
    (modeDpol c.group.mode = false → (∃ l < 128, bad l = true) → faults (.neval d a k n) bad)) ∧
  (let result (l : Nat) : NRes := (laneOf c n l).finish c.fam (decide (t = 1)) c.fmt c.rnd c.sat
   let bad (l : Nat) : Bool := c.active l && decide (result l = .err)
   ((modeDpol c.group.mode = true ∨ ∀ l < 128, bad l = false) →
    pend (exec (.nfin d p t n) s)
      (fun ps => ps.length = 128 ∧ ∀ l < 128, ∀ j < 8, (ps.getD l 0).getLsbD j =
        if j = p.toNat ∧ c.active l = true then (laneOf c n l).x.isNone else (c.group.preds.getD l 0).getLsbD j)
      (fun l w => ∃ x, w = everywhere c x ∧ unitResult c (result l) x)) ∧
   (modeDpol c.group.mode = false → (∃ l < 128, bad l = true) → faults (.nfin d p t n) bad)))) ∧
  (∀ (s : State) (c : Ctx) (k t : BitVec 1) (n f : BitVec 2) (m : BitVec 4) (v : BitVec 7) (p : BitVec 3) (d a b : BitVec 8),
  Issuing s c → outside c = true →
  let goes (i : Instr) : Prop := ∃ u, exec i s = .next u
  goes (.nclear m) ∧ (f ≠ 3 → (f = 2 → c.group.user.isSome = true) → goes (.nselect f)) ∧
  (rangeV c v 4 = true → goes (.nload n v) ∧ goes (.nsave v n)) ∧ (rangeV c v 3 = true → goes (.nmerge n v)) ∧
  (dstS c d = true → rangeV c v 4 = true → pairS c b = true → goes (.ntable d v b)) ∧
  (isF c.ty = true → dstV c d = true → goes (.nrescale d n)) ∧
  (isF c.ty = true → admitted c → modeDpol c.group.mode = true →
    (srcV c a = true → (k = 1 → srcV c b = true) → goes (.nacc k n a b)) ∧
    (dstV c d = true → (srcV c a = true → goes (.neval d a k n)) ∧ goes (.nfin d p t n))))

/-! Engines (spec 12) and traps (spec 13). -/

/-- 12 R243, R260, R262, R263; 09 R203; 10 R223: the instructions that ask an engine, wait for a flag or a batch, or hint. A
copy's checks are those of R70 over both ranges; it resolves its windows at its start (03 R74). WAITA reads its flag as an
acquire, and a group that parks leaves the active set (01 R38). LWAKE brings the links of the path up for 20 µs and MHINT
records a hint that is not void. MWAIT goes on when its batch is done or the stream has ended, waits while it runs, and finds
STREAM pending when it has stopped.
The model's part in it: the reading of a copy's own checks and of LWAKE's paths is an inference (assumptions 5, 22,
23). -/
def Obligations.EngineInstructions : Prop := ∀ (s : State) (c : Ctx) (ch : BitVec 4) (d a b : BitVec 8) (h : Hit) (q : Sequencer)
    (v : SegView), Issuing s c → outside c = true → srcS c a = true →
  let n := (c.readS (b + 1)).toNat
  let place (p : W64) : Option WindowAt := (s.windowOf c.launch c.id.team c.die (ptrSeg p) (ptrOff p) n).bind Window.place?
  let code (p : W64) : BitVec 8 := s.windowCode c.launch c.id.team c.die (ptrSeg p) (ptrOff p) n
  let copy (chan : Nat) (always : Bool) : CopyCmd := ⟨s.nextId, c.id, chan, always, none, none, c.readS b, c.readS a, n, 0,
    firstCode [code (c.readS b), code (c.readS a)], false,
    place (c.readS b), place (c.readS a), none, (c.team.chans.getD chan Channel.empty).joins, []⟩
  let copied (r : Res) (d' : BitVec 8) (chan : Nat) (always : Bool) : Prop :=
    (n = 0 → Scalar s c r d' 0) ∧
    (0 < n → n ≤ 2 ^ 32 →
      checkCopy c.launch (!always) (c.readS b) (c.readS a) n (if always then [.pm, .pw] else [.pw]) = .ok () →
      c.team.lost.getLsbD chan = false →
      ∃ g', ScalarPending d' s.nextId c.group g' ∧ r = .next { s.setGroup c.id g' with
        nextId := s.nextId + 1
        copies := s.copies ++ [copy chan always] })
  let p := c.readS a
  let m : W64 := BitVec.ofNat 64 (leNat ((spans h.loc 8).map (s.markHits [h] false).readLoc))
  let readable : Prop := c.launch.seg? (ptrSeg p) = some v ∧ v.space ≠ .priv ∧ v.space ≠ .window ∧ Right.pr ∈ v.rights
  (dstS c d = true → pairS c b = true → mayAccess s c → mayRelease s c 0xFF → copied (exec (.copy d a b) s) d 0 false) ∧
  (pairS c b = true → mayAccess s c → mayRelease s c 0xFF → copied (exec (.ccopy ch a b) s) 0xFF ch.toNat true) ∧
  (dstS c d = true → srcS c b = true → mayAccess s c →
    s.checkScalar c.launch c.id.team c.die p (ptrOff p) 8 [.pr] false = .ok h → s.loadHeld c.id (spans h.loc 8) = false →
    ((m - c.readS b).toNat < 2 ^ 63 → ∃ g' t, ScalarResult d m c.group g' ∧ exec (.waita d a b) s = .next t ∧
      Sampled s t (s.setGroup c.id g') [h] ∧ CoresSame s t c.core) ∧
    (2 ^ 63 ≤ (m - c.readS b).toNat → c.launch.dieLost = false → ∃ t, exec (.waita d a b) s = .next t ∧
      Sampled s t (s.setGroup c.id { c.group with run := .parked p (c.readS b) s.clock.gtime }) [h] ∧
      ∀ (k : Nat) (x : Core), s.cores[k]? = some x → ∃ y : Core, t.cores[k]? = some y ∧ (k ≠ c.core → y = x) ∧
        (k = c.core → y = { x with
          l1 := y.l1
          active := x.active.filter (fun e => decide (e.group ≠ c.id))
          pending := x.pending ++ (x.active.filter fun e => decide (e.group = c.id)).map
            (fun e => { e with since := s.clock.tick, starved := false, kept := false }) })) ∧
    (2 ^ 63 ≤ (m - c.readS b).toNat → c.launch.dieLost = true → exec (.waita d a b) s =
      .next (s.deliver c.id .barrierLost false (wordOf (.waita d a b))))) ∧
  (readable → ptrOff p < v.limit → s.translate c.launch c.id.team c.die v (ptrOff p) false = .ok h → h.home ≠ .die c.die →
    ∃ g', Passed c.group g' ∧ g' = goneOn c.group g' ∧ exec (.lwake a) s = .next { s.setGroup c.id g' with
      links := s.links.zipIdx.map (fun x => if x.1.up = true ∧ Config.onPath c.die h.home.code x.2 = true then
        { x.1 with state := .full, holdUntil := s.clock.gtime + 20000 } else x.1) }) ∧
  (c.launch.seg? (ptrSeg p) = none ∨ (c.launch.seg? (ptrSeg p) = some v ∧ (v.space = .priv ∨ v.space = .window ∨
    Right.pr ∉ v.rights ∨ v.limit ≤ ptrOff p)) → Nothing s c (exec (.lwake a) s)) ∧
  (srcS c b = true →
    let w := c.readS b
    let len := w.toNat % 2 ^ 48
    let named : Prop := w.toNat / 2 ^ 52 = 0 ∧ w.toNat / 2 ^ 48 % 16 < 4 ∧ v.tiered = true ∧ ptrOff p + len ≤ v.limit
    (readable → named → (∀ x, ptrOff p ≤ x → x < ptrOff p + len →
        ∃ y, s.translate c.launch c.id.team c.die v x false = .ok y) →
      ∃ g', Passed c.group g' ∧ g' = goneOn c.group g' ∧
        exec (.mhint a b) s = .next { s.setGroup c.id g' with hints := s.hints ++ [(p, w)] }) ∧
    (c.launch.seg? (ptrSeg p) = some v → ¬ (readable ∧ named) → Nothing s c (exec (.mhint a b) s))) ∧
  (c.team.seq = some q →
    let k : W32 := p.truncate 32
    (((q.doneb - k).toNat < 2 ^ 31 ∨ q.sqstate = .ended) → ∃ (g' : Group) (t : Team) (q' : Sequencer), Passed c.group g' ∧
      g' = { goneOn c.group g' with mwaited := if (k - c.group.mwaited).toNat < 2 ^ 31 then k else c.group.mwaited } ∧
      t = { c.team with groups := c.team.groups.set c.id.group g', seq := some q' } ∧ q' = { q with live := q'.live, outs := q'.outs } ∧
      (∀ x, x ∈ q'.live ↔ x ∈ q.live ∧ ∃ y ∈ t.groups, 2 ^ 31 ≤ (y.mwaited - x.batch).toNat) ∧ (∀ x ∈ q'.outs, x ∈ q.outs) ∧
      exec (.mwait a) s = .next (s.setTeam t)) ∧
    (q.sqstate = .run ∨ q.sqstate = .wait → 2 ^ 31 ≤ (q.doneb - k).toNat → Waits s c (exec (.mwait a) s) .mwait) ∧
    (q.sqstate = .stopped → 2 ^ 31 ≤ (q.doneb - k).toNat →
      exec (.mwait a) s = .next (s.setGroup c.id { c.group with evStream := true, stall := .mwait })))

/-- 13 R269; 25 R376: TRAP and BRK take their traps with DONE set; BRK stops the group instead for an armed debugger, after the last
word of a rewritten instruction; TRET leaves the handler and discards its trap queue; EXIT ends a group with nothing empty and waits
otherwise; FAULTRD reads a word of the record.
The model's part in it: BRK of an armed debugger writes the record, and keeps INTRAP and the PC (assumption 35). -/
def Obligations.TrapInstructions : Prop := ∀ (s : State) (c : Ctx) (d a tag : BitVec 8) (h : Hit), Issuing s c →
  (srcS c a = true → exec (.trap a) s = .next (s.deliver c.id ⟨0x18, 0, 0, c.readS a, 0, 0⟩ true (wordOf (.trap a)))) ∧
  (c.launch.breakArmed = false → exec (.brk tag) s = .next (s.deliver c.id ⟨0x19, tag, 0, 0, 0, 0⟩ true (wordOf (.brk tag)))) ∧
  (c.launch.breakArmed = true → (∃ w v ws k, c.group.rewriting = some (w :: v :: ws, k)) →
    GroupOnly s c (exec (.brk tag) s) fun g g' => ∃ r, r.code = 0x19 ∧ r.sub = tag ∧ r.done = true ∧
      Passed { g with due := some .debugStopped } g' ∧ g' = { goneOn g g' with record := r }) ∧
  (c.launch.breakArmed = true → (∀ w v ws k, c.group.rewriting ≠ some (w :: v :: ws, k)) →
    ∃ r, r.code = 0x19 ∧ r.sub = tag ∧ r.done = true ∧
    exec (.brk tag) s = .next (s.setGroup c.id { c.group with
      record := r
      run := .debugStopped
      rewriting := none
      decoded := none
      begun := true
      evStop := false
      stepOnce := .off
      stall := .issued })) ∧
  (srcS c a = true → c.group.inTrap = true → c.launch.fused = none →
    s.checkFetch c.launch c.id.team c.die (c.readS a) = .ok h → ∃ g1, Jumped c.group g1 (c.readS a) ∧
      g1 = goneOn c.group g1 ∧ exec (.tret a) s = .next ((s.markHits [h] false).setGroup c.id
        { g1 with
          inTrap := false
          trapQueue := List.replicate 16 ⟨0, none⟩
          held := g1.held.filter (fun x => decide (x.pc = c.readS a)) })) ∧
  (srcS c a = true → c.group.inTrap = false → exec (.tret a) s =
    .next (s.deliver c.id ⟨0x01, 0, 0, (wordOf (.tret a)).zeroExtend 64, 0, 0⟩ false (wordOf (.tret a)))) ∧
  ((∀ x ∈ c.group.sregs ++ c.group.squeue ++ c.group.trapQueue, x.pend = none) →
    (∀ x ∈ c.group.vregs ++ c.group.vqueue, x.pend = none) →
    ∃ g1, Passed c.group g1 ∧ g1 = goneOn c.group g1 ∧ exec .exit s = .next (s.setGroup c.id { g1 with run := .ended })) ∧
  ((∃ x ∈ c.group.sregs ++ c.group.squeue ++ c.group.trapQueue, x.pend ≠ none) ∨ (∃ x ∈ c.group.vregs ++ c.group.vqueue, x.pend ≠ none) →
    exec .exit s = .next s) ∧
  (dstS c d = true →
    Scalar s c (exec (.faultrd d 1) s) d c.group.record.pc ∧ Scalar s c (exec (.faultrd d 2) s) d c.group.record.addr ∧
    Scalar s c (exec (.faultrd d 3) s) d c.group.record.info ∧ Scalar s c (exec (.faultrd d 4) s) d c.group.record.maskLo ∧
    Scalar s c (exec (.faultrd d 5) s) d c.group.record.maskHi ∧ Scalar s c (exec (.faultrd d 6) s) d c.group.record.origin ∧
    Scalar s c (exec (.faultrd d 7) s) d c.group.record.vstamp ∧
    Scalar s c (exec (.faultrd d 0) s) d (BitVec.ofNat 64 (c.group.record.code.toNat + c.group.record.done.toNat * 2 ^ 8 +
      c.group.record.spliced.toNat * 2 ^ 9 + c.group.record.patched.toNat * 2 ^ 10 + c.group.record.double.toNat * 2 ^ 11 +
      c.group.record.pslot.toNat * 2 ^ 12 + c.group.record.sub.toNat * 2 ^ 16)))

/-! Operands, and what replacing a group leaves alone. -/

namespace Sys2Proof.Claims

/-- The integers of entries K0 to K37 (06 R140). -/
def tableInts : List Int :=
  (List.range 17).map Int.ofNat ++ (List.range 8).map (fun n => -(Int.ofNat n + 1)) ++
    [31, 32, 63, 64, 127, 128, 255, 256, 1024, 4096, 65535, 65536, 16777216]

/-- The FP32 column of entries K38 to K59 under RNE (06 R140). -/
def tableFp32 : List W32 :=
  [0x3F000000, 0x3E800000, 0x3E000000, 0x3C000000, 0x3B800000, 0x37800000, 0x33800000, 0xBF000000, 0x3FC00000, 0x3EAAAAAB,
   0x3F2AAAAB, 0x3F317218, 0x3FB8AA3B, 0x40135D8E, 0x40490FDB, 0x3EA2F983, 0x40C90FDB, 0x402DF854, 0x3FB504F3, 0x3F3504F3,
   0x3DB504F3, 0x3DCCCCCD]

/-- The specials that both contexts read, from 0xF0 (06 R131); LANE is 0 here, and PRED and NEST are none of them. -/
def specials (c : Ctx) : List Nat :=
  let x := c.id.team.index
  [0, 0, c.id.group, x % c.launch.gridX, x / c.launch.gridX % c.launch.gridY, x / (c.launch.gridX * c.launch.gridY),
   roleOf c.launch.krec.roles c.id.group, groupCount c.launch.krec.lanes, c.launch.krec.lanes, c.launch.gridX,
   c.launch.gridY, c.launch.gridZ]

end Sys2Proof.Claims

/-- 06 R129, R131, R134, R140, R141, 13 R266: what a scalar operand code reads, and when it is empty.
06 R129, R131, R134, R136, R140, R141: what a vector operand code reads in lane `l` under MODE.ETYPE, and when it is
empty; a register that an MXREAD of a batch not yet passed writes reads as a free value (10 R224).
The model's part in it: absent lanes hold free values (assumption 3). -/
def Obligations.OperandValues : Prop :=
  (∀ (c : Ctx) (k : Nat),
  let code : BitVec 8 := BitVec.ofNat 8 k
  let queue := if c.group.inTrap then c.group.trapQueue else c.group.squeue
  (∀ x, k < 0x80 → c.group.sregs[k]? = some x → c.readS code = x.val ∧ c.scalarEmpty code = x.pend.isSome) ∧
  (∀ x, 0x80 ≤ k → k < 0x90 → queue[k - 0x80]? = some x → c.readS code = x.val ∧ c.scalarEmpty code = x.pend.isSome) ∧
  (∀ v, 0x90 ≤ k → tableInts[k - 0x90]? = some v → c.readS code = BitVec.ofInt 64 v ∧ srcS c code = true) ∧
  (k = 0xCF → c.readS code = BitVec.allOnes 64 ∧ srcS c code = true) ∧
  (0xB6 ≤ k → k < 0xCF → srcS c code = false) ∧
  (∀ v, 0xF0 ≤ k → k ≠ 0xF1 → (specials c)[k - 0xF0]? = some v → c.readS code = BitVec.ofNat 64 v ∧ srcS c code = true) ∧
  (k = 0xFE → c.readS code = BitVec.ofNat 64 (c.team.budgetOf c.launch c.id.group) ∧ srcS c code = true) ∧
  ((0xD0 ≤ k ∧ k < 0xF0) ∨ k = 0xF1 ∨ k = 0xFC ∨ k = 0xFD ∨ k = 0xFF → srcS c code = false)) ∧
  (∀ (c : Ctx) (k l : Nat), l < 128 →
  let code : BitVec 8 := BitVec.ofNat 8 k
  let val : W32 := (c.readV code).at l
  (∀ x, k < 0x80 → c.group.vregs[k]? = some x → (c.tooEarly code = false → val = x.val.at l) ∧
    (c.tooEarly code = true → val = Config.undefElem c.s.free (128 * k + l)) ∧ c.vectorEmpty code = x.pend.isSome) ∧
  (∀ x, 0x80 ≤ k → k < 0x90 → c.group.vqueue[k - 0x80]? = some x → val = x.val.at l ∧ c.vectorEmpty code = x.pend.isSome) ∧
  (∀ v, 0x90 ≤ k → tableInts[k - 0x90]? = some v →
    (∀ f, c.ty.fmt? = some f → val = c.ty.fill (f.roundInt c.rnd c.sat v) ∧ srcV c code = true) ∧
    (c.ty.fmt? = none → c.ty.minInt ≤ v → v ≤ c.ty.maxInt → val = c.ty.fill (c.ty.wrap v) ∧ srcV c code = true) ∧
    (c.ty.fmt? = none → c.ty.isSigned = false → v < 0 → -(2 ^ (c.ty.width - 1)) ≤ v →
      val = c.ty.fill (c.ty.wrap v) ∧ srcV c code = true) ∧
    (c.ty.fmt? = none → (c.ty.maxInt < v ∨ v < -(2 ^ (c.ty.width - 1))) → srcV c code = false)) ∧
  (∀ v, 0xB6 ≤ k → tableFp32[k - 0xB6]? = some v → c.ty = .fp32 → c.rnd = .rne → val = v ∧ srcV c code = true) ∧
  (0xB6 ≤ k → k < 0xCF → c.ty.fmt? = none → srcV c code = false) ∧
  (∀ f, c.ty.fmt? = some f → (k = 0xCC → val = c.ty.fill f.inf) ∧ (k = 0xCD → val = c.ty.fill (f.withSign true f.inf)) ∧
    (k = 0xCE → val = c.ty.fill f.nan)) ∧
  (k = 0xCF → val = BitVec.allOnes 32 ∧ srcV c code = true) ∧
  (∀ x, 0xD0 ≤ k → k < 0xF0 → c.group.sregs[k - 0xD0]? = some x →
    val = x.val.truncate 32 ∧ c.vectorEmpty code = x.pend.isSome) ∧
  (k = 0xF1 → val = BitVec.ofNat 32 l ∧ srcV c code = true) ∧
  (∀ v, 0xF0 ≤ k → k ≠ 0xF1 → (specials c)[k - 0xF0]? = some v → val = BitVec.ofNat 32 v ∧ srcV c code = true) ∧
  (k = 0xFC → val = (c.group.preds.getD l 0).zeroExtend 32 ∧ srcV c code = true) ∧
  (k = 0xFD → val = (c.group.nest.getD l 0).zeroExtend 32 ∧ srcV c code = true) ∧
  (k = 0xFE → val = BitVec.ofNat 32 (c.team.budgetOf c.launch c.id.group) ∧ srcV c code = true) ∧
  (k < 0x80 → c.team.budgetOf c.launch c.id.group ≤ k → srcV c code = false) ∧ (k = 0xFF → srcV c code = false))

/-- What the statements of instructions call "the group replaced": that group is the new one, and every other group, every
byte outside its register window, every launch and every field of the state but the teams is as before. -/
def Obligations.GroupReplacedAlone : Prop := ∀ (s : State) (id : GroupId) (t : Team) (g g' : Group),
  s.team? id.team = some t → s.group? id = some g →
  (s.setGroup id g').group? id = some g' ∧
  (s.setGroup id g').team? id.team = some { t with groups := t.groups.set id.group g' } ∧
  s.setGroup id g' = { s with teams := (s.setGroup id g').teams } ∧
  (∀ j, j ≠ id → (s.setGroup id g').group? j = s.group? j) ∧
  (∀ j, j ≠ id.team → (s.setGroup id g').team? j = s.team? j) ∧
  (∀ loc, (∀ o, loc ≠ .regWin id.team id.group o) → (s.setGroup id g').readLoc loc = s.readLoc loc) ∧
  (g'.vregs = g.vregs → ∀ loc, (s.setGroup id g').readLoc loc = s.readLoc loc)

/-! Encoding (spec 06). -/

/-- 06 R125, R126, R142: words written out from the encoding tables decode to what they stand for, one or more a row; the
reserved bits and the unassigned opcodes are told apart. -/
def Obligations.DecodeWords : Prop :=
  decode 0x01020201 = .ok (.add 2 2 1) ∧ decode 0x1901FFFF = .ok (.loop 1 0xFFFF) ∧
  decode 0x230A1030 = .ok (.sld64 10 2 0 0 0x30) ∧ decode 0x30000040 = .ok (.mode 0x40) ∧
  decode 0x37080104 = .ok (.rquota 8 1 4) ∧ decode 0x43068280 = .ok (.vfma 6 0x82 0x80) ∧
  decode 0x510A03F0 = .ok (.vor 10 3 0xF0) ∧ decode 0x60FF0290 = .ok (.vbcast 0xFF 2 0x90) ∧
  decode 0x7B000D00 = .ok (.vif 1 5) ∧ decode 0x84020100 = .ok (.cvtfh 2 1 0) ∧
  decode 0x92041001 = .ok (.vld32 4 2 0 0 1) ∧ decode 0xA8082003 = .ok (.vatadd 8 4 0 0 3) ∧
  decode 0xB0330B91 = .ok (.cst 3 3 0x0B 0x91) ∧ decode 0xC0491008 = .ok (.mma 1 0 2 1 0x10 8) ∧
  decode 0xD10C0304 = .ok (.neval 0x0C 3 1 0) ∧ decode 0xE1079004 = .ok (.fgraph 7 0x90 4) ∧
  decode 0xF5140000 = .ok (.faultrd 0x14 0) ∧ decode 0xF3000001 = .reserved ∧ decode 0x00000000 = .unassigned

/-- 06 R125, R126, R142, R143: for every well-formed instruction, with every operand at every value its encoding admits,
decoding its word gives it back, and every instruction that is no step of the schedule has a word. -/
def Obligations.DecodeOfEncode : Prop := ∀ i : Instr, i.wellFormed = true → isEvent i = false →
  ∃ w, encode i = some w ∧ decode w = .ok i

/-- 06 R125, R143: a word that decodes is the word of the instruction it decodes to: every bit of it is an opcode bit, an
operand bit or a reserved bit that is zero. -/
def Obligations.EncodeOfDecode : Prop := ∀ (w : W32) (i : Instr), decode w = .ok i → encode i = some w

/-! Steps. -/

/-- 06 R125, R143; 01 R34: a turn of a group of an active set, with nothing rewritten, no patch slot, event or cut in the
way, runs the instruction that the word at its PC decodes to, or the word it had decoded before a switch of the patch image (25 R378),
in the state where time has passed, the fetched entry is marked and the links of a fetch off the die are awake (12 R261); a word that decodes to none raises the illegal-instruction fault, and a STREAM that MWAIT found is taken at once. Then
the core notes that the group has issued, if it has, and what the turn wrote, a single step and a stop are recorded.
10 R207-R209: a turn of a running sequencer runs the instruction that the word at SPC decodes to; a word that decodes to
none stops it with kind 0, and a failed fetch check with kind 5. An event of the schedule runs on the state in which the
groups it looks at are noted, and the matrix array's operands that it wrote are recorded.
The model's part in it: that a step is one whole turn, with free time, is the model's choice (assumption 1). -/
def Obligations.StepRunsInstructions : Prop :=
  (∀ (s s3 : State) (id : GroupId) (c c2 : Ctx) (h : Hit) (w : W32),
  s.schedule = [] → s.cur = .group id →
  let s1 := s.tickOn.vtimeCheck id
  let s2 := s1.setGroup id { c.group with run := .running, stall := .waits }
  let issued (t : State) : Prop := ∃ g, t.group? id = some g ∧
    (g.stall = .issued ∨ (g.heldHere ≠ none ∧ c2.group.heldHere = none) ∨ ∃ n, g.run = .barWait n)
  let after (t t1 : State) : Prop :=
    (issued t → t1 = ((s2.noteWrites id (c2.writePlaces w) (t.noteTurn c.core id)).recordSteps id.team).finishStops) ∧
    (¬ issued t → t1 = ((s2.noteWrites id [] t).recordSteps id.team).finishStops)
  let streams (t : State) : Prop := ∃ g, t.group? id = some g ∧ g.evStream = true ∧ g.inTrap = false
  s1.ctx? id = some c → s2.ctx? id = some c2 → s.fatal = false → s1.isActive c.core id = true →
  c.group.run = .running → c.team.frozen = false → (s1.cutting id.team.launch = true → c.team.begun = true) →
  c2.group.rewriting = none → c2.group.eventReady = false →
  (c2.group.decoded = some w ∧ s3 = s2) ∨ (c2.group.decoded = none ∧ s3 = (s2.markHits [h] false).trafficTo c2.die [h] ∧
    w = BitVec.ofNat 32 (s2.loadLoc h.loc 4) ∧ s3.decodeSlot? w = none ∧
    s2.checkFetch c2.launch id.team c2.die c2.group.pc = .ok h) →
  (∀ i t, decode w = .ok i → exec i { s3 with cur := .group id } = .next t →
    (¬ streams t ∨ c2.group.evStream = true → ∃ t1, after t t1 ∧ step s = .next t1) ∧
    (c2.group.evStream = false → streams t → ∃ t1, after (t.takeEvent id) t1 ∧ step s = .next t1)) ∧
  (∀ i f, decode w = .ok i → exec i { s3 with cur := .group id } = .fault f → step s = .fault f) ∧
  ((decode w = .unassigned ∨ decode w = .reserved) →
    ∃ t1, after (s3.deliver id (.illegalInstruction w) false w) t1 ∧ step s = .next t1)) ∧
  (∀ (s : State) (id : TeamId) (t : Team) (l : Launch) (q : Sequencer) (h : Hit)
    (e : Instr) (rest : List Turn) (core : Nat),
  let s1 := s.tickOn
  let w : W32 := BitVec.ofNat 32 (s1.loadLoc h.loc 4)
  (s.schedule = [] → Streaming s id t l q → t.core? = some core → s.fatal = false → t.frozen = false → q.sqstate = .run →
    q.pageWait = false → q.ending = false → (s.cutting id.launch = true → t.begun = true) →
    (s1.checkFetch l id (dieOfCore core) q.spc = .ok h →
      (∀ i t1, decode w = .ok i → exec i { (s1.markHits [h] false).trafficTo (dieOfCore core) [h] with cur := .sequencer id } = .next t1 →
        step s = .next (t1.recordSteps id).finishStops) ∧
      ((decode w = .unassigned ∨ decode w = .reserved) → step s = .next (s1.streamStop id 0))) ∧
    (∀ x, s1.checkFetch l id (dieOfCore core) q.spc = .trap x → step s = .next (s1.streamStop id 5))) ∧
  (s.schedule = .event e :: rest → isEvent e = true → s.fatal = false →
    let s2 := { s1 with schedule := rest }
    ((∀ k, e ≠ .copyChunk k) → (∀ k, e ≠ .channelPacketArrival k) → step s = exec e (s2.note e)) ∧
    (∀ k t1, exec e (s2.note e) = .next t1 →
      (e = .copyChunk k → step s = .next (t1.noteEngine (s2.chunkWrites t1 k))) ∧
      (e = .channelPacketArrival k → step s = .next (t1.noteEngine (s2.portWrites t1))))))

/-- The invariant of the byte stores: every step that answers a next state keeps each of them in its canonical form. -/
def Obligations.StepKeepsCanonicalMemories : Prop := ∀ s s' : State, memoriesWf s → step s = .next s' → memoriesWf s'

/-- The machine after reset has every byte store in its canonical form. -/
def Obligations.ResetMemoriesCanonical : Prop := memoriesWf State.reset

/-- 26 R391, R393: after a fatal error the module is held until a start: whatever the schedule brings, a step leaves it held
or is a start, and a held module's teams, launches, cores, gangs and the hosts' memories do not change.
The model's part in it: which events a held module still admits is an inference from R391 and R393. -/
def Obligations.FatalHoldsUntilStart : Prop := ∀ s s' : State, s.fatal = true → step s = .next s' →
  (s'.fatal = true ∧ s'.teams = s.teams ∧ s'.launches = s.launches ∧ s'.cores = s.cores ∧
    s'.hostMem = s.hostMem ∧ s'.gangs = s.gangs) ∨
  ∃ f u rest, s.schedule = .event (.coldStart f u) :: rest ∨ s.schedule = .event (.warmStart f u) :: rest

/-- What reset leaves, where the spec states it: 01 R24 (the pools), 04 R109 (GTSTAT), 23 R336 (queues), 26 R382-R384, R389,
R394 (the management settings and the counters), 25 R366 (the permits). -/
def Obligations.ResetValues : Prop :=
  (∀ c ∈ State.reset.cores, c.poolReg = 0x200 ∧ c.poolScr = 0x300 ∧ c.poolL1 = 0x400 ∧ c.active = [] ∧ c.pending = []) ∧
  (∀ f ∈ State.reset.fns, f.queues.length = 64 ∧ ∀ q ∈ f.queues, q.qstate = .disabled ∧ q.enable = false ∧ q.qhead = 0 ∧
    q.qtail = 0 ∧ q.qbase = 0 ∧ q.qerr = 0) ∧
  (∀ p ∈ State.reset.parts, p.cutIntervalMs = 60000 ∧ p.cutLimitUs = 10000) ∧
  State.reset.gtstat = ⟨0, false, false⟩ ∧ State.reset.mgmt.powerCap = 9000 ∧ State.reset.mgmt.qlimitUs = 100000 ∧
  State.reset.mgmt.busy = false ∧ State.reset.telemetry.cutDone = 0 ∧
  State.reset.launches = [] ∧ State.reset.teams = [] ∧ State.reset.started = false ∧
  (∀ k ∈ State.reset.hive.toCells ++ State.reset.hive.fromCells, k.urgentPermits = 4 ∧ k.normalPermits = 8)

/-! Faults of decode and issue, and their delivery (spec 06 R143, 13 R264-R268). -/

/-- 13 R264-R267: a trap of a group outside a handler whose launch has one writes the record and goes to it: INTRAP, the trap
queue cleared and nothing else of the group; inside a handler it stops the group with DOUBLE and the first record; without a
handler it stops the group with the record. A single step counts a trap whose instruction has issued (R272). (A fault that a
Propolis slot matches is the slot's, 25 R374.)
The model's part in it: a stopped group's record registers hold the record that is reported (assumption 16). -/
def Obligations.TakingATrap : Prop := ∀ (s : State) (c : Ctx) (x : TrapInfo) (done : Bool) (w : W32),
  s.ctx? c.id = some c → c.launch.fused = none → c.group.rewriting = none → s.faultSlot? x.code x.sub = none → x.code ≠ 0x0B →
  let g := c.group
  let r : FaultRecord := ⟨x.code, done, false, false, false, 0, x.sub, g.pc, x.addr, x.info, x.lo, x.hi, 0, s.vtime c.team⟩
  let r2 : FaultRecord := { g.record with double := true }
  let stoppedBy (r : FaultRecord) (g : Group) : Group := { g with
    record := r
    run := .stopped
    rewriting := none
    due := none
    decoded := none
    evStop := false
    stepOnce := .off
    begun := g.begun || r.done }
  (g.inTrap = false → c.launch.trapHandler ≠ 0 → (∀ y, s.checkFetch c.launch c.id.team c.die c.launch.trapHandler ≠ .trap y) →
    ∃ g', s.deliver c.id x done w = s.setGroup c.id g' ∧ g'.record = r ∧ g'.inTrap = true ∧ g'.pc = c.launch.trapHandler ∧
      g'.trapQueue = List.replicate 16 ⟨0, none⟩ ∧ g'.stall = (if done then .issued else .trapped) ∧
      g'.begun = (g.begun || done) ∧ g'.held = g.held ∧ g'.decoded = none ∧ g'.due = g.due ∧
      (done = true → g.stepOnce = .armed → g'.run = .debugStopped ∧ g'.stepOnce = .done) ∧
      (done = false ∨ g.stepOnce ≠ .armed → g'.run = .running ∧ g'.stepOnce = g.stepOnce) ∧
      g' = { goneOn g g' with record := g'.record, inTrap := g'.inTrap, trapQueue := g'.trapQueue }) ∧
  (g.inTrap = false → c.launch.trapHandler = 0 → ∃ s', s.deliver c.id x done w = s' ∧
    s'.group? c.id = some (stoppedBy r g) ∧
    s' = { s with teams := s'.teams, launches := s'.launches } ∧ (∀ j, j ≠ c.id → s'.group? j = s.group? j) ∧
    s'.launch? c.id.team.launch = some { c.launch with
      nstop := c.launch.nstop + 1
      firstStop := c.launch.firstStop.or (some (c.id.team.index, c.id.group, r))
      reports := (c.id.team.index, c.id.group, r) :: c.launch.reports }) ∧
  (g.inTrap = true → ∃ s', s.deliver c.id x done w = s' ∧
    s'.group? c.id = some (stoppedBy r2 g) ∧
    s' = { s with teams := s'.teams, launches := s'.launches } ∧ ∀ j, j ≠ c.id → s'.group? j = s.group? j)

/-- 13 R266; 06 R143; 10 R214: in a trap handler every instruction of a group but rows 0x0 to 0x2, MODE, MODERD, SHAPE,
SHAPERD, FENCE, scalar CST, CDRAIN and row 0xF raises the illegal-instruction fault, and so does in any group a stream
instruction; an instruction of a group that a sequencer fetches is a stream fault of kind 0.
06 R136, R143: for the two-source scalar and vector instructions named, an operand code that is illegal raises the
illegal-operand fault with the SUB of its field, first field first; then a constant without a value in the context, SUB 5;
then an empty operand is waited for, the group noting its producers and nothing else, or raises the empty-operand trap when
MODE says so (01 R35: the producers tell a long-latency stall).
The model's part in it: the order of the fields within a step of R143 and the codes of INFO are inferences
(assumptions 14, 15). -/
def Obligations.Illegal : Prop :=
  (∀ (s : State) (c : Ctx) (i : Instr) (w : W32), encode i = some w →
  let op := (opcodeOf w).toNat
  (Issuing s c → (0xC0 ≤ op ∧ op < 0xD0) → exec i s = .next (s.deliver c.id (.illegalInstruction w) false w)) ∧
  (Issuing s c → c.group.inTrap = true → ¬ (op < 0x34 ∨ op = 0xAC ∨ (op = 0xB0 ∧ w.getLsbD 18 = false) ∨ op = 0xB4 ∨ 0xF0 ≤ op) →
    exec i s = .next (s.deliver c.id (.illegalInstruction w) false w)) ∧
  (∀ t, s.cur = .sequencer t → ¬ (0xC0 ≤ op ∧ op < 0xD0) → exec i s = .next (s.streamStop t 0))) ∧
  (∀ (s : State) (c : Ctx) (d a b : BitVec 8), Issuing s c →
  let ill (i : Instr) (k : BitVec 8) : Prop := exec i s = .next (s.deliver c.id (.illegalOperand (wordOf i) k) false (wordOf i))
  let faults (i : Instr) (okD okA okB kA kB : Bool) (pD pA pB : Option Nat) : Prop :=
    (okD = false → ill i 0) ∧ (okD = true → okA = false → ill i 1) ∧ (okD = true → okA = true → okB = false → ill i 2) ∧
    (okD = true → okA = true → okB = true →
      (kA = false ∨ kB = false → ill i 5) ∧
      (kA = true → kB = true →
        ((pD ≠ none ∨ (pA ≠ none ∧ modeEpa c.group.mode = false) ∨ (pB ≠ none ∧ modeEpb c.group.mode = false)) →
          Waits s c (exec i s) (.operands (pD.toList ++ pA.toList ++ pB.toList))) ∧
        (pD = none → pA ≠ none → modeEpa c.group.mode = true → (pB ≠ none → modeEpb c.group.mode = true) →
          exec i s = .next (s.deliver c.id (.emptyOperand 1 a) false (wordOf i))) ∧
        (pD = none → pA = none → pB ≠ none → modeEpb c.group.mode = true →
          exec i s = .next (s.deliver c.id (.emptyOperand 2 b) false (wordOf i)))))
  let scalarConstOk (x : BitVec 8) : Bool := !isConst x || (scalarConst (x.toNat - 0x90)).isSome
  let vectorConstOk (x : BitVec 8) : Bool := !isConst x || (vectorConst c.ty c.rnd c.sat (x.toNat - 0x90)).isSome
  let scalarFaults (i : Instr) : Prop := faults i (decide (d.toNat < 128 ∨ d = 0xFF)) (scalarSrcLegal a) (scalarSrcLegal b)
    (scalarConstOk a) (scalarConstOk b) (if d.toNat < 128 then c.scalarPend d else none) (c.scalarPend a) (c.scalarPend b)
  let vectorFaults (i : Instr) : Prop := faults i (decide ((d.toNat < 128 ∧ d.toNat < c.budget) ∨ d = 0xFF))
    (c.vectorSrcLegal a) (c.vectorSrcLegal b) (vectorConstOk a) (vectorConstOk b)
    (if d.toNat < 128 then c.vectorPend d else none) (c.vectorPend a) (c.vectorPend b)
  scalarFaults (.add d a b) ∧ scalarFaults (.sub d a b) ∧ scalarFaults (.mul d a b) ∧ scalarFaults (.shl d a b) ∧
  scalarFaults (.slt d a b) ∧
  (c.group.inTrap = false → vectorFaults (.vadd d a b) ∧ vectorFaults (.vsub d a b) ∧ vectorFaults (.vmul d a b) ∧
    vectorFaults (.vmin d a b) ∧ vectorFaults (.vmax d a b)))
/-! The steps that the schedule brings about (assumption 1): results that come back, engines and events. -/

namespace Sys2Proof.Claims

/-- In `t` the team `id` is `x`, and every other team is as in `s`. -/
def TeamIs (s t : State) (id : TeamId) (x : Team) : Prop := t.team? id = some x ∧ ∀ u, u ≠ id → t.team? u = s.team? u

/-- The slots that waited for producer `k` hold `v` and are full; the others are as before (06 R135). -/
def filled (k : Nat) (v : W64) (q : List SSlot) : List SSlot := q.map fun x => if x.pend = some k then ⟨v, none⟩ else x

/-- The same for vectors, whose elements change only in the lanes of the result. -/
def LanesFilled (f : Flight) (v : Lanes) (q q' : List VSlot) : Prop := q'.length = q.length ∧
  ∀ (k : Nat) (x : VSlot), q[k]? = some x → ∃ y : VSlot, q'[k]? = some y ∧ (x.pend ≠ some f.id → y = x) ∧
    (x.pend = some f.id → y.pend = none ∧ ∀ l < 128, y.val.at l = if f.mask.getD l false then v.at l else x.val.at l)

/-- The group with a scalar result written back. -/
def scalarBack (k : Nat) (v : W64) (g : Group) : Group :=
  { g with sregs := filled k v g.sregs, squeue := filled k v g.squeue, trapQueue := filled k v g.trapQueue }

/-- The group after a result has been written back. -/
def WrittenBack (f : Flight) (g g' : Group) : Prop := match f.value with
  | .scalar v => g' = scalarBack f.id v g
  | .vector v => g' = { g with vregs := g'.vregs, vqueue := g'.vqueue } ∧ LanesFilled f v g.vregs g'.vregs ∧
      LanesFilled f v g.vqueue g'.vqueue

/-- Replay `id` with `f` done to it. -/
def replaysWith (s : State) (id : Nat) (f : Replay → Replay) : List Replay :=
  s.replays.map fun r => if r.id = id then f r else r

/-- The core of a team has given up the lines of its L1, before the reading of a command's status (04 R95, R104, R105). -/
def L1Cleared (s t : State) (id : TeamId) : Prop := t.cores.length = s.cores.length ∧
  ∀ (k : Nat) (x : Core), s.cores[k]? = some x →
    t.cores[k]? = some (if (s.team? id).bind Team.core? = some k then { x with l1 := [] } else x)

end Sys2Proof.Claims

/-- 06 R135; 05 R118; 26 R386: a result that comes back fills every slot that waits for it, wherever it then stands, and nothing
else: a load's, an atomic's and a Nectar result's, the latter two once no access of theirs is unacknowledged. The
confirmation of a receipt lets the destination forget the kept result.
12 R241-R243; 09 R203, R205: a copy engine moves a chunk of a copy, here or as one operation on the copy's channel; when
every chunk is performed and acknowledged the status becomes full with the copy's code.
12 R260; 07 R152; 13 R271: a parked group looks at its flag again; VTIME reaching VTCMP makes the compare pending once; a
pending event is taken at a boundary without a fault, STREAM before COLLECTIVE before VTIME before the debugger's stop.
The model's part in it: a free byte for an overlapping copy and the readings of assumptions 23, 35 and 46 are the
model's. -/
def Obligations.EventsOfAGroup : Prop :=
  (∀ (s : State) (id : Nat) (f : Flight) (t : Team) (g : Group) (p : Packet),
  (s.flights.find? (fun x => decide (x.id = id)) = some f → s.team? f.group.team = some t →
    t.groups[f.group.group]? = some g →
    let back (r : Res) : Prop := ∃ g' s', r = .next s' ∧ WrittenBack f g g' ∧
      TeamIs s s' f.group.team { t with groups := t.groups.set f.group.group g' } ∧
      s' = { s with teams := s'.teams, flights := s.flights.filter fun x => decide (x.id ≠ id) }
    let quiet : Prop := ∀ x ∈ s.packets, x.acked = false → ∀ accs k, x.op = .atomic accs k → k ≠ some id
    (f.kind = .load → back (exec (.loadReturn id false) s)) ∧
    (f.kind = .load → (∀ x ∈ f.locs, ∀ a, x ≠ .phys a) → back (exec (.loadReturn id true) s)) ∧
    (f.kind = .atomic ∨ f.kind = .engine → quiet → back (exec (.atomicReturn id) s)) ∧
    (f.kind = .nectar → quiet → back (exec (.nectarWriteback id) s))) ∧
  (s.packet? id = some p → p.acked = true → ∃ s', exec (.atomicReceiptConfirmation id) s = .next s' ∧
    s' = { s with packets := s'.packets } ∧ (∀ x ∈ s'.packets, x.id = id → x.kept = false) ∧
    ∀ x ∈ s.packets, x.id ≠ id → (x.acked = false ∨ x.kept = true) → x ∈ s'.packets)) ∧
  (∀ (s : State) (id : Nat) (k : CopyCmd) (l : Launch) (ch : Chunk) (h0 : Hit) (t : Team) (g : Group)
    (s2 : State), s.copies.find? (fun x => decide (x.id = id)) = some k → k.node = none → k.work = none →
  let die := s.copyDie k
  let moved (cs : List CopyCmd) : List CopyCmd := cs.map fun x => if x.id = id then { x with next := ch.next, carry := [] } else x
  let cells : List (Loc × Byte) := (ch.hits.map (·.loc)).zip (ch.reads.map fun h => s.readLoc h.loc)
  let s1 : State := { (ch.reads.filterMap (·.dest)).dedup.foldl (fun (s : State) d => s.traffic die d)
    ((s.markHits ch.hits true).markHits ch.reads false) with free := s.free + 2 }
  (s.launch? k.group.team.launch = some l → s.fatal = false → k.pageWait = false → k.code = 0 → k.next < k.count →
    s.chunkOf l die k = some (.inl ch) → (∀ i < k.count, k.overlapped l i = false) →
    (∀ h ∈ ch.reads, ∀ u j o, h.loc ≠ .regWin u j o ∧ h.loc ≠ .tileWin u j o) → ch.hits.head? = some h0 →
    (k.always = false → h0.dest = none → (∀ h ∈ ch.hits, ∀ u j o, h.loc ≠ .tileWin u j o) →
      exec (.copyChunk id) s = .next { s1.storeCells cells with copies := moved s.copies }) ∧
    (k.always = true ∨ h0.dest ≠ none → s.copyBlocks k.group.team k.chan h0.home k.id = false →
      s1.sendOp (.team k.group.team) k.chan k.group.group ⟨none, none, false, some k.joins, []⟩ h0.home (.chunk id cells none) = some s2 →
      exec (.copyChunk id) s = .next { s2 with copies := moved s2.copies })) ∧
  (s.team? k.group.team = some t → t.groups[k.group.group]? = some g → (k.code ≠ 0 ∨ k.count ≤ k.next) →
    (∀ p ∈ s.packets, p.acked = false → ∀ cs x, p.op ≠ .chunk id cs x) →
    ∃ s', exec (if k.always then .ccopyComplete id else .copyComplete id) s = .next s' ∧
      TeamIs s s' k.group.team { t with
        groups := t.groups.set k.group.group (scalarBack id (k.code.zeroExtend 64) g)
        saveBarred := false } ∧ L1Cleared s s' k.group.team ∧
      s' = { s with
        teams := s'.teams
        cores := s'.cores
        copies := s.copies.filter (fun x => decide (x.id ≠ id)) })) ∧
  (∀ (s : State) (L T G : Nat) (t : Team) (g : Group) (q : Sequencer) (h n : W64) (rest : List (W64 × W64)) (c : Ctx) (x : Hit),
  let id : GroupId := ⟨⟨L, T⟩, G⟩
  s.team? ⟨L, T⟩ = some t → t.groups[G]? = some g →
  (∀ a v since, g.run = .parked a v since → s.ctx? id = some c →
    s.checkScalar c.launch id.team c.die a (ptrOff a) 8 [.pr] false = .ok x → s.loadHeld id (spans x.loc 8) = false →
    let m : W64 := BitVec.ofNat 64 (leNat ((spans x.loc 8).map s.readLoc))
    ((m - v).toNat < 2 ^ 63 → ∃ s', exec (.waitaWake L T G) s = .next s' ∧ s' = { s with teams := s'.teams } ∧
      TeamIs s s' ⟨L, T⟩ { t with groups := t.groups.set G { g with run := .running } }) ∧
    (2 ^ 63 ≤ (m - v).toNat → exec (.waitaWake L T G) s = .next s)) ∧
  (g.vtcmp ≠ BitVec.allOnes 64 → g.vtcmp.toNat ≤ (s.vtime t).toNat →
    exec (.vtimeCompareMatch L T G) s = .next (s.setGroup id { g with evVtime := true, vtcmp := BitVec.allOnes 64 })) ∧
  (g.inTrap = false → g.run = .running → g.rewriting = none → t.frozen = false → t.core?.isSome = true → id ∈ s.noted →
    let s0 := s.setGroup id { g with run := .running }
    (g.evStream = true → t.seq = some q → exec (.eventTrap L T G) s = .next ((s0.setGroup id { g with evStream := false }).deliver id
      ⟨0x11, BitVec.ofNat 8 (q.sqfault.toNat % 8), q.faultPtr, q.sqfault, 0, 0⟩ false 0).finishStops) ∧
    (g.evStream = false → g.evCollective = (h, n) :: rest → exec (.eventTrap L T G) s =
      .next ((s0.setGroup id { g with evCollective := rest }).deliver id ⟨0x12, 0, h, n, 0, 0⟩ false 0).finishStops) ∧
    (g.evStream = false → g.evCollective = [] → g.evVtime = true → exec (.eventTrap L T G) s =
      .next ((s0.setGroup id { g with evVtime := false }).deliver id ⟨0x10, 0, 0, s.vtime t, 0, 0⟩ false 0).finishStops) ∧
    (g.evStream = false → g.evCollective = [] → g.evVtime = false → g.evStop = true → exec (.eventTrap L T G) s =
      .next (s0.setGroup id { g with evStop := false, run := .debugStopped }).finishStops)))

/-- 12 R245-R259; 19 R299: FGRAPH starts a replay with its base table read once; the Forager starts the node that is next,
a WAIT or LAUNCH node with the window of its source resolved (03 R74), completes it with its successors counted down, looks at a WAIT
again, takes signatures by member, an unequal one stopping the replay, and
reports the status, an acquire before it and a mismatch as an event.
The model's parts in it: corners of the nodes' codes are inferences (assumption 59), signatures of assumption 60, and a node's window
is resolved when it starts (assumption 88). -/
def Obligations.ForagerReplays : Prop := ∀ (s : State) (c : Ctx) (d a b : BitVec 8) (im : GraphImage) (hs : List Hit) (R N : Nat)
    (r : Replay) (l : Launch) (n : GraphNode) (tr : Transfer) (t : Team) (g : Group) (spad : List (BitVec 8)) (text cls : Nat)
    (m k : Nat) (w : W64) (i : InstRec) (sg : SigMsg) (dw : List W64),
  (Issuing s c → outside c = true → dstS c d = true → srcS c a = true → srcS c b = true → mayAccess s c →
    (c.readS a).toNat < c.launch.ngraph → s.graph? c.launch.fn c.launch.graphTab (c.readS a).toNat = some im →
    s.checkBase c.launch c.id.team c.die (c.readS b) im.nbase = .ok hs →
    (16 ≤ s.replaysOn c.die → Waits s c (exec (.fgraph d a b) s) .barrier) ∧
    (s.replaysOn c.die < 16 → s.loadHeld c.id (hs.flatMap fun x => spans x.loc 8) = false →
    c.group.heldHere = none → c.team.lost = 0 → s.unackedOf c.id.team = [] →
    ∃ g', ScalarPending d s.nextId c.group g' ∧ exec (.fgraph d a b) s = .next { ((s.markHits hs false).trafficTo c.die hs).setGroup c.id g' with
      nextId := s.nextId + 1
      replays := s.replays ++ [⟨s.nextId, c.die, c.id, s.nextId, c.launch.fn, c.launch.graphTab, (c.readS a).toNat, im,
        hs.map (fun x => BitVec.ofNat 64 (leNat ((spans x.loc 8).map s.readLoc))), im.nodes.map (·.npred),
        im.nodes.map (fun _ => .idle), 0, 0, false, false, [], [], none, []⟩] })) ∧
  (s.replay? R = some r → s.launch? r.group.team.launch = some l → r.image.nodes[N]? = some n →
    let set (st : NodeState) (x : Replay) : Replay := { x with states := x.states.set N st }
    let start : Instr := .foragerNodeStart R N spad text cls
    let begun (k : Nat) (x : Replay) : Replay :=
      { set .started x with waitAt := x.waitAt ++ ((s.sourceWindow l r n k).map fun w => (N, w)).toList }
    (r.paged = false → (r.sent = true ∨ r.image.insts = []) → r.startsNext N = true →
      (r.transfer n = some tr → s.transferCode l r n tr = 0 →
        let src : W64 := (tr.src.head?.map fun x => mkPtr x.1 x.2.1).getD 0
        let bytes : Nat := (tr.src.head?.map fun x => x.2.2).getD 0
        let dst : W64 := mkPtr tr.dst.1 tr.dst.2.1
        let place (p : W64) (k : Nat) : Option WindowAt := (s.windowOf l r.group.team r.die (ptrSeg p) (ptrOff p) k).bind Window.place?
        let code (p : W64) (k : Nat) : BitVec 8 := s.windowCode l r.group.team r.die (ptrSeg p) (ptrOff p) k
        exec start s = .next { s with
          replays := replaysWith s R (set .started)
          nextId := s.nextId + 1
          copies := s.copies ++ [⟨s.nextId, r.group, n.ch, tr.always, some (R, N), tr.work, src, dst, tr.dst.2.2, 0,
            (if tr.dst.2.2 = 0 then 0 else firstCode [code src bytes, code dst tr.dst.2.2]), false,
            place src bytes, place dst tr.dst.2.2,
            (match tr.work with
              | some (.reduce _ _ p) => place p bytes
              | _ => none), [], []⟩] }) ∧
      (n.kind = 5 → s.sourceCode l r n 8 = 0 → exec start s = .next { s with replays := replaysWith s R (begun 8) }) ∧
      (n.kind = 6 → s.sourceCode l r n 64 = 0 → (∀ y ∈ s.launches, y.node ≠ some (R, N)) →
        let s0 : State := { s with replays := replaysWith s R (begun 64) }
        s0.sourceHits l (begun 64 r) N n 64 = hs.map .ok → (∀ h ∈ hs, s0.locReady h.loc = true) →
        let s1 := s0.trafficTo r.die hs
        let q := (s1.fns.getD l.fn Fn.reset).queues.getD l.queue Queue.reset
        let pw := bytesWords (hs.map fun h => s1.readLoc h.loc) 8
        let x := s1.launchOf l.fn l.queue q pw dw spad text [] (some (R, N))
        s1.cpStalls l.fn q.qloc (pword pw 6) 96 true = false → packetKind pw = 1 → packetWellFormed pw = true →
        s1.descriptor pw = some dw → s1.refusal dw x cls = 0 → (cls = 0 → s1.codeStalls x x.textBytes = false) →
        ∃ x', exec start s = .next { s1.markHits hs false with
          nextId := s1.nextId + 1
          launches := s1.launches ++ [x'] } ∧ x' = { x with stage := x'.stage })) ∧
    (r.states[N]? = some .met → exec (.foragerNodeComplete R N) s = .next { s with replays := replaysWith s R fun x => x.complete N }) ∧
    (∀ c0, r.states[N]? = some .started → s.copies.find? (fun y => decide (y.node = some (R, N))) = some c0 →
      s.copyEnded c0 = true → c0.code = 0 → exec (.foragerNodeComplete R N) s = .next { s with
        copies := s.copies.filter (fun y => decide (y.id ≠ c0.id))
        replays := replaysWith s R fun x => x.complete N }) ∧
    (n.kind = 5 → r.states[N]? = some .started → s.sourceHits l r N n 8 = hs.map .ok → (∀ h ∈ hs, s.locReady h.loc = true) →
      let s1 := (s.trafficTo r.die hs).markHits hs false
      let m : W64 := BitVec.ofNat 64 (leNat (hs.map fun h => (s.trafficTo r.die hs).readLoc h.loc))
      ((m - n.value).toNat < 2 ^ 63 → exec (.foragerWaitRecheck R N) s = .next { s1 with replays := replaysWith s1 R (set .met) }) ∧
      (2 ^ 63 ≤ (m - n.value).toNat → exec (.foragerWaitRecheck R N) s =
        .next { s1 with replays := replaysWith s1 R id }))) ∧
  (s.replay? R = some r → r.ended = true → s.team? r.group.team = some t → t.groups[r.group.group]? = some g →
    ∃ s' g', exec (.replayComplete R) s = .next s' ∧ s' = { s with
        teams := s'.teams
        cores := s'.cores
        replays := s.replays.filter (fun x => decide (x.id ≠ R)) } ∧ L1Cleared s s' r.group.team ∧
      TeamIs s s' r.group.team { t with groups := t.groups.set r.group.group g', saveBarred := false } ∧
      g' = { scalarBack r.prod (BitVec.ofNat 64 (r.code.toNat + r.codeNode * 2 ^ 8)) g with evCollective := g'.evCollective } ∧
      (r.code ≠ 6 ∨ r.mismatch = none → g'.evCollective = g.evCollective) ∧
      ∀ y, r.code = 6 → r.mismatch = some y →
        g'.evCollective = g.evCollective ++ [(BitVec.ofNat 64 r.entry, y.zeroExtend 64)]) ∧
  (s.replay? R = some r → s.launch? r.group.team.launch = some l → r.image.insts.find? (fun x => decide (x.inst = i.inst)) = some i →
    let heard (x : Member) (sentBy : Option Nat) : List Replay := replaysWith s R fun y =>
      { y with sigs := y.sigs ++ [⟨i.inst, x, sentBy, true⟩] }
    let alone (x : Member) : Prop := r.awaits i.inst x = true ∧
      ∀ y ∈ s.replays, y.id ≠ R → y.unsent = false ∧ y.awaits i.inst x = false
    let stopped (t : State) : Prop := ∃ r', t.replay? R = some r' ∧ r'.mismatch = some (r.mismatch.getD i.inst) ∧
      (r.code = 0 → r'.code = 6) ∧
      ∀ y ∈ t.copies, ∀ j x, y.node = some (R, j) → r.image.nodes[j]? = some x → x.inst = i.inst → r.states[j]? ≠ some .started
    (alone (.module m) → l.gang ≠ 0 →
      let equal : Prop := w.toNat % 2 ^ 32 = i.count.toNat ∧ w.toNat / 2 ^ 32 % 16 = i.typ ∧ w.toNat / 2 ^ 36 % 16 = i.op
      (equal → exec (.collectiveSignature m R i.inst (some w)) s = .next { s with replays := heard (.module m) none }) ∧
      (¬ equal → ∃ t, exec (.collectiveSignature m R i.inst (some w)) s = .next t ∧ stopped t ∧
        t = { s with replays := t.replays, copies := t.copies })) ∧
    (s.signatures[k]? = some sg → sg.sig.inst = i.inst → sg.dest = .die r.die → R ≠ sg.origin.replay →
      alone (.die sg.origin.die) → sameJob l sg.origin.launch sg.origin.gang = true →
      (sg.sig = ⟨i.inst, i.count, i.typ, i.op⟩ → exec (.collectiveSignature k R i.inst none) s = .next { s with
        signatures := s.signatures.eraseIdx k
        replays := heard (.die sg.origin.die) (some sg.origin.replay) }) ∧
      (sg.sig ≠ ⟨i.inst, i.count, i.typ, i.op⟩ →
        ∃ t, exec (.collectiveSignature k R i.inst none) s = .next t ∧ stopped t ∧
        t = { s with signatures := s.signatures.eraseIdx k, replays := t.replays, copies := t.copies })))

namespace Sys2Proof.Claims

/-- A launch with `f` done to it: the launches of the module with launch `n` so changed. -/
def launchesWith (s : State) (n : Nat) (f : Launch → Launch) : List Launch := s.launches.map fun l => if l.seq = n then f l else l

/-- A gang with `f` done to it. -/
def gangsWith (s : State) (id : W32) (f : Gang → Gang) : List Gang := s.gangs.map fun g => if g.id = id then f g else g

/-- The places that retirements on core `c` gave, with one of each taken (01 R29 step 5). -/
def placesLeft (c : Nat) (xs : List (Nat × Nat × Nat)) : List (Nat × Nat × Nat) :=
  (xs.map fun x => if x.1 = c then (x.1, x.2.1, x.2.2 - 1) else x).filter fun x => decide (0 < x.2.2)

/-- Team `i` of the launch has been placed on core `c` (01 R30): its groups are in the core's sets, and the launch's next team is
counted. -/
def OnCore (s : State) (l : Launch) (i c : Nat) (s' : State) : Prop :=
  s' = { s with
    teams := s'.teams
    cores := s'.cores
    launches := s'.launches
    areas := s.areas.filter fun a => !(decide (a.team = ⟨l.seq, i⟩) && decide (a.kind = 0)) } ∧
  (∀ (k : Nat) (x : Core), s.cores[k]? = some x → ∃ y : Core, s'.cores[k]? = some y ∧
    y = { x with active := y.active, pending := y.pending, marked := y.marked, l1 := y.l1 } ∧
    (k ≠ c → y.active = x.active ∧ y.pending = x.pending ∧ y.l1 = x.l1) ∧
    (k = c → y.l1 = [] ∧ List.Perm ((y.active ++ y.pending).map (·.group)) ((x.active ++ x.pending).map (·.group) ++
      (List.range (groupCount l.krec.lanes)).map fun g => (⟨⟨l.seq, i⟩, g⟩ : GroupId)))) ∧
  ∀ (k : Nat) (m : Launch), s.launches[k]? = some m → ∃ m' : Launch, s'.launches[k]? = some m' ∧ (m.seq ≠ l.seq → m' = m) ∧
    (m.seq = l.seq → (m.nextTeam = 0 → m'.placedAt = s.clock.gtime ∧ m'.qlimitUs = s.mgmt.qlimitUs) ∧
      m' = { m with
        nextTeam := max m.nextTeam (i + 1)
        placedAt := m'.placedAt
        away := none
        qlimitUs := m'.qlimitUs
        refill := placesLeft c m.refill })

/-- What placing team `i` of a launch that has never been placed gives (01 R30): the team as launch leaves it. -/
def PlacedFirst (s : State) (l : Launch) (i c : Nat) (s' : State) : Prop :=
  s'.teams = s.teams ++ [Team.fresh l i c s.clock.cycles (s.freeSlots c (groupCount l.krec.lanes))] ∧ OnCore s l i c s'

/-- What restoring the saved team `t` gives (24 R356): the team as it was saved, with slots chosen afresh, VTIME going on and held
instructions to issue again. -/
def Restored (s : State) (l : Launch) (t : Team) (c : Nat) (s' : State) : Prop :=
  let slots := s.freeSlots c (groupCount l.krec.lanes)
  OnCore s l t.id.index c s' ∧ (∀ u, u ≠ t.id → s'.team? u = s.team? u) ∧ ∃ t', s'.team? t.id = some t' ∧
    t' = { t with
      place := .resident c
      vtBase := s.clock.cycles - t.vtSaved
      frozen := false
      preempt := none
      groups := t'.groups } ∧ t'.groups.length = t.groups.length ∧
    ∀ (j : Nat) (g : Group), t.groups[j]? = some g → ∃ r, t'.groups[j]? = some { g with slot := slots.getD j 0, run := r } ∧
      ((∃ n, g.run = .barWait n) ∨ (∃ p v n, g.run = .parked p v n) ∨ g.run = .stepHeld → r = .running) ∧
      ((∀ n, g.run ≠ .barWait n) → (∀ p v n, g.run ≠ .parked p v n) → g.run ≠ .stepHeld → r = g.run)

/-- Free units of a launch's limiting resource on a core (01 R28). -/
def unitsOn (s : State) (l : Launch) (c : Nat) : Nat := (s.freeOn c).getD (limiting l.pool.capacity l.krec.demand) 0

/-- The core of `cs` with the most of `f`, ties to the lowest index. -/
def Most (f : Nat → Nat) (cs : Nat → Prop) (c : Nat) : Prop := cs c ∧ ∀ x, cs x → f x < f c ∨ (f x = f c ∧ c ≤ x)

end Sys2Proof.Claims

/-- 01 R26-R32; 10 R222; 23 R343, R344, R346: a placement opportunity places the next team of the first waiting launch on the core
of R29, unless cores are being switched for it; where that team fits on no core, the next team of a later launch. An empty core is
switched to a launch's pool configuration, its L1 invalidated; a core is marked for the first launch where it fits on none and none is
empty; a saved team is restored (24 R356); a finished team retires, and a launch whose next team fitted nowhere
remembers the core; a launch whose teams have all retired and whose work is quiet completes, a gang's parts together. Waiting launches come in the order of R31, and a team goes to a core on which it fits: the first that was freed while it
waited, else the one with the most free units of the limiting resource (R28), ties to the lowest index.
01 R34-R38: the sets of a core. A ready pending group enters in place of an active one in a long-latency stall, or where there is
room; a ready pending group that has waited is starved; the forced exchange takes out the active group of the lowest level
that has been active longest.
The model's part in it: the ready test, the choice among equal cores and the filling of a vacancy are inferences
(assumptions 38, 39, 40, 51). -/
def Obligations.Placement : Prop :=
  (∀ (s : State) (P : Nat) (l : Launch) (except : List Nat) (C : Nat),
  let able (x : Nat) : Prop := x ∈ s.coresOf l.domain ∧ s.fitsOn l x = true ∧ x ∉ except
  (l ∈ s.waitingLaunches P ↔ l ∈ s.launches ∧ l.domain = P ∧ (s.nextTeam l).isSome ∧ s.quarantineTurn l = true) ∧
  ((s.waitingLaunches P).Pairwise fun a b => (s.precedence b = true → s.precedence a = true) ∧
    (s.precedence a = s.precedence b → b.prio ≤ a.prio ∧ (a.prio = b.prio → a.seq ≤ b.seq))) ∧
  (C ∈ s.coresOf P ↔ C < 256 ∧ (s.cores.getD C Core.reset).enabled = true ∧ dieOfCore C ∉ s.fencedDies ∧
    if P = 17 then s.mgmt.qcell = some (C / 4) else (s.parts.getD P Partition.reset).mask.getLsbD (C / 4) = true) ∧
  (s.fitsOn l C = true ↔ (s.cores.getD C Core.reset).pool = l.pool ∧ (s.cores.getD C Core.reset).switching = none ∧
    ((s.cores.getD C Core.reset).marked = none ∨ (s.cores.getD C Core.reset).marked = some l.seq) ∧
    (∀ x ∈ (s.freeOn C).zip l.krec.demand, x.2 ≤ x.1) ∧ s.tilesOn C + l.krec.nt ≤ 4 ∧ s.privRoom l 1 (dieOfCore C) = true) ∧
  (∀ j < 4, l.krec.demand.getD j 0 ≠ 0 → let i := limiting l.pool.capacity l.krec.demand
    l.krec.demand.getD i 0 ≠ 0 ∧
    (l.pool.capacity.getD i 0 / l.krec.demand.getD i 0 < l.pool.capacity.getD j 0 / l.krec.demand.getD j 0 ∨
      (l.pool.capacity.getD i 0 / l.krec.demand.getD i 0 = l.pool.capacity.getD j 0 / l.krec.demand.getD j 0 ∧ i ≤ j))) ∧
  (s.pickAmong except l = none ↔ ∀ x, ¬ able x) ∧
  (s.pickAmong except l = some C → able C ∧
    ((∀ x ∈ l.refill, ¬ able x.1) → Most (unitsOn s l) able C) ∧
    ((∃ x ∈ l.refill, able x.1) → ∃ x ∈ l.refill, x.1 = C ∧ ∀ y ∈ l.refill, able y.1 → x.2.1 < y.2.1 ∨ (x.2.1 = y.2.1 ∧ C ≤ y.1))) ∧
  (s.pickCore l = s.pickAmong [] l) ∧
  (s.markChoice l = some C → (∀ x ∈ s.coresOf l.domain, s.residents x ≤ 64) →
    let with' (x : Nat) : Prop := x ∈ s.coresOf l.domain ∧ (s.cores.getD x Core.reset).pool = l.pool
    (∀ x ∈ s.coresOf l.domain, s.coreEmpty x = false ∧ (s.cores.getD x Core.reset).marked ≠ some l.seq) ∧
    ((∃ x, with' x) → Most (unitsOn s l) with' C) ∧
    ((∀ x, ¬ with' x) → C ∈ s.coresOf l.domain ∧ ∀ x ∈ s.coresOf l.domain, s.residents C < s.residents x ∨
      (s.residents C = s.residents x ∧ C ≤ x)))) ∧
  (∀ (s : State) (P C L T i : Nat) (l l2 : Launch) (ls : List Launch) (c : Core)
    (p : Pool) (t : Team),
  (s.dropMarks P = s → s.waitingLaunches P = l :: ls → s.switchesFor l = false → s.nextTeam l = some i →
    s.pickCore l = some C → s.team? ⟨l.seq, i⟩ = none → (∀ y ∈ s.cores, y.marked ≠ some l.seq) →
    ∃ s', exec (.teamPlacement P) s = .next s' ∧ PlacedFirst s l i C s') ∧
  (s.dropMarks P = s → s.waitingLaunches P = l :: ls → s.switchesFor l = true → (s.pickCore l).isSome = true →
    exec (.teamPlacement P) s = .next s) ∧
  (s.dropMarks P = s → s.waitingLaunches P = l :: ls → s.switchesFor l = false → s.nextTeam l = some i →
    s.pickCore l = some C → s.team? ⟨l.seq, i⟩ = some t → t.id = ⟨l.seq, i⟩ → t.place = .saved → t.groups.length = groupCount l.krec.lanes →
    (∀ y ∈ s.cores, y.marked ≠ some l.seq) → ∃ s', exec (.teamPlacement P) s = .next s' ∧ Restored s l t C s') ∧
  (s.dropMarks P = s → s.waitingLaunches P = [l] → s.pickCore l = none → s.markChoice l = some C → s.cores[C]? = some c →
    exec (.teamPlacement P) s = .next { s with cores := s.cores.set C { c with marked := some l.seq } }) ∧
  (s.dropMarks P = s → s.waitingLaunches P = l :: l2 :: ls → s.pickCore l = none → s.markChoice l = none → s.nextTeam l2 = some i →
    s.pickAmong (s.toSwitch l) l2 = some C → s.team? ⟨l2.seq, i⟩ = none → (∀ y ∈ s.cores, y.marked ≠ some l2.seq) →
    ∃ s', exec (.teamPlacement P) s = .next s' ∧ PlacedFirst s l2 i C s') ∧
  (s.waitingLaunches P = l :: ls → C ∈ s.coresOf P → (∀ d < 18, d ≠ P → C ∉ s.coresOf d) → P < 18 → s.switchingIn P = false →
    (s.toSwitch l).head? = some C → s.cores[C]? = some c →
    exec (.poolSwitch C) s = .next { s with cores := s.cores.set C { c with switching := some (l.seq, l.pool) } }) ∧
  (s.cores[C]? = some c → c.switching = some (L, p) → exec (.poolSwitchComplete C) s = .next { s with
    cores := s.cores.set C { c with
      poolReg := p.reg.zeroExtend 32
      poolScr := p.scr.zeroExtend 32
      poolL1 := p.l1.zeroExtend 32
      switching := none
      l1 := [] } }) ∧
  (s.team? ⟨L, T⟩ = some t → s.launch? L = some l → t.finished l.dbg = true → t.core? = some C →
    (∀ g ∈ s.gangs, g.state ≠ .backoff) → ∃ s', exec (.teamRetirement L T) s = .next s' ∧
      TeamIs s s' ⟨L, T⟩ { t with
        place := .retired
        vtSaved := (s.vtime t).toNat
        preempt := none
        frozen := false } ∧
      s' = { s with
        teams := s'.teams
        cores := s.cores.map (fun x => { x with
          active := x.active.filter (fun e => decide (e.group.team ≠ ⟨L, T⟩))
          pending := x.pending.filter (fun e => decide (e.group.team ≠ ⟨L, T⟩)) })
        launches := s'.launches } ∧
      ∀ (k : Nat) (m : Launch), s.launches[k]? = some m → ∃ m' : Launch, s'.launches[k]? = some m' ∧
        (m.seq = L → m' = { m with
          retired := m.retired + 1
          vtSum := m.vtSum + (s.vtime t).toNat
          away := m'.away
          refill := m'.refill } ∧
          ((∃ x ∈ s.teams, x.id.launch = L ∧ x.id ≠ t.id ∧ x.core?.isSome = true) → m'.away = m.away) ∧
          ((∀ x ∈ s.teams, x.id.launch = L → x.id ≠ t.id → x.core? = none) → m'.away = m.away.or (some s.clock.gtime))) ∧
        (m.seq ≠ L → m' = { m with refill := m'.refill } ∧
          ((s.nextTeam m).isSome = true → m.refill = [] → (∀ x ∈ s.coresOf m.domain, s.fitsOn m x = false) →
            m'.refill = if C ∈ s.coresOf m.domain ∧ s'.fitsOn m C = true then [(C, s.clock.cycles, s'.placesOn m C)] else []))) ∧
  (s.launch? L = some l → l.stage ≠ .complete → l.gang ≠ 0 → (∃ m ∈ s.launches, m.gang = l.gang ∧ m.stage ≠ .complete ∧
    (m.stage ≠ .ready ∨ m.retired ≠ m.grid ∨ s.launchQuiet m.seq = false)) → exec (.launchCompletion L) s = .next s) ∧
  (s.launch? L = some l → l.gang = 0 → l.stage = .ready → l.retired = l.grid → s.launchQuiet L = true →
    (∀ m ∈ s.withConsumer l, s.cpStalls m.fn m.compDev m.compAddr.toNat 96 true = false) → l.node = none → ∃ s', exec (.launchCompletion L) s = .next s' ∧
      s' = s.completeLaunch l ∧ (∀ x ∈ s'.teams, x.id.launch ≠ L) ∧ (∀ x ∈ s'.launches, x.seq = L → x.node.isSome) ∧
      (l.fused = none → s'.telemetry.aborted = if l.aborted then satInc s.telemetry.aborted else s.telemetry.aborted) ∧
      (l.fused = none → l.compDev = false → l.compAddr ≠ 0 → s'.hostMem = (s.hostWriteBytes (if l.fn ≤ 8 then 0 else 1)
        l.compAddr.toNat (wordBytes (completionRecord l l.lid l.outcome.1 l.outcome.2 l.spliceCode s.clock.gtime))).hostMem) ∧
      ∀ x ∈ s'.launches, x.stage = .waiting → s'.waitsDone x = false)) ∧
  (∀ (s : State) (C L T G : Nat) (c : Core) (e out : SetEntry), s.cores[C]? = some c →
  let id : GroupId := ⟨⟨L, T⟩, G⟩
  let enters : SetEntry := ⟨e.group, s.clock.tick, s.clock.tick, false, e.starved⟩
  let others := c.pending.filter fun x => decide (x.group ≠ e.group)
  let left (g : GroupId) : List SetEntry := (c.active.filter fun x => decide (x.group = g)).map fun x =>
    ⟨x.group, s.clock.tick, s.clock.tick, false, false⟩
  (s.incoming c = some e → c.active.length < 8 → exec (.groupExchange C L T G) s = .next { s with
    cores := s.cores.set C { c with active := c.active ++ [enters], pending := others } }) ∧
  (s.incoming c = some e → 8 ≤ c.active.length → (∃ x ∈ c.active, x.group = id) → id ∈ s.stalled →
    exec (.groupExchange C L T G) s = .next { s with cores := s.cores.set C { c with
      active := (c.active.filter fun x => decide (x.group ≠ id)) ++ [enters]
      pending := others ++ left id } }) ∧
  (8 ≤ c.active.length → id ∉ s.stalled → exec (.groupExchange C L T G) s = .next s) ∧
  (id ∈ s.noted → exec (.groupStarved C L T G) s = .next { s with cores := s.cores.set C { c with
    pending := c.pending.map fun x => if x.group = id ∧ x.starved = false then
      { x with starved := true, lastIssue := s.clock.tick } else x } }) ∧
  (s.longest (·.lastIssue) (c.pending.filter fun x => x.starved && s.noted.contains x.group) = some e →
    (∀ x ∈ c.active, x.kept = false) →
    s.longest (·.since) (c.active.filter fun x =>
      decide (s.levelOf x.group = ((c.active.map fun y => s.levelOf y.group).min?.getD 0))) = some out →
    exec (.forcedExchange C) s = .next { s with cores := s.cores.set C { c with
      active := (c.active.filter fun x => decide (x.group ≠ out.group)) ++ [enters]
      pending := others ++ left out.group } }))

/-- 23 R346, R348; 26 R394: a gang reserves once all its parts are read and ready, backs off after 100 µs, tries again after
50 µs, and places every team of every part at once; a launch over the quarantine cell's limit is stopped and completes
FAULTED with TIMEOUT, time switched out not counted.
The model's part in it: corners of R346, and what the parts on other modules do, are the model's (assumption 57). -/
def Obligations.GangsAndQuarantine : Prop :=
  (∀ (s : State) (id : W32) (g : Gang), s.gang? id = some g →
  let looked (u : State) : State := { u with free := if s.gangAbroad g = true then u.free + 1 else u.free }
  (g.state = .collect → s.refusedAbroad g = true → s.partsStall g = false → ∃ s', exec (.gangReserve id) s = .next s' ∧
    (∀ x ∈ s'.launches, ∀ p ∈ g.parts, p.2 ≠ x.seq) ∧ ∀ x ∈ s'.gangs, x.id = id → x.state = .refused) ∧
  (g.state = .collect → s.gangCollected g = true → s.refusedAbroad g = false →
    (∀ h ∈ s.gangs, h.id.toNat < id.toNat → h.state ≠ .reserve) → (∀ x ∈ s.gangs, x.id = id → x = g) → g.reserved = [] →
    let s1 : State := { s with gangs := gangsWith s id fun x => { x with state := .reserve, since := s.clock.gtime } }
    let s2 : State := g.parts.foldl (fun (u : State) p => u.reservePart p.2) s1
    ((∀ x ∈ s2.gangs, x.id = id → x.allHeld = true) → s.abroadHeld g = true →
      exec (.gangReserve id) s = .next (looked { s2 with gangs := gangsWith s2 id fun x => { x with state := .commit } })) ∧
    ((∀ x ∈ s2.gangs, x.id = id → x.allHeld = false) ∨ s.abroadHeld g = false → exec (.gangReserve id) s = .next (looked s2))) ∧
  (g.state = .reserve → g.since + 100000 ≤ s.clock.gtime → (∀ x ∈ s.gangs, x.id = id → x = g) →
    exec (.gangReserveTimeout id) s = .next { s with gangs := gangsWith s id fun x =>
      { x with state := .backoff, since := s.clock.gtime, reserved := [], backed := true } }) ∧
  (g.state = .backoff → g.since + 50000 ≤ s.clock.gtime → (∀ x ∈ s.gangs, x.id = id → x = g) →
    exec (.gangBackoffRetry id) s = .next { s with gangs := gangsWith s id fun x =>
      { x with state := .reserve, since := s.clock.gtime } }) ∧
  (g.state = .commit → ∃ s', exec (.gangCommit id) s = .next s' ∧
    s'.gangs = gangsWith s id (fun x => { x with state := .run, reserved := [] }) ∧
    (∀ r ∈ g.reserved, (s.launch? r.1).isSome → (s'.team? ⟨r.1, r.2.1⟩).isSome) ∧
    (∀ x ∈ s'.launches, (∃ p ∈ g.parts, p.2 = x.seq) → x.stage = .ready) ∧
    s' = { s with gangs := s'.gangs, launches := s'.launches, teams := s'.teams, cores := s'.cores, areas := s'.areas })) ∧
  (∀ (s : State) (L : Nat) (l : Launch), s.launch? L = some l → l.quarantined = true → l.stage = .ready → 0 < l.nextTeam → l.retired < l.grid →
    (l.away ≠ none → exec (.quarantineTimeout L) s = .next s) ∧
    (l.away = none → l.placedAt + 1000 * l.qlimitUs ≤ s.clock.gtime → ∃ s', exec (.quarantineTimeout L) s = .next s' ∧
      s'.telemetry.qtimeout = satInc s.telemetry.qtimeout ∧
      (∀ x ∈ s'.launches, x.seq = L → x.reason = 9 ∧ x.aborted = l.aborted ∧ x.retired = x.grid) ∧
      (∀ x ∈ s'.teams, x.id.launch = L → x.place = .retired) ∧ (∀ f ∈ s'.flights, f.group.team.launch ≠ L)))

/-! Queues and packets (spec 23). -/

namespace Sys2Proof.Claims

/-- The next packet of queue `k` of function `fn` is `w`, of type `ptype` and well formed; the queue is `q`, and the completion
can be written. -/
def NextPacket (s : State) (fn k ptype : Nat) (q : Queue) (w : List W64) : Prop :=
  s.nextPacket fn k = some (q, some w) ∧ packetKind w = ptype ∧ packetWellFormed w = true ∧
  s.cpStalls fn q.qloc (pword w 6) 16 true = false

/-- The packet has been read: QHEAD has moved on, and the level remembers the queue (23 R336, R340). -/
def Consumed (s : State) (fn k : Nat) : List Fn := s.fns.modify fn fun f =>
  { f with
    queues := f.queues.modify k fun q => { q with qhead := q.qhead + 1, rung := none }
    served := f.served.set (f.queues.getD k Queue.reset).prio.toNat k }

/-- The page of the packet has been accessed, where the queue lies in device memory (03 R78). -/
def fetched (s : State) (fn k : Nat) : Memory :=
  let q := (s.fns.getD fn Fn.reset).queues.getD k Queue.reset
  (s.cpMark fn q.qloc (q.qbase.toNat + 64 * (q.qhead.toNat % 2 ^ q.qsize.toNat)) 64).mem

/-- A splice producer of the queue that waits for its consumer is let go (22 R320). -/
def unpaired (s : State) (fn k : Nat) : List Launch := s.launches.map fun l =>
  if l.fn = fn ∧ l.queue = k ∧ l.stage = .pairing then { l with stage := .ready } else l

/-- With a quarantine cell set, the launches of a queue that is demoted which are placed nowhere yet go to the cell, without cut
protection (23 R348). -/
def demotedLaunches (s : State) (fn k : Nat) : List Launch := (unpaired s fn k).map fun l =>
  if s.mgmt.qcell.isSome = true ∧ l.fn = fn ∧ l.queue = k ∧ l.node = none ∧ l.gang = 0 ∧ l.nextTeam = 0 ∧ l.stage ≠ .complete
  then { l with quarantined := true, cutp := false } else l

/-- The state with the packet read, and a splice producer of the queue let go. -/
def readOn (s : State) (fn k : Nat) : State := { s with
  mem := fetched s fn k
  fns := Consumed s fn k
  launches := unpaired s fn k }

/-- A group that goes on after a page fault: the destination of its load is full again (06 R134, 24 R352). -/
def pageBack (g : Group) : Group := { g with
  run := .running
  sregs := g.sregs.map fun x => if x.pend = some 0 then ⟨x.val, none⟩ else x
  vregs := g.vregs.map fun x => if x.pend = some 0 then ⟨x.val, none⟩ else x }

/-- The completion of a packet (23 R338): two words at the address of word 6. -/
def completed (s : State) (fn : Nat) (dev : Bool) (addr : W64) (tag : W32) (status data : Nat) : State :=
  s.cpWrite fn dev addr.toNat (leBytes 8 (tag.toNat + status * 2 ^ 32) ++ leBytes 8 data)

end Sys2Proof.Claims

/-- 23 R341-R343; 22 R320: a LAUNCH whose descriptor is readable and not refused is submitted under the next number; a refused
one places nothing and its record says REFUSED and why.
The model's part in it: what else is malformed, and the loader's parts as operands, are the model's (assumptions 48,
55, 56). -/
def Obligations.LaunchSubmitted : Prop := ∀ (s : State) (fn k : Nat) (q : Queue) (w d : List W64) (spad : List (BitVec 8))
    (text cls : Nat) (splice : List W64), s.nextPacket fn k = some (q, some w) → packetKind w = 1 →
  packetWellFormed w = true → s.cpStalls fn q.qloc (pword w 6) 96 true = false → s.descriptor w = some d →
  let l := s.launchOf fn k q w d spad text splice none
  (s.refusal d l cls = 0 → l.gang = 0 → s.producerOf fn k = none → (cls = 0 → s.codeStalls l l.textBytes = false) → ∃ s' l', exec (.launch fn k spad text cls splice) s = .next s' ∧
    s' = { s with
      mem := s'.mem
      fns := Consumed s fn k
      nextId := s.nextId + 1
      launches := s.launches ++ [l'] } ∧
    (s.looksForPair l = false → s'.mem = fetched s fn k) ∧
    l' = { l with stage := l'.stage } ∧ l'.seq = s.nextId ∧ l'.lid = packetTag w ∧
    ((∃ x ∈ s.launches, x.fn = fn ∧ x.stage ≠ .complete ∧ x.lid ≠ 0 ∧ x.lid ∈ l.waits) → l'.stage = .waiting)) ∧
  (∀ r, s.refusal d l cls = r → 1 < r → l.gang = 0 → s.launchHeld l cls r = false → exec (.launch fn k spad text cls splice) s = .next
    ({ readOn s fn k with nextId := s.nextId + 1 }.cpWrite fn q.qloc (w.getD 6 0).toNat
      (wordBytes (completionRecord l (packetTag w) 1 r 7 s.clock.gtime))))

/-- 23 R337, R338, R340, R348; 03 R81: NOP and INVAL are read, and complete with OK, INVAL when what was under way has been
performed; a reserved packet is consumed, demotes its queue and completes MALFORMED.
23 R338; 13 R272, R273: the DEBUG commands on a group of an outstanding launch. STOP of a group at rest completes at once,
else the stop is pending; RESUME, READ and WRITE want a group at rest; BREAK arms the launch.
The model's part in it: corners of DEBUG and which queue is next are inferences (assumptions 50, 52). -/
def Obligations.QueuePackets : Prop :=
  (∀ (s : State) (fn k j : Nat) (q : Queue) (w : List W64) (v : Inval),
  (NextPacket s fn k 2 q w → exec (.nopPacket fn k) s =
    .next (completed { readOn s fn k with launches := if q.qhead + 1 = q.qtail then unpaired s fn k else s.launches }
      fn q.qloc (w.getD 6 0) (packetTag w) 0 0)) ∧
  (NextPacket s fn k 3 q w → exec (.inval fn k) s = .next { readOn s fn k with
    invals := s.invals ++ [⟨fn, (s.packets.filter fun p => !p.performed).map (·.id), pword w 1, pword w 2, packetTag w,
      w.getD 6 0, q.qloc⟩] }) ∧
  (s.invals[j]? = some v → (∀ p ∈ s.packets, p.id ∈ v.waits → p.performed = true) →
    s.cpStalls v.fn v.compDev v.compAddr.toNat 16 true = false →
    exec (.invalComplete j) s = .next { completed s v.fn v.compDev v.compAddr v.tag 0 0 with invals := s.invals.eraseIdx j }) ∧
  (s.nextPacket fn k = some (q, some w) → packetWellFormed w = false → packetKind w ≠ 1 → packetKind w ≠ 5 →
    s.cpStalls fn q.qloc (pword w 6) 16 true = false → s.collecting fn k = [] → exec (.reservedPacket fn k) s =
      .next (completed { readOn s fn k with
        launches := demotedLaunches s fn k
        fns := (Consumed s fn k).modify fn fun f =>
        { f with queues := f.queues.modify k fun x =>
            { x with qstate := if s.mgmt.qcell.isSome then .quarantined else .stopped, qerr := 1, qerrix := q.qhead } } }
        fn q.qloc (w.getD 6 0) (packetTag w) 5 0))) ∧
  (∀ (s : State) (fn k : Nat) (q : Queue) (w : List W64) (l : Launch) (t : Team)
    (id : GroupId) (g g' : Group) (v : W64), NextPacket s fn k 4 q w →
  let s1 := readOn s fn k
  s1.debugTarget fn w = some (l, t, id, g) →
  let ok (x : State) : State := completed x fn q.qloc (w.getD 6 0) (packetTag w) 0 0
  let item := pword w 2 / 2 ^ 24 % 2 ^ 8
  let index := pword w 2 / 2 ^ 32
  (debugCommand w = 1 → g.atRest = true → exec (.debugStop fn k) s = .next (ok s1)) ∧
  (debugCommand w = 1 → g.atRest = false → exec (.debugStop fn k) s = .next { s1.mapGroup id (fun x => { x with evStop := true }) with
    stops := s.stops ++ [⟨id, fn, packetTag w, w.getD 6 0, q.qloc⟩] }) ∧
  (debugCommand w = 2 → g.atRest = true → exec (.debugResume fn k) s = .next (ok (s1.mapGroup id fun x =>
    if x.run = .ended then x else { x with
      run := .running
      stepOnce := if pword w 2 / 2 ^ 17 % 2 = 1 then .armed else .off }))) ∧
  (debugCommand w = 3 → g.atRest = true → (∀ un', debugItem g (t.budgetOf l id.group) (s.vtime t) un' item index = some (v, false)) →
    exec (.debugRead fn k) s =
      .next (completed { s1 with
        free := s.free + 1
        hostData := if item = 8 ∧ index = 0 ∧ originBytes l g.pc ≠ [] then originBytes l g.pc else s.hostData } fn q.qloc (w.getD 6 0) (packetTag w) 0 v.toNat)) ∧
  (debugCommand w = 4 → g.atRest = true → debugPut g (t.budgetOf l id.group) (decide (pword w 2 / 2 ^ 16 % 2 = 1)) item index
      (w.getD 3 0) = .ok g' → exec (.debugWrite fn k) s = .next (ok (s1.noteWrites id [] (s1.setGroup id g')))) ∧
  (debugCommand w = 5 → exec (.debugBreak fn k) s = .next (ok { s1 with
    launches := s1.launches.map fun x => if x.seq = l.seq then { x with breakArmed := decide (pword w 3 % 2 = 1) } else x })))

/-- 23 R339, R345; 03 R80: a fault that the driver answers is outstanding no more, and its group executes again or takes PAGE, the load's destination full
again; a
GLOAD puts a valid image into its entry at once, or when the replays of the image there have ended, and unloading takes it
out.
The model's part in it: which images are valid and whom a declined page reaches are inferences (assumptions 32, 49,
53). -/
def Obligations.RepliesAndGraphs : Prop := ∀ (s : State) (fn k j : Nat) (q : Queue) (w : List W64) (p : PageFault) (t : Team)
    (g : Group) (id : GroupId) (im : GraphImage) (df : DeferredLoad),
  let s1 := readOn s fn k
  let table := pword w 1
  let entry := pword w 2 % 2 ^ 17
  let ok (x : State) : State := completed x fn q.qloc (w.getD 6 0) (packetTag w) 0 0
  let answered : State := { s1 with fns := s1.fns.modify fn fun f => { f with faults := f.faults.filter fun x => decide (x ≠ p) } }
  let idle : Prop := s1.graphBit table entry = false ∨ ∀ r ∈ s.replays, r.fn = fn → r.table = table → r.entry ≠ entry
  (NextPacket s fn k 5 q w → s1.faultOf? fn (pword w 1) = some p → p.who = .group id → s.team? id.team = some t →
    t.groups[id.group]? = some g → g.run = .pageWait →
    (pword w 2 = 0 → ∃ s', exec (.pfreplyReplay fn k) s = .next s' ∧ s' = { answered with teams := s'.teams } ∧
      TeamIs s s' id.team { t with groups := t.groups.set id.group (pageBack g) }) ∧
    (pword w 2 = 1 → ∃ word, exec (.pfreplyDeliver fn k) s = .next ((answered.setGroup id (pageBack g)).deliver id
      ⟨0x07, if p.write then 1 else 0, BitVec.ofNat 64 p.va, 0, p.maskLo, p.maskHi⟩ false word))) ∧
  (NextPacket s fn k 6 q w → gloadTarget w = true → idle →
    (pword w 2 / 2 ^ 32 % 2 = 0 → s1.graphWritten table entry = some im →
      exec (.gload fn k) s = .next (ok (s1.setGraph fn table entry (some im)))) ∧
    (pword w 2 / 2 ^ 32 % 2 = 1 → exec (.gloadUnload fn k) s = .next (ok (s1.setGraph fn table entry none)))) ∧
  (s.deferred[j]? = some df → (∀ r ∈ s.replays, r.fn = df.fn → r.table = df.table → r.entry ≠ df.entry) →
    s.cpStalls df.fn df.compDev df.compAddr.toNat 16 true = false → exec (.gloadDeferredComplete j) s =
      .next (completed ({ s with deferred := s.deferred.eraseIdx j }.setGraph df.fn df.table df.entry df.image)
        df.fn df.compDev df.compAddr df.tag 0 0)) ∧
  (s.setGraph fn table entry (some im)).graph? fn table entry = some im ∧
  (s.setGraph fn table entry none).graph? fn table entry = none

/-! What hosts do (spec 23 R334-R336, R345, R349; 26 R380). -/

namespace Sys2Proof.Claims

/-- The functions with queue `k` of function `fn` changed by `f`. -/
def queueWith (s : State) (fn k : Nat) (f : Queue → Queue) : List Fn :=
  s.fns.modify fn fun x => { x with queues := x.queues.modify k f }

/-- Where the byte of a lake address lies now: a page that the Spring engines moved is read and written at its new place (03
R86). -/
def lakePlace (moved : List (Nat × Nat × Nat)) (a : Nat) : Nat :=
  ((moved.find? fun x => decide (x.1 ≤ a ∧ a < x.1 + x.2.1)).map fun x => a - x.1 + x.2.2).getD a

/-- Entry `e` of a page table with ACCESSED set, and DIRTY for a write (03 R78). -/
def marked (m : Memory) (e : Nat) (w : Bool) : Memory :=
  m.writeLe e 8 ((m.read64 e) ||| (if w then 0xC0 else 0x40)).toNat

end Sys2Proof.Claims

/-- 23 R336: the doorbell, ENABLE and QCLEAR, and the writes of the words of an idle queue.
23 R334, R335, R345, R349; 26 R380, R393: the fault queue's registers, the management window, the host aperture, CXL (the dump region
for link 0's physical function alone), and the host's answers to page requests; the driver's root of a partition and a revocation
fuse.
The model's part in it: the order of an ENABLE write's own checks, the host translations, and areas 18 and 19 that stand for the
driver's root and the fuses are its choices (assumptions 28, 54, 62, 71). -/
def Obligations.HostInterface : Prop :=
  (∀ (s : State) (fn k : Nat) (f : Fn) (q : Queue) (t : W32) (v : W64),
  s.fns[fn]? = some f → f.queues[k]? = some q →
  let set (x : Queue) : State := { s with fns := queueWith s fn k fun _ => x }
  let demoted : State := { s with
    launches := demotedLaunches s fn k
    fns := queueWith s fn k fun x => { x with
      qstate := if s.mgmt.qcell.isSome then .quarantined else .stopped
      qerr := 3
      qerrix := t } }
  (q.enable = false → exec (.qtailDoorbell fn k t) s = .next s) ∧
  (q.enable = true → (t - q.qhead).toNat ≤ 2 ^ q.qsize.toNat → (t - q.qtail).toNat < 2 ^ 31 →
    exec (.qtailDoorbell fn k t) s = .next (set { q with qtail := t, rung := q.rung.or (some s.clock.gtime) })) ∧
  (q.enable = true → (2 ^ q.qsize.toNat < (t - q.qhead).toNat ∨ 2 ^ 31 ≤ (t - q.qtail).toNat) → s.collecting fn k = [] →
    exec (.qtailDoorbell fn k t) s = .next demoted) ∧
  (q.enable = false → exec (.queueEnable fn k) s =
    .next (set { q with enable := true, qhead := 0, qtail := 0, qstate := .active })) ∧
  (q.enable = true → ∃ s', exec (.queueDisable fn k) s = .next s' ∧ s' = { s with
      launches := unpaired s fn k
      fns := queueWith s fn k fun _ => { q with enable := false, qstate := .disabled, qerr := 0, qerrix := 0 } }) ∧
  (q.qstate = .quarantined ∨ q.qstate = .stopped → exec (.qclear fn k) s = .next (set { q with qstate := .active })) ∧
  (q.qstate = .disabled → exec (.qclear fn k) s = .next s) ∧
  (fn < 17 → k < 64 → q.enable = false → exec (.registerWrite fn (0x1000 + 64 * k) v) s = .next (set { q with qbase := v })) ∧
  (fn < 17 → k < 64 → q.enable = true → exec (.registerWrite fn (0x1000 + 64 * k) v) s = .next s) ∧
  (fn < 17 → k < 64 → q.enable = false → v.toNat / 2 ^ 9 % 2 = 1 →
    exec (.registerWrite fn (0x1000 + 64 * k + 8) v) s = .next (set { q with
      qsize := v.extractLsb' 0 5
      prio := v.extractLsb' 5 2
      qloc := v.getLsbD 7
      splice := v.getLsbD 8
      enable := true
      qhead := 0
      qtail := 0
      qstate := .active }))) ∧
  (∀ (s : State) (fn off n k e : Nat) (f : Fn) (v : W64) (bs : List (BitVec 8)) (pa : Nat)
    (p : PageFault) (g b : Nat) (wr : Bool) (t : Team) (x : Group) (id : GroupId), s.fns[fn]? = some f →
  let setFn (y : Fn) : State := { s with fns := s.fns.set fn y }
  (f.faults = [] → exec (.fqctlWrite fn v) s = .next (setFn { f with fqctl := v &&& 0x1F, fqhead := 0, fqtail := 0, fseq := 0 })) ∧
  (f.faults ≠ [] → exec (.fqctlWrite fn v) s = .next s) ∧
  ((∀ y ∈ f.faults, y.seqno.isSome = true) → exec (.fqtailWrite fn v) s = .next (setFn { f with fqtail := v.truncate 32 })) ∧
  (s.mgmt.busy = false → exec (.registerWrite 17 0 v) s = .next { s with mgmt := { s.mgmt with
    busy := true
    op := v.truncate 8
    tag := (v >>> 32).truncate 32
    ran := false } }) ∧
  (s.mgmt.busy = true → exec (.registerWrite 17 0 v) s = .next s) ∧
  (k < 4 → exec (.registerWrite 17 (8 + 8 * k) v) s = .next { s with mgmt := { s.mgmt with margs := s.mgmt.margs.set k v } }) ∧
  (fn < 17 → k < 64 → exec (.registerWrite fn (0x3000 + 8 * k) v) s =
    .next (setFn { f with aptes := f.aptes.set k (v &&& 0x01FFFFFFFC000003) })) ∧
  (fn < 17 → off < 0x10000 → s.registerRead (0x0C0000000000 + 0x10000 * fn + off) = some (s.fnRegister fn off)) ∧
  (s.fnRegister fn 0x18 = f.fqctl ∧ s.fnRegister fn 0x20 = f.fqhead.zeroExtend 64 ∧ s.fnRegister fn 0x30 = f.aperr ∧
    (k < 64 → s.fnRegister fn (0x3000 + 8 * k) = f.aptes.getD k 0)) ∧
  (fn < 17 → apertureShape off 1 = true → s.apertureWalks fn off 1 false = some [.page pa e] →
    exec (.hostApertureRead fn off 1) s = .next { s with mem := marked s.mem e false, hostData := [s.mem.read pa] }) ∧
  (fn < 17 → apertureShape off n = true → s.apertureWalks fn off n false = none →
    exec (.hostApertureRead fn off n) s = .next { setFn { f with aperr := satInc f.aperr } with hostData := List.replicate n 0xFF }) ∧
  (∀ y, fn < 17 → apertureShape off 1 = true → s.apertureWalks fn off 1 true = some [.page pa e] →
    exec (.hostApertureWrite fn off [y]) s = .next { s with mem := (marked s.mem e true).write pa y }) ∧
  (k < 2 →
    let place (i : Nat) : Nat := lakePlace s.moved (0x040000000000 + k * 0x020000000000 + off + i)
    let still (m : Nat) : Prop := ∀ i < m, ∀ y ∈ s.transits, ¬ (y.oldPage ≤ place i ∧ place i < y.oldPage + y.size)
    let top : Nat := if fn = 0 then 0x020000000000 else 0x020000000000 - 32 * 2 ^ 30
    (off + n ≤ top → still n → exec (.cxlMemRead ⟨fn, k⟩ off n) s = .next { s with
      hostData := (List.range n).map fun i => s.mem.read (place i) }) ∧
    (off + bs.length ≤ top → still bs.length → exec (.cxlMemWrite ⟨fn, k⟩ off bs) s = .next { s with
      mem := ((List.range bs.length).zip bs).foldl (fun m x => m.write (place x.1) x.2) s.mem }) ∧
    (top < off + n → exec (.cxlMemRead ⟨fn, k⟩ off n) s = .next s) ∧
    (top < off + bs.length → exec (.cxlMemWrite ⟨fn, k⟩ off bs) s = .next s)) ∧
  (exec (.registerWrite 18 (8 * k) v) s = .next { s with parts := s.parts.modify k fun y => { y with ptRoot := v.toNat % 2 ^ 56 } }) ∧
  (v.getLsbD 0 = true → exec (.registerWrite 19 (8 * k) v) s = .next { s with revoked := s.revoked.set k true }) ∧
  (f.faults[k]? = some p → p.pri = true → p.who = .group id → s.team? id.team = some t → t.groups[id.group]? = some x →
    x.run = .pageWait → ∃ s', exec (.hostPriResponse fn k true b wr) s = .next s' ∧ s' = { setFn { f with
        faults := f.faults.eraseIdx k
        ats := (f.ats.filter fun y => decide (y.page ≠ p.va / 0x10000)) ++ [⟨p.va / 0x10000, b, wr⟩] } with teams := s'.teams } ∧
      TeamIs s s' id.team { t with groups := t.groups.set id.group (pageBack x) }) ∧
  exec (.atsInvalidation fn g) s = .next (setFn { f with ats := f.ats.filter fun y => decide (y.page ≠ g) }))

/-! Channels and links (spec 05; 12 R261, R262; 16 R295, R296; 26 R388). -/

namespace Sys2Proof.Claims

/-- What a port expects next of a stream: 0 without an entry (05 R117). -/
def expects (s : State) (st : StreamId) : BitVec 16 :=
  ((s.ports.find? fun e => decide (e.stream = st)).map (·.expected)).getD 0

/-- The link with index `k` is as `f` makes it. -/
def linkWith (s : State) (k : Nat) (f : Link → Link) : State := { s with links := s.links.modify k f }

end Sys2Proof.Claims

/-- 05 R114-R118, R122; 16 R296: a packet with the expected number is performed once and acknowledged, one ahead of it waits in
the buffer, one far ahead is refused, one already performed is acknowledged again; an acknowledgement, a close message and a
resend do what they say; a SYNC acknowledges what it covers.
05 R122, R123; 12 R261, R262; 26 R388: a link goes down with what was on it, comes back at full width, is at full width with
traffic on it, narrows after 2 µs and sleeps after 50 µs without it unless LWAKE holds it; an unreachable peer is marked so, and
what was on its way there is lost.
The model's part in it: joins by delay and the corners of SYNC and of a failed link are inferences (assumptions 11, 37); that a retrained
link counts as having had traffic now, and which links traffic brings to full width, are its choices (assumption 5). -/
def Obligations.Transport : Prop :=
  (∀ (s : State) (k : Nat) (p : Packet) (st : StreamId) (m : SyncMsg),
  (s.wire[k]? = some p.id → s.packet? p.id = some p → p.acked = false → s.fatal = false → s.closes.contains p.stream = false →
    (s.joinsDone p = true ∧ s.opReady p.op = true) → s.buffered = [] → (s.ports.find? fun e => decide (e.stream = p.stream)).isSome →
    let d := (p.num - expects s p.stream).toNat
    ∃ s', exec (.channelPacketArrival k) s = .next s' ∧ s'.teams.length = s.teams.length ∧
      (d = 0 → (∀ cs, p.op = .store cs → s'.mem = (s.storeCells cs).mem) ∧ s'.acks = s.acks ++ [p.id] ∧
        expects s' p.stream = expects s p.stream + 1 ∧ (∀ y ∈ s'.packets, y.id = p.id → y.performed = true) ∧
        (∀ u, u ≠ p.stream → expects s' u = expects s u) ∧ s'.wire = s.wire.eraseIdx k) ∧
      (1 ≤ d → d ≤ 1024 → s'.buffered = [p.id] ∧ s'.acks = s.acks ∧ s'.mem = s.mem ∧ s'.ports = s.ports ∧ s'.wire = s.wire.eraseIdx k) ∧
      (1024 < d → d < 32768 → (∃ y ∈ s'.packets, y.id = p.id ∧ y.resend = true) ∧ s'.acks = s.acks ∧ s'.mem = s.mem ∧
        s'.ports = s.ports ∧ s'.wire = s.wire.eraseIdx k) ∧
      (32768 ≤ d → s'.acks = s.acks ++ [p.id] ∧ s'.mem = s.mem ∧ s'.ports = s.ports ∧ s'.wire = s.wire.eraseIdx k)) ∧
  (s.acks[k]? = some p.id → s.packet? p.id = some p → p.acked = false → ∃ s', exec (.channelAck k) s = .next s' ∧
    s'.acks = s.acks.eraseIdx k ∧ (∀ y ∈ s'.packets, y.id = p.id → y.acked = true) ∧ s'.mem = s.mem ∧ s'.wire = s.wire ∧
    ∀ e ∈ (s'.chansOf p.stream.owner)[p.stream.chan]?.toList.flatMap (·.streams), e.dest = p.stream.dest →
      ∃ e0 ∈ (s.chansOf p.stream.owner)[p.stream.chan]?.toList.flatMap (·.streams), e.unacked = e0.unacked - 1) ∧
  (s.closes[k]? = some st → exec (.streamClose k) s = .next { s with
    closes := s.closes.eraseIdx k
    ports := s.ports.filter fun e => decide (e.stream ≠ st) }) ∧
  (s.packet? p.id = some p → p.resend = true → p.acked = false → exec (.packetResend p.id) s = .next { s with
    packets := s.packets.map fun y => if y.id = p.id then { y with resend := false } else y
    wire := s.wire ++ [p.id] }) ∧
  (s.syncs[k]? = some m → ∃ s', exec (.sync k) s = .next s' ∧ s'.mem = s.mem ∧ s'.ports = s.ports ∧
    s'.syncs.length + 1 = s.syncs.length ∧
    (m.handshake = 0 → s'.telemetry = s.telemetry) ∧
    (m.handshake ≠ 0 → s'.telemetry = { s.telemetry with resync := satInc s.telemetry.resync }) ∧
    ∀ e, m.streams = [(st, e)] → ∀ y ∈ s.packets, y.stream = st → y.acked = false → (∀ z ∈ s.packets, z.id = y.id → z = y) →
      (32768 ≤ (y.num - e).toNat → ∀ z ∈ s'.packets, z.id = y.id → z.acked = true) ∧
      ((y.num - e).toNat < 32768 → y.id ∈ s'.wire)) ∧
  (s.syncReqs[k]? = some m → (∀ x ∈ m.streams, x.2 = 1) → exec (.syncRequest k) s =
    .next { s with syncReqs := s.syncReqs.eraseIdx k }) ∧
  (s.syncReqs[k]? = some m → m.streams = [(st, 0)] → ∃ s', exec (.syncRequest k) s = .next s' ∧
    s'.syncs = s.syncs ++ [⟨m.handshake, m.owner, [(st, expects s st)]⟩] ∧ expects s' st = expects s st ∧
    s' = { s with syncReqs := s.syncReqs.eraseIdx k, syncs := s'.syncs, ports := s'.ports })) ∧
  (∀ (s : State) (k : Nat) (x : Link) (ps as : List Nat) (m : Nat), s.links[k]? = some x →
  (x.up = true → ∃ s', exec (.linkFailure k ps as) s = .next s' ∧ s'.links = s.links.set k { x with up := false } ∧
    s'.telemetry = { s.telemetry with linkDown := satInc s.telemetry.linkDown } ∧ s'.packets = s.packets ∧ s'.mem = s.mem ∧
    s'.ports = s.ports ∧ (∀ p ∈ s.packets, p.id ∈ ps → p.acked = false → s.wire.count p.id ≤ 1 → p.id ∉ s'.wire) ∧
    (∀ i, i ∉ ps → s'.wire.count i = s.wire.count i) ∧ ∀ i, i ∉ as → s'.acks.count i = s.acks.count i) ∧
  (x.up = false → exec (.linkRetrained k) s = .next (linkWith s k fun _ => ⟨true, .full, s.clock.gtime, 0⟩)) ∧
  (x.up = true → x.state = .full → x.holdUntil ≤ s.clock.gtime → x.lastTraffic + 2000 ≤ s.clock.gtime →
    exec (.linkNarrow k) s = .next (linkWith s k fun _ => { x with state := .narrow })) ∧
  (s.clock.gtime < x.lastTraffic + 2000 → exec (.linkNarrow k) s = .next s) ∧
  (x.up = true → x.holdUntil ≤ s.clock.gtime → x.lastTraffic + 50000 ≤ s.clock.gtime →
    exec (.linkSleep k) s = .next (linkWith s k fun _ => { x with state := .sleep })) ∧
  (s.clock.gtime < x.lastTraffic + 50000 → exec (.linkSleep k) s = .next s) ∧
  ((∀ u d, s.traffic u d = { s with links := s.links.zipIdx.map fun y => if y.1.up = true ∧ Config.onPath u d.code y.2 = true then
    { y.1 with state := .full, lastTraffic := s.clock.gtime } else y.1 })) ∧
  (s.clock.gtime < x.holdUntil → exec (.linkNarrow k) s = .next s ∧ exec (.linkSleep k) s = .next s ∧ exec (.lwakeExpiry k) s = .next s) ∧
  (x.holdUntil ≤ s.clock.gtime → exec (.lwakeExpiry k) s = .next (linkWith s k fun _ => { x with holdUntil := 0 })) ∧
  (∃ s', exec (.peerUnreachable m) s = .next s' ∧ (∀ p ∈ s'.peers, p.mod = m → p.reachable = false) ∧
    (∀ q ∈ s'.packets, ∀ d, q.stream.dest ≠ .peer m d) ∧
    (s.cuts = [] → ∀ u t, s.team? u = some t → ∃ t', s'.team? u = some t' ∧ ∀ i < 16, t'.lost.getLsbD i =
      (t.lost.getLsbD i || ((t.chans[i]?.toList.flatMap (·.streams)).any fun e => match e.dest with
        | .peer j _ => decide (j = m)
        | _ => false))) ∧
    (s.cuts = [] → ∀ y ∈ s.copies, y.code = 0 → (s.restTo y fun d => match d with
        | .peer j _ => decide (j = m)
        | _ => false) = true → ∃ z ∈ s'.copies, z.id = y.id ∧ z.code = 1)))

/-! Pages, pre-emption and cuts (spec 03 R86; 24), and losses (24 R363, R364; 26 R387). -/

namespace Sys2Proof.Claims

/-- Cut job of a launch with `f` done to it. -/
def jobsWith (s : State) (n : Nat) (f : CutJob → CutJob) : List CutJob :=
  s.cuts.map fun j => if j.launches.contains n then f j else j

/-- A team off its core. -/
def offCores (s : State) (id : TeamId) : List Core := s.cores.map fun c =>
  { c with active := c.active.filter fun e => decide (e.group.team ≠ id),
           pending := c.pending.filter fun e => decide (e.group.team ≠ id) }

/-- Launch `L` notes since when no team of it is resident (24 R365); `id` is the team that leaves. -/
def AwayNoted (s t : State) (id : TeamId) : Prop := t.launches.length = s.launches.length ∧
  ∀ (k : Nat) (m : Launch), s.launches[k]? = some m → ∃ m' : Launch, t.launches[k]? = some m' ∧ (m.seq ≠ id.launch → m' = m) ∧
    (m.seq = id.launch → m' = { m with away := m'.away } ∧
      ((∃ x ∈ s.teams, x.id.launch = id.launch ∧ x.id ≠ id ∧ x.core?.isSome = true) → m'.away = m.away) ∧
      ((∀ x ∈ s.teams, x.id.launch = id.launch → x.id ≠ id → x.core? = none) → m'.away = m.away.or (some s.clock.gtime)))

/-- The header of a team's save area (24 R354): KIND, VERSION, TEAM, LID, SIZE and GSAVE. -/
def saveHeader (s : State) (l : Launch) (t : Team) : SaveHeader :=
  ⟨0, 1, BitVec.ofNat 32 t.id.index, l.lid.zeroExtend 64, BitVec.ofNat 64 (saveBytes l t), BitVec.ofNat 64 s.clock.gtime⟩

/-- The launches of a job: the launch, or every part of its gang on this module that is under way (24 R358). -/
def jobSeqs (s : State) (l : Launch) : List Nat :=
  if l.gang = 0 then [l.seq] else (s.launches.filter fun m => decide (m.gang = l.gang ∧ m.stage = .ready)).map (·.seq)

/-- A group held at its STEP goes on; one that a debugger let issue that instruction alone stops after it (13 R272). -/
def letGo (s : State) (t : Team) (g : Group) : Group := match s.launch? t.id.launch with
  | none => { g with run := .running }
  | some l => if g.stepOnce = .armed
      then { g with run := .debugStopped, stepOnce := .off, record := mkRecord l g .singleStep false (s.vtime t) }
      else { g with run := .running }

/-- The teams with the held groups that `f` admits let go. -/
def freedTeams (s : State) (f : Nat → Group → Bool) : List Team := s.teams.map fun t => { t with
  groups := t.groups.map fun g => if g.run = .stepHeld ∧ f t.id.launch g = true then letGo s t g else g }

/-! Losses. -/

/-- What makes firmware fence a compute die (26 R388, 25 R367). -/
def DieIsGone (s : State) (d : Nat) : Prop :=
  (∀ (k : Nat) (x : Link), s.links[k]? = some x → Config.linkAt d k = true → x.up = false) ∨
  (∀ k < 8, 8 * d + k ∈ s.hive.lostCells) ∨
  (s.spares.getD d 0 = 0 ∧ ∃ a b, a ≠ b ∧ a / 32 = d ∧ b / 32 = d ∧ (∃ c, s.cores[a]? = some c ∧ c.enabled = false) ∧
    ∃ c, s.cores[b]? = some c ∧ c.enabled = false)

/-- No complete cut holds a launch or teams of it. -/
def NoCut (s : State) (n : Nat) : Prop := ∀ k ∈ s.cuts, k.complete = true → n ∉ k.launches ∧ ∀ t ∈ k.teams, t.id.launch ≠ n

/-- A group parked by WAITA took BARRIER_LOST (24 R364). -/
def Woken (s s' : State) (id : GroupId) : Prop := ∀ (t : Team) (g : Group) (a v : W64) (n k : Nat), s.faultSlot? 0x0C 0 = none →
  s.team? id.team = some t → t.place = .resident k → t.groups[id.group]? = some g → g.run = .parked a v n → g.inTrap = false →
  ∃ g', s'.group? id = some g' ∧ g'.record.code = 0x0C ∧ ∀ a v n, g'.run ≠ .parked a v n

/-- A launch without a cut to go back to has lost the teams that stood on the cores `gone`: it completes ABORTED with DIE_LOST, as
its gang does, those teams are gone, and groups that are parked elsewhere take BARRIER_LOST (24 R364, 23 R347). -/
def LaunchLost (s s' : State) (l : Launch) (gone : Nat → Prop) : Prop :=
  (∀ m ∈ s'.launches, m.seq = l.seq → m.aborted = true ∧ m.reason = 11 ∧ m.dieLost = true) ∧
  (∀ m ∈ s'.launches, l.gang ≠ 0 → m.gang = l.gang → m.aborted = true) ∧
  (∀ t ∈ s.teams, t.id.launch = l.seq → (∃ k, t.place = .resident k ∧ gone k) →
    (∀ u ∈ s'.teams, u.id = t.id → u.place = .retired) ∧ ∀ c ∈ s'.cores, ∀ e ∈ c.active ++ c.pending, e.group.team ≠ t.id) ∧
  (∀ id : GroupId, id.team.launch = l.seq → (∀ t ∈ s.teams, t.id = id.team → ∀ k, t.place = .resident k → ¬ gone k) → Woken s s' id) ∧
  ∀ m ∈ s.launches, l.gang ≠ 0 → m.gang = l.gang → m.aborted = false → NoCut s m.seq → ∀ id : GroupId, id.team.launch = m.seq →
    (∀ t ∈ s.teams, t.id = id.team → ∀ k, t.place = .resident k → ¬ gone k) → Woken s s' id

/-- Job `j` has a complete cut, and a launch of it is hit; cuts are of whole jobs, apart from each other. -/
def JobHit (s : State) (j : CutJob) (hit : Launch → Prop) : Prop :=
  j ∈ s.cuts ∧ j.complete = true ∧ (∃ l ∈ s.launches, l.seq ∈ j.launches ∧ hit l) ∧ (∀ t ∈ j.teams, t.id.launch ∈ j.launches) ∧
  (∀ l ∈ s.launches, l.seq ∈ j.launches → l.cutp = true ∧ l.dieLost = false ∧
    (l.gang ≠ 0 → ∀ m ∈ s.launches, m.gang = l.gang → m.seq ∈ j.launches)) ∧
  ∀ k ∈ s.cuts, k ≠ j → (∀ n ∈ k.launches, n ∉ j.launches) ∧ ∀ t ∈ k.teams, t.id.launch ∉ j.launches

/-- The job has gone back to its cut: its teams are those that the cut records, with empty stream tables, placed nowhere; counts are the
cut's, nothing of it is under way, and no port expects a number of it (24 R363). -/
def WentBack (s s' : State) (j : CutJob) : Prop :=
  (s'.teams.filter fun t => decide (t.id.launch ∈ j.launches)) =
    (j.teams.map fun t => { t with chans := t.chans.map fun _ => Channel.empty, lost := 0 }) ∧
  (∀ l ∈ s'.launches, l.seq ∈ j.launches → ∀ m, j.recorded.find? (fun x => decide (x.seq = l.seq)) = some m →
    l.nextTeam = m.nextTeam ∧ l.retired = m.retired ∧ l.vtSum = m.vtSum ∧ l.stopReq = false ∧ l.dieLost = false) ∧
  (∀ c ∈ s'.cores, ∀ e ∈ c.active ++ c.pending, e.group.team.launch ∉ j.launches) ∧
  (∀ (q : StreamId) (t : TeamId), q.owner = .team t → t.launch ∈ j.launches →
    (∀ p ∈ s'.packets, p.stream ≠ q) ∧ ∀ p ∈ s'.ports, p.stream ≠ q) ∧
  (∀ x ∈ s'.flights, x.group.team.launch ∉ j.launches) ∧ (∀ x ∈ s'.copies, x.group.team.launch ∉ j.launches) ∧
  (∀ x ∈ s'.replays, x.group.team.launch ∉ j.launches) ∧ (∀ x ∈ s'.signatures, x.origin.launch ∉ j.launches) ∧
  (s.cuts = [j] → s'.telemetry.rollback = satInc s.telemetry.rollback)

/-- Memory `m0` is what the journals of all cuts hold. -/
def Journalled (s : State) (m0 : Memory) : Prop :=
  m0.wf = true ∧ ∀ k ∈ s.cuts, ∀ x ∈ k.journal, x.cells = m0.slice x.page x.size

/-- The job's journalled pages read as at the cut, and what no cut has journalled is as it was. -/
def MemoryBack (s s' : State) (j : CutJob) (m0 : Memory) : Prop :=
  (∀ x ∈ j.journal, ∀ a, x.page ≤ a → a < x.page + x.size → s'.mem.read a = m0.read a) ∧
  ∀ a, (∀ k ∈ s.cuts, ∀ x ∈ k.journal, ¬ (x.page ≤ a ∧ a < x.page + x.size)) → s'.mem.read a = s.mem.read a

/-- The state after a loss: jobs with a cut have gone back to it, other launches are lost; `hit` says whom it hits. -/
def AfterLoss (s s' : State) (hit : Launch → Prop) (gone : Nat → Prop) : Prop :=
  (∀ l ∈ s.launches, hit l → NoCut s l.seq → LaunchLost s s' l gone) ∧ ∀ j, JobHit s j hit → WentBack s s' j

end Sys2Proof.Claims

/-- 03 R85, R86; 24 R363; 26 R386: a page of a tiered segment, or of a rehomed one, that moves is in transit from its start to its
completion; its bytes are then at the new place, its entry holds the new address with TRANSIT clear, what was queued for it follows,
CXL finds a lake page there, and no L1 keeps a line of either place.
The model's part in it: which pages may go and where, that a start for any other page does nothing (assumptions 85, 90). -/
def Obligations.PagesMove : Prop := ∀ (s : State) (P va target k : Nat) (p : Leaf) (t : Transit), memoriesWf s →
  ((s.leavesOf P).find? (fun p => decide (p.va ≤ va) && decide (va < p.va + p.size)) = some p →
    let goes : Prop := (s.tieredPage P p = true ∨ (isNear target = true ∧ (P, p.va, nearDie target) ∈ s.rehomed)) ∧
      s.movable p target = true
    (goes → exec (.pageMigrationStart P va target) s = .next { s with
      mem := s.mem.writeLe p.entry 8 (s.mem.read64 p.entry ||| 0x20).toNat
      transits := s.transits ++ [⟨P, p.va, p.entry, p.pa, target, p.size⟩] }) ∧
    (¬ goes → exec (.pageMigrationStart P va target) s = .next s)) ∧
  (s.transits[k]? = some t → s.stops = [] → (t.entry + 8 ≤ t.newPage ∨ t.newPage + t.size ≤ t.entry) →
    (t.oldPage + t.size ≤ t.newPage ∨ t.newPage + t.size ≤ t.oldPage) → (s.mem.read64 t.entry).getLsbD 5 = true →
    t.newPage % 4096 = 0 → t.newPage < 2 ^ 56 → ∃ s', exec (.pageMigrationComplete k) s = .next s' ∧
      s'.transits = s.transits.eraseIdx k ∧
      s'.mem.read64 t.entry = (s.mem.read64 t.entry &&& 0xFF00000000000FDF) ||| BitVec.ofNat 64 t.newPage ∧ (∀ i < t.size, s'.mem.read (t.newPage + i) = s.mem.read (t.oldPage + i)) ∧
      (∀ a, (a < t.newPage ∨ t.newPage + t.size ≤ a) → (a < t.entry ∨ t.entry + 8 ≤ a) → s'.mem.read a = s.mem.read a) ∧
      (s.moved = [] → isLake t.oldPage = true → ∀ i < t.size, lakePlace s'.moved (t.oldPage + i) = t.newPage + i) ∧
      (∀ c ∈ s'.cores, ∀ n ∈ c.l1, ∀ a, n.start = .phys a → (a < t.oldPage ∨ t.oldPage + t.size ≤ a) ∧
        (a < t.newPage ∨ t.newPage + t.size ≤ a)) ∧
      s'.rehomed = s.rehomed.filter (fun x => decide (x.1 ≠ t.part ∨ x.2.1 ≠ t.va)) ∧
      (∀ q ∈ s'.packets, ∃ q0 ∈ s.packets, q = { q0 with op := q.op }) ∧ s'.teams = s.teams ∧ s'.launches = s.launches)

/-- 24 R350-R356; 26 R382: the pre-emption of a team: which kind is chosen, when a DRAIN becomes a SAVE, what a save records,
when it is withdrawn, and what a flush discards; the launch notes since when it is away.
The model's part in it: the sizes of save areas and gangs' teams are inferences (assumptions 34, 41, 42). -/
def Obligations.PreEmption : Prop := ∀ (s : State) (L T B : Nat) (t : Team) (l : Launch) (p : Preempt),
  s.team? ⟨L, T⟩ = some t → s.launch? L = some l →
  let id : TeamId := ⟨L, T⟩
  (t.core?.isSome = true → t.preempt = none → s.cutting L = false → t.saveBarred = false →
    s.poolUsed l.fn + saveBytes l t ≤ (s.parts.getD l.fn Partition.reset).poolMib * 2 ^ 20 →
    ∃ K, exec (.preemptRequest L T B) s = .next (s.setTeam { t with
        preempt := some ⟨K, B, s.clock.gtime⟩
        frozen := decide (K ≠ .drain) }) ∧
      ((∀ g ∈ t.groups, g.begun = false) → l.gang = 0 → K = .flush) ∧
      ((∃ g ∈ t.groups, g.begun = true) ∨ l.gang ≠ 0 →
        let vt := (s.vtime t).toNat
        let n := l.retired - l.lostTeams
        let trapped : Prop := ∃ g ∈ t.groups, g.inTrap = true ∨ g.run = .debugStopped ∨ (g.run = .stopped ∧ l.dbg = true)
        let drains : Prop := 0 < n ∧ (l.vtSum - vt * n) * 1000 ≤ B * (1400 - 50 * s.mgmt.clockStep) * n
        let flushes : Prop := l.krec.idem = true ∧ vt * 512 ≤ saveBytes l t ∧ l.gang = 0
        (trapped → K = .save) ∧ (¬ trapped → drains → K = .drain) ∧ (¬ trapped → ¬ drains → flushes → K = .flush) ∧
        (¬ trapped → ¬ drains → ¬ flushes → K = .save))) ∧
  (t.core?.isSome = true → t.preempt = some p → p.kind = .drain → p.since + p.budget ≤ s.clock.gtime → ∃ s',
    exec (.drainTimeout L T) s = .next s' ∧ s' = { s with teams := s'.teams } ∧ TeamIs s s' id { t with
      preempt := some ⟨.save, 0, s.clock.gtime⟩
      frozen := true }) ∧
  (t.core?.isSome = true → t.preempt = some p → p.kind = .save → s.settled t = true → ∃ s',
    exec (.saveComplete L T) s = .next s' ∧ AwayNoted s s' id ∧ s' = { s with
      teams := s'.teams
      cores := offCores s id
      launches := s'.launches
      areas := (s.areas.filter fun a => decide (a.team ≠ id ∨ a.kind ≠ 0)) ++ [⟨id, 0, s.saveArea l t (saveHeader s l t)⟩] } ∧
    TeamIs s s' id { t with
      place := .saved
      vtSaved := (s.vtime t).toNat
      frozen := false
      preempt := none
      saveHdr := some (saveHeader s l t) }) ∧
  (s.saveArea l t (saveHeader s l t)).take 64 = (leBytes 4 (2 ^ 8) ++ leBytes 4 T ++ leBytes 8 l.lid.toNat ++
    leBytes 8 (saveBytes l t) ++ leBytes 8 s.clock.gtime ++ List.replicate 32 0) ∧
  (t.core?.isSome = true → t.preempt = some p → p.kind = .save → s.settled t = false →
    p.since + max p.budget 1000000 ≤ s.clock.gtime → exec (.saveWithdraw L T) s = .next (s.setTeam { t with
      preempt := none
      frozen := false
      saveBarred := true })) ∧
  (t.core?.isSome = true → t.preempt = some p → p.kind = .flush → s.settled t = true → ∃ s',
    exec (.flushComplete L T) s = .next s' ∧ AwayNoted s s' id ∧ s' = { s with
      teams := s'.teams
      cores := offCores s id
      launches := s'.launches
      fns := s'.fns } ∧
    (∀ (k : Nat) (f : Fn), s.fns[k]? = some f → ∃ f' : Fn, s'.fns[k]? = some f' ∧ f' = { f with faults := f'.faults } ∧
      ∀ x, x ∈ f'.faults ↔ x ∈ f.faults ∧ x.who ≠ .sequencer id ∧ ∀ g : GroupId, g.team = id →
        x.who ≠ .group g ∧ ∀ y, x.who ≠ .handler g y) ∧ TeamIs s s' id { t with
      place := .flushed
      vtSaved := 0
      frozen := false
      preempt := none })

/-- 24 R358-R362; 13 R272: a stop request, not before the interval after the last cut is over, marks every launch of the job; where
held groups stand at unequal STEP counts, those behind are let go to their next STEP; a cut is complete when every team is held with
its work settled: the teams are recorded, their records stand in the context pool, held groups go on and the stop request falls; one
over its limit is abandoned. A held group that a debugger lets issue one instruction alone stops after it. A lake page is copied to
the journal before the job's first write.
The model's part in it: what R358-R363 leave open is assumption 43. -/
def Obligations.ConsistentCuts : Prop := ∀ (s : State) (L pg : Nat) (l : Launch) (j : CutJob) (y : Nat × Nat),
  let mine (n : Nat) : Bool := j.launches.contains n
  let calm : List Launch := s.launches.map fun m => if mine m.seq then { m with stopReq := false } else m
  let job : List Nat := jobSeqs s l
  let asked : List Launch := s.launches.map fun m => if job.contains m.seq then { m with stopReq := true } else m
  let part : Partition := s.parts.getD l.fn Partition.reset
  (s.launch? L = some l → s.job? L = some j → s.clock.gtime < j.since + 1000000 * part.cutIntervalMs →
    exec (.cutStopRequest L) s = .next s) ∧
  (s.launch? L = some l → l.cutp = false ∨ s.cutting L = true → exec (.cutStopRequest L) s = .next s) ∧
  (s.launch? L = some l → l.cutp = true → l.stage = .ready → s.cutting L = false →
    (s.job? L = none → exec (.cutStopRequest L) s = .next { s with
      cuts := s.cuts ++ [⟨job, true, s.clock.gtime, part.cutLimitUs, false, [], [], [], []⟩]
      launches := asked }) ∧
    (s.job? L = some j → j.since + 1000000 * part.cutIntervalMs ≤ s.clock.gtime → exec (.cutStopRequest L) s = .next { s with
      cuts := jobsWith s L fun k => { k with launches := job, requested := true, since := s.clock.gtime, limitUs := part.cutLimitUs }
      launches := asked })) ∧
  (s.job? L = some j → j.requested = true → s.jobHeld j = true →
    let behind (n : Nat) (g : Group) : Prop := mine n = true ∧ ∃ k ∈ s.stepCounts n, g.stepcnt.toNat < k
    (∃ n ∈ j.launches, ∃ a ∈ s.stepCounts n, ∃ b ∈ s.stepCounts n, a ≠ b) → ∃ s', exec (.cutCompletion L) s = .next s' ∧
      s' = { s with teams := s'.teams } ∧ s'.teams.length = s.teams.length ∧
      ∀ (i : Nat) (t : Team), s.teams[i]? = some t → ∃ t', s'.teams[i]? = some t' ∧ t' = { t with groups := t'.groups } ∧
        t'.groups.length = t.groups.length ∧ ∀ (k : Nat) (g : Group), t.groups[k]? = some g → ∃ g', t'.groups[k]? = some g' ∧
          (g.run = .stepHeld → behind t.id.launch g → g' = letGo s t g) ∧ (g.run ≠ .stepHeld ∨ ¬ behind t.id.launch g → g' = g)) ∧
  (s.job? L = some j → j.requested = true → s.jobHeld j = true →
    (∀ n ∈ j.launches, ∀ a ∈ s.stepCounts n, ∀ b ∈ s.stepCounts n, a = b) →
    (∀ t ∈ s.teams, mine t.id.launch = true → s.settled t = true) →
    ∃ s', exec (.cutCompletion L) s = .next s' ∧ s'.teams = freedTeams s (fun n _ => mine n) ∧ s'.launches = calm ∧
      s'.telemetry = { s.telemetry with cutDone := satInc s.telemetry.cutDone } ∧
      (∃ k, s'.job? L = some k ∧ k.complete = true ∧ k.teams = s.cutRecords j ∧ k.launches = j.launches ∧
        (∀ x ∈ k.journal, isNear x.page = true)) ∧
      (∀ t ∈ s.teams, mine t.id.launch = true → t.core?.isSome = true → t.begun = true → (s.launch? t.id.launch).isSome = true →
        ∃ a ∈ s'.areas, a.team = t.id ∧ a.kind = 1) ∧
      ∀ a ∈ s.areas, a.kind ≠ 1 ∨ mine a.team.launch = false → a ∈ s'.areas) ∧
  (s.job? L = some j → j.requested = true → j.since + 1000 * j.limitUs ≤ s.clock.gtime → exec (.cutAbandon L) s = .next { s with
    teams := freedTeams s (fun n _ => mine n)
    launches := calm
    telemetry := { s.telemetry with cutAbandoned := satInc s.telemetry.cutAbandoned }
    cuts := s.cuts.map fun k => if k.launches = j.launches then { k with requested := false } else k }) ∧
  (s.job? L = some j → (∀ k ∈ s.cuts, k.launches.contains L = true → k = j) → j.cow.find? (fun x => decide (x.1 = pg)) = some y →
    exec (.journalCopyOnWrite L pg) s = .next { s with cuts := jobsWith s L fun _ => { j with
      journal := (j.journal.filter fun x => decide (x.page ≠ pg)) ++ [⟨pg, y.2, s.mem.slice pg y.2⟩]
      cow := j.cow.filter fun x => decide (x.1 ≠ pg) } })

/-- 24 R363, R364; 25 R366, R367; 26 R387, R388; 23 R347; 05 R123: the loss of a compute die, which firmware fences on the three grounds of
R388 alone, of a core with an uncorrectable error, and of a cell. What is lost is fenced. A job with a complete cut goes back to it: its
teams are those of the cut record and wait for placement, its journalled pages read as at the cut, nothing of it is under way. Without a
cut the teams that stood there are gone and their launches, with the rest of their gang, complete ABORTED with DIE_LOST, a group that is
parked elsewhere taking BARRIER_LOST. A near page of a fenced die is served from its journal copy. A die of a peer that holds parts of a
gang aborts the parts here.
The model's part in it: who is affected, that memory keeps its bytes, where journal copies lie and which peers hold parts are its
choices (assumptions 43, 44, 45, 47, 66, 85, 102). -/
def Obligations.Losses : Prop := ∀ (s : State) (d C X m : Nat) (c : Core),
  (d < 8 → d ∉ s.fencedDies → DieIsGone s d → ∃ s', exec (.dieFence ⟨none, d⟩) s = .next s' ∧ s'.fencedDies = s.fencedDies ++ [d] ∧
    s'.telemetry.dieFenced = satInc s.telemetry.dieFenced ∧
    (∀ q ∈ s'.packets, q.stream.dest ≠ .die d ∧ q.stream.owner ≠ .forager d) ∧ (∀ r ∈ s'.replays, r.die ≠ d) ∧
    AfterLoss s s' (fun l => s.touchesDie l d = true) (fun k => k / 32 = d) ∧
    (s.cuts = [] → s'.mem = s.mem) ∧
    (∀ m0 j, Journalled s m0 → s.mem.wf = true → JobHit s j (fun l => s.touchesDie l d = true) →
      (∀ k ∈ s.cuts, ∀ x ∈ k.journal, isNear x.page = true → nearDie x.page ≠ d) → MemoryBack s s' j m0)) ∧
  (8 ≤ d ∨ d ∈ s.fencedDies ∨ ¬ DieIsGone s d → exec (.dieFence ⟨none, d⟩) s = .next s) ∧
  (∀ (l : Launch) (p : Leaf), s.mem.wf = true → p.size = 0x10000 ∨ p.size = 0x200000 →
    let home := journalPlace p
    (p.entry + 8 ≤ home ∨ home + p.size ≤ p.entry) → (p.pa + p.size ≤ home ∨ home + p.size ≤ p.pa) →
      isLake home = true ∧ (∀ i < p.size, (s.remap l p).mem.read (home + i) = s.mem.read (p.pa + i)) ∧
      (s.remap l p).mem.read64 p.entry = (s.mem.read64 p.entry &&& 0xFF00000000000FDF) ||| BitVec.ofNat 64 home) ∧
  (8 ≤ d → exec (.dieFence ⟨some m, d⟩) s = .next s) ∧
  (let abroad (l : Launch) : Prop := l.gang ≠ 0 ∧ l.stage = .ready ∧ Config.gangOn l.gang.toNat m d = true
   d < 8 → ∃ s', exec (.dieFence ⟨some m, d⟩) s = .next s' ∧ (∀ q ∈ s'.packets, q.stream.dest ≠ .peer m d) ∧
    (∀ j, JobHit s j abroad → WentBack s s' j) ∧
    (s.cuts = [] → s'.mem = s.mem ∧
      (∀ l ∈ s.launches, abroad l → l.aborted = false →
        (∀ x ∈ s'.launches, x.seq = l.seq → abroad x → x.aborted = true) ∧ ∀ id : GroupId, id.team.launch = l.seq → Woken s s' id) ∧
      ∀ l ∈ s.launches, ¬ abroad l → ∃ x ∈ s'.launches, x.seq = l.seq ∧ x.aborted = l.aborted ∧ x.reason = l.reason)) ∧
  (s.cores[C]? = some c → c.enabled = true → ∃ s', exec (.uncorrectableTeamState C) s = .next s' ∧
    s'.telemetry.sramUncorr = satInc s.telemetry.sramUncorr ∧
    (∃ e, s'.errorLog = s.errorLog ++ [e] ∧ e.die = C / 32 ∧ e.gtime = s.clock.gtime) ∧
    (0 < s.spares.getD (C / 32) 0 → s'.cores[C]? = some Core.reset ∧ s'.spares = s.spares.set (C / 32) (s.spares.getD (C / 32) 0 - 1) ∧
      s'.telemetry.coreSpared = satInc s.telemetry.coreSpared ∧ s'.telemetry.coreLost = s.telemetry.coreLost) ∧
    (s.spares.getD (C / 32) 0 = 0 → s'.cores[C]? = some { Core.reset with enabled := false } ∧ s'.spares = s.spares ∧
      s'.telemetry.coreLost = satInc s.telemetry.coreLost ∧ s'.telemetry.coreSpared = s.telemetry.coreSpared) ∧
    AfterLoss s s' (fun l => ∃ t ∈ s.teams, t.id.launch = l.seq ∧ t.place = .resident C) (fun k => k = C) ∧
    (∀ l ∈ s.launches, (∃ t ∈ s.teams, t.id.launch = l.seq ∧ t.place = .resident C) → NoCut s l.seq →
      ∀ t ∈ s'.teams, t.id.launch = l.seq → t.place ≠ .resident C) ∧
    (∀ m0 j, Journalled s m0 → s.mem.wf = true → JobHit s j (fun l => ∃ t ∈ s.teams, t.id.launch = l.seq ∧ t.place = .resident C) →
      MemoryBack s s' j m0)) ∧
  (X < 64 → X ∉ s.hive.lostCells → ∃ s', exec (.cellLinkFailure X) s = .next s' ∧ s'.hive.lostCells = s.hive.lostCells ++ [X] ∧
    (∀ k x, s'.cores[k]? = some x → k / 4 = X → x = { Core.reset with enabled := false }) ∧
    AfterLoss s s' (fun l => ∃ t ∈ s.teams, t.id.launch = l.seq ∧ ∃ k, t.place = .resident k ∧ k / 4 = X) (fun k => k / 4 = X) ∧
    (∀ m0 j, Journalled s m0 → s.mem.wf = true →
      JobHit s j (fun l => ∃ t ∈ s.teams, t.id.launch = l.seq ∧ ∃ k, t.place = .resident k ∧ k / 4 = X) → MemoryBack s s' j m0))

/-! Management commands, images, firmware, time, power, errors and Propolis handlers (spec 25, 26; 04 R108, R109). -/

namespace Sys2Proof.Claims

/-- The command has run: the state is `t` with its result waiting to be reported. -/
def Ends (r : Res) (t : State) (code : BitVec 8) : Prop :=
  r = .next { t with mgmt := { t.mgmt with ran := true, outcome := code } }

/-- Another partition has a cluster of a mask, or the quarantine cell lies in it. -/
def Taken (s : State) (p : Nat) (mask : BitVec 64) : Prop :=
  (∃ q x, q ≠ p ∧ s.parts[q]? = some x ∧ ∃ c < 64, x.mask.getLsbD c = true ∧ mask.getLsbD c = true) ∨
  ∃ c, s.mgmt.qcell = some c ∧ mask.getLsbD c = true

/-- Flash with an image's digest and the counter of its class noted (25 R371). -/
def verifiedNow (s : State) (raw : List (BitVec 8)) (k : Nat) : Flash := { s.flash with
  checks := (s.flash.checks ++ [(Config.shake256 raw,
    ((s.images.getD (k - 1) ImageClass.none).rows.map (·.toNat)).foldl max 0)]).dedup }

end Sys2Proof.Claims

/-- 26 R380-R384, R394: the commands that set a partition, the cuts, the quarantine cell and the power cap: what each writes, when it
answers RANGE (2) or NOT_EMPTY (1) and writes nothing; any other OP answers UNKNOWN (5); MCMD_COMPLETE then reports.
The model's part in it: which of two errors is answered is an inference (assumption 61). -/
def Obligations.ManagementCommands : Prop := ∀ s : State,
  let a (n : Nat) : Nat := (s.mgmt.margs.getD n 0).toNat
  let p := a 0
  let mask := BitVec.ofNat 64 (a 1)
  let share (n : Nat) : Nat := if mask = 0 then 0 else n
  let new : Partition := { s.parts.getD p Partition.reset with
    mask := mask
    nearGib := share (a 2 % 2 ^ 32)
    lakeGib := share (a 2 / 2 ^ 32)
    poolMib := share (a 3 % 2 ^ 32)
    journalGib := share (a 3 / 2 ^ 32) }
  let fits : Prop := ((s.parts.set p new).map (·.nearGib)).sum ≤ 8 * 254 ∧
    ((s.parts.set p new).map fun x => 1024 * (x.lakeGib + x.journalGib) + x.poolMib).sum ≤ 1024 * 2 * (2048 - 32) ∧
    32 * ((List.range 64).filter fun c => mask.getLsbD c).length ≤ new.poolMib
  let busy : Prop := (∃ q ∈ (s.fns.getD p Fn.reset).queues, q.enable = true) ∨ ∃ l ∈ s.launches,
    l.fn = p ∧ l.stage ≠ .complete ∧ l.stage ≠ .spliced ∧ l.retired < l.grid
  let cellRuns : Prop := ∃ l ∈ s.launches, l.quarantined = true ∧ l.stage = .ready ∧ 0 < l.nextTeam
  (s.mgmt.busy = true → s.mgmt.ran = false →
    (s.mgmt.op = 1 →
      (16 < p ∨ Taken s p mask ∨ ¬ fits → Ends (exec .partSet s) s 2) ∧
      (p ≤ 16 → ¬ Taken s p mask → fits →
        (busy → Ends (exec .partSet s) s 1) ∧
        (¬ busy → Ends (exec .partSet s) { s with
          parts := s.parts.set p new
          fns := s.fns.modify p fun f => { f with ready := decide (mask ≠ 0) } } 0))) ∧
    (s.mgmt.op = 4 →
      (p ≤ 16 ∧ 1000 ≤ a 1 ∧ a 1 ≤ 3600000 ∧ 1000 ≤ a 2 ∧ a 2 ≤ 1000000 → Ends (exec .cutSet s)
        { s with parts := s.parts.modify p fun x => { x with cutIntervalMs := a 1, cutLimitUs := a 2 } } 0) ∧
      (16 < p ∨ a 1 < 1000 ∨ 3600000 < a 1 ∨ a 2 < 1000 ∨ 1000000 < a 2 → Ends (exec .cutSet s) s 2)) ∧
    (s.mgmt.op = 2 →
      (1000 ≤ a 1 → a 1 ≤ 10000000 →
        (p < 64 → (∀ x ∈ s.parts, x.mask.getLsbD p = false) →
          Ends (exec .qcellSet s) { s with mgmt := { s.mgmt with qcell := some p, qlimitUs := a 1 } } 0) ∧
        (p < 64 → (∃ x ∈ s.parts, x.mask.getLsbD p = true) → Ends (exec .qcellSet s) s 2) ∧
        (63 < p → p ≠ 255 → Ends (exec .qcellSet s) s 2) ∧
        (p = 255 → cellRuns → Ends (exec .qcellSet s) s 1) ∧
        (p = 255 → ¬ cellRuns →
          Ends (exec .qcellSet s) { s with mgmt := { s.mgmt with qcell := none, qlimitUs := a 1 } } 0)) ∧
      (a 1 < 1000 ∨ 10000000 < a 1 → Ends (exec .qcellSet s) s 2)) ∧
    (s.mgmt.op = 3 →
      (4000 ≤ p → p ≤ 9000 → Ends (exec .powerCap s) { s with mgmt := { s.mgmt with powerCap := p } } 0) ∧
      (p < 4000 ∨ 9000 < p → Ends (exec .powerCap s) s 2)) ∧
    (s.mgmt.op = 0 ∨ 9 < s.mgmt.op.toNat → Ends (exec .unknownCommand s) s 5)) ∧
  (s.mgmt.busy = true → s.mgmt.ran = true → exec .mcmdComplete s = .next { s with mgmt := { s.mgmt with
    busy := false
    ran := false
    result := s.mgmt.outcome
    lastTag := s.mgmt.tag } })

/-- 25 R368-R370, R373, R378; 26 R393, R395: an image that is accepted, its key's hash that of a key slot in use and its signature verified, is staged; activation exchanges the staged and the active image,
a Hive image with a takeover while there is a standby, and a patch image, verified again, in PATCH_IMAGE_SWITCH alone, where groups
keep the words they have decoded under the old one; flash notes what was verified; IMG_COMMIT programs the next fuse row, so that the
counter rises to the active image's VERSION; DUMP_CLEAR clears VALID and DUMPS_LOST.
The model's part in it: what is refused beyond R369 and R373 is an inference (assumption 62), the signature a free
value (63); which held words count as decoded is assumption 103's. -/
def Obligations.ImageCommands : Prop := ∀ (s : State), s.mgmt.busy = true → s.mgmt.ran = false →
  let a (n : Nat) : Nat := (s.mgmt.margs.getD n 0).toNat
  let bytes := (List.range (a 1)).map fun i => s.hostRead 0 (a 0 + i)
  (s.mgmt.op = 5 →
    (s.acceptImage bytes = none → Ends (exec .imgStage s) s 3) ∧
    (∀ im, s.acceptImage bytes = some im → 1 ≤ im.iclass ∧ im.iclass ≤ 5 ∧
      (∀ v ∈ (s.images.getD (im.iclass - 1) ImageClass.none).rows, v.toNat ≤ im.version.toNat) ∧
      (let slot := ((bytesWords bytes 8).getD 3 0).toNat % 4
       let key := (bytes.drop 0x40).take 1952
       s.revoked.getD slot true = false ∧ s.keyHashes[slot]? = some (Config.shake256 key) ∧
        Config.mlDsa65Verifies key ((bytes.drop 0x7E0).take 3309) (bytes.take 0x40 ++
          (bytes.drop 0x2000).take ((bytesWords bytes 8).getD 2 0).toNat) = true) ∧
      Ends (exec .imgStage s) { s with
        images := s.images.modify (im.iclass - 1) fun c => { c with staged := some im }
        flash := verifiedNow s bytes im.iclass } 0)) ∧
  (a 0 < 1 ∨ 5 < a 0 →
    (s.mgmt.op = 6 → Ends (exec .imgActivate s) s 2) ∧ (s.mgmt.op = 8 → Ends (exec .imgRevert s) s 2) ∧
    (s.mgmt.op = 7 → Ends (exec .imgCommit s) s 2)) ∧
  (∀ (k : Nat) (ic : ImageClass), 1 ≤ k → k ≤ 5 → a 0 = k → s.images[k - 1]? = some ic →
    let swapped : State := { s with images := s.images.set (k - 1) { ic with active := ic.staged, staged := ic.active } }
    let switched (y : Image) : State := { swapped with
      flash := verifiedNow s y.raw y.iclass
      teams := s.teams.map fun t => { t with groups := t.groups.zipIdx.map fun g =>
        if g.1.onDecoded then { g.1 with decoded := g.1.decoded.or (s.wordAt? ⟨t.id, g.2⟩) } else g.1 } }
    let lead : State := { swapped with
      hive := { s.hive with activeOne := 1 - s.hive.activeOne, missed := 0 }
      telemetry := { s.telemetry with takeover := satInc s.telemetry.takeover } }
    let high : Nat := (ic.rows.map (·.toNat)).foldl max 0
    let activates (r : Res) : Prop :=
      ((ic.staged = none ∨ ∃ y, ic.staged = some y ∧ (y.version.toNat < high ∨ (k = 5 ∧ s.acceptImage y.raw = none))) → Ends r s 3) ∧
      (∀ y, ic.staged = some y → high ≤ y.version.toNat →
        (k = 5 → s.acceptImage y.raw ≠ none → r = .next s ∧ Ends (exec .patchImageSwitch s) (switched y) 0) ∧
        (k = 2 → s.hive.fenced = none → Ends r lead 0) ∧
        (k ≠ 5 → k ≠ 2 ∨ s.hive.fenced ≠ none → Ends r swapped 0))
    (s.mgmt.op = 6 → activates (exec .imgActivate s)) ∧
    (s.mgmt.op = 8 → activates (exec .imgRevert s)) ∧
    (s.mgmt.op = 7 →
      (64 ≤ ic.rows.length → Ends (exec .imgCommit s) s 4) ∧
      (ic.rows.length < 64 → ic.active = none → Ends (exec .imgCommit s) s 3) ∧
      ∀ y, ic.active = some y → ic.rows.length < 64 →
        (high < y.version.toNat → Ends (exec .imgCommit s)
          { s with images := s.images.set (k - 1) { ic with rows := ic.rows ++ [y.version] } } 0 ∧
          ((ic.rows ++ [y.version]).map (·.toNat)).foldl max 0 = y.version.toNat) ∧
        (y.version.toNat ≤ high → Ends (exec .imgCommit s) s 3))) ∧
  (s.mgmt.op = 9 → memoriesWf s → ∃ s', exec .dumpClear s = .next s' ∧ s'.dumpsLost = 0 ∧
    (∀ r, r = 0x05F800000000 ∨ r = 0x07F800000000 → s'.mem.read (r + 6) = 0 ∧ s'.mem.read (r + 0x24) = 0 ∧
      s'.mem.read (r + 0x25) = 0) ∧
    (∀ x, (∀ r, r = 0x05F800000000 ∨ r = 0x07F800000000 → x ≠ r + 6 ∧ x ≠ r + 0x24 ∧ x ≠ r + 0x25) →
      s'.mem.read x = s.mem.read x) ∧
    s' = { s with mem := s'.mem, dumpsLost := s'.dumpsLost, mgmt := { s.mgmt with ran := true, outcome := 0 } })

/-- 25 R366, R367: a message on a command link uses a permit of its class and waits without one; its consumption returns the permit;
three missed heartbeats, one due every 100 µs, let the standby take over, and the other controller is fenced. 26 R384: the clock step
after a millisecond, which the cold plate's limit may hold or take up. 04 R108, R109: lock loss and relock.
The model's part in it: the thermal limit as an operand and LOCKED with SLEWING are inferences (assumptions 66, 69). -/
def Obligations.FirmwareLinksPowerAndTime : Prop := ∀ (s : State) (cell avg : Nat) (l : CmdLink) (m : BitVec 512)
    (rest : List (BitVec 512)),
  let tel := { s.telemetry with power := BitVec.ofNat 64 avg }
  let tick (k : Nat) : State := { s with mgmt := { s.mgmt with clockStep := k, capAt := s.clock.gtime }, telemetry := tel }
  let missTick (k : Nat) : State := { tick k with telemetry := { tel with capmiss := satInc s.telemetry.capmiss } }
  (∀ toCell, s.hive.lostCells.contains cell = false →
    (if toCell then s.hive.toCells[cell]? else s.hive.fromCells[cell]?) = some l →
    let put (l' : CmdLink) : State := if toCell then { s with hive := { s.hive with toCells := s.hive.toCells.set cell l' } }
      else { s with hive := { s.hive with fromCells := s.hive.fromCells.set cell l' } }
    let logged (t : State) : State := { t with hive := { t.hive with logs := s.hive.logs.modify cell (· ++ [m]) } }
    (0 < l.urgentPermits → exec (.commandLinkMessage cell toCell true true m) s =
      .next (logged <| put { l with urgentPermits := l.urgentPermits - 1, urgent := l.urgent ++ [m] })) ∧
    (l.urgentPermits = 0 → exec (.commandLinkMessage cell toCell true true m) s = .next s) ∧
    (0 < l.normalPermits → exec (.commandLinkMessage cell toCell false true m) s =
      .next (logged <| put { l with normalPermits := l.normalPermits - 1, normal := l.normal ++ [m] })) ∧
    (l.normalPermits = 0 → exec (.commandLinkMessage cell toCell false true m) s = .next s) ∧
    (l.urgent = m :: rest → exec (.commandLinkMessage cell toCell true false m) s =
      .next (put { l with urgentPermits := l.urgentPermits + 1, urgent := rest })) ∧
    (l.normal = m :: rest → exec (.commandLinkMessage cell toCell false false m) s =
      .next (put { l with normalPermits := l.normalPermits + 1, normal := rest }))) ∧
  (s.hive.fenced = none → s.hive.beatAt + 100000 ≤ s.clock.gtime →
    exec (.hiveHeartbeat true) s = .next { s with hive := { s.hive with missed := 0, beatAt := s.clock.gtime } } ∧
    exec (.hiveHeartbeat false) s = .next { s with hive := { s.hive with
      missed := s.hive.missed + 1
      beatAt := s.clock.gtime } }) ∧
  (∀ r, s.hive.fenced ≠ none ∨ s.clock.gtime < s.hive.beatAt + 100000 → exec (.hiveHeartbeat r) s = .next s) ∧
  (s.hive.fenced = none → 3 ≤ s.hive.missed → exec .hiveTakeover s = .next { s with
    hive := { s.hive with activeOne := 1 - s.hive.activeOne, missed := 0, fenced := some s.hive.activeOne }
    telemetry := { s.telemetry with takeover := satInc s.telemetry.takeover } }) ∧
  (s.hive.fenced ≠ none ∨ s.hive.missed < 3 → exec .hiveTakeover s = .next s) ∧
  (∀ hot, s.clock.gtime < s.mgmt.capAt + 1000000 → exec (.powerCapTick avg hot) s = .next s) ∧
  (s.mgmt.capAt + 1000000 ≤ s.clock.gtime → s.mgmt.clockStep ≤ 14 →
    (s.mgmt.powerCap < avg → s.mgmt.clockStep < 14 → ∀ plate, exec (.powerCapTick avg plate) s = .next (tick (s.mgmt.clockStep + 1))) ∧
    (s.mgmt.powerCap < avg → s.mgmt.clockStep = 14 → ∀ plate, exec (.powerCapTick avg plate) s = .next (missTick 14)) ∧
    (avg + 200 ≤ s.mgmt.powerCap → 0 < s.mgmt.clockStep →
      exec (.powerCapTick avg none) s = .next (tick (s.mgmt.clockStep - 1)) ∧
      exec (.powerCapTick avg (some false)) s = .next (missTick s.mgmt.clockStep) ∧
      exec (.powerCapTick avg (some true)) s = .next (missTick (min 14 (s.mgmt.clockStep + 1)))) ∧
    (avg ≤ s.mgmt.powerCap → (s.mgmt.powerCap < avg + 200 ∨ s.mgmt.clockStep = 0) →
      exec (.powerCapTick avg none) s = .next (tick s.mgmt.clockStep) ∧
      exec (.powerCapTick avg (some false)) s = .next (tick s.mgmt.clockStep) ∧
      (s.mgmt.clockStep < 14 → exec (.powerCapTick avg (some true)) s = .next (missTick (s.mgmt.clockStep + 1))))) ∧
  (s.gtstat.locked = true → exec .gtimeLockLoss s = .next { s with gtstat := { s.gtstat with
    locked := false
    losses := if s.gtstat.losses = 0xFFFF then 0xFFFF else s.gtstat.losses + 1 } }) ∧
  (s.started = true → s.gtstat.locked = false →
    exec .gtimeRelock s = .next { s with gtstat := { s.gtstat with locked := true, slewing := true } }) ∧
  exec .gtimeSlewComplete s = .next { s with gtstat := { s.gtstat with slewing := false } }

/-- 25 R371, R372: a start whose images pass R369, or whose digests a warm start may reuse, leaves no launch, team, cut or gang and no
enabled queue; partitions stay and are ready; GTIME is under lock with LOSSES 0; fuses, images and the hosts' memories stay, and a warm
start keeps the lake, and so the dump; a saved item is reused where stepping and temperature match, and saved anew otherwise. 26 R385,
R386, R391-R393: corrected errors count; sparing copies 2 MiB at a time and then remaps; a page that is retired starts to move to the
lake, or counts at once where nothing maps it; a fatal error holds the module and writes the dump's sections and then its header with
CAUSE, or counts in DUMPS_LOST where one is there; one struck while it is written leaves it without a header. What the near tier holds
after a start is the model's choice (assumption 6) and not stated.
The model's part in it: what a start keeps, a start with an image that fails (98), and how a section is laid out are its choices
(assumptions 34, 65, 67, 68). -/
def Obligations.StartsAndErrors : Prop := ∀ (s : State) (failed up : List Nat) (k stack base size page target cause pt : Nat)
    (x : Sparing) (lf : Leaf),
  (∀ (warm : Bool) (stepping : Nat) (celsius : Int),
    let i : Instr := if warm then .warmStart failed ⟨up, stepping, celsius⟩ else .coldStart failed ⟨up, stepping, celsius⟩
    let saved (n : Nat) : Prop := warm = true ∧ ∃ c, s.flash.saved[n]? = some (some (stepping, c)) ∧ (c - celsius).natAbs ≤ 15
    let passes (y : Image) : Prop := s.acceptImage y.raw ≠ none ∨ (saved 4 ∧ (Config.shake256 y.raw,
      ((s.images.getD (y.iclass - 1) ImageClass.none).rows.map (·.toNat)).foldl max 0) ∈ s.flash.checks)
    let active (k : Nat) : Option Image := (s.images.getD k ImageClass.none).active
    ((∃ k < 4, ∃ y, active k = some y ∧ ¬ passes y) → exec i s = .next { s with
      fatal := true, started := false, fns := s.fns.map fun f => { f with ready := false } }) ∧
    ((∀ k < 4, ∀ y, active k = some y → passes y) → ∃ s', exec i s = .next s' ∧ s'.fatal = false ∧ s'.started = true ∧
      s'.launches = [] ∧ s'.teams = [] ∧ s'.cuts = [] ∧ s'.gangs = [] ∧ s'.replays = [] ∧ s'.packets = [] ∧ s'.areas = [] ∧
      s'.gtstat = ⟨0, false, true⟩ ∧ s'.revoked = s.revoked ∧ s'.keyHashes = s.keyHashes ∧ s'.hostMem = s.hostMem ∧ s'.peers = s.peers ∧
      ((∀ y, active 4 = some y → passes y) → s'.images = s.images) ∧
      (∀ y, active 4 = some y → ¬ passes y → s'.images = s.images.modify 4 fun c => { c with active := none }) ∧
      (∀ f ∈ s'.fns, ∀ q ∈ f.queues, q.enable = false) ∧ s'.parts = s.parts.map (fun p => { p with ptRoot := 0 }) ∧
      (∀ (k : Nat) (f : Fn), s'.fns[k]? = some f → (f.ready = true ↔ (s.parts.getD k Partition.reset).mask ≠ 0)) ∧
      (saved 3 → s'.remaps = s.remaps ∧ s'.retiredPages = s.retiredPages) ∧ (¬ saved 3 → s'.remaps = [] ∧ s'.retiredPages = []) ∧
      (∀ n < 5, (saved n → s'.flash.saved[n]? = s.flash.saved[n]?) ∧ (¬ saved n → s'.flash.saved[n]? = some (some (stepping, celsius)))) ∧
      (warm = true → s'.dumpsLost = s.dumpsLost ∧ (memoriesWf s → ∀ a, isLake a = true → s'.mem.read a = s.mem.read a)))) ∧
  exec (.correctedError true) s = .next { s with telemetry := { s.telemetry with dramCorr := satInc s.telemetry.dramCorr } } ∧
  exec (.correctedError false) s = .next { s with telemetry := { s.telemetry with sramCorr := satInc s.telemetry.sramCorr } } ∧
  (stack < 32 → 0 < size → size ≤ 2 ^ 29 → base + size ≤ 64 * 2 ^ 30 - 2 ^ 29 → (∀ y ∈ s.sparings, y.stack ≠ stack) →
    (∀ y ∈ s.remaps, y.1 ≠ stack) → exec (.pseudoChannelSparing stack base size) s = .next { s with
      sparings := s.sparings ++ [⟨stack, base, size, 0⟩] }) ∧
  ((∃ y ∈ s.remaps, y.1 = stack) → stack < 32 → exec (.pseudoChannelSparing stack base size) s = .next s) ∧
  (s.sparings[k]? = some x →
    (x.next + 0x200000 < x.size → exec (.sparingChunkCopy k) s = .next { s with
      sparings := s.sparings.set k { x with next := x.next + 0x200000 } }) ∧
    (x.size ≤ x.next + 0x200000 → exec (.sparingChunkCopy k) s = .next { s with
      sparings := s.sparings.eraseIdx k
      remaps := s.remaps ++ [(x.stack, x.base, x.size)]
      telemetry := { s.telemetry with pchSpared := satInc s.telemetry.pchSpared } })) ∧
  (isNear page = true ∨ isLake page = true → page % 0x10000 = 0 → page ∉ s.retiredPages →
    (s.mappedAt page = none → exec (.pageRetirement page target) s = .next { s with
      retiredPages := s.retiredPages ++ [page]
      telemetry := { s.telemetry with pageRetired := satInc s.telemetry.pageRetired } }) ∧
    (s.mappedAt page = some (pt, lf) → (s.mem.read64 lf.entry).getLsbD 5 = true →
      exec (.pageRetirement page target) s = .next { s with retiredPages := s.retiredPages ++ [page] }) ∧
    (s.mappedAt page = some (pt, lf) → (s.mem.read64 lf.entry).getLsbD 5 = false → s.movable lf target = true → isLake target = true →
      exec (.pageRetirement page target) s = .next { s with
        retiredPages := s.retiredPages ++ [page]
        mem := s.mem.writeLe lf.entry 8 (s.mem.read64 lf.entry ||| 0x20).toNat
        transits := s.transits ++ [⟨pt, lf.va, lf.entry, lf.pa, target, lf.size⟩] })) ∧
  (∀ lost again, memoriesWf s → 1 ≤ cause → cause ≤ 5 → ∃ s', exec (.fatalError cause ⟨lost, again⟩) s = .next s' ∧ s'.fatal = true ∧
    (∀ f ∈ s'.fns, f.ready = false) ∧ s'.teams = s.teams ∧ s'.launches = s.launches ∧
    let region : Nat := if lost then 0x07F800000000 else 0x05F800000000
    let sections := s.dumpSections
    let first : Nat := (64 + 16 * sections.length + 4095) / 4096 * 4096
    let valid : Bool := (s.mem.read (region + 6)).getLsbD 0
    (∃ n, sections.map (fun x => x.1) = 1 :: (List.replicate 10 2 ++ [4, 5] ++ List.replicate n 3)) ∧
    (∀ x ∈ sections, x.2.length % 4096 = 0) ∧
    (∀ a, (a < region ∨ region + first + (sections.map fun x => x.2.length).sum ≤ a) → s'.mem.read a = s.mem.read a) ∧
    (valid = false → s.fatal = false → s'.dumpsLost = s.dumpsLost ∧
      (∀ j x, sections[j]? = some x → ∀ i v, x.2[i]? = some v →
        s'.mem.read (region + first + ((sections.take j).map fun y => y.2.length).sum + i) = v) ∧
      (again = false → s'.mem.readLe region 4 = 0x504D5544 ∧ s'.mem.read (region + 5) = BitVec.ofNat 8 cause ∧
        s'.mem.read (region + 6) = 1 ∧ s'.mem.read64 (region + 8) = BitVec.ofNat 64 s.clock.gtime) ∧
      (again = true → ∀ i < 64, s'.mem.read (region + i) = s.mem.read (region + i))) ∧
    (valid = false → s.fatal = true → s'.mem = s.mem ∧ s'.dumpsLost = s.dumpsLost) ∧
    (valid = true → s'.dumpsLost = (if s.dumpsLost = 0xFFFF then 0xFFFF else s.dumpsLost + 1) ∧
      s'.mem.read64 region = s.mem.read64 region))

namespace Sys2Proof.Claims

/-- A handler that writes one scalar register, one predicate byte and pushes one scalar, and stores nothing. -/
def small (n k : Nat) (v u : W64) (p : BitVec 8) (lanes : BitVec 128) : PatchWrites :=
  ⟨[(n, v)], [], [], [], [(k, p)], none, some u, none, [], lanes, [], [], [], [], []⟩

/-- The greatest SUB that 13 R268 and R396 give a code. -/
def lastSub (code : BitVec 8) : Nat :=
  if code = 0x02 then 10 else if code = 0x04 then 5 else if code = 0x07 then 1 else if code = 0x09 then 4
  else if code = 0x0A then 3 else if code = 0x0B then 15 else 0

/-- The fault of an instruction that an EMULATE handler ends with: code and SUB in the low bytes of `v`, and ADDR, INFO and the
lane mask where 13 R268 gives the code any. -/
def emulated (c : Ctx) (v at' : W64) (lanes : BitVec 128) (word : W32) : TrapInfo :=
  let code : BitVec 8 := v.truncate 8
  let sub : BitVec 8 := v.extractLsb' 8 8
  let masked : Bool := decide ((3 ≤ code.toNat ∧ code.toNat ≤ 8) ∨ code = 0x0A)
  ⟨code, sub, if 3 ≤ code.toNat ∧ code.toNat ≤ 7 then at' else 0,
    if code = 0x01 ∨ code = 0x02 ∨ code = 0x0A then word.zeroExtend 64
    else if code = 0x09 then (operandAt word sub).zeroExtend 64
    else if code = 0x0B then c.s.chstat c.team else 0,
    if masked then lanes.extractLsb' 0 64 else 0, if masked then lanes.extractLsb' 64 64 else 0⟩

end Sys2Proof.Claims

/-- 25 R375, R377; 13 R270: how a Propolis handler ends: RETIRE goes on past the instruction or at a target, RETRY at the
instruction, REFLECT delivers the matched fault with PATCHED set, RAISE a PATCH_TRAP with its value; its writes stand, in the
time-out too, which delivers as REFLECT. An EMULATE handler that ends with a fault of the instruction, and a TRAP handler whose
read meets one, delivers it with what R268 gives its code and a SUB that R268 gives it, and writes nothing, and with a page fault stops
the group for the driver. A handler waits for an empty item that it reads.
The model's part in it: what the micro-code does and when its writes stand are the model's (assumptions 29, 64). -/
def Obligations.PatchHandlers : Prop := ∀ (s : State) (k n b : Nat) (v u val : W64) (q : BitVec 8) (p : PatchAction) (c : Ctx)
    (em : Bool) (lanes : BitVec 128),
  s.handlerOf? k = some (p, c, em) → n < 128 → b < 128 → c.group.rewriting = none →
  (c.group.sregs.getD n ⟨0, none⟩).pend = none →
  let x := small n b v u q lanes
  let g1 : Group := { c.group with
    run := .running
    sregs := c.group.sregs.set n ⟨v, none⟩
    preds := c.group.preds.set b q
    squeue := if c.group.inTrap then c.group.squeue else ⟨u, none⟩ :: c.group.squeue.take 15
    trapQueue := if c.group.inTrap then ⟨u, none⟩ :: c.group.trapQueue.take 15 else c.group.trapQueue }
  let w : State := { s.setGroup c.id g1 with patchActs := s.patchActs.eraseIdx k }
  let r : FaultRecord := match p.fault with
    | some f => f
    | none => { mkRecord c.launch c.group (.illegalInstruction p.word) false (s.vtime c.team) with
        patched := true
        pslot := BitVec.ofNat 4 p.slot }
  let after (t : State) : State := ((s.noteWrites c.id [] t).recordSteps c.id.team).finishStops
  let code : BitVec 8 := v.truncate 8
  let sub : BitVec 8 := v.extractLsb' 8 8
  let dropped : State := { s with patchActs := s.patchActs.filter (fun y => decide (y ≠ p)) }
  (∀ g', Jumped g1 g' val ∧ g' = goneOn g1 g' → val ≠ BitVec.allOnes 64 → exec (.patchHandler k 0 v val x) s =
    .next (after { s.setGroup c.id g' with patchActs := s.patchActs.eraseIdx k })) ∧
  (∀ g', Passed g1 g' ∧ g' = goneOn g1 g' → exec (.patchHandler k 0 v (BitVec.allOnes 64) x) s =
    .next (after { s.setGroup c.id g' with patchActs := s.patchActs.eraseIdx k })) ∧
  (em = false →
    exec (.patchHandler k 1 v val x) s = .next (after w) ∧
    exec (.patchHandler k 2 v val x) s = .next (after (w.deliverPatched c.id p.slot r)) ∧
    exec (.patchHandler k 3 v val x) s = .next (after (w.deliverPatched c.id p.slot
      (mkRecord c.launch c.group (.patchTrap v) false (s.vtime c.team))))) ∧
  exec (.patchHandlerTimeout k x) s = .next (after (w.deliverPatched c.id p.slot r)) ∧
  (em = true ∨ (3 ≤ code.toNat ∧ code.toNat ≤ 7) → isFaultClass code = true → sub.toNat ≤ lastSub code →
    (code ≠ 0x07 → exec (.patchHandler k 4 v val x) s =
      .next (dropped.deliverPatched c.id p.slot (mkRecord c.launch c.group (emulated c v val lanes p.word) false (s.vtime c.team)))) ∧
    (code = 0x07 → exec (.patchHandler k 4 v val x) s =
      .next ((dropped.mapGroup c.id fun g => { g with run := .pageWait }).enterFault c.launch.fn
        ⟨none, false, val.toNat, v.getLsbD 8, none, c.launch.lid, BitVec.ofNat 32 c.id.team.index, .handler c.id p.slot,
          lanes.extractLsb' 0 64, lanes.extractLsb' 64 64⟩))) ∧
  (isFaultClass code = false ∨ lastSub code < sub.toNat → exec (.patchHandler k 4 v val x) s = .next s) ∧
  ((c.group.vregs[b]?).any (fun y => y.pend.isSome) = true →
    exec (.patchHandler k 0 v val { x with readVregs := [b] }) s = .next s)
end

