-- ==== Sys2Proof/Laws/State.lean ====
section
/-! SUPPORT. What the named updates of the state leave alone, one lemma per field and update, and what they look up. -/

namespace Sys2Proof.Machine

set_option Elab.async false

@[simp] theorem State.mapTeam_cur (s : State) (id : TeamId) (f : Team → Team) : (s.mapTeam id f).cur = s.cur := rfl
@[simp] theorem State.mapTeam_schedule (s : State) (id : TeamId) (f : Team → Team) : (s.mapTeam id f).schedule = s.schedule := rfl
@[simp] theorem State.mapTeam_noted (s : State) (id : TeamId) (f : Team → Team) : (s.mapTeam id f).noted = s.noted := rfl
@[simp] theorem State.mapTeam_stalled (s : State) (id : TeamId) (f : Team → Team) : (s.mapTeam id f).stalled = s.stalled := rfl
@[simp] theorem State.mapTeam_clock (s : State) (id : TeamId) (f : Team → Team) : (s.mapTeam id f).clock = s.clock := rfl
@[simp] theorem State.mapTeam_free (s : State) (id : TeamId) (f : Team → Team) : (s.mapTeam id f).free = s.free := rfl
@[simp] theorem State.mapTeam_nextId (s : State) (id : TeamId) (f : Team → Team) : (s.mapTeam id f).nextId = s.nextId := rfl
@[simp] theorem State.mapTeam_started (s : State) (id : TeamId) (f : Team → Team) : (s.mapTeam id f).started = s.started := rfl
@[simp] theorem State.mapTeam_fatal (s : State) (id : TeamId) (f : Team → Team) : (s.mapTeam id f).fatal = s.fatal := rfl
@[simp] theorem State.mapTeam_gtstat (s : State) (id : TeamId) (f : Team → Team) : (s.mapTeam id f).gtstat = s.gtstat := rfl
@[simp] theorem State.mapTeam_mem (s : State) (id : TeamId) (f : Team → Team) : (s.mapTeam id f).mem = s.mem := rfl
@[simp] theorem State.mapTeam_hostMem (s : State) (id : TeamId) (f : Team → Team) : (s.mapTeam id f).hostMem = s.hostMem := rfl
@[simp] theorem State.mapTeam_peers (s : State) (id : TeamId) (f : Team → Team) : (s.mapTeam id f).peers = s.peers := rfl
@[simp] theorem State.mapTeam_cores (s : State) (id : TeamId) (f : Team → Team) : (s.mapTeam id f).cores = s.cores := rfl
@[simp] theorem State.mapTeam_launches (s : State) (id : TeamId) (f : Team → Team) : (s.mapTeam id f).launches = s.launches := rfl
@[simp] theorem State.mapTeam_fns (s : State) (id : TeamId) (f : Team → Team) : (s.mapTeam id f).fns = s.fns := rfl
@[simp] theorem State.mapTeam_parts (s : State) (id : TeamId) (f : Team → Team) : (s.mapTeam id f).parts = s.parts := rfl
@[simp] theorem State.mapTeam_gangs (s : State) (id : TeamId) (f : Team → Team) : (s.mapTeam id f).gangs = s.gangs := rfl
@[simp] theorem State.mapTeam_flights (s : State) (id : TeamId) (f : Team → Team) : (s.mapTeam id f).flights = s.flights := rfl
@[simp] theorem State.mapTeam_copies (s : State) (id : TeamId) (f : Team → Team) : (s.mapTeam id f).copies = s.copies := rfl
@[simp] theorem State.mapTeam_replays (s : State) (id : TeamId) (f : Team → Team) : (s.mapTeam id f).replays = s.replays := rfl
@[simp] theorem State.mapTeam_signatures (s : State) (id : TeamId) (f : Team → Team) : (s.mapTeam id f).signatures = s.signatures := rfl
@[simp] theorem State.mapTeam_graphs (s : State) (id : TeamId) (f : Team → Team) : (s.mapTeam id f).graphs = s.graphs := rfl
@[simp] theorem State.mapTeam_deferred (s : State) (id : TeamId) (f : Team → Team) : (s.mapTeam id f).deferred = s.deferred := rfl
@[simp] theorem State.mapTeam_invals (s : State) (id : TeamId) (f : Team → Team) : (s.mapTeam id f).invals = s.invals := rfl
@[simp] theorem State.mapTeam_stops (s : State) (id : TeamId) (f : Team → Team) : (s.mapTeam id f).stops = s.stops := rfl
@[simp] theorem State.mapTeam_forChans (s : State) (id : TeamId) (f : Team → Team) : (s.mapTeam id f).forChans = s.forChans := rfl
@[simp] theorem State.mapTeam_packets (s : State) (id : TeamId) (f : Team → Team) : (s.mapTeam id f).packets = s.packets := rfl
@[simp] theorem State.mapTeam_wire (s : State) (id : TeamId) (f : Team → Team) : (s.mapTeam id f).wire = s.wire := rfl
@[simp] theorem State.mapTeam_acks (s : State) (id : TeamId) (f : Team → Team) : (s.mapTeam id f).acks = s.acks := rfl
@[simp] theorem State.mapTeam_syncs (s : State) (id : TeamId) (f : Team → Team) : (s.mapTeam id f).syncs = s.syncs := rfl
@[simp] theorem State.mapTeam_syncReqs (s : State) (id : TeamId) (f : Team → Team) : (s.mapTeam id f).syncReqs = s.syncReqs := rfl
@[simp] theorem State.mapTeam_closes (s : State) (id : TeamId) (f : Team → Team) : (s.mapTeam id f).closes = s.closes := rfl
@[simp] theorem State.mapTeam_ports (s : State) (id : TeamId) (f : Team → Team) : (s.mapTeam id f).ports = s.ports := rfl
@[simp] theorem State.mapTeam_buffered (s : State) (id : TeamId) (f : Team → Team) : (s.mapTeam id f).buffered = s.buffered := rfl
@[simp] theorem State.mapTeam_handshakes (s : State) (id : TeamId) (f : Team → Team) : (s.mapTeam id f).handshakes = s.handshakes := rfl
@[simp] theorem State.mapTeam_links (s : State) (id : TeamId) (f : Team → Team) : (s.mapTeam id f).links = s.links := rfl
@[simp] theorem State.mapTeam_transits (s : State) (id : TeamId) (f : Team → Team) : (s.mapTeam id f).transits = s.transits := rfl
@[simp] theorem State.mapTeam_moved (s : State) (id : TeamId) (f : Team → Team) : (s.mapTeam id f).moved = s.moved := rfl
@[simp] theorem State.mapTeam_rehomed (s : State) (id : TeamId) (f : Team → Team) : (s.mapTeam id f).rehomed = s.rehomed := rfl
@[simp] theorem State.mapTeam_cuts (s : State) (id : TeamId) (f : Team → Team) : (s.mapTeam id f).cuts = s.cuts := rfl
@[simp] theorem State.mapTeam_areas (s : State) (id : TeamId) (f : Team → Team) : (s.mapTeam id f).areas = s.areas := rfl
@[simp] theorem State.mapTeam_images (s : State) (id : TeamId) (f : Team → Team) : (s.mapTeam id f).images = s.images := rfl
@[simp] theorem State.mapTeam_flash (s : State) (id : TeamId) (f : Team → Team) : (s.mapTeam id f).flash = s.flash := rfl
@[simp] theorem State.mapTeam_errorLog (s : State) (id : TeamId) (f : Team → Team) : (s.mapTeam id f).errorLog = s.errorLog := rfl
@[simp] theorem State.mapTeam_patchActs (s : State) (id : TeamId) (f : Team → Team) : (s.mapTeam id f).patchActs = s.patchActs := rfl
@[simp] theorem State.mapTeam_revoked (s : State) (id : TeamId) (f : Team → Team) : (s.mapTeam id f).revoked = s.revoked := rfl
@[simp] theorem State.mapTeam_keyHashes (s : State) (id : TeamId) (f : Team → Team) : (s.mapTeam id f).keyHashes = s.keyHashes := rfl
@[simp] theorem State.mapTeam_mgmt (s : State) (id : TeamId) (f : Team → Team) : (s.mapTeam id f).mgmt = s.mgmt := rfl
@[simp] theorem State.mapTeam_telemetry (s : State) (id : TeamId) (f : Team → Team) : (s.mapTeam id f).telemetry = s.telemetry := rfl
@[simp] theorem State.mapTeam_hive (s : State) (id : TeamId) (f : Team → Team) : (s.mapTeam id f).hive = s.hive := rfl
@[simp] theorem State.mapTeam_sparings (s : State) (id : TeamId) (f : Team → Team) : (s.mapTeam id f).sparings = s.sparings := rfl
@[simp] theorem State.mapTeam_remaps (s : State) (id : TeamId) (f : Team → Team) : (s.mapTeam id f).remaps = s.remaps := rfl
@[simp] theorem State.mapTeam_retiredPages (s : State) (id : TeamId) (f : Team → Team) : (s.mapTeam id f).retiredPages = s.retiredPages := rfl
@[simp] theorem State.mapTeam_spares (s : State) (id : TeamId) (f : Team → Team) : (s.mapTeam id f).spares = s.spares := rfl
@[simp] theorem State.mapTeam_fencedDies (s : State) (id : TeamId) (f : Team → Team) : (s.mapTeam id f).fencedDies = s.fencedDies := rfl
@[simp] theorem State.mapTeam_dumpsLost (s : State) (id : TeamId) (f : Team → Team) : (s.mapTeam id f).dumpsLost = s.dumpsLost := rfl
@[simp] theorem State.mapTeam_hostData (s : State) (id : TeamId) (f : Team → Team) : (s.mapTeam id f).hostData = s.hostData := rfl
@[simp] theorem State.mapTeam_hints (s : State) (id : TeamId) (f : Team → Team) : (s.mapTeam id f).hints = s.hints := rfl

@[simp] theorem State.setTeam_cur (s : State) (t : Team) : (s.setTeam t).cur = s.cur := rfl
@[simp] theorem State.setTeam_schedule (s : State) (t : Team) : (s.setTeam t).schedule = s.schedule := rfl
@[simp] theorem State.setTeam_noted (s : State) (t : Team) : (s.setTeam t).noted = s.noted := rfl
@[simp] theorem State.setTeam_stalled (s : State) (t : Team) : (s.setTeam t).stalled = s.stalled := rfl
@[simp] theorem State.setTeam_clock (s : State) (t : Team) : (s.setTeam t).clock = s.clock := rfl
@[simp] theorem State.setTeam_free (s : State) (t : Team) : (s.setTeam t).free = s.free := rfl
@[simp] theorem State.setTeam_nextId (s : State) (t : Team) : (s.setTeam t).nextId = s.nextId := rfl
@[simp] theorem State.setTeam_started (s : State) (t : Team) : (s.setTeam t).started = s.started := rfl
@[simp] theorem State.setTeam_fatal (s : State) (t : Team) : (s.setTeam t).fatal = s.fatal := rfl
@[simp] theorem State.setTeam_gtstat (s : State) (t : Team) : (s.setTeam t).gtstat = s.gtstat := rfl
@[simp] theorem State.setTeam_mem (s : State) (t : Team) : (s.setTeam t).mem = s.mem := rfl
@[simp] theorem State.setTeam_hostMem (s : State) (t : Team) : (s.setTeam t).hostMem = s.hostMem := rfl
@[simp] theorem State.setTeam_peers (s : State) (t : Team) : (s.setTeam t).peers = s.peers := rfl
@[simp] theorem State.setTeam_cores (s : State) (t : Team) : (s.setTeam t).cores = s.cores := rfl
@[simp] theorem State.setTeam_launches (s : State) (t : Team) : (s.setTeam t).launches = s.launches := rfl
@[simp] theorem State.setTeam_fns (s : State) (t : Team) : (s.setTeam t).fns = s.fns := rfl
@[simp] theorem State.setTeam_parts (s : State) (t : Team) : (s.setTeam t).parts = s.parts := rfl
@[simp] theorem State.setTeam_gangs (s : State) (t : Team) : (s.setTeam t).gangs = s.gangs := rfl
@[simp] theorem State.setTeam_flights (s : State) (t : Team) : (s.setTeam t).flights = s.flights := rfl
@[simp] theorem State.setTeam_copies (s : State) (t : Team) : (s.setTeam t).copies = s.copies := rfl
@[simp] theorem State.setTeam_replays (s : State) (t : Team) : (s.setTeam t).replays = s.replays := rfl
@[simp] theorem State.setTeam_signatures (s : State) (t : Team) : (s.setTeam t).signatures = s.signatures := rfl
@[simp] theorem State.setTeam_graphs (s : State) (t : Team) : (s.setTeam t).graphs = s.graphs := rfl
@[simp] theorem State.setTeam_deferred (s : State) (t : Team) : (s.setTeam t).deferred = s.deferred := rfl
@[simp] theorem State.setTeam_invals (s : State) (t : Team) : (s.setTeam t).invals = s.invals := rfl
@[simp] theorem State.setTeam_stops (s : State) (t : Team) : (s.setTeam t).stops = s.stops := rfl
@[simp] theorem State.setTeam_forChans (s : State) (t : Team) : (s.setTeam t).forChans = s.forChans := rfl
@[simp] theorem State.setTeam_packets (s : State) (t : Team) : (s.setTeam t).packets = s.packets := rfl
@[simp] theorem State.setTeam_wire (s : State) (t : Team) : (s.setTeam t).wire = s.wire := rfl
@[simp] theorem State.setTeam_acks (s : State) (t : Team) : (s.setTeam t).acks = s.acks := rfl
@[simp] theorem State.setTeam_syncs (s : State) (t : Team) : (s.setTeam t).syncs = s.syncs := rfl
@[simp] theorem State.setTeam_syncReqs (s : State) (t : Team) : (s.setTeam t).syncReqs = s.syncReqs := rfl
@[simp] theorem State.setTeam_closes (s : State) (t : Team) : (s.setTeam t).closes = s.closes := rfl
@[simp] theorem State.setTeam_ports (s : State) (t : Team) : (s.setTeam t).ports = s.ports := rfl
@[simp] theorem State.setTeam_buffered (s : State) (t : Team) : (s.setTeam t).buffered = s.buffered := rfl
@[simp] theorem State.setTeam_handshakes (s : State) (t : Team) : (s.setTeam t).handshakes = s.handshakes := rfl
@[simp] theorem State.setTeam_links (s : State) (t : Team) : (s.setTeam t).links = s.links := rfl
@[simp] theorem State.setTeam_transits (s : State) (t : Team) : (s.setTeam t).transits = s.transits := rfl
@[simp] theorem State.setTeam_moved (s : State) (t : Team) : (s.setTeam t).moved = s.moved := rfl
@[simp] theorem State.setTeam_rehomed (s : State) (t : Team) : (s.setTeam t).rehomed = s.rehomed := rfl
@[simp] theorem State.setTeam_cuts (s : State) (t : Team) : (s.setTeam t).cuts = s.cuts := rfl
@[simp] theorem State.setTeam_areas (s : State) (t : Team) : (s.setTeam t).areas = s.areas := rfl
@[simp] theorem State.setTeam_images (s : State) (t : Team) : (s.setTeam t).images = s.images := rfl
@[simp] theorem State.setTeam_flash (s : State) (t : Team) : (s.setTeam t).flash = s.flash := rfl
@[simp] theorem State.setTeam_errorLog (s : State) (t : Team) : (s.setTeam t).errorLog = s.errorLog := rfl
@[simp] theorem State.setTeam_patchActs (s : State) (t : Team) : (s.setTeam t).patchActs = s.patchActs := rfl
@[simp] theorem State.setTeam_revoked (s : State) (t : Team) : (s.setTeam t).revoked = s.revoked := rfl
@[simp] theorem State.setTeam_keyHashes (s : State) (t : Team) : (s.setTeam t).keyHashes = s.keyHashes := rfl
@[simp] theorem State.setTeam_mgmt (s : State) (t : Team) : (s.setTeam t).mgmt = s.mgmt := rfl
@[simp] theorem State.setTeam_telemetry (s : State) (t : Team) : (s.setTeam t).telemetry = s.telemetry := rfl
@[simp] theorem State.setTeam_hive (s : State) (t : Team) : (s.setTeam t).hive = s.hive := rfl
@[simp] theorem State.setTeam_sparings (s : State) (t : Team) : (s.setTeam t).sparings = s.sparings := rfl
@[simp] theorem State.setTeam_remaps (s : State) (t : Team) : (s.setTeam t).remaps = s.remaps := rfl
@[simp] theorem State.setTeam_retiredPages (s : State) (t : Team) : (s.setTeam t).retiredPages = s.retiredPages := rfl
@[simp] theorem State.setTeam_spares (s : State) (t : Team) : (s.setTeam t).spares = s.spares := rfl
@[simp] theorem State.setTeam_fencedDies (s : State) (t : Team) : (s.setTeam t).fencedDies = s.fencedDies := rfl
@[simp] theorem State.setTeam_dumpsLost (s : State) (t : Team) : (s.setTeam t).dumpsLost = s.dumpsLost := rfl
@[simp] theorem State.setTeam_hostData (s : State) (t : Team) : (s.setTeam t).hostData = s.hostData := rfl
@[simp] theorem State.setTeam_hints (s : State) (t : Team) : (s.setTeam t).hints = s.hints := rfl

@[simp] theorem State.setGroup_cur (s : State) (id : GroupId) (g : Group) : (s.setGroup id g).cur = s.cur := rfl
@[simp] theorem State.setGroup_schedule (s : State) (id : GroupId) (g : Group) : (s.setGroup id g).schedule = s.schedule := rfl
@[simp] theorem State.setGroup_noted (s : State) (id : GroupId) (g : Group) : (s.setGroup id g).noted = s.noted := rfl
@[simp] theorem State.setGroup_stalled (s : State) (id : GroupId) (g : Group) : (s.setGroup id g).stalled = s.stalled := rfl
@[simp] theorem State.setGroup_clock (s : State) (id : GroupId) (g : Group) : (s.setGroup id g).clock = s.clock := rfl
@[simp] theorem State.setGroup_free (s : State) (id : GroupId) (g : Group) : (s.setGroup id g).free = s.free := rfl
@[simp] theorem State.setGroup_nextId (s : State) (id : GroupId) (g : Group) : (s.setGroup id g).nextId = s.nextId := rfl
@[simp] theorem State.setGroup_started (s : State) (id : GroupId) (g : Group) : (s.setGroup id g).started = s.started := rfl
@[simp] theorem State.setGroup_fatal (s : State) (id : GroupId) (g : Group) : (s.setGroup id g).fatal = s.fatal := rfl
@[simp] theorem State.setGroup_gtstat (s : State) (id : GroupId) (g : Group) : (s.setGroup id g).gtstat = s.gtstat := rfl
@[simp] theorem State.setGroup_mem (s : State) (id : GroupId) (g : Group) : (s.setGroup id g).mem = s.mem := rfl
@[simp] theorem State.setGroup_hostMem (s : State) (id : GroupId) (g : Group) : (s.setGroup id g).hostMem = s.hostMem := rfl
@[simp] theorem State.setGroup_peers (s : State) (id : GroupId) (g : Group) : (s.setGroup id g).peers = s.peers := rfl
@[simp] theorem State.setGroup_cores (s : State) (id : GroupId) (g : Group) : (s.setGroup id g).cores = s.cores := rfl
@[simp] theorem State.setGroup_launches (s : State) (id : GroupId) (g : Group) : (s.setGroup id g).launches = s.launches := rfl
@[simp] theorem State.setGroup_fns (s : State) (id : GroupId) (g : Group) : (s.setGroup id g).fns = s.fns := rfl
@[simp] theorem State.setGroup_parts (s : State) (id : GroupId) (g : Group) : (s.setGroup id g).parts = s.parts := rfl
@[simp] theorem State.setGroup_gangs (s : State) (id : GroupId) (g : Group) : (s.setGroup id g).gangs = s.gangs := rfl
@[simp] theorem State.setGroup_flights (s : State) (id : GroupId) (g : Group) : (s.setGroup id g).flights = s.flights := rfl
@[simp] theorem State.setGroup_copies (s : State) (id : GroupId) (g : Group) : (s.setGroup id g).copies = s.copies := rfl
@[simp] theorem State.setGroup_replays (s : State) (id : GroupId) (g : Group) : (s.setGroup id g).replays = s.replays := rfl
@[simp] theorem State.setGroup_signatures (s : State) (id : GroupId) (g : Group) : (s.setGroup id g).signatures = s.signatures := rfl
@[simp] theorem State.setGroup_graphs (s : State) (id : GroupId) (g : Group) : (s.setGroup id g).graphs = s.graphs := rfl
@[simp] theorem State.setGroup_deferred (s : State) (id : GroupId) (g : Group) : (s.setGroup id g).deferred = s.deferred := rfl
@[simp] theorem State.setGroup_invals (s : State) (id : GroupId) (g : Group) : (s.setGroup id g).invals = s.invals := rfl
@[simp] theorem State.setGroup_stops (s : State) (id : GroupId) (g : Group) : (s.setGroup id g).stops = s.stops := rfl
@[simp] theorem State.setGroup_forChans (s : State) (id : GroupId) (g : Group) : (s.setGroup id g).forChans = s.forChans := rfl
@[simp] theorem State.setGroup_packets (s : State) (id : GroupId) (g : Group) : (s.setGroup id g).packets = s.packets := rfl
@[simp] theorem State.setGroup_wire (s : State) (id : GroupId) (g : Group) : (s.setGroup id g).wire = s.wire := rfl
@[simp] theorem State.setGroup_acks (s : State) (id : GroupId) (g : Group) : (s.setGroup id g).acks = s.acks := rfl
@[simp] theorem State.setGroup_syncs (s : State) (id : GroupId) (g : Group) : (s.setGroup id g).syncs = s.syncs := rfl
@[simp] theorem State.setGroup_syncReqs (s : State) (id : GroupId) (g : Group) : (s.setGroup id g).syncReqs = s.syncReqs := rfl
@[simp] theorem State.setGroup_closes (s : State) (id : GroupId) (g : Group) : (s.setGroup id g).closes = s.closes := rfl
@[simp] theorem State.setGroup_ports (s : State) (id : GroupId) (g : Group) : (s.setGroup id g).ports = s.ports := rfl
@[simp] theorem State.setGroup_buffered (s : State) (id : GroupId) (g : Group) : (s.setGroup id g).buffered = s.buffered := rfl
@[simp] theorem State.setGroup_handshakes (s : State) (id : GroupId) (g : Group) : (s.setGroup id g).handshakes = s.handshakes := rfl
@[simp] theorem State.setGroup_links (s : State) (id : GroupId) (g : Group) : (s.setGroup id g).links = s.links := rfl
@[simp] theorem State.setGroup_transits (s : State) (id : GroupId) (g : Group) : (s.setGroup id g).transits = s.transits := rfl
@[simp] theorem State.setGroup_moved (s : State) (id : GroupId) (g : Group) : (s.setGroup id g).moved = s.moved := rfl
@[simp] theorem State.setGroup_rehomed (s : State) (id : GroupId) (g : Group) : (s.setGroup id g).rehomed = s.rehomed := rfl
@[simp] theorem State.setGroup_cuts (s : State) (id : GroupId) (g : Group) : (s.setGroup id g).cuts = s.cuts := rfl
@[simp] theorem State.setGroup_areas (s : State) (id : GroupId) (g : Group) : (s.setGroup id g).areas = s.areas := rfl
@[simp] theorem State.setGroup_images (s : State) (id : GroupId) (g : Group) : (s.setGroup id g).images = s.images := rfl
@[simp] theorem State.setGroup_flash (s : State) (id : GroupId) (g : Group) : (s.setGroup id g).flash = s.flash := rfl
@[simp] theorem State.setGroup_errorLog (s : State) (id : GroupId) (g : Group) : (s.setGroup id g).errorLog = s.errorLog := rfl
@[simp] theorem State.setGroup_patchActs (s : State) (id : GroupId) (g : Group) : (s.setGroup id g).patchActs = s.patchActs := rfl
@[simp] theorem State.setGroup_revoked (s : State) (id : GroupId) (g : Group) : (s.setGroup id g).revoked = s.revoked := rfl
@[simp] theorem State.setGroup_keyHashes (s : State) (id : GroupId) (g : Group) : (s.setGroup id g).keyHashes = s.keyHashes := rfl
@[simp] theorem State.setGroup_mgmt (s : State) (id : GroupId) (g : Group) : (s.setGroup id g).mgmt = s.mgmt := rfl
@[simp] theorem State.setGroup_telemetry (s : State) (id : GroupId) (g : Group) : (s.setGroup id g).telemetry = s.telemetry := rfl
@[simp] theorem State.setGroup_hive (s : State) (id : GroupId) (g : Group) : (s.setGroup id g).hive = s.hive := rfl
@[simp] theorem State.setGroup_sparings (s : State) (id : GroupId) (g : Group) : (s.setGroup id g).sparings = s.sparings := rfl
@[simp] theorem State.setGroup_remaps (s : State) (id : GroupId) (g : Group) : (s.setGroup id g).remaps = s.remaps := rfl
@[simp] theorem State.setGroup_retiredPages (s : State) (id : GroupId) (g : Group) : (s.setGroup id g).retiredPages = s.retiredPages := rfl
@[simp] theorem State.setGroup_spares (s : State) (id : GroupId) (g : Group) : (s.setGroup id g).spares = s.spares := rfl
@[simp] theorem State.setGroup_fencedDies (s : State) (id : GroupId) (g : Group) : (s.setGroup id g).fencedDies = s.fencedDies := rfl
@[simp] theorem State.setGroup_dumpsLost (s : State) (id : GroupId) (g : Group) : (s.setGroup id g).dumpsLost = s.dumpsLost := rfl
@[simp] theorem State.setGroup_hostData (s : State) (id : GroupId) (g : Group) : (s.setGroup id g).hostData = s.hostData := rfl
@[simp] theorem State.setGroup_hints (s : State) (id : GroupId) (g : Group) : (s.setGroup id g).hints = s.hints := rfl

@[simp] theorem State.mapGroup_cur (s : State) (id : GroupId) (f : Group → Group) : (s.mapGroup id f).cur = s.cur := rfl
@[simp] theorem State.mapGroup_schedule (s : State) (id : GroupId) (f : Group → Group) : (s.mapGroup id f).schedule = s.schedule := rfl
@[simp] theorem State.mapGroup_noted (s : State) (id : GroupId) (f : Group → Group) : (s.mapGroup id f).noted = s.noted := rfl
@[simp] theorem State.mapGroup_stalled (s : State) (id : GroupId) (f : Group → Group) : (s.mapGroup id f).stalled = s.stalled := rfl
@[simp] theorem State.mapGroup_clock (s : State) (id : GroupId) (f : Group → Group) : (s.mapGroup id f).clock = s.clock := rfl
@[simp] theorem State.mapGroup_free (s : State) (id : GroupId) (f : Group → Group) : (s.mapGroup id f).free = s.free := rfl
@[simp] theorem State.mapGroup_nextId (s : State) (id : GroupId) (f : Group → Group) : (s.mapGroup id f).nextId = s.nextId := rfl
@[simp] theorem State.mapGroup_started (s : State) (id : GroupId) (f : Group → Group) : (s.mapGroup id f).started = s.started := rfl
@[simp] theorem State.mapGroup_fatal (s : State) (id : GroupId) (f : Group → Group) : (s.mapGroup id f).fatal = s.fatal := rfl
@[simp] theorem State.mapGroup_gtstat (s : State) (id : GroupId) (f : Group → Group) : (s.mapGroup id f).gtstat = s.gtstat := rfl
@[simp] theorem State.mapGroup_mem (s : State) (id : GroupId) (f : Group → Group) : (s.mapGroup id f).mem = s.mem := rfl
@[simp] theorem State.mapGroup_hostMem (s : State) (id : GroupId) (f : Group → Group) : (s.mapGroup id f).hostMem = s.hostMem := rfl
@[simp] theorem State.mapGroup_peers (s : State) (id : GroupId) (f : Group → Group) : (s.mapGroup id f).peers = s.peers := rfl
@[simp] theorem State.mapGroup_cores (s : State) (id : GroupId) (f : Group → Group) : (s.mapGroup id f).cores = s.cores := rfl
@[simp] theorem State.mapGroup_launches (s : State) (id : GroupId) (f : Group → Group) : (s.mapGroup id f).launches = s.launches := rfl
@[simp] theorem State.mapGroup_fns (s : State) (id : GroupId) (f : Group → Group) : (s.mapGroup id f).fns = s.fns := rfl
@[simp] theorem State.mapGroup_parts (s : State) (id : GroupId) (f : Group → Group) : (s.mapGroup id f).parts = s.parts := rfl
@[simp] theorem State.mapGroup_gangs (s : State) (id : GroupId) (f : Group → Group) : (s.mapGroup id f).gangs = s.gangs := rfl
@[simp] theorem State.mapGroup_flights (s : State) (id : GroupId) (f : Group → Group) : (s.mapGroup id f).flights = s.flights := rfl
@[simp] theorem State.mapGroup_copies (s : State) (id : GroupId) (f : Group → Group) : (s.mapGroup id f).copies = s.copies := rfl
@[simp] theorem State.mapGroup_replays (s : State) (id : GroupId) (f : Group → Group) : (s.mapGroup id f).replays = s.replays := rfl
@[simp] theorem State.mapGroup_signatures (s : State) (id : GroupId) (f : Group → Group) : (s.mapGroup id f).signatures = s.signatures := rfl
@[simp] theorem State.mapGroup_graphs (s : State) (id : GroupId) (f : Group → Group) : (s.mapGroup id f).graphs = s.graphs := rfl
@[simp] theorem State.mapGroup_deferred (s : State) (id : GroupId) (f : Group → Group) : (s.mapGroup id f).deferred = s.deferred := rfl
@[simp] theorem State.mapGroup_invals (s : State) (id : GroupId) (f : Group → Group) : (s.mapGroup id f).invals = s.invals := rfl
@[simp] theorem State.mapGroup_stops (s : State) (id : GroupId) (f : Group → Group) : (s.mapGroup id f).stops = s.stops := rfl
@[simp] theorem State.mapGroup_forChans (s : State) (id : GroupId) (f : Group → Group) : (s.mapGroup id f).forChans = s.forChans := rfl
@[simp] theorem State.mapGroup_packets (s : State) (id : GroupId) (f : Group → Group) : (s.mapGroup id f).packets = s.packets := rfl
@[simp] theorem State.mapGroup_wire (s : State) (id : GroupId) (f : Group → Group) : (s.mapGroup id f).wire = s.wire := rfl
@[simp] theorem State.mapGroup_acks (s : State) (id : GroupId) (f : Group → Group) : (s.mapGroup id f).acks = s.acks := rfl
@[simp] theorem State.mapGroup_syncs (s : State) (id : GroupId) (f : Group → Group) : (s.mapGroup id f).syncs = s.syncs := rfl
@[simp] theorem State.mapGroup_syncReqs (s : State) (id : GroupId) (f : Group → Group) : (s.mapGroup id f).syncReqs = s.syncReqs := rfl
@[simp] theorem State.mapGroup_closes (s : State) (id : GroupId) (f : Group → Group) : (s.mapGroup id f).closes = s.closes := rfl
@[simp] theorem State.mapGroup_ports (s : State) (id : GroupId) (f : Group → Group) : (s.mapGroup id f).ports = s.ports := rfl
@[simp] theorem State.mapGroup_buffered (s : State) (id : GroupId) (f : Group → Group) : (s.mapGroup id f).buffered = s.buffered := rfl
@[simp] theorem State.mapGroup_handshakes (s : State) (id : GroupId) (f : Group → Group) : (s.mapGroup id f).handshakes = s.handshakes := rfl
@[simp] theorem State.mapGroup_links (s : State) (id : GroupId) (f : Group → Group) : (s.mapGroup id f).links = s.links := rfl
@[simp] theorem State.mapGroup_transits (s : State) (id : GroupId) (f : Group → Group) : (s.mapGroup id f).transits = s.transits := rfl
@[simp] theorem State.mapGroup_moved (s : State) (id : GroupId) (f : Group → Group) : (s.mapGroup id f).moved = s.moved := rfl
@[simp] theorem State.mapGroup_rehomed (s : State) (id : GroupId) (f : Group → Group) : (s.mapGroup id f).rehomed = s.rehomed := rfl
@[simp] theorem State.mapGroup_cuts (s : State) (id : GroupId) (f : Group → Group) : (s.mapGroup id f).cuts = s.cuts := rfl
@[simp] theorem State.mapGroup_areas (s : State) (id : GroupId) (f : Group → Group) : (s.mapGroup id f).areas = s.areas := rfl
@[simp] theorem State.mapGroup_images (s : State) (id : GroupId) (f : Group → Group) : (s.mapGroup id f).images = s.images := rfl
@[simp] theorem State.mapGroup_flash (s : State) (id : GroupId) (f : Group → Group) : (s.mapGroup id f).flash = s.flash := rfl
@[simp] theorem State.mapGroup_errorLog (s : State) (id : GroupId) (f : Group → Group) : (s.mapGroup id f).errorLog = s.errorLog := rfl
@[simp] theorem State.mapGroup_patchActs (s : State) (id : GroupId) (f : Group → Group) : (s.mapGroup id f).patchActs = s.patchActs := rfl
@[simp] theorem State.mapGroup_revoked (s : State) (id : GroupId) (f : Group → Group) : (s.mapGroup id f).revoked = s.revoked := rfl
@[simp] theorem State.mapGroup_keyHashes (s : State) (id : GroupId) (f : Group → Group) : (s.mapGroup id f).keyHashes = s.keyHashes := rfl
@[simp] theorem State.mapGroup_mgmt (s : State) (id : GroupId) (f : Group → Group) : (s.mapGroup id f).mgmt = s.mgmt := rfl
@[simp] theorem State.mapGroup_telemetry (s : State) (id : GroupId) (f : Group → Group) : (s.mapGroup id f).telemetry = s.telemetry := rfl
@[simp] theorem State.mapGroup_hive (s : State) (id : GroupId) (f : Group → Group) : (s.mapGroup id f).hive = s.hive := rfl
@[simp] theorem State.mapGroup_sparings (s : State) (id : GroupId) (f : Group → Group) : (s.mapGroup id f).sparings = s.sparings := rfl
@[simp] theorem State.mapGroup_remaps (s : State) (id : GroupId) (f : Group → Group) : (s.mapGroup id f).remaps = s.remaps := rfl
@[simp] theorem State.mapGroup_retiredPages (s : State) (id : GroupId) (f : Group → Group) : (s.mapGroup id f).retiredPages = s.retiredPages := rfl
@[simp] theorem State.mapGroup_spares (s : State) (id : GroupId) (f : Group → Group) : (s.mapGroup id f).spares = s.spares := rfl
@[simp] theorem State.mapGroup_fencedDies (s : State) (id : GroupId) (f : Group → Group) : (s.mapGroup id f).fencedDies = s.fencedDies := rfl
@[simp] theorem State.mapGroup_dumpsLost (s : State) (id : GroupId) (f : Group → Group) : (s.mapGroup id f).dumpsLost = s.dumpsLost := rfl
@[simp] theorem State.mapGroup_hostData (s : State) (id : GroupId) (f : Group → Group) : (s.mapGroup id f).hostData = s.hostData := rfl
@[simp] theorem State.mapGroup_hints (s : State) (id : GroupId) (f : Group → Group) : (s.mapGroup id f).hints = s.hints := rfl

@[simp] theorem State.mapLaunch_cur (s : State) (n : Nat) (f : Launch → Launch) : (s.mapLaunch n f).cur = s.cur := rfl
@[simp] theorem State.mapLaunch_schedule (s : State) (n : Nat) (f : Launch → Launch) : (s.mapLaunch n f).schedule = s.schedule := rfl
@[simp] theorem State.mapLaunch_noted (s : State) (n : Nat) (f : Launch → Launch) : (s.mapLaunch n f).noted = s.noted := rfl
@[simp] theorem State.mapLaunch_stalled (s : State) (n : Nat) (f : Launch → Launch) : (s.mapLaunch n f).stalled = s.stalled := rfl
@[simp] theorem State.mapLaunch_clock (s : State) (n : Nat) (f : Launch → Launch) : (s.mapLaunch n f).clock = s.clock := rfl
@[simp] theorem State.mapLaunch_free (s : State) (n : Nat) (f : Launch → Launch) : (s.mapLaunch n f).free = s.free := rfl
@[simp] theorem State.mapLaunch_nextId (s : State) (n : Nat) (f : Launch → Launch) : (s.mapLaunch n f).nextId = s.nextId := rfl
@[simp] theorem State.mapLaunch_started (s : State) (n : Nat) (f : Launch → Launch) : (s.mapLaunch n f).started = s.started := rfl
@[simp] theorem State.mapLaunch_fatal (s : State) (n : Nat) (f : Launch → Launch) : (s.mapLaunch n f).fatal = s.fatal := rfl
@[simp] theorem State.mapLaunch_gtstat (s : State) (n : Nat) (f : Launch → Launch) : (s.mapLaunch n f).gtstat = s.gtstat := rfl
@[simp] theorem State.mapLaunch_mem (s : State) (n : Nat) (f : Launch → Launch) : (s.mapLaunch n f).mem = s.mem := rfl
@[simp] theorem State.mapLaunch_hostMem (s : State) (n : Nat) (f : Launch → Launch) : (s.mapLaunch n f).hostMem = s.hostMem := rfl
@[simp] theorem State.mapLaunch_peers (s : State) (n : Nat) (f : Launch → Launch) : (s.mapLaunch n f).peers = s.peers := rfl
@[simp] theorem State.mapLaunch_cores (s : State) (n : Nat) (f : Launch → Launch) : (s.mapLaunch n f).cores = s.cores := rfl
@[simp] theorem State.mapLaunch_teams (s : State) (n : Nat) (f : Launch → Launch) : (s.mapLaunch n f).teams = s.teams := rfl
@[simp] theorem State.mapLaunch_fns (s : State) (n : Nat) (f : Launch → Launch) : (s.mapLaunch n f).fns = s.fns := rfl
@[simp] theorem State.mapLaunch_parts (s : State) (n : Nat) (f : Launch → Launch) : (s.mapLaunch n f).parts = s.parts := rfl
@[simp] theorem State.mapLaunch_gangs (s : State) (n : Nat) (f : Launch → Launch) : (s.mapLaunch n f).gangs = s.gangs := rfl
@[simp] theorem State.mapLaunch_flights (s : State) (n : Nat) (f : Launch → Launch) : (s.mapLaunch n f).flights = s.flights := rfl
@[simp] theorem State.mapLaunch_copies (s : State) (n : Nat) (f : Launch → Launch) : (s.mapLaunch n f).copies = s.copies := rfl
@[simp] theorem State.mapLaunch_replays (s : State) (n : Nat) (f : Launch → Launch) : (s.mapLaunch n f).replays = s.replays := rfl
@[simp] theorem State.mapLaunch_signatures (s : State) (n : Nat) (f : Launch → Launch) : (s.mapLaunch n f).signatures = s.signatures := rfl
@[simp] theorem State.mapLaunch_graphs (s : State) (n : Nat) (f : Launch → Launch) : (s.mapLaunch n f).graphs = s.graphs := rfl
@[simp] theorem State.mapLaunch_deferred (s : State) (n : Nat) (f : Launch → Launch) : (s.mapLaunch n f).deferred = s.deferred := rfl
@[simp] theorem State.mapLaunch_invals (s : State) (n : Nat) (f : Launch → Launch) : (s.mapLaunch n f).invals = s.invals := rfl
@[simp] theorem State.mapLaunch_stops (s : State) (n : Nat) (f : Launch → Launch) : (s.mapLaunch n f).stops = s.stops := rfl
@[simp] theorem State.mapLaunch_forChans (s : State) (n : Nat) (f : Launch → Launch) : (s.mapLaunch n f).forChans = s.forChans := rfl
@[simp] theorem State.mapLaunch_packets (s : State) (n : Nat) (f : Launch → Launch) : (s.mapLaunch n f).packets = s.packets := rfl
@[simp] theorem State.mapLaunch_wire (s : State) (n : Nat) (f : Launch → Launch) : (s.mapLaunch n f).wire = s.wire := rfl
@[simp] theorem State.mapLaunch_acks (s : State) (n : Nat) (f : Launch → Launch) : (s.mapLaunch n f).acks = s.acks := rfl
@[simp] theorem State.mapLaunch_syncs (s : State) (n : Nat) (f : Launch → Launch) : (s.mapLaunch n f).syncs = s.syncs := rfl
@[simp] theorem State.mapLaunch_syncReqs (s : State) (n : Nat) (f : Launch → Launch) : (s.mapLaunch n f).syncReqs = s.syncReqs := rfl
@[simp] theorem State.mapLaunch_closes (s : State) (n : Nat) (f : Launch → Launch) : (s.mapLaunch n f).closes = s.closes := rfl
@[simp] theorem State.mapLaunch_ports (s : State) (n : Nat) (f : Launch → Launch) : (s.mapLaunch n f).ports = s.ports := rfl
@[simp] theorem State.mapLaunch_buffered (s : State) (n : Nat) (f : Launch → Launch) : (s.mapLaunch n f).buffered = s.buffered := rfl
@[simp] theorem State.mapLaunch_handshakes (s : State) (n : Nat) (f : Launch → Launch) : (s.mapLaunch n f).handshakes = s.handshakes := rfl
@[simp] theorem State.mapLaunch_links (s : State) (n : Nat) (f : Launch → Launch) : (s.mapLaunch n f).links = s.links := rfl
@[simp] theorem State.mapLaunch_transits (s : State) (n : Nat) (f : Launch → Launch) : (s.mapLaunch n f).transits = s.transits := rfl
@[simp] theorem State.mapLaunch_moved (s : State) (n : Nat) (f : Launch → Launch) : (s.mapLaunch n f).moved = s.moved := rfl
@[simp] theorem State.mapLaunch_rehomed (s : State) (n : Nat) (f : Launch → Launch) : (s.mapLaunch n f).rehomed = s.rehomed := rfl
@[simp] theorem State.mapLaunch_cuts (s : State) (n : Nat) (f : Launch → Launch) : (s.mapLaunch n f).cuts = s.cuts := rfl
@[simp] theorem State.mapLaunch_areas (s : State) (n : Nat) (f : Launch → Launch) : (s.mapLaunch n f).areas = s.areas := rfl
@[simp] theorem State.mapLaunch_images (s : State) (n : Nat) (f : Launch → Launch) : (s.mapLaunch n f).images = s.images := rfl
@[simp] theorem State.mapLaunch_flash (s : State) (n : Nat) (f : Launch → Launch) : (s.mapLaunch n f).flash = s.flash := rfl
@[simp] theorem State.mapLaunch_errorLog (s : State) (n : Nat) (f : Launch → Launch) : (s.mapLaunch n f).errorLog = s.errorLog := rfl
@[simp] theorem State.mapLaunch_patchActs (s : State) (n : Nat) (f : Launch → Launch) : (s.mapLaunch n f).patchActs = s.patchActs := rfl
@[simp] theorem State.mapLaunch_revoked (s : State) (n : Nat) (f : Launch → Launch) : (s.mapLaunch n f).revoked = s.revoked := rfl
@[simp] theorem State.mapLaunch_keyHashes (s : State) (n : Nat) (f : Launch → Launch) : (s.mapLaunch n f).keyHashes = s.keyHashes := rfl
@[simp] theorem State.mapLaunch_mgmt (s : State) (n : Nat) (f : Launch → Launch) : (s.mapLaunch n f).mgmt = s.mgmt := rfl
@[simp] theorem State.mapLaunch_telemetry (s : State) (n : Nat) (f : Launch → Launch) : (s.mapLaunch n f).telemetry = s.telemetry := rfl
@[simp] theorem State.mapLaunch_hive (s : State) (n : Nat) (f : Launch → Launch) : (s.mapLaunch n f).hive = s.hive := rfl
@[simp] theorem State.mapLaunch_sparings (s : State) (n : Nat) (f : Launch → Launch) : (s.mapLaunch n f).sparings = s.sparings := rfl
@[simp] theorem State.mapLaunch_remaps (s : State) (n : Nat) (f : Launch → Launch) : (s.mapLaunch n f).remaps = s.remaps := rfl
@[simp] theorem State.mapLaunch_retiredPages (s : State) (n : Nat) (f : Launch → Launch) : (s.mapLaunch n f).retiredPages = s.retiredPages := rfl
@[simp] theorem State.mapLaunch_spares (s : State) (n : Nat) (f : Launch → Launch) : (s.mapLaunch n f).spares = s.spares := rfl
@[simp] theorem State.mapLaunch_fencedDies (s : State) (n : Nat) (f : Launch → Launch) : (s.mapLaunch n f).fencedDies = s.fencedDies := rfl
@[simp] theorem State.mapLaunch_dumpsLost (s : State) (n : Nat) (f : Launch → Launch) : (s.mapLaunch n f).dumpsLost = s.dumpsLost := rfl
@[simp] theorem State.mapLaunch_hostData (s : State) (n : Nat) (f : Launch → Launch) : (s.mapLaunch n f).hostData = s.hostData := rfl
@[simp] theorem State.mapLaunch_hints (s : State) (n : Nat) (f : Launch → Launch) : (s.mapLaunch n f).hints = s.hints := rfl

@[simp] theorem State.mapCore_cur (s : State) (c : Nat) (f : Core → Core) : (s.mapCore c f).cur = s.cur := rfl
@[simp] theorem State.mapCore_schedule (s : State) (c : Nat) (f : Core → Core) : (s.mapCore c f).schedule = s.schedule := rfl
@[simp] theorem State.mapCore_noted (s : State) (c : Nat) (f : Core → Core) : (s.mapCore c f).noted = s.noted := rfl
@[simp] theorem State.mapCore_stalled (s : State) (c : Nat) (f : Core → Core) : (s.mapCore c f).stalled = s.stalled := rfl
@[simp] theorem State.mapCore_clock (s : State) (c : Nat) (f : Core → Core) : (s.mapCore c f).clock = s.clock := rfl
@[simp] theorem State.mapCore_free (s : State) (c : Nat) (f : Core → Core) : (s.mapCore c f).free = s.free := rfl
@[simp] theorem State.mapCore_nextId (s : State) (c : Nat) (f : Core → Core) : (s.mapCore c f).nextId = s.nextId := rfl
@[simp] theorem State.mapCore_started (s : State) (c : Nat) (f : Core → Core) : (s.mapCore c f).started = s.started := rfl
@[simp] theorem State.mapCore_fatal (s : State) (c : Nat) (f : Core → Core) : (s.mapCore c f).fatal = s.fatal := rfl
@[simp] theorem State.mapCore_gtstat (s : State) (c : Nat) (f : Core → Core) : (s.mapCore c f).gtstat = s.gtstat := rfl
@[simp] theorem State.mapCore_mem (s : State) (c : Nat) (f : Core → Core) : (s.mapCore c f).mem = s.mem := rfl
@[simp] theorem State.mapCore_hostMem (s : State) (c : Nat) (f : Core → Core) : (s.mapCore c f).hostMem = s.hostMem := rfl
@[simp] theorem State.mapCore_peers (s : State) (c : Nat) (f : Core → Core) : (s.mapCore c f).peers = s.peers := rfl
@[simp] theorem State.mapCore_launches (s : State) (c : Nat) (f : Core → Core) : (s.mapCore c f).launches = s.launches := rfl
@[simp] theorem State.mapCore_teams (s : State) (c : Nat) (f : Core → Core) : (s.mapCore c f).teams = s.teams := rfl
@[simp] theorem State.mapCore_fns (s : State) (c : Nat) (f : Core → Core) : (s.mapCore c f).fns = s.fns := rfl
@[simp] theorem State.mapCore_parts (s : State) (c : Nat) (f : Core → Core) : (s.mapCore c f).parts = s.parts := rfl
@[simp] theorem State.mapCore_gangs (s : State) (c : Nat) (f : Core → Core) : (s.mapCore c f).gangs = s.gangs := rfl
@[simp] theorem State.mapCore_flights (s : State) (c : Nat) (f : Core → Core) : (s.mapCore c f).flights = s.flights := rfl
@[simp] theorem State.mapCore_copies (s : State) (c : Nat) (f : Core → Core) : (s.mapCore c f).copies = s.copies := rfl
@[simp] theorem State.mapCore_replays (s : State) (c : Nat) (f : Core → Core) : (s.mapCore c f).replays = s.replays := rfl
@[simp] theorem State.mapCore_signatures (s : State) (c : Nat) (f : Core → Core) : (s.mapCore c f).signatures = s.signatures := rfl
@[simp] theorem State.mapCore_graphs (s : State) (c : Nat) (f : Core → Core) : (s.mapCore c f).graphs = s.graphs := rfl
@[simp] theorem State.mapCore_deferred (s : State) (c : Nat) (f : Core → Core) : (s.mapCore c f).deferred = s.deferred := rfl
@[simp] theorem State.mapCore_invals (s : State) (c : Nat) (f : Core → Core) : (s.mapCore c f).invals = s.invals := rfl
@[simp] theorem State.mapCore_stops (s : State) (c : Nat) (f : Core → Core) : (s.mapCore c f).stops = s.stops := rfl
@[simp] theorem State.mapCore_forChans (s : State) (c : Nat) (f : Core → Core) : (s.mapCore c f).forChans = s.forChans := rfl
@[simp] theorem State.mapCore_packets (s : State) (c : Nat) (f : Core → Core) : (s.mapCore c f).packets = s.packets := rfl
@[simp] theorem State.mapCore_wire (s : State) (c : Nat) (f : Core → Core) : (s.mapCore c f).wire = s.wire := rfl
@[simp] theorem State.mapCore_acks (s : State) (c : Nat) (f : Core → Core) : (s.mapCore c f).acks = s.acks := rfl
@[simp] theorem State.mapCore_syncs (s : State) (c : Nat) (f : Core → Core) : (s.mapCore c f).syncs = s.syncs := rfl
@[simp] theorem State.mapCore_syncReqs (s : State) (c : Nat) (f : Core → Core) : (s.mapCore c f).syncReqs = s.syncReqs := rfl
@[simp] theorem State.mapCore_closes (s : State) (c : Nat) (f : Core → Core) : (s.mapCore c f).closes = s.closes := rfl
@[simp] theorem State.mapCore_ports (s : State) (c : Nat) (f : Core → Core) : (s.mapCore c f).ports = s.ports := rfl
@[simp] theorem State.mapCore_buffered (s : State) (c : Nat) (f : Core → Core) : (s.mapCore c f).buffered = s.buffered := rfl
@[simp] theorem State.mapCore_handshakes (s : State) (c : Nat) (f : Core → Core) : (s.mapCore c f).handshakes = s.handshakes := rfl
@[simp] theorem State.mapCore_links (s : State) (c : Nat) (f : Core → Core) : (s.mapCore c f).links = s.links := rfl
@[simp] theorem State.mapCore_transits (s : State) (c : Nat) (f : Core → Core) : (s.mapCore c f).transits = s.transits := rfl
@[simp] theorem State.mapCore_moved (s : State) (c : Nat) (f : Core → Core) : (s.mapCore c f).moved = s.moved := rfl
@[simp] theorem State.mapCore_rehomed (s : State) (c : Nat) (f : Core → Core) : (s.mapCore c f).rehomed = s.rehomed := rfl
@[simp] theorem State.mapCore_cuts (s : State) (c : Nat) (f : Core → Core) : (s.mapCore c f).cuts = s.cuts := rfl
@[simp] theorem State.mapCore_areas (s : State) (c : Nat) (f : Core → Core) : (s.mapCore c f).areas = s.areas := rfl
@[simp] theorem State.mapCore_images (s : State) (c : Nat) (f : Core → Core) : (s.mapCore c f).images = s.images := rfl
@[simp] theorem State.mapCore_flash (s : State) (c : Nat) (f : Core → Core) : (s.mapCore c f).flash = s.flash := rfl
@[simp] theorem State.mapCore_errorLog (s : State) (c : Nat) (f : Core → Core) : (s.mapCore c f).errorLog = s.errorLog := rfl
@[simp] theorem State.mapCore_patchActs (s : State) (c : Nat) (f : Core → Core) : (s.mapCore c f).patchActs = s.patchActs := rfl
@[simp] theorem State.mapCore_revoked (s : State) (c : Nat) (f : Core → Core) : (s.mapCore c f).revoked = s.revoked := rfl
@[simp] theorem State.mapCore_keyHashes (s : State) (c : Nat) (f : Core → Core) : (s.mapCore c f).keyHashes = s.keyHashes := rfl
@[simp] theorem State.mapCore_mgmt (s : State) (c : Nat) (f : Core → Core) : (s.mapCore c f).mgmt = s.mgmt := rfl
@[simp] theorem State.mapCore_telemetry (s : State) (c : Nat) (f : Core → Core) : (s.mapCore c f).telemetry = s.telemetry := rfl
@[simp] theorem State.mapCore_hive (s : State) (c : Nat) (f : Core → Core) : (s.mapCore c f).hive = s.hive := rfl
@[simp] theorem State.mapCore_sparings (s : State) (c : Nat) (f : Core → Core) : (s.mapCore c f).sparings = s.sparings := rfl
@[simp] theorem State.mapCore_remaps (s : State) (c : Nat) (f : Core → Core) : (s.mapCore c f).remaps = s.remaps := rfl
@[simp] theorem State.mapCore_retiredPages (s : State) (c : Nat) (f : Core → Core) : (s.mapCore c f).retiredPages = s.retiredPages := rfl
@[simp] theorem State.mapCore_spares (s : State) (c : Nat) (f : Core → Core) : (s.mapCore c f).spares = s.spares := rfl
@[simp] theorem State.mapCore_fencedDies (s : State) (c : Nat) (f : Core → Core) : (s.mapCore c f).fencedDies = s.fencedDies := rfl
@[simp] theorem State.mapCore_dumpsLost (s : State) (c : Nat) (f : Core → Core) : (s.mapCore c f).dumpsLost = s.dumpsLost := rfl
@[simp] theorem State.mapCore_hostData (s : State) (c : Nat) (f : Core → Core) : (s.mapCore c f).hostData = s.hostData := rfl
@[simp] theorem State.mapCore_hints (s : State) (c : Nat) (f : Core → Core) : (s.mapCore c f).hints = s.hints := rfl

@[simp] theorem State.mapFn_cur (s : State) (n : Nat) (f : Fn → Fn) : (s.mapFn n f).cur = s.cur := rfl
@[simp] theorem State.mapFn_schedule (s : State) (n : Nat) (f : Fn → Fn) : (s.mapFn n f).schedule = s.schedule := rfl
@[simp] theorem State.mapFn_noted (s : State) (n : Nat) (f : Fn → Fn) : (s.mapFn n f).noted = s.noted := rfl
@[simp] theorem State.mapFn_stalled (s : State) (n : Nat) (f : Fn → Fn) : (s.mapFn n f).stalled = s.stalled := rfl
@[simp] theorem State.mapFn_clock (s : State) (n : Nat) (f : Fn → Fn) : (s.mapFn n f).clock = s.clock := rfl
@[simp] theorem State.mapFn_free (s : State) (n : Nat) (f : Fn → Fn) : (s.mapFn n f).free = s.free := rfl
@[simp] theorem State.mapFn_nextId (s : State) (n : Nat) (f : Fn → Fn) : (s.mapFn n f).nextId = s.nextId := rfl
@[simp] theorem State.mapFn_started (s : State) (n : Nat) (f : Fn → Fn) : (s.mapFn n f).started = s.started := rfl
@[simp] theorem State.mapFn_fatal (s : State) (n : Nat) (f : Fn → Fn) : (s.mapFn n f).fatal = s.fatal := rfl
@[simp] theorem State.mapFn_gtstat (s : State) (n : Nat) (f : Fn → Fn) : (s.mapFn n f).gtstat = s.gtstat := rfl
@[simp] theorem State.mapFn_mem (s : State) (n : Nat) (f : Fn → Fn) : (s.mapFn n f).mem = s.mem := rfl
@[simp] theorem State.mapFn_hostMem (s : State) (n : Nat) (f : Fn → Fn) : (s.mapFn n f).hostMem = s.hostMem := rfl
@[simp] theorem State.mapFn_peers (s : State) (n : Nat) (f : Fn → Fn) : (s.mapFn n f).peers = s.peers := rfl
@[simp] theorem State.mapFn_cores (s : State) (n : Nat) (f : Fn → Fn) : (s.mapFn n f).cores = s.cores := rfl
@[simp] theorem State.mapFn_launches (s : State) (n : Nat) (f : Fn → Fn) : (s.mapFn n f).launches = s.launches := rfl
@[simp] theorem State.mapFn_teams (s : State) (n : Nat) (f : Fn → Fn) : (s.mapFn n f).teams = s.teams := rfl
@[simp] theorem State.mapFn_parts (s : State) (n : Nat) (f : Fn → Fn) : (s.mapFn n f).parts = s.parts := rfl
@[simp] theorem State.mapFn_gangs (s : State) (n : Nat) (f : Fn → Fn) : (s.mapFn n f).gangs = s.gangs := rfl
@[simp] theorem State.mapFn_flights (s : State) (n : Nat) (f : Fn → Fn) : (s.mapFn n f).flights = s.flights := rfl
@[simp] theorem State.mapFn_copies (s : State) (n : Nat) (f : Fn → Fn) : (s.mapFn n f).copies = s.copies := rfl
@[simp] theorem State.mapFn_replays (s : State) (n : Nat) (f : Fn → Fn) : (s.mapFn n f).replays = s.replays := rfl
@[simp] theorem State.mapFn_signatures (s : State) (n : Nat) (f : Fn → Fn) : (s.mapFn n f).signatures = s.signatures := rfl
@[simp] theorem State.mapFn_graphs (s : State) (n : Nat) (f : Fn → Fn) : (s.mapFn n f).graphs = s.graphs := rfl
@[simp] theorem State.mapFn_deferred (s : State) (n : Nat) (f : Fn → Fn) : (s.mapFn n f).deferred = s.deferred := rfl
@[simp] theorem State.mapFn_invals (s : State) (n : Nat) (f : Fn → Fn) : (s.mapFn n f).invals = s.invals := rfl
@[simp] theorem State.mapFn_stops (s : State) (n : Nat) (f : Fn → Fn) : (s.mapFn n f).stops = s.stops := rfl
@[simp] theorem State.mapFn_forChans (s : State) (n : Nat) (f : Fn → Fn) : (s.mapFn n f).forChans = s.forChans := rfl
@[simp] theorem State.mapFn_packets (s : State) (n : Nat) (f : Fn → Fn) : (s.mapFn n f).packets = s.packets := rfl
@[simp] theorem State.mapFn_wire (s : State) (n : Nat) (f : Fn → Fn) : (s.mapFn n f).wire = s.wire := rfl
@[simp] theorem State.mapFn_acks (s : State) (n : Nat) (f : Fn → Fn) : (s.mapFn n f).acks = s.acks := rfl
@[simp] theorem State.mapFn_syncs (s : State) (n : Nat) (f : Fn → Fn) : (s.mapFn n f).syncs = s.syncs := rfl
@[simp] theorem State.mapFn_syncReqs (s : State) (n : Nat) (f : Fn → Fn) : (s.mapFn n f).syncReqs = s.syncReqs := rfl
@[simp] theorem State.mapFn_closes (s : State) (n : Nat) (f : Fn → Fn) : (s.mapFn n f).closes = s.closes := rfl
@[simp] theorem State.mapFn_ports (s : State) (n : Nat) (f : Fn → Fn) : (s.mapFn n f).ports = s.ports := rfl
@[simp] theorem State.mapFn_buffered (s : State) (n : Nat) (f : Fn → Fn) : (s.mapFn n f).buffered = s.buffered := rfl
@[simp] theorem State.mapFn_handshakes (s : State) (n : Nat) (f : Fn → Fn) : (s.mapFn n f).handshakes = s.handshakes := rfl
@[simp] theorem State.mapFn_links (s : State) (n : Nat) (f : Fn → Fn) : (s.mapFn n f).links = s.links := rfl
@[simp] theorem State.mapFn_transits (s : State) (n : Nat) (f : Fn → Fn) : (s.mapFn n f).transits = s.transits := rfl
@[simp] theorem State.mapFn_moved (s : State) (n : Nat) (f : Fn → Fn) : (s.mapFn n f).moved = s.moved := rfl
@[simp] theorem State.mapFn_rehomed (s : State) (n : Nat) (f : Fn → Fn) : (s.mapFn n f).rehomed = s.rehomed := rfl
@[simp] theorem State.mapFn_cuts (s : State) (n : Nat) (f : Fn → Fn) : (s.mapFn n f).cuts = s.cuts := rfl
@[simp] theorem State.mapFn_areas (s : State) (n : Nat) (f : Fn → Fn) : (s.mapFn n f).areas = s.areas := rfl
@[simp] theorem State.mapFn_images (s : State) (n : Nat) (f : Fn → Fn) : (s.mapFn n f).images = s.images := rfl
@[simp] theorem State.mapFn_flash (s : State) (n : Nat) (f : Fn → Fn) : (s.mapFn n f).flash = s.flash := rfl
@[simp] theorem State.mapFn_errorLog (s : State) (n : Nat) (f : Fn → Fn) : (s.mapFn n f).errorLog = s.errorLog := rfl
@[simp] theorem State.mapFn_patchActs (s : State) (n : Nat) (f : Fn → Fn) : (s.mapFn n f).patchActs = s.patchActs := rfl
@[simp] theorem State.mapFn_revoked (s : State) (n : Nat) (f : Fn → Fn) : (s.mapFn n f).revoked = s.revoked := rfl
@[simp] theorem State.mapFn_keyHashes (s : State) (n : Nat) (f : Fn → Fn) : (s.mapFn n f).keyHashes = s.keyHashes := rfl
@[simp] theorem State.mapFn_mgmt (s : State) (n : Nat) (f : Fn → Fn) : (s.mapFn n f).mgmt = s.mgmt := rfl
@[simp] theorem State.mapFn_telemetry (s : State) (n : Nat) (f : Fn → Fn) : (s.mapFn n f).telemetry = s.telemetry := rfl
@[simp] theorem State.mapFn_hive (s : State) (n : Nat) (f : Fn → Fn) : (s.mapFn n f).hive = s.hive := rfl
@[simp] theorem State.mapFn_sparings (s : State) (n : Nat) (f : Fn → Fn) : (s.mapFn n f).sparings = s.sparings := rfl
@[simp] theorem State.mapFn_remaps (s : State) (n : Nat) (f : Fn → Fn) : (s.mapFn n f).remaps = s.remaps := rfl
@[simp] theorem State.mapFn_retiredPages (s : State) (n : Nat) (f : Fn → Fn) : (s.mapFn n f).retiredPages = s.retiredPages := rfl
@[simp] theorem State.mapFn_spares (s : State) (n : Nat) (f : Fn → Fn) : (s.mapFn n f).spares = s.spares := rfl
@[simp] theorem State.mapFn_fencedDies (s : State) (n : Nat) (f : Fn → Fn) : (s.mapFn n f).fencedDies = s.fencedDies := rfl
@[simp] theorem State.mapFn_dumpsLost (s : State) (n : Nat) (f : Fn → Fn) : (s.mapFn n f).dumpsLost = s.dumpsLost := rfl
@[simp] theorem State.mapFn_hostData (s : State) (n : Nat) (f : Fn → Fn) : (s.mapFn n f).hostData = s.hostData := rfl
@[simp] theorem State.mapFn_hints (s : State) (n : Nat) (f : Fn → Fn) : (s.mapFn n f).hints = s.hints := rfl

@[simp] theorem Group.pushV_slot (g : Group) (x : VSlot) : (g.pushV x).slot = g.slot := rfl
@[simp] theorem Group.pushV_pc (g : Group) (x : VSlot) : (g.pushV x).pc = g.pc := rfl
@[simp] theorem Group.pushV_mode (g : Group) (x : VSlot) : (g.pushV x).mode = g.mode := rfl
@[simp] theorem Group.pushV_shape (g : Group) (x : VSlot) : (g.pushV x).shape = g.shape := rfl
@[simp] theorem Group.pushV_sregs (g : Group) (x : VSlot) : (g.pushV x).sregs = g.sregs := rfl
@[simp] theorem Group.pushV_vregs (g : Group) (x : VSlot) : (g.pushV x).vregs = g.vregs := rfl
@[simp] theorem Group.pushV_squeue (g : Group) (x : VSlot) : (g.pushV x).squeue = g.squeue := rfl
@[simp] theorem Group.pushV_preds (g : Group) (x : VSlot) : (g.pushV x).preds = g.preds := rfl
@[simp] theorem Group.pushV_nest (g : Group) (x : VSlot) : (g.pushV x).nest = g.nest := rfl
@[simp] theorem Group.pushV_ns (g : Group) (x : VSlot) : (g.pushV x).ns = g.ns := rfl
@[simp] theorem Group.pushV_family (g : Group) (x : VSlot) : (g.pushV x).family = g.family := rfl
@[simp] theorem Group.pushV_user (g : Group) (x : VSlot) : (g.pushV x).user = g.user := rfl
@[simp] theorem Group.pushV_inTrap (g : Group) (x : VSlot) : (g.pushV x).inTrap = g.inTrap := rfl
@[simp] theorem Group.pushV_trapQueue (g : Group) (x : VSlot) : (g.pushV x).trapQueue = g.trapQueue := rfl
@[simp] theorem Group.pushV_record (g : Group) (x : VSlot) : (g.pushV x).record = g.record := rfl
@[simp] theorem Group.pushV_vtcmp (g : Group) (x : VSlot) : (g.pushV x).vtcmp = g.vtcmp := rfl
@[simp] theorem Group.pushV_stepcnt (g : Group) (x : VSlot) : (g.pushV x).stepcnt = g.stepcnt := rfl
@[simp] theorem Group.pushV_run (g : Group) (x : VSlot) : (g.pushV x).run = g.run := rfl
@[simp] theorem Group.pushV_held (g : Group) (x : VSlot) : (g.pushV x).held = g.held := rfl
@[simp] theorem Group.pushV_evStream (g : Group) (x : VSlot) : (g.pushV x).evStream = g.evStream := rfl
@[simp] theorem Group.pushV_evCollective (g : Group) (x : VSlot) : (g.pushV x).evCollective = g.evCollective := rfl
@[simp] theorem Group.pushV_evVtime (g : Group) (x : VSlot) : (g.pushV x).evVtime = g.evVtime := rfl
@[simp] theorem Group.pushV_evStop (g : Group) (x : VSlot) : (g.pushV x).evStop = g.evStop := rfl
@[simp] theorem Group.pushV_stepOnce (g : Group) (x : VSlot) : (g.pushV x).stepOnce = g.stepOnce := rfl
@[simp] theorem Group.pushV_rewriting (g : Group) (x : VSlot) : (g.pushV x).rewriting = g.rewriting := rfl
@[simp] theorem Group.pushV_begun (g : Group) (x : VSlot) : (g.pushV x).begun = g.begun := rfl
@[simp] theorem Group.pushV_stall (g : Group) (x : VSlot) : (g.pushV x).stall = g.stall := rfl
@[simp] theorem Group.pushV_mwaited (g : Group) (x : VSlot) : (g.pushV x).mwaited = g.mwaited := rfl
@[simp] theorem Group.pushV_due (g : Group) (x : VSlot) : (g.pushV x).due = g.due := rfl
@[simp] theorem Group.pushV_decoded (g : Group) (x : VSlot) : (g.pushV x).decoded = g.decoded := rfl

@[simp] theorem Group.unheld_slot (g : Group) : (g.unheld).slot = g.slot := rfl
@[simp] theorem Group.unheld_pc (g : Group) : (g.unheld).pc = g.pc := rfl
@[simp] theorem Group.unheld_mode (g : Group) : (g.unheld).mode = g.mode := rfl
@[simp] theorem Group.unheld_shape (g : Group) : (g.unheld).shape = g.shape := rfl
@[simp] theorem Group.unheld_sregs (g : Group) : (g.unheld).sregs = g.sregs := rfl
@[simp] theorem Group.unheld_vregs (g : Group) : (g.unheld).vregs = g.vregs := rfl
@[simp] theorem Group.unheld_squeue (g : Group) : (g.unheld).squeue = g.squeue := rfl
@[simp] theorem Group.unheld_vqueue (g : Group) : (g.unheld).vqueue = g.vqueue := rfl
@[simp] theorem Group.unheld_preds (g : Group) : (g.unheld).preds = g.preds := rfl
@[simp] theorem Group.unheld_nest (g : Group) : (g.unheld).nest = g.nest := rfl
@[simp] theorem Group.unheld_ns (g : Group) : (g.unheld).ns = g.ns := rfl
@[simp] theorem Group.unheld_family (g : Group) : (g.unheld).family = g.family := rfl
@[simp] theorem Group.unheld_user (g : Group) : (g.unheld).user = g.user := rfl
@[simp] theorem Group.unheld_inTrap (g : Group) : (g.unheld).inTrap = g.inTrap := rfl
@[simp] theorem Group.unheld_trapQueue (g : Group) : (g.unheld).trapQueue = g.trapQueue := rfl
@[simp] theorem Group.unheld_record (g : Group) : (g.unheld).record = g.record := rfl
@[simp] theorem Group.unheld_vtcmp (g : Group) : (g.unheld).vtcmp = g.vtcmp := rfl
@[simp] theorem Group.unheld_stepcnt (g : Group) : (g.unheld).stepcnt = g.stepcnt := rfl
@[simp] theorem Group.unheld_run (g : Group) : (g.unheld).run = g.run := rfl
@[simp] theorem Group.unheld_evStream (g : Group) : (g.unheld).evStream = g.evStream := rfl
@[simp] theorem Group.unheld_evCollective (g : Group) : (g.unheld).evCollective = g.evCollective := rfl
@[simp] theorem Group.unheld_evVtime (g : Group) : (g.unheld).evVtime = g.evVtime := rfl
@[simp] theorem Group.unheld_evStop (g : Group) : (g.unheld).evStop = g.evStop := rfl
@[simp] theorem Group.unheld_stepOnce (g : Group) : (g.unheld).stepOnce = g.stepOnce := rfl
@[simp] theorem Group.unheld_rewriting (g : Group) : (g.unheld).rewriting = g.rewriting := rfl
@[simp] theorem Group.unheld_begun (g : Group) : (g.unheld).begun = g.begun := rfl
@[simp] theorem Group.unheld_stall (g : Group) : (g.unheld).stall = g.stall := rfl
@[simp] theorem Group.unheld_mwaited (g : Group) : (g.unheld).mwaited = g.mwaited := rfl
@[simp] theorem Group.unheld_due (g : Group) : (g.unheld).due = g.due := rfl
@[simp] theorem Group.unheld_decoded (g : Group) : (g.unheld).decoded = g.decoded := rfl

@[simp] theorem Group.hold_slot (g : Group) (w : HeldWhat) : (g.hold w).slot = g.slot := rfl
@[simp] theorem Group.hold_pc (g : Group) (w : HeldWhat) : (g.hold w).pc = g.pc := rfl
@[simp] theorem Group.hold_mode (g : Group) (w : HeldWhat) : (g.hold w).mode = g.mode := rfl
@[simp] theorem Group.hold_shape (g : Group) (w : HeldWhat) : (g.hold w).shape = g.shape := rfl
@[simp] theorem Group.hold_sregs (g : Group) (w : HeldWhat) : (g.hold w).sregs = g.sregs := rfl
@[simp] theorem Group.hold_vregs (g : Group) (w : HeldWhat) : (g.hold w).vregs = g.vregs := rfl
@[simp] theorem Group.hold_squeue (g : Group) (w : HeldWhat) : (g.hold w).squeue = g.squeue := rfl
@[simp] theorem Group.hold_vqueue (g : Group) (w : HeldWhat) : (g.hold w).vqueue = g.vqueue := rfl
@[simp] theorem Group.hold_preds (g : Group) (w : HeldWhat) : (g.hold w).preds = g.preds := rfl
@[simp] theorem Group.hold_nest (g : Group) (w : HeldWhat) : (g.hold w).nest = g.nest := rfl
@[simp] theorem Group.hold_ns (g : Group) (w : HeldWhat) : (g.hold w).ns = g.ns := rfl
@[simp] theorem Group.hold_family (g : Group) (w : HeldWhat) : (g.hold w).family = g.family := rfl
@[simp] theorem Group.hold_user (g : Group) (w : HeldWhat) : (g.hold w).user = g.user := rfl
@[simp] theorem Group.hold_inTrap (g : Group) (w : HeldWhat) : (g.hold w).inTrap = g.inTrap := rfl
@[simp] theorem Group.hold_trapQueue (g : Group) (w : HeldWhat) : (g.hold w).trapQueue = g.trapQueue := rfl
@[simp] theorem Group.hold_record (g : Group) (w : HeldWhat) : (g.hold w).record = g.record := rfl
@[simp] theorem Group.hold_vtcmp (g : Group) (w : HeldWhat) : (g.hold w).vtcmp = g.vtcmp := rfl
@[simp] theorem Group.hold_stepcnt (g : Group) (w : HeldWhat) : (g.hold w).stepcnt = g.stepcnt := rfl
@[simp] theorem Group.hold_run (g : Group) (w : HeldWhat) : (g.hold w).run = g.run := rfl
@[simp] theorem Group.hold_evStream (g : Group) (w : HeldWhat) : (g.hold w).evStream = g.evStream := rfl
@[simp] theorem Group.hold_evCollective (g : Group) (w : HeldWhat) : (g.hold w).evCollective = g.evCollective := rfl
@[simp] theorem Group.hold_evVtime (g : Group) (w : HeldWhat) : (g.hold w).evVtime = g.evVtime := rfl
@[simp] theorem Group.hold_evStop (g : Group) (w : HeldWhat) : (g.hold w).evStop = g.evStop := rfl
@[simp] theorem Group.hold_stepOnce (g : Group) (w : HeldWhat) : (g.hold w).stepOnce = g.stepOnce := rfl
@[simp] theorem Group.hold_rewriting (g : Group) (w : HeldWhat) : (g.hold w).rewriting = g.rewriting := rfl
@[simp] theorem Group.hold_mwaited (g : Group) (w : HeldWhat) : (g.hold w).mwaited = g.mwaited := rfl
@[simp] theorem Group.hold_due (g : Group) (w : HeldWhat) : (g.hold w).due = g.due := rfl
@[simp] theorem Group.hold_decoded (g : Group) (w : HeldWhat) : (g.hold w).decoded = g.decoded := rfl

@[simp] theorem Group.pushS_slot (g : Group) (x : SSlot) : (g.pushS x).slot = g.slot := by
  unfold Group.pushS; split <;> rfl
@[simp] theorem Group.pushS_pc (g : Group) (x : SSlot) : (g.pushS x).pc = g.pc := by
  unfold Group.pushS; split <;> rfl
@[simp] theorem Group.pushS_mode (g : Group) (x : SSlot) : (g.pushS x).mode = g.mode := by
  unfold Group.pushS; split <;> rfl
@[simp] theorem Group.pushS_shape (g : Group) (x : SSlot) : (g.pushS x).shape = g.shape := by
  unfold Group.pushS; split <;> rfl
@[simp] theorem Group.pushS_sregs (g : Group) (x : SSlot) : (g.pushS x).sregs = g.sregs := by
  unfold Group.pushS; split <;> rfl
@[simp] theorem Group.pushS_vregs (g : Group) (x : SSlot) : (g.pushS x).vregs = g.vregs := by
  unfold Group.pushS; split <;> rfl
@[simp] theorem Group.pushS_vqueue (g : Group) (x : SSlot) : (g.pushS x).vqueue = g.vqueue := by
  unfold Group.pushS; split <;> rfl
@[simp] theorem Group.pushS_preds (g : Group) (x : SSlot) : (g.pushS x).preds = g.preds := by
  unfold Group.pushS; split <;> rfl
@[simp] theorem Group.pushS_nest (g : Group) (x : SSlot) : (g.pushS x).nest = g.nest := by
  unfold Group.pushS; split <;> rfl
@[simp] theorem Group.pushS_ns (g : Group) (x : SSlot) : (g.pushS x).ns = g.ns := by
  unfold Group.pushS; split <;> rfl
@[simp] theorem Group.pushS_family (g : Group) (x : SSlot) : (g.pushS x).family = g.family := by
  unfold Group.pushS; split <;> rfl
@[simp] theorem Group.pushS_user (g : Group) (x : SSlot) : (g.pushS x).user = g.user := by
  unfold Group.pushS; split <;> rfl
@[simp] theorem Group.pushS_inTrap (g : Group) (x : SSlot) : (g.pushS x).inTrap = g.inTrap := by
  unfold Group.pushS; split <;> rfl
@[simp] theorem Group.pushS_record (g : Group) (x : SSlot) : (g.pushS x).record = g.record := by
  unfold Group.pushS; split <;> rfl
@[simp] theorem Group.pushS_vtcmp (g : Group) (x : SSlot) : (g.pushS x).vtcmp = g.vtcmp := by
  unfold Group.pushS; split <;> rfl
@[simp] theorem Group.pushS_stepcnt (g : Group) (x : SSlot) : (g.pushS x).stepcnt = g.stepcnt := by
  unfold Group.pushS; split <;> rfl
@[simp] theorem Group.pushS_run (g : Group) (x : SSlot) : (g.pushS x).run = g.run := by
  unfold Group.pushS; split <;> rfl
@[simp] theorem Group.pushS_held (g : Group) (x : SSlot) : (g.pushS x).held = g.held := by
  unfold Group.pushS; split <;> rfl
@[simp] theorem Group.pushS_evStream (g : Group) (x : SSlot) : (g.pushS x).evStream = g.evStream := by
  unfold Group.pushS; split <;> rfl
@[simp] theorem Group.pushS_evCollective (g : Group) (x : SSlot) : (g.pushS x).evCollective = g.evCollective := by
  unfold Group.pushS; split <;> rfl
@[simp] theorem Group.pushS_evVtime (g : Group) (x : SSlot) : (g.pushS x).evVtime = g.evVtime := by
  unfold Group.pushS; split <;> rfl
@[simp] theorem Group.pushS_evStop (g : Group) (x : SSlot) : (g.pushS x).evStop = g.evStop := by
  unfold Group.pushS; split <;> rfl
@[simp] theorem Group.pushS_stepOnce (g : Group) (x : SSlot) : (g.pushS x).stepOnce = g.stepOnce := by
  unfold Group.pushS; split <;> rfl
@[simp] theorem Group.pushS_rewriting (g : Group) (x : SSlot) : (g.pushS x).rewriting = g.rewriting := by
  unfold Group.pushS; split <;> rfl
@[simp] theorem Group.pushS_begun (g : Group) (x : SSlot) : (g.pushS x).begun = g.begun := by
  unfold Group.pushS; split <;> rfl
@[simp] theorem Group.pushS_stall (g : Group) (x : SSlot) : (g.pushS x).stall = g.stall := by
  unfold Group.pushS; split <;> rfl
@[simp] theorem Group.pushS_mwaited (g : Group) (x : SSlot) : (g.pushS x).mwaited = g.mwaited := by
  unfold Group.pushS; split <;> rfl
@[simp] theorem Group.pushS_due (g : Group) (x : SSlot) : (g.pushS x).due = g.due := by
  unfold Group.pushS; split <;> rfl
@[simp] theorem Group.pushS_decoded (g : Group) (x : SSlot) : (g.pushS x).decoded = g.decoded := by
  unfold Group.pushS; split <;> rfl

@[simp] theorem Group.writeS_slot (g : Group) (d : BitVec 8) (x : SSlot) : (g.writeS d x).slot = g.slot := by
  unfold Group.writeS; split <;> rfl
@[simp] theorem Group.writeS_pc (g : Group) (d : BitVec 8) (x : SSlot) : (g.writeS d x).pc = g.pc := by
  unfold Group.writeS; split <;> rfl
@[simp] theorem Group.writeS_mode (g : Group) (d : BitVec 8) (x : SSlot) : (g.writeS d x).mode = g.mode := by
  unfold Group.writeS; split <;> rfl
@[simp] theorem Group.writeS_shape (g : Group) (d : BitVec 8) (x : SSlot) : (g.writeS d x).shape = g.shape := by
  unfold Group.writeS; split <;> rfl
@[simp] theorem Group.writeS_vregs (g : Group) (d : BitVec 8) (x : SSlot) : (g.writeS d x).vregs = g.vregs := by
  unfold Group.writeS; split <;> rfl
@[simp] theorem Group.writeS_squeue (g : Group) (d : BitVec 8) (x : SSlot) : (g.writeS d x).squeue = g.squeue := by
  unfold Group.writeS; split <;> rfl
@[simp] theorem Group.writeS_vqueue (g : Group) (d : BitVec 8) (x : SSlot) : (g.writeS d x).vqueue = g.vqueue := by
  unfold Group.writeS; split <;> rfl
@[simp] theorem Group.writeS_preds (g : Group) (d : BitVec 8) (x : SSlot) : (g.writeS d x).preds = g.preds := by
  unfold Group.writeS; split <;> rfl
@[simp] theorem Group.writeS_nest (g : Group) (d : BitVec 8) (x : SSlot) : (g.writeS d x).nest = g.nest := by
  unfold Group.writeS; split <;> rfl
@[simp] theorem Group.writeS_ns (g : Group) (d : BitVec 8) (x : SSlot) : (g.writeS d x).ns = g.ns := by
  unfold Group.writeS; split <;> rfl
@[simp] theorem Group.writeS_family (g : Group) (d : BitVec 8) (x : SSlot) : (g.writeS d x).family = g.family := by
  unfold Group.writeS; split <;> rfl
@[simp] theorem Group.writeS_user (g : Group) (d : BitVec 8) (x : SSlot) : (g.writeS d x).user = g.user := by
  unfold Group.writeS; split <;> rfl
@[simp] theorem Group.writeS_inTrap (g : Group) (d : BitVec 8) (x : SSlot) : (g.writeS d x).inTrap = g.inTrap := by
  unfold Group.writeS; split <;> rfl
@[simp] theorem Group.writeS_trapQueue (g : Group) (d : BitVec 8) (x : SSlot) : (g.writeS d x).trapQueue = g.trapQueue := by
  unfold Group.writeS; split <;> rfl
@[simp] theorem Group.writeS_record (g : Group) (d : BitVec 8) (x : SSlot) : (g.writeS d x).record = g.record := by
  unfold Group.writeS; split <;> rfl
@[simp] theorem Group.writeS_vtcmp (g : Group) (d : BitVec 8) (x : SSlot) : (g.writeS d x).vtcmp = g.vtcmp := by
  unfold Group.writeS; split <;> rfl
@[simp] theorem Group.writeS_stepcnt (g : Group) (d : BitVec 8) (x : SSlot) : (g.writeS d x).stepcnt = g.stepcnt := by
  unfold Group.writeS; split <;> rfl
@[simp] theorem Group.writeS_run (g : Group) (d : BitVec 8) (x : SSlot) : (g.writeS d x).run = g.run := by
  unfold Group.writeS; split <;> rfl
@[simp] theorem Group.writeS_held (g : Group) (d : BitVec 8) (x : SSlot) : (g.writeS d x).held = g.held := by
  unfold Group.writeS; split <;> rfl
@[simp] theorem Group.writeS_evStream (g : Group) (d : BitVec 8) (x : SSlot) : (g.writeS d x).evStream = g.evStream := by
  unfold Group.writeS; split <;> rfl
@[simp] theorem Group.writeS_evCollective (g : Group) (d : BitVec 8) (x : SSlot) : (g.writeS d x).evCollective = g.evCollective := by
  unfold Group.writeS; split <;> rfl
@[simp] theorem Group.writeS_evVtime (g : Group) (d : BitVec 8) (x : SSlot) : (g.writeS d x).evVtime = g.evVtime := by
  unfold Group.writeS; split <;> rfl
@[simp] theorem Group.writeS_evStop (g : Group) (d : BitVec 8) (x : SSlot) : (g.writeS d x).evStop = g.evStop := by
  unfold Group.writeS; split <;> rfl
@[simp] theorem Group.writeS_stepOnce (g : Group) (d : BitVec 8) (x : SSlot) : (g.writeS d x).stepOnce = g.stepOnce := by
  unfold Group.writeS; split <;> rfl
@[simp] theorem Group.writeS_rewriting (g : Group) (d : BitVec 8) (x : SSlot) : (g.writeS d x).rewriting = g.rewriting := by
  unfold Group.writeS; split <;> rfl
@[simp] theorem Group.writeS_begun (g : Group) (d : BitVec 8) (x : SSlot) : (g.writeS d x).begun = g.begun := by
  unfold Group.writeS; split <;> rfl
@[simp] theorem Group.writeS_stall (g : Group) (d : BitVec 8) (x : SSlot) : (g.writeS d x).stall = g.stall := by
  unfold Group.writeS; split <;> rfl
@[simp] theorem Group.writeS_mwaited (g : Group) (d : BitVec 8) (x : SSlot) : (g.writeS d x).mwaited = g.mwaited := by
  unfold Group.writeS; split <;> rfl
@[simp] theorem Group.writeS_due (g : Group) (d : BitVec 8) (x : SSlot) : (g.writeS d x).due = g.due := by
  unfold Group.writeS; split <;> rfl
@[simp] theorem Group.writeS_decoded (g : Group) (d : BitVec 8) (x : SSlot) : (g.writeS d x).decoded = g.decoded := by
  unfold Group.writeS; split <;> rfl

@[simp] theorem Group.writeV_slot (g : Group) (d : BitVec 8) (x : VSlot) : (g.writeV d x).slot = g.slot := by
  unfold Group.writeV; split <;> rfl
@[simp] theorem Group.writeV_pc (g : Group) (d : BitVec 8) (x : VSlot) : (g.writeV d x).pc = g.pc := by
  unfold Group.writeV; split <;> rfl
@[simp] theorem Group.writeV_mode (g : Group) (d : BitVec 8) (x : VSlot) : (g.writeV d x).mode = g.mode := by
  unfold Group.writeV; split <;> rfl
@[simp] theorem Group.writeV_shape (g : Group) (d : BitVec 8) (x : VSlot) : (g.writeV d x).shape = g.shape := by
  unfold Group.writeV; split <;> rfl
@[simp] theorem Group.writeV_sregs (g : Group) (d : BitVec 8) (x : VSlot) : (g.writeV d x).sregs = g.sregs := by
  unfold Group.writeV; split <;> rfl
@[simp] theorem Group.writeV_squeue (g : Group) (d : BitVec 8) (x : VSlot) : (g.writeV d x).squeue = g.squeue := by
  unfold Group.writeV; split <;> rfl
@[simp] theorem Group.writeV_vqueue (g : Group) (d : BitVec 8) (x : VSlot) : (g.writeV d x).vqueue = g.vqueue := by
  unfold Group.writeV; split <;> rfl
@[simp] theorem Group.writeV_preds (g : Group) (d : BitVec 8) (x : VSlot) : (g.writeV d x).preds = g.preds := by
  unfold Group.writeV; split <;> rfl
@[simp] theorem Group.writeV_nest (g : Group) (d : BitVec 8) (x : VSlot) : (g.writeV d x).nest = g.nest := by
  unfold Group.writeV; split <;> rfl
@[simp] theorem Group.writeV_ns (g : Group) (d : BitVec 8) (x : VSlot) : (g.writeV d x).ns = g.ns := by
  unfold Group.writeV; split <;> rfl
@[simp] theorem Group.writeV_family (g : Group) (d : BitVec 8) (x : VSlot) : (g.writeV d x).family = g.family := by
  unfold Group.writeV; split <;> rfl
@[simp] theorem Group.writeV_user (g : Group) (d : BitVec 8) (x : VSlot) : (g.writeV d x).user = g.user := by
  unfold Group.writeV; split <;> rfl
@[simp] theorem Group.writeV_inTrap (g : Group) (d : BitVec 8) (x : VSlot) : (g.writeV d x).inTrap = g.inTrap := by
  unfold Group.writeV; split <;> rfl
@[simp] theorem Group.writeV_trapQueue (g : Group) (d : BitVec 8) (x : VSlot) : (g.writeV d x).trapQueue = g.trapQueue := by
  unfold Group.writeV; split <;> rfl
@[simp] theorem Group.writeV_record (g : Group) (d : BitVec 8) (x : VSlot) : (g.writeV d x).record = g.record := by
  unfold Group.writeV; split <;> rfl
@[simp] theorem Group.writeV_vtcmp (g : Group) (d : BitVec 8) (x : VSlot) : (g.writeV d x).vtcmp = g.vtcmp := by
  unfold Group.writeV; split <;> rfl
@[simp] theorem Group.writeV_stepcnt (g : Group) (d : BitVec 8) (x : VSlot) : (g.writeV d x).stepcnt = g.stepcnt := by
  unfold Group.writeV; split <;> rfl
@[simp] theorem Group.writeV_run (g : Group) (d : BitVec 8) (x : VSlot) : (g.writeV d x).run = g.run := by
  unfold Group.writeV; split <;> rfl
@[simp] theorem Group.writeV_held (g : Group) (d : BitVec 8) (x : VSlot) : (g.writeV d x).held = g.held := by
  unfold Group.writeV; split <;> rfl
@[simp] theorem Group.writeV_evStream (g : Group) (d : BitVec 8) (x : VSlot) : (g.writeV d x).evStream = g.evStream := by
  unfold Group.writeV; split <;> rfl
@[simp] theorem Group.writeV_evCollective (g : Group) (d : BitVec 8) (x : VSlot) : (g.writeV d x).evCollective = g.evCollective := by
  unfold Group.writeV; split <;> rfl
@[simp] theorem Group.writeV_evVtime (g : Group) (d : BitVec 8) (x : VSlot) : (g.writeV d x).evVtime = g.evVtime := by
  unfold Group.writeV; split <;> rfl
@[simp] theorem Group.writeV_evStop (g : Group) (d : BitVec 8) (x : VSlot) : (g.writeV d x).evStop = g.evStop := by
  unfold Group.writeV; split <;> rfl
@[simp] theorem Group.writeV_stepOnce (g : Group) (d : BitVec 8) (x : VSlot) : (g.writeV d x).stepOnce = g.stepOnce := by
  unfold Group.writeV; split <;> rfl
@[simp] theorem Group.writeV_rewriting (g : Group) (d : BitVec 8) (x : VSlot) : (g.writeV d x).rewriting = g.rewriting := by
  unfold Group.writeV; split <;> rfl
@[simp] theorem Group.writeV_begun (g : Group) (d : BitVec 8) (x : VSlot) : (g.writeV d x).begun = g.begun := by
  unfold Group.writeV; split <;> rfl
@[simp] theorem Group.writeV_stall (g : Group) (d : BitVec 8) (x : VSlot) : (g.writeV d x).stall = g.stall := by
  unfold Group.writeV; split <;> rfl
@[simp] theorem Group.writeV_mwaited (g : Group) (d : BitVec 8) (x : VSlot) : (g.writeV d x).mwaited = g.mwaited := by
  unfold Group.writeV; split <;> rfl
@[simp] theorem Group.writeV_due (g : Group) (d : BitVec 8) (x : VSlot) : (g.writeV d x).due = g.due := by
  unfold Group.writeV; split <;> rfl
@[simp] theorem Group.writeV_decoded (g : Group) (d : BitVec 8) (x : VSlot) : (g.writeV d x).decoded = g.decoded := by
  unfold Group.writeV; split <;> rfl

@[simp] theorem Group.stepped_slot (g : Group) : (g.stepped).slot = g.slot := by
  unfold Group.stepped; split <;> rfl
@[simp] theorem Group.stepped_pc (g : Group) : (g.stepped).pc = g.pc := by
  unfold Group.stepped; split <;> rfl
@[simp] theorem Group.stepped_mode (g : Group) : (g.stepped).mode = g.mode := by
  unfold Group.stepped; split <;> rfl
@[simp] theorem Group.stepped_shape (g : Group) : (g.stepped).shape = g.shape := by
  unfold Group.stepped; split <;> rfl
@[simp] theorem Group.stepped_sregs (g : Group) : (g.stepped).sregs = g.sregs := by
  unfold Group.stepped; split <;> rfl
@[simp] theorem Group.stepped_vregs (g : Group) : (g.stepped).vregs = g.vregs := by
  unfold Group.stepped; split <;> rfl
@[simp] theorem Group.stepped_squeue (g : Group) : (g.stepped).squeue = g.squeue := by
  unfold Group.stepped; split <;> rfl
@[simp] theorem Group.stepped_vqueue (g : Group) : (g.stepped).vqueue = g.vqueue := by
  unfold Group.stepped; split <;> rfl
@[simp] theorem Group.stepped_preds (g : Group) : (g.stepped).preds = g.preds := by
  unfold Group.stepped; split <;> rfl
@[simp] theorem Group.stepped_nest (g : Group) : (g.stepped).nest = g.nest := by
  unfold Group.stepped; split <;> rfl
@[simp] theorem Group.stepped_ns (g : Group) : (g.stepped).ns = g.ns := by
  unfold Group.stepped; split <;> rfl
@[simp] theorem Group.stepped_family (g : Group) : (g.stepped).family = g.family := by
  unfold Group.stepped; split <;> rfl
@[simp] theorem Group.stepped_user (g : Group) : (g.stepped).user = g.user := by
  unfold Group.stepped; split <;> rfl
@[simp] theorem Group.stepped_inTrap (g : Group) : (g.stepped).inTrap = g.inTrap := by
  unfold Group.stepped; split <;> rfl
@[simp] theorem Group.stepped_trapQueue (g : Group) : (g.stepped).trapQueue = g.trapQueue := by
  unfold Group.stepped; split <;> rfl
@[simp] theorem Group.stepped_record (g : Group) : (g.stepped).record = g.record := by
  unfold Group.stepped; split <;> rfl
@[simp] theorem Group.stepped_vtcmp (g : Group) : (g.stepped).vtcmp = g.vtcmp := by
  unfold Group.stepped; split <;> rfl
@[simp] theorem Group.stepped_stepcnt (g : Group) : (g.stepped).stepcnt = g.stepcnt := by
  unfold Group.stepped; split <;> rfl
@[simp] theorem Group.stepped_held (g : Group) : (g.stepped).held = g.held := by
  unfold Group.stepped; split <;> rfl
@[simp] theorem Group.stepped_evStream (g : Group) : (g.stepped).evStream = g.evStream := by
  unfold Group.stepped; split <;> rfl
@[simp] theorem Group.stepped_evCollective (g : Group) : (g.stepped).evCollective = g.evCollective := by
  unfold Group.stepped; split <;> rfl
@[simp] theorem Group.stepped_evVtime (g : Group) : (g.stepped).evVtime = g.evVtime := by
  unfold Group.stepped; split <;> rfl
@[simp] theorem Group.stepped_evStop (g : Group) : (g.stepped).evStop = g.evStop := by
  unfold Group.stepped; split <;> rfl
@[simp] theorem Group.stepped_rewriting (g : Group) : (g.stepped).rewriting = g.rewriting := by
  unfold Group.stepped; split <;> rfl
@[simp] theorem Group.stepped_begun (g : Group) : (g.stepped).begun = g.begun := by
  unfold Group.stepped; split <;> rfl
@[simp] theorem Group.stepped_stall (g : Group) : (g.stepped).stall = g.stall := by
  unfold Group.stepped; split <;> rfl
@[simp] theorem Group.stepped_mwaited (g : Group) : (g.stepped).mwaited = g.mwaited := by
  unfold Group.stepped; split <;> rfl
@[simp] theorem Group.stepped_due (g : Group) : (g.stepped).due = g.due := by
  unfold Group.stepped; split <;> rfl
@[simp] theorem Group.stepped_decoded (g : Group) : (g.stepped).decoded = g.decoded := by
  unfold Group.stepped; split <;> rfl

@[simp] theorem Group.bounded_slot (g : Group) : (g.bounded).slot = g.slot := by
  unfold Group.bounded; split <;> simp
@[simp] theorem Group.bounded_pc (g : Group) : (g.bounded).pc = g.pc := by
  unfold Group.bounded; split <;> simp
@[simp] theorem Group.bounded_mode (g : Group) : (g.bounded).mode = g.mode := by
  unfold Group.bounded; split <;> simp
@[simp] theorem Group.bounded_shape (g : Group) : (g.bounded).shape = g.shape := by
  unfold Group.bounded; split <;> simp
@[simp] theorem Group.bounded_sregs (g : Group) : (g.bounded).sregs = g.sregs := by
  unfold Group.bounded; split <;> simp
@[simp] theorem Group.bounded_vregs (g : Group) : (g.bounded).vregs = g.vregs := by
  unfold Group.bounded; split <;> simp
@[simp] theorem Group.bounded_squeue (g : Group) : (g.bounded).squeue = g.squeue := by
  unfold Group.bounded; split <;> simp
@[simp] theorem Group.bounded_vqueue (g : Group) : (g.bounded).vqueue = g.vqueue := by
  unfold Group.bounded; split <;> simp
@[simp] theorem Group.bounded_preds (g : Group) : (g.bounded).preds = g.preds := by
  unfold Group.bounded; split <;> simp
@[simp] theorem Group.bounded_nest (g : Group) : (g.bounded).nest = g.nest := by
  unfold Group.bounded; split <;> simp
@[simp] theorem Group.bounded_ns (g : Group) : (g.bounded).ns = g.ns := by
  unfold Group.bounded; split <;> simp
@[simp] theorem Group.bounded_family (g : Group) : (g.bounded).family = g.family := by
  unfold Group.bounded; split <;> simp
@[simp] theorem Group.bounded_user (g : Group) : (g.bounded).user = g.user := by
  unfold Group.bounded; split <;> simp
@[simp] theorem Group.bounded_inTrap (g : Group) : (g.bounded).inTrap = g.inTrap := by
  unfold Group.bounded; split <;> simp
@[simp] theorem Group.bounded_trapQueue (g : Group) : (g.bounded).trapQueue = g.trapQueue := by
  unfold Group.bounded; split <;> simp
@[simp] theorem Group.bounded_record (g : Group) : (g.bounded).record = g.record := by
  unfold Group.bounded; split <;> simp
@[simp] theorem Group.bounded_vtcmp (g : Group) : (g.bounded).vtcmp = g.vtcmp := by
  unfold Group.bounded; split <;> simp
@[simp] theorem Group.bounded_stepcnt (g : Group) : (g.bounded).stepcnt = g.stepcnt := by
  unfold Group.bounded; split <;> simp
@[simp] theorem Group.bounded_held (g : Group) : (g.bounded).held = g.held := by
  unfold Group.bounded; split <;> simp
@[simp] theorem Group.bounded_evStream (g : Group) : (g.bounded).evStream = g.evStream := by
  unfold Group.bounded; split <;> simp
@[simp] theorem Group.bounded_evCollective (g : Group) : (g.bounded).evCollective = g.evCollective := by
  unfold Group.bounded; split <;> simp
@[simp] theorem Group.bounded_evVtime (g : Group) : (g.bounded).evVtime = g.evVtime := by
  unfold Group.bounded; split <;> simp
@[simp] theorem Group.bounded_evStop (g : Group) : (g.bounded).evStop = g.evStop := by
  unfold Group.bounded; split <;> simp
@[simp] theorem Group.bounded_rewriting (g : Group) : (g.bounded).rewriting = g.rewriting := by
  unfold Group.bounded; split <;> simp
@[simp] theorem Group.bounded_begun (g : Group) : (g.bounded).begun = g.begun := by
  unfold Group.bounded; split <;> simp
@[simp] theorem Group.bounded_stall (g : Group) : (g.bounded).stall = g.stall := by
  unfold Group.bounded; split <;> simp
@[simp] theorem Group.bounded_mwaited (g : Group) : (g.bounded).mwaited = g.mwaited := by
  unfold Group.bounded; split <;> simp
@[simp] theorem Group.bounded_decoded (g : Group) : (g.bounded).decoded = g.decoded := by
  unfold Group.bounded; split <;> simp

@[simp] theorem Group.advance_slot (g : Group) : (g.advance).slot = g.slot := by
  unfold Group.advance; split <;> simp
@[simp] theorem Group.advance_mode (g : Group) : (g.advance).mode = g.mode := by
  unfold Group.advance; split <;> simp
@[simp] theorem Group.advance_shape (g : Group) : (g.advance).shape = g.shape := by
  unfold Group.advance; split <;> simp
@[simp] theorem Group.advance_sregs (g : Group) : (g.advance).sregs = g.sregs := by
  unfold Group.advance; split <;> simp
@[simp] theorem Group.advance_vregs (g : Group) : (g.advance).vregs = g.vregs := by
  unfold Group.advance; split <;> simp
@[simp] theorem Group.advance_squeue (g : Group) : (g.advance).squeue = g.squeue := by
  unfold Group.advance; split <;> simp
@[simp] theorem Group.advance_vqueue (g : Group) : (g.advance).vqueue = g.vqueue := by
  unfold Group.advance; split <;> simp
@[simp] theorem Group.advance_preds (g : Group) : (g.advance).preds = g.preds := by
  unfold Group.advance; split <;> simp
@[simp] theorem Group.advance_nest (g : Group) : (g.advance).nest = g.nest := by
  unfold Group.advance; split <;> simp
@[simp] theorem Group.advance_ns (g : Group) : (g.advance).ns = g.ns := by
  unfold Group.advance; split <;> simp
@[simp] theorem Group.advance_family (g : Group) : (g.advance).family = g.family := by
  unfold Group.advance; split <;> simp
@[simp] theorem Group.advance_user (g : Group) : (g.advance).user = g.user := by
  unfold Group.advance; split <;> simp
@[simp] theorem Group.advance_inTrap (g : Group) : (g.advance).inTrap = g.inTrap := by
  unfold Group.advance; split <;> simp
@[simp] theorem Group.advance_trapQueue (g : Group) : (g.advance).trapQueue = g.trapQueue := by
  unfold Group.advance; split <;> simp
@[simp] theorem Group.advance_record (g : Group) : (g.advance).record = g.record := by
  unfold Group.advance; split <;> simp
@[simp] theorem Group.advance_vtcmp (g : Group) : (g.advance).vtcmp = g.vtcmp := by
  unfold Group.advance; split <;> simp
@[simp] theorem Group.advance_stepcnt (g : Group) : (g.advance).stepcnt = g.stepcnt := by
  unfold Group.advance; split <;> simp
@[simp] theorem Group.advance_evStream (g : Group) : (g.advance).evStream = g.evStream := by
  unfold Group.advance; split <;> simp
@[simp] theorem Group.advance_evCollective (g : Group) : (g.advance).evCollective = g.evCollective := by
  unfold Group.advance; split <;> simp
@[simp] theorem Group.advance_evVtime (g : Group) : (g.advance).evVtime = g.evVtime := by
  unfold Group.advance; split <;> simp
@[simp] theorem Group.advance_evStop (g : Group) : (g.advance).evStop = g.evStop := by
  unfold Group.advance; split <;> simp
@[simp] theorem Group.advance_mwaited (g : Group) : (g.advance).mwaited = g.mwaited := by
  unfold Group.advance; split <;> simp

@[simp] theorem Group.jump_slot (g : Group) (t : W64) : (g.jump t).slot = g.slot := by
  unfold Group.jump; simp
@[simp] theorem Group.jump_mode (g : Group) (t : W64) : (g.jump t).mode = g.mode := by
  unfold Group.jump; simp
@[simp] theorem Group.jump_shape (g : Group) (t : W64) : (g.jump t).shape = g.shape := by
  unfold Group.jump; simp
@[simp] theorem Group.jump_sregs (g : Group) (t : W64) : (g.jump t).sregs = g.sregs := by
  unfold Group.jump; simp
@[simp] theorem Group.jump_vregs (g : Group) (t : W64) : (g.jump t).vregs = g.vregs := by
  unfold Group.jump; simp
@[simp] theorem Group.jump_squeue (g : Group) (t : W64) : (g.jump t).squeue = g.squeue := by
  unfold Group.jump; simp
@[simp] theorem Group.jump_vqueue (g : Group) (t : W64) : (g.jump t).vqueue = g.vqueue := by
  unfold Group.jump; simp
@[simp] theorem Group.jump_preds (g : Group) (t : W64) : (g.jump t).preds = g.preds := by
  unfold Group.jump; simp
@[simp] theorem Group.jump_nest (g : Group) (t : W64) : (g.jump t).nest = g.nest := by
  unfold Group.jump; simp
@[simp] theorem Group.jump_ns (g : Group) (t : W64) : (g.jump t).ns = g.ns := by
  unfold Group.jump; simp
@[simp] theorem Group.jump_family (g : Group) (t : W64) : (g.jump t).family = g.family := by
  unfold Group.jump; simp
@[simp] theorem Group.jump_user (g : Group) (t : W64) : (g.jump t).user = g.user := by
  unfold Group.jump; simp
@[simp] theorem Group.jump_inTrap (g : Group) (t : W64) : (g.jump t).inTrap = g.inTrap := by
  unfold Group.jump; simp
@[simp] theorem Group.jump_trapQueue (g : Group) (t : W64) : (g.jump t).trapQueue = g.trapQueue := by
  unfold Group.jump; simp
@[simp] theorem Group.jump_record (g : Group) (t : W64) : (g.jump t).record = g.record := by
  unfold Group.jump; simp
@[simp] theorem Group.jump_vtcmp (g : Group) (t : W64) : (g.jump t).vtcmp = g.vtcmp := by
  unfold Group.jump; simp
@[simp] theorem Group.jump_stepcnt (g : Group) (t : W64) : (g.jump t).stepcnt = g.stepcnt := by
  unfold Group.jump; simp
@[simp] theorem Group.jump_evStream (g : Group) (t : W64) : (g.jump t).evStream = g.evStream := by
  unfold Group.jump; simp
@[simp] theorem Group.jump_evCollective (g : Group) (t : W64) : (g.jump t).evCollective = g.evCollective := by
  unfold Group.jump; simp
@[simp] theorem Group.jump_evVtime (g : Group) (t : W64) : (g.jump t).evVtime = g.evVtime := by
  unfold Group.jump; simp
@[simp] theorem Group.jump_evStop (g : Group) (t : W64) : (g.jump t).evStop = g.evStop := by
  unfold Group.jump; simp
@[simp] theorem Group.jump_mwaited (g : Group) (t : W64) : (g.jump t).mwaited = g.mwaited := by
  unfold Group.jump; simp

@[simp] theorem Group.landS_slot (g : Group) (id : Nat) (v : W64) : (g.landS id v).slot = g.slot := rfl
@[simp] theorem Group.landS_pc (g : Group) (id : Nat) (v : W64) : (g.landS id v).pc = g.pc := rfl
@[simp] theorem Group.landS_mode (g : Group) (id : Nat) (v : W64) : (g.landS id v).mode = g.mode := rfl
@[simp] theorem Group.landS_shape (g : Group) (id : Nat) (v : W64) : (g.landS id v).shape = g.shape := rfl
@[simp] theorem Group.landS_vregs (g : Group) (id : Nat) (v : W64) : (g.landS id v).vregs = g.vregs := rfl
@[simp] theorem Group.landS_vqueue (g : Group) (id : Nat) (v : W64) : (g.landS id v).vqueue = g.vqueue := rfl
@[simp] theorem Group.landS_preds (g : Group) (id : Nat) (v : W64) : (g.landS id v).preds = g.preds := rfl
@[simp] theorem Group.landS_nest (g : Group) (id : Nat) (v : W64) : (g.landS id v).nest = g.nest := rfl
@[simp] theorem Group.landS_ns (g : Group) (id : Nat) (v : W64) : (g.landS id v).ns = g.ns := rfl
@[simp] theorem Group.landS_family (g : Group) (id : Nat) (v : W64) : (g.landS id v).family = g.family := rfl
@[simp] theorem Group.landS_user (g : Group) (id : Nat) (v : W64) : (g.landS id v).user = g.user := rfl
@[simp] theorem Group.landS_inTrap (g : Group) (id : Nat) (v : W64) : (g.landS id v).inTrap = g.inTrap := rfl
@[simp] theorem Group.landS_record (g : Group) (id : Nat) (v : W64) : (g.landS id v).record = g.record := rfl
@[simp] theorem Group.landS_vtcmp (g : Group) (id : Nat) (v : W64) : (g.landS id v).vtcmp = g.vtcmp := rfl
@[simp] theorem Group.landS_stepcnt (g : Group) (id : Nat) (v : W64) : (g.landS id v).stepcnt = g.stepcnt := rfl
@[simp] theorem Group.landS_run (g : Group) (id : Nat) (v : W64) : (g.landS id v).run = g.run := rfl
@[simp] theorem Group.landS_held (g : Group) (id : Nat) (v : W64) : (g.landS id v).held = g.held := rfl
@[simp] theorem Group.landS_evStream (g : Group) (id : Nat) (v : W64) : (g.landS id v).evStream = g.evStream := rfl
@[simp] theorem Group.landS_evCollective (g : Group) (id : Nat) (v : W64) : (g.landS id v).evCollective = g.evCollective := rfl
@[simp] theorem Group.landS_evVtime (g : Group) (id : Nat) (v : W64) : (g.landS id v).evVtime = g.evVtime := rfl
@[simp] theorem Group.landS_evStop (g : Group) (id : Nat) (v : W64) : (g.landS id v).evStop = g.evStop := rfl
@[simp] theorem Group.landS_stepOnce (g : Group) (id : Nat) (v : W64) : (g.landS id v).stepOnce = g.stepOnce := rfl
@[simp] theorem Group.landS_rewriting (g : Group) (id : Nat) (v : W64) : (g.landS id v).rewriting = g.rewriting := rfl
@[simp] theorem Group.landS_begun (g : Group) (id : Nat) (v : W64) : (g.landS id v).begun = g.begun := rfl
@[simp] theorem Group.landS_stall (g : Group) (id : Nat) (v : W64) : (g.landS id v).stall = g.stall := rfl
@[simp] theorem Group.landS_mwaited (g : Group) (id : Nat) (v : W64) : (g.landS id v).mwaited = g.mwaited := rfl
@[simp] theorem Group.landS_due (g : Group) (id : Nat) (v : W64) : (g.landS id v).due = g.due := rfl
@[simp] theorem Group.landS_decoded (g : Group) (id : Nat) (v : W64) : (g.landS id v).decoded = g.decoded := rfl

@[simp] theorem Group.landV_slot (g : Group) (id : Nat) (m : List Bool) (v : Lanes) : (g.landV id m v).slot = g.slot := rfl
@[simp] theorem Group.landV_pc (g : Group) (id : Nat) (m : List Bool) (v : Lanes) : (g.landV id m v).pc = g.pc := rfl
@[simp] theorem Group.landV_mode (g : Group) (id : Nat) (m : List Bool) (v : Lanes) : (g.landV id m v).mode = g.mode := rfl
@[simp] theorem Group.landV_shape (g : Group) (id : Nat) (m : List Bool) (v : Lanes) : (g.landV id m v).shape = g.shape := rfl
@[simp] theorem Group.landV_sregs (g : Group) (id : Nat) (m : List Bool) (v : Lanes) : (g.landV id m v).sregs = g.sregs := rfl
@[simp] theorem Group.landV_squeue (g : Group) (id : Nat) (m : List Bool) (v : Lanes) : (g.landV id m v).squeue = g.squeue := rfl
@[simp] theorem Group.landV_preds (g : Group) (id : Nat) (m : List Bool) (v : Lanes) : (g.landV id m v).preds = g.preds := rfl
@[simp] theorem Group.landV_nest (g : Group) (id : Nat) (m : List Bool) (v : Lanes) : (g.landV id m v).nest = g.nest := rfl
@[simp] theorem Group.landV_ns (g : Group) (id : Nat) (m : List Bool) (v : Lanes) : (g.landV id m v).ns = g.ns := rfl
@[simp] theorem Group.landV_family (g : Group) (id : Nat) (m : List Bool) (v : Lanes) : (g.landV id m v).family = g.family := rfl
@[simp] theorem Group.landV_user (g : Group) (id : Nat) (m : List Bool) (v : Lanes) : (g.landV id m v).user = g.user := rfl
@[simp] theorem Group.landV_inTrap (g : Group) (id : Nat) (m : List Bool) (v : Lanes) : (g.landV id m v).inTrap = g.inTrap := rfl
@[simp] theorem Group.landV_trapQueue (g : Group) (id : Nat) (m : List Bool) (v : Lanes) : (g.landV id m v).trapQueue = g.trapQueue := rfl
@[simp] theorem Group.landV_record (g : Group) (id : Nat) (m : List Bool) (v : Lanes) : (g.landV id m v).record = g.record := rfl
@[simp] theorem Group.landV_vtcmp (g : Group) (id : Nat) (m : List Bool) (v : Lanes) : (g.landV id m v).vtcmp = g.vtcmp := rfl
@[simp] theorem Group.landV_stepcnt (g : Group) (id : Nat) (m : List Bool) (v : Lanes) : (g.landV id m v).stepcnt = g.stepcnt := rfl
@[simp] theorem Group.landV_run (g : Group) (id : Nat) (m : List Bool) (v : Lanes) : (g.landV id m v).run = g.run := rfl
@[simp] theorem Group.landV_held (g : Group) (id : Nat) (m : List Bool) (v : Lanes) : (g.landV id m v).held = g.held := rfl
@[simp] theorem Group.landV_evStream (g : Group) (id : Nat) (m : List Bool) (v : Lanes) : (g.landV id m v).evStream = g.evStream := rfl
@[simp] theorem Group.landV_evCollective (g : Group) (id : Nat) (m : List Bool) (v : Lanes) : (g.landV id m v).evCollective = g.evCollective := rfl
@[simp] theorem Group.landV_evVtime (g : Group) (id : Nat) (m : List Bool) (v : Lanes) : (g.landV id m v).evVtime = g.evVtime := rfl
@[simp] theorem Group.landV_evStop (g : Group) (id : Nat) (m : List Bool) (v : Lanes) : (g.landV id m v).evStop = g.evStop := rfl
@[simp] theorem Group.landV_stepOnce (g : Group) (id : Nat) (m : List Bool) (v : Lanes) : (g.landV id m v).stepOnce = g.stepOnce := rfl
@[simp] theorem Group.landV_rewriting (g : Group) (id : Nat) (m : List Bool) (v : Lanes) : (g.landV id m v).rewriting = g.rewriting := rfl
@[simp] theorem Group.landV_begun (g : Group) (id : Nat) (m : List Bool) (v : Lanes) : (g.landV id m v).begun = g.begun := rfl
@[simp] theorem Group.landV_stall (g : Group) (id : Nat) (m : List Bool) (v : Lanes) : (g.landV id m v).stall = g.stall := rfl
@[simp] theorem Group.landV_mwaited (g : Group) (id : Nat) (m : List Bool) (v : Lanes) : (g.landV id m v).mwaited = g.mwaited := rfl
@[simp] theorem Group.landV_due (g : Group) (id : Nat) (m : List Bool) (v : Lanes) : (g.landV id m v).due = g.due := rfl
@[simp] theorem Group.landV_decoded (g : Group) (id : Nat) (m : List Bool) (v : Lanes) : (g.landV id m v).decoded = g.decoded := rfl


/-! Looking up what was put. -/

theorem find_map_same {α : Type} (p : α → Bool) (f : α → α) (xs : List α) (x : α) (hx : xs.find? p = some x)
    (hf : ∀ a, p (f a) = p a) : (xs.map fun a => if p a then f a else a).find? p = some (f x) := by
  induction xs with
  | nil => simp at hx
  | cons a as ih =>
    by_cases h : p a
    · simp only [List.find?_cons, h] at hx
      cases hx
      simp [h, hf]
    · simp only [Bool.not_eq_true] at h
      simp only [List.find?_cons, h] at hx
      simp [h, ih hx]

theorem State.team?_mapTeam (s : State) (id : TeamId) (f : Team → Team) (t : Team) (h : s.team? id = some t)
    (hf : ∀ t, (f t).id = t.id) : (s.mapTeam id f).team? id = some (f t) := by
  have := find_map_same (fun t : Team => decide (t.id = id)) f s.teams t h (by simp [hf])
  simpa [State.team?, State.mapTeam] using this

theorem find_map_other {α : Type} (p q : α → Bool) (f : α → α) (xs : List α) (hf : ∀ a, p a = true → q a = false ∧ q (f a) = false) :
    (xs.map fun a => if p a then f a else a).find? q = xs.find? q := by
  induction xs with
  | nil => rfl
  | cons a as ih =>
    by_cases h : p a = true
    · simp [h, hf a h, ih]
    · simp only [List.map_cons, List.find?_cons, h, ih]
      simp

theorem State.team?_mapTeam_other (s : State) (id id' : TeamId) (f : Team → Team) (hf : ∀ t, (f t).id = t.id)
    (h : id' ≠ id) : (s.mapTeam id f).team? id' = s.team? id' := by
  have := find_map_other (fun t : Team => decide (t.id = id)) (fun t => decide (t.id = id')) f s.teams (by
    intro t ht
    simp only [decide_eq_true_eq] at ht
    simp [hf, ht, Ne.symm h])
  simpa [State.team?, State.mapTeam] using this

@[simp] theorem Team.setGroup_id (t : Team) (i : Nat) (g : Group) : (t.setGroup i g).id = t.id := rfl

theorem State.group?_setGroup (s : State) (id : GroupId) (g g' : Group) (h : s.group? id = some g) :
    (s.setGroup id g').group? id = some g' := by
  unfold State.group? at h ⊢
  cases ht : s.team? id.team with
  | none => simp [ht] at h
  | some t =>
    have := s.team?_mapTeam id.team (fun t => t.setGroup id.group g') t ht (fun _ => rfl)
    simp only [ht, Option.bind_some] at h
    unfold State.setGroup
    rw [this]
    simp only [Option.bind_some, Team.setGroup]
    rw [List.getElem?_set_self (List.getElem?_eq_some_iff.mp h).1]

theorem State.group?_setGroup_other (s : State) (id id' : GroupId) (g : Group) (h : id' ≠ id) :
    (s.setGroup id g).group? id' = s.group? id' := by
  unfold State.group? State.setGroup
  by_cases ht : id'.team = id.team
  · have hg : id'.group ≠ id.group := fun e => h (by cases id; cases id'; simp_all)
    rw [ht]
    cases hs : s.team? id.team with
    | none =>
      have : (s.mapTeam id.team fun t => t.setGroup id.group g).team? id.team = none := by
        unfold State.team? State.mapTeam at *
        simp only [List.find?_eq_none] at hs ⊢
        intro t ht
        simp only [List.mem_map] at ht
        obtain ⟨u, hu, rfl⟩ := ht
        have := hs u hu
        split <;> simp_all
      simp [this]
    | some t =>
      rw [s.team?_mapTeam id.team (fun t => t.setGroup id.group g) t hs (fun _ => rfl)]
      simp [Team.setGroup, List.getElem?_set_ne (Ne.symm hg)]
  · rw [s.team?_mapTeam_other id.team id'.team (fun t => t.setGroup id.group g) (fun _ => rfl) ht]

theorem State.launch?_setGroup (s : State) (id : GroupId) (g : Group) (n : Nat) :
    (s.setGroup id g).launch? n = s.launch? n := rfl

end Sys2Proof.Machine
end

