-- ==== Sys2Proof/Laws/Issue.lean ====
section
/-! SUPPORT. The issue of an instruction of a group: what it asks of its fields, and everything that it can do. -/

namespace Sys2Proof.Machine

/-- What a field asks for is there: its code is legal, its constant has a value, what it names is full and the memory order
does not keep the instruction waiting. -/
def Need.met (c : Ctx) (n : Need) : Bool := (n.illegal c).isNone && !n.untyped c && (n.empty? c).isNone && !n.waits c

theorem findSome_none {α β : Type} (f : α → Option β) (xs : List α) (h : ∀ x ∈ xs, f x = none) : xs.findSome? f = none := by
  simpa [List.findSome?_eq_none_iff] using h

/-- The gate opens when every field is met. -/
theorem gate_go (w : W32) (c : Ctx) (needs : List Need) (ht : c.group.inTrap = true → trapLegal w = true)
    (h : ∀ n ∈ needs, n.met c = true) : gate w c needs = .go := by
  have h1 : needs.findSome? (Need.illegal c) = none := findSome_none _ _ fun n hn => by
    have := h n hn
    simp only [Need.met, Bool.and_eq_true, Option.isNone_iff_eq_none] at this
    exact this.1.1.1
  have h2 : needs.any (Need.untyped c) = false := by
    rw [List.any_eq_false]
    intro n hn
    have := h n hn
    simp only [Need.met, Bool.and_eq_true, Bool.not_eq_true'] at this
    simp [this.1.1.2]
  have h3 : needs.filterMap (Need.empty? c) = [] := by
    rw [List.filterMap_eq_nil_iff]
    intro n hn
    have := h n hn
    simp only [Need.met, Bool.and_eq_true, Option.isNone_iff_eq_none] at this
    exact this.1.2
  have h5 : needs.any (Need.waits c) = false := by
    rw [List.any_eq_false]
    intro n hn
    have := h n hn
    simp only [Need.met, Bool.and_eq_true, Bool.not_eq_true'] at this
    simp [this.2]
  have h4 : (c.group.inTrap && !trapLegal w) = false := by
    cases hc : c.group.inTrap
    · rfl
    · simp [ht hc]
  simp [gate, h1, h2, h3, h4, h5]

/-- An instruction whose fields are all met has its effect. -/
theorem issue_go (i : Instr) (s : State) (needs : List Need) (body : Ctx → Res) (c : Ctx) (hcur : s.cur = .group c.id)
    (hctx : s.ctx? c.id = some c) (ht : c.group.inTrap = true → trapLegal (wordOf i) = true)
    (h : ∀ n ∈ needs, n.met c = true) : issue i s needs body = body c := by
  simp only [issue, hcur, hctx, gate_go (wordOf i) c needs ht h]

/-- Everything that issuing can do: nothing, a hold that the group remembers, the trap of a check, a stream fault, or the
effect. -/
theorem issue_cases (i : Instr) (s : State) (needs : List Need) (body : Ctx → Res) :
    issue i s needs body = .next s ∨
    (∃ id c x, s.cur = .group id ∧ s.ctx? id = some c ∧ gate (wordOf i) c needs ≠ .go ∧ issue i s needs body = c.held x) ∨
    (∃ id c t, s.cur = .group id ∧ s.ctx? id = some c ∧ gate (wordOf i) c needs = .trap t ∧
      issue i s needs body = .next (s.deliver id t false (wordOf i))) ∨
    (∃ t, s.cur = .sequencer t ∧ issue i s needs body = .next (s.streamStop t 0)) ∨
    ∃ id c, s.cur = .group id ∧ s.ctx? id = some c ∧ gate (wordOf i) c needs = .go ∧ issue i s needs body = body c := by
  unfold issue
  cases hcur : s.cur with
  | none => exact .inl rfl
  | sequencer t => exact .inr (.inr (.inr (.inl ⟨t, rfl, rfl⟩)))
  | group id =>
    cases hctx : s.ctx? id with
    | none => exact .inl (by simp [hctx])
    | some c =>
      cases hg : gate (wordOf i) c needs with
      | go => exact .inr (.inr (.inr (.inr ⟨id, c, rfl, hctx, hg, by simp [hctx, hg]⟩)))
      | trap t => exact .inr (.inr (.inl ⟨id, c, t, rfl, hctx, hg, by simp [hctx, hg]⟩))
      | hold ps => exact .inr (.inl ⟨id, c, .operands ps, rfl, hctx, by simp [hg], by simp [hctx, hg]⟩)
      | wait => exact .inr (.inl ⟨id, c, .waits, rfl, hctx, by simp [hg], by simp [hctx, hg]⟩)

/-- The context of a group holds what the state holds. -/
theorem State.ctx?_spec (s : State) (id : GroupId) (c : Ctx) (h : s.ctx? id = some c) :
    c.s = s ∧ c.id = id ∧ s.team? id.team = some c.team ∧ s.launch? id.team.launch = some c.launch ∧
    s.group? id = some c.group ∧ c.team.place = .resident c.core := by
  unfold State.ctx? at h
  cases ht : s.team? id.team with
  | none => simp [ht] at h
  | some t =>
    cases hl : s.launch? id.team.launch with
    | none => simp [ht, hl] at h
    | some l =>
      cases hg : t.groups[id.group]? with
      | none => simp [ht, hl, hg] at h
      | some g =>
        cases hc : t.core? with
        | none => simp [ht, hl, hg, hc] at h
        | some k =>
          simp only [ht, hl, hg, hc, Option.some.injEq] at h
          subst h
          refine ⟨rfl, rfl, rfl, rfl, ?_, ?_⟩
          · simp [State.group?, ht, hg]
          · unfold Team.core? at hc
            cases hp : t.place <;> simp_all

end Sys2Proof.Machine
end

