-- ==== Sys2Proof/Laws/Memory.lean ====
section
/-! SUPPORT. Byte stores: the canonical form, that every operation keeps it, and reading after writing. -/

namespace Sys2Proof.Machine

/-- The canonical form one entry at a time. -/
theorem Memory.wf_cons (c : Host.Cell) (m : Memory) :
    Memory.wf (c :: m) = true ↔ c.2 ≠ 0 ∧ (∀ d ∈ m, c.1 < d.1) ∧ Memory.wf m = true := by
  induction m generalizing c with
  | nil => obtain ⟨a, v⟩ := c; simp [Memory.wf]
  | cons d m ih =>
    obtain ⟨a, v⟩ := c
    obtain ⟨b, w⟩ := d
    simp only [Memory.wf, Bool.and_eq_true, bne_iff_ne, decide_eq_true_eq, List.mem_cons, forall_eq_or_imp]
    constructor
    · rintro ⟨⟨hv, hab⟩, hm⟩
      exact ⟨hv, ⟨hab, fun d hd => lt_trans hab (((ih (b, w)).mp hm).2.1 d hd)⟩, hm⟩
    · rintro ⟨hv, ⟨hab, -⟩, hm⟩
      exact ⟨⟨hv, hab⟩, hm⟩

theorem Memory.wf_nil : Memory.wf [] = true := rfl

/-- The canonical form is rising addresses and no zero byte. -/
theorem Memory.wf_iff (m : Memory) :
    Memory.wf m = true ↔ m.Pairwise (fun c d => c.1 < d.1) ∧ ∀ c ∈ m, c.2 ≠ 0 := by
  induction m with
  | nil => simp [Memory.wf]
  | cons c m ih =>
    rw [Memory.wf_cons, List.pairwise_cons, ih]
    simp only [List.mem_cons, forall_eq_or_imp]
    tauto

theorem Memory.wf_filter (p : Host.Cell → Bool) (m : Memory) (h : Memory.wf m = true) : Memory.wf (m.filter p) = true := by
  rw [Memory.wf_iff] at h ⊢
  exact ⟨h.1.filter _, fun c hc => h.2 c (List.mem_of_mem_filter hc)⟩

theorem Memory.mem_write (m : Memory) (a : Nat) (v : Byte) (d : Host.Cell) (hd : d ∈ m.write a v) :
    d = (a, v) ∨ d ∈ m := by
  induction m with
  | nil => simp only [Memory.write] at hd; split at hd <;> simp_all
  | cons c m ih =>
    obtain ⟨b, w⟩ := c
    simp only [Memory.write] at hd
    split at hd
    · split at hd
      · exact .inr hd
      · simpa using hd
    · split at hd
      · split at hd
        · exact .inr (List.mem_cons_of_mem _ hd)
        · rcases List.mem_cons.mp hd with h | h
          · exact .inl h
          · exact .inr (List.mem_cons_of_mem _ h)
      · rcases List.mem_cons.mp hd with h | h
        · exact .inr (h ▸ List.mem_cons_self)
        · rcases ih h with h | h
          · exact .inl h
          · exact .inr (List.mem_cons_of_mem _ h)

theorem Memory.wf_write (m : Memory) (a : Nat) (v : Byte) (h : Memory.wf m = true) : Memory.wf (m.write a v) = true := by
  induction m with
  | nil => simp only [Memory.write]; split <;> simp_all [Memory.wf]
  | cons c m ih =>
    obtain ⟨b, w⟩ := c
    obtain ⟨hw, hlt, hm⟩ := (Memory.wf_cons (b, w) m).mp h
    simp only [Memory.write]
    split
    · rename_i hab
      split
      · exact h
      · rename_i hv
        refine (Memory.wf_cons _ _).mpr ⟨hv, fun d hd => ?_, h⟩
        rcases List.mem_cons.mp hd with rfl | hd
        · exact hab
        · exact lt_trans hab (hlt d hd)
    · split
      · rename_i hab
        split
        · exact hm
        · rename_i hv
          exact (Memory.wf_cons _ _).mpr ⟨hv, fun d hd => hab ▸ hlt d hd, hm⟩
      · refine (Memory.wf_cons _ _).mpr ⟨hw, fun d hd => ?_, ih hm⟩
        rcases Memory.mem_write m a v d hd with rfl | hd
        · show b < a
          omega
        · exact hlt d hd

theorem Memory.read_of_lt (m : Memory) (a : Nat) (h : ∀ d ∈ m, a < d.1) : m.read a = 0 := by
  cases m with
  | nil => rfl
  | cons c m =>
    obtain ⟨b, w⟩ := c
    have : a < b := h (b, w) List.mem_cons_self
    simp [Memory.read, this, Nat.ne_of_lt this]

theorem Memory.read_write_same (m : Memory) (a : Nat) (v : Byte) (h : Memory.wf m = true) : (m.write a v).read a = v := by
  induction m with
  | nil => simp only [Memory.write]; split <;> simp_all [Memory.read]
  | cons c m ih =>
    obtain ⟨b, w⟩ := c
    obtain ⟨-, hlt, hm⟩ := (Memory.wf_cons (b, w) m).mp h
    simp only [Memory.write]
    split
    · rename_i hab
      split
      · simp_all [Memory.read, Nat.ne_of_lt hab]
      · simp [Memory.read]
    · split
      · rename_i hab
        split
        · rename_i hv
          rw [Memory.read_of_lt m a (fun d hd => hab ▸ hlt d hd), hv]
        · simp [Memory.read]
      · rename_i h1 h2
        simp only [Memory.read, h2, if_false, h1]
        exact ih hm

theorem Memory.read_write_other (m : Memory) (a a' : Nat) (v : Byte) (hne : a' ≠ a) (h : Memory.wf m = true) :
    (m.write a v).read a' = m.read a' := by
  induction m with
  | nil =>
    simp only [Memory.write]
    split
    · rfl
    · simp [Memory.read, hne]
  | cons c m ih =>
    obtain ⟨b, w⟩ := c
    obtain ⟨-, hlt, hm⟩ := (Memory.wf_cons (b, w) m).mp h
    simp only [Memory.write]
    split
    · rename_i hab
      split
      · rfl
      · simp only [Memory.read, hne, if_false]
        split
        · rename_i h1
          have h2 : a' ≠ b := by omega
          have h3 : a' < b := by omega
          simp [h2, h3]
        · rfl
    · split
      · rename_i hab
        subst hab
        split
        · simp only [Memory.read, hne, if_false]
          split
          · rename_i h1
            exact Memory.read_of_lt m a' (fun d hd => lt_trans h1 (hlt d hd))
          · rfl
        · simp [Memory.read, hne]
      · simp only [Memory.read]
        split
        · rfl
        · split
          · rfl
          · exact ih hm

theorem Memory.wf_writeBytes (bs : List Byte) : ∀ (m : Memory) (a : Nat), Memory.wf m = true →
    Memory.wf (m.writeBytes a bs) = true := by
  induction bs with
  | nil => intro m a h; exact h
  | cons b bs ih => intro m a h; exact ih _ _ (Memory.wf_write m a b h)

theorem Memory.read_writeBytes_other (bs : List Byte) : ∀ (m : Memory) (a a' : Nat), Memory.wf m = true →
    (a' < a ∨ a + bs.length ≤ a') → (m.writeBytes a bs).read a' = m.read a' := by
  induction bs with
  | nil => intro m a a' _ _; rfl
  | cons b bs ih =>
    intro m a a' h hr
    simp only [List.length_cons] at hr
    show ((m.write a b).writeBytes (a + 1) bs).read a' = m.read a'
    rw [ih _ _ _ (Memory.wf_write m a b h) (by omega), Memory.read_write_other m a a' b (by omega) h]

theorem Memory.wf_writeLe (m : Memory) (a n v : Nat) (h : Memory.wf m = true) : Memory.wf (m.writeLe a n v) = true :=
  Memory.wf_writeBytes _ m a h

theorem leBytes_length (n : Nat) : ∀ v, (leBytes n v).length = n := by
  induction n with
  | zero => intro v; rfl
  | succ n ih => intro v; simp [leBytes, ih]

theorem Memory.read_writeLe_other (m : Memory) (a a' n v : Nat) (h : Memory.wf m = true) (hr : a' < a ∨ a + n ≤ a') :
    (m.writeLe a n v).read a' = m.read a' :=
  Memory.read_writeBytes_other _ m a a' h (by rw [leBytes_length]; exact hr)

theorem Memory.wf_clear (m : Memory) (a n : Nat) (h : Memory.wf m = true) : Memory.wf (m.clear a n) = true :=
  Memory.wf_filter _ m h

theorem Memory.wf_slice (m : Memory) (a n : Nat) (h : Memory.wf m = true) : Memory.wf (m.slice a n) = true :=
  Memory.wf_filter _ m h

theorem Memory.wf_foldl {α : Type} (f : Memory → α → Memory) (hf : ∀ m x, Memory.wf m = true → Memory.wf (f m x) = true)
    (xs : List α) : ∀ m, Memory.wf m = true → Memory.wf (xs.foldl f m) = true := by
  induction xs with
  | nil => intro m h; exact h
  | cons x xs ih => intro m h; exact ih _ (hf m x h)

theorem Memory.wf_writeCells (m : Memory) (cs : List Host.Cell) (h : Memory.wf m = true) : Memory.wf (m.writeCells cs) = true :=
  Memory.wf_foldl _ (fun m c h => Memory.wf_write m c.1 c.2 h) cs m h

theorem Memory.wf_move (m : Memory) (old new size : Nat) (h : Memory.wf m = true) :
    Memory.wf (m.move old new size) = true :=
  Memory.wf_foldl _ (fun m c h => Memory.wf_write m (c.1 - old + new) c.2 h) _ _ (Memory.wf_clear m new size h)

theorem Memory.wf_markEntry (m : Memory) (e : Nat) (w : Bool) (h : Memory.wf m = true) : Memory.wf (markEntry m e w) = true :=
  Memory.wf_writeLe _ _ _ _ h

end Sys2Proof.Machine
end

