-- ==== Sys2Proof/Laws/PerInstr.lean ====
section
/-! SUPPORT. The families of statements made per instruction. RoundTrip: the decoder reads from the encoder's word the
instruction it was made from, every operand at every value (spec 06 R125-R127, R142). -/

namespace Sys2Proof.Laws.RoundTrip
open Sys2Proof

/-- The word of a well-formed instruction decodes to it. -/
def Statement (i : Instr) : Prop := ∀ w, i.wellFormed = true → encode i = some w → decode w = .ok i

theorem no_word {i : Instr} (h : encode i = none) : Statement i := fun w _ hw => by rw [h] at hw; cases hw

theorem toNat_app {n m : Nat} (x : BitVec n) (y : BitVec m) : (x ++ y).toNat = x.toNat * 2 ^ m + y.toNat := by
  rw [BitVec.toNat_append, ← Nat.shiftLeft_add_eq_or_of_lt y.isLt, Nat.shiftLeft_eq]

theorem fld_eq (w : W32) (lo n : Nat) (x : BitVec n) (h : w.toNat / 2 ^ lo % 2 ^ n = x.toNat) : fld w lo n = x := by
  apply BitVec.eq_of_toNat_eq
  simp only [fld, BitVec.extractLsb'_toNat, Nat.shiftRight_eq_div_pow]
  exact h

/-- The mask of a run of bits. -/
def seg (lo n : Nat) : W32 := BitVec.ofNat 32 ((2 ^ n - 1) * 2 ^ lo)

theorem seg_bit (lo n i : Nat) (hi : i < 32) : (seg lo n).getLsbD i = (decide (lo ≤ i) && decide (i - lo < n)) := by
  rw [seg, BitVec.getLsbD_ofNat, Nat.testBit_mul_two_pow, Nat.testBit_two_pow_sub_one]
  simp [hi]

theorem and_seg (w : W32) (lo n : Nat) (h : fld w lo n = 0) : w &&& seg lo n = 0 := by
  apply BitVec.eq_of_getLsbD_eq
  intro i hi
  have hf : ∀ j, (fld w lo n).getLsbD j = false := by intro j; rw [h]; simp
  simp only [BitVec.getLsbD_and, seg_bit _ _ _ hi]
  by_cases h1 : lo ≤ i
  · by_cases h2 : i - lo < n
    · have := hf (i - lo)
      simp only [fld, BitVec.getLsbD_extractLsb', h2, decide_true, Bool.true_and] at this
      have e : lo + (i - lo) = i := by omega
      rw [e] at this
      simp [this]
    · simp [h2]
  · simp [h1]

theorem and_segs (w m m' : W32) (h : w &&& m = 0) (h' : w &&& m' = 0) : w &&& (m ||| m') = 0 := by
  rw [BitVec.and_or_distrib_left, h, h']; rfl

theorem partsf8f8f8 (w : W32) (op : BitVec 8) (x0 : BitVec 8) (x1 : BitVec 8) (x2 : BitVec 8) (h : op ++ x0 ++ x1 ++ x2 = w) :
    fld w 28 4 = op.extractLsb' 4 4 ∧ opcodeOf w = op ∧ fld w 16 8 = x0 ∧ fld w 8 8 = x1 ∧ fld w 0 8 = x2 := by
  have hn : w.toNat = (((op.toNat * 2 ^ 8 + x0.toNat) * 2 ^ 8 + x1.toNat) * 2 ^ 8 + x2.toNat) := by
    rw [← h]; simp only [toNat_app]
  have ho := op.isLt
  have hx0 := x0.isLt
  have hx1 := x1.isLt
  have hx2 := x2.isLt
  refine ⟨fld_eq w _ _ _ (by rw [hn, BitVec.extractLsb'_toNat, Nat.shiftRight_eq_div_pow]; omega), fld_eq w _ _ _ (by rw [hn]; omega), fld_eq w _ _ _ (by rw [hn]; omega), fld_eq w _ _ _ (by rw [hn]; omega), fld_eq w _ _ _ (by rw [hn]; omega)⟩

theorem partsf8f16 (w : W32) (op : BitVec 8) (x0 : BitVec 8) (x1 : BitVec 16) (h : op ++ x0 ++ x1 = w) :
    fld w 28 4 = op.extractLsb' 4 4 ∧ opcodeOf w = op ∧ fld w 16 8 = x0 ∧ fld w 0 16 = x1 := by
  have hn : w.toNat = ((op.toNat * 2 ^ 8 + x0.toNat) * 2 ^ 16 + x1.toNat) := by
    rw [← h]; simp only [toNat_app]
  have ho := op.isLt
  have hx0 := x0.isLt
  have hx1 := x1.isLt
  refine ⟨fld_eq w _ _ _ (by rw [hn, BitVec.extractLsb'_toNat, Nat.shiftRight_eq_div_pow]; omega), fld_eq w _ _ _ (by rw [hn]; omega), fld_eq w _ _ _ (by rw [hn]; omega), fld_eq w _ _ _ (by rw [hn]; omega)⟩

theorem partsz8f16 (w : W32) (op : BitVec 8) (x0 : BitVec 16) (h : op ++ 0#8 ++ x0 = w) :
    fld w 28 4 = op.extractLsb' 4 4 ∧ opcodeOf w = op ∧ fld w 0 16 = x0 ∧ w &&& 0xFF0000#32 = 0 := by
  have hn : w.toNat = ((op.toNat * 2 ^ 8 + 0) * 2 ^ 16 + x0.toNat) := by
    rw [← h]; simp only [toNat_app]; rfl
  have ho := op.isLt
  have hx0 := x0.isLt
  refine ⟨fld_eq w _ _ _ (by rw [hn, BitVec.extractLsb'_toNat, Nat.shiftRight_eq_div_pow]; omega), fld_eq w _ _ _ (by rw [hn]; omega), fld_eq w _ _ _ (by rw [hn]; omega),
    and_seg w 16 8 (fld_eq w _ _ _ (by rw [hn]; show _ = 0; omega))⟩

theorem partsf8z16 (w : W32) (op : BitVec 8) (x0 : BitVec 8) (h : op ++ x0 ++ 0#16 = w) :
    fld w 28 4 = op.extractLsb' 4 4 ∧ opcodeOf w = op ∧ fld w 16 8 = x0 ∧ w &&& 0x00FFFF#32 = 0 := by
  have hn : w.toNat = ((op.toNat * 2 ^ 8 + x0.toNat) * 2 ^ 16 + 0) := by
    rw [← h]; simp only [toNat_app]; rfl
  have ho := op.isLt
  have hx0 := x0.isLt
  refine ⟨fld_eq w _ _ _ (by rw [hn, BitVec.extractLsb'_toNat, Nat.shiftRight_eq_div_pow]; omega), fld_eq w _ _ _ (by rw [hn]; omega), fld_eq w _ _ _ (by rw [hn]; omega),
    and_seg w 0 16 (fld_eq w _ _ _ (by rw [hn]; show _ = 0; omega))⟩

theorem partsf8f5f3f2f6 (w : W32) (op : BitVec 8) (x0 : BitVec 8) (x1 : BitVec 5) (x2 : BitVec 3) (x3 : BitVec 2) (x4 : BitVec 6) (h : op ++ x0 ++ x1 ++ x2 ++ x3 ++ x4 = w) :
    fld w 28 4 = op.extractLsb' 4 4 ∧ opcodeOf w = op ∧ fld w 16 8 = x0 ∧ fld w 11 5 = x1 ∧ fld w 8 3 = x2 ∧ fld w 6 2 = x3 ∧ fld w 0 6 = x4 := by
  have hn : w.toNat = (((((op.toNat * 2 ^ 8 + x0.toNat) * 2 ^ 5 + x1.toNat) * 2 ^ 3 + x2.toNat) * 2 ^ 2 + x3.toNat) * 2 ^ 6 + x4.toNat) := by
    rw [← h]; simp only [toNat_app]
  have ho := op.isLt
  have hx0 := x0.isLt
  have hx1 := x1.isLt
  have hx2 := x2.isLt
  have hx3 := x3.isLt
  have hx4 := x4.isLt
  refine ⟨fld_eq w _ _ _ (by rw [hn, BitVec.extractLsb'_toNat, Nat.shiftRight_eq_div_pow]; omega), fld_eq w _ _ _ (by rw [hn]; omega), fld_eq w _ _ _ (by rw [hn]; omega), fld_eq w _ _ _ (by rw [hn]; omega), fld_eq w _ _ _ (by rw [hn]; omega), fld_eq w _ _ _ (by rw [hn]; omega), fld_eq w _ _ _ (by rw [hn]; omega)⟩

theorem partsf8f8z8 (w : W32) (op : BitVec 8) (x0 : BitVec 8) (x1 : BitVec 8) (h : op ++ x0 ++ x1 ++ 0#8 = w) :
    fld w 28 4 = op.extractLsb' 4 4 ∧ opcodeOf w = op ∧ fld w 16 8 = x0 ∧ fld w 8 8 = x1 ∧ w &&& 0x0000FF#32 = 0 := by
  have hn : w.toNat = (((op.toNat * 2 ^ 8 + x0.toNat) * 2 ^ 8 + x1.toNat) * 2 ^ 8 + 0) := by
    rw [← h]; simp only [toNat_app]; rfl
  have ho := op.isLt
  have hx0 := x0.isLt
  have hx1 := x1.isLt
  refine ⟨fld_eq w _ _ _ (by rw [hn, BitVec.extractLsb'_toNat, Nat.shiftRight_eq_div_pow]; omega), fld_eq w _ _ _ (by rw [hn]; omega), fld_eq w _ _ _ (by rw [hn]; omega), fld_eq w _ _ _ (by rw [hn]; omega),
    and_seg w 0 8 (fld_eq w _ _ _ (by rw [hn]; show _ = 0; omega))⟩

theorem partsz8f8f8 (w : W32) (op : BitVec 8) (x0 : BitVec 8) (x1 : BitVec 8) (h : op ++ 0#8 ++ x0 ++ x1 = w) :
    fld w 28 4 = op.extractLsb' 4 4 ∧ opcodeOf w = op ∧ fld w 8 8 = x0 ∧ fld w 0 8 = x1 ∧ w &&& 0xFF0000#32 = 0 := by
  have hn : w.toNat = (((op.toNat * 2 ^ 8 + 0) * 2 ^ 8 + x0.toNat) * 2 ^ 8 + x1.toNat) := by
    rw [← h]; simp only [toNat_app]; rfl
  have ho := op.isLt
  have hx0 := x0.isLt
  have hx1 := x1.isLt
  refine ⟨fld_eq w _ _ _ (by rw [hn, BitVec.extractLsb'_toNat, Nat.shiftRight_eq_div_pow]; omega), fld_eq w _ _ _ (by rw [hn]; omega), fld_eq w _ _ _ (by rw [hn]; omega), fld_eq w _ _ _ (by rw [hn]; omega),
    and_seg w 16 8 (fld_eq w _ _ _ (by rw [hn]; show _ = 0; omega))⟩

theorem partsf24 (w : W32) (op : BitVec 8) (x0 : BitVec 24) (h : op ++ x0 = w) :
    fld w 28 4 = op.extractLsb' 4 4 ∧ opcodeOf w = op ∧ fld w 0 24 = x0 := by
  have hn : w.toNat = (op.toNat * 2 ^ 24 + x0.toNat) := by
    rw [← h]; simp only [toNat_app]
  have ho := op.isLt
  have hx0 := x0.isLt
  refine ⟨fld_eq w _ _ _ (by rw [hn, BitVec.extractLsb'_toNat, Nat.shiftRight_eq_div_pow]; omega), fld_eq w _ _ _ (by rw [hn]; omega), fld_eq w _ _ _ (by rw [hn]; omega)⟩

theorem partsz8f8z8 (w : W32) (op : BitVec 8) (x0 : BitVec 8) (h : op ++ 0#8 ++ x0 ++ 0#8 = w) :
    fld w 28 4 = op.extractLsb' 4 4 ∧ opcodeOf w = op ∧ fld w 8 8 = x0 ∧ w &&& 0xFF00FF#32 = 0 := by
  have hn : w.toNat = (((op.toNat * 2 ^ 8 + 0) * 2 ^ 8 + x0.toNat) * 2 ^ 8 + 0) := by
    rw [← h]; simp only [toNat_app]; rfl
  have ho := op.isLt
  have hx0 := x0.isLt
  refine ⟨fld_eq w _ _ _ (by rw [hn, BitVec.extractLsb'_toNat, Nat.shiftRight_eq_div_pow]; omega), fld_eq w _ _ _ (by rw [hn]; omega), fld_eq w _ _ _ (by rw [hn]; omega),
    and_segs w _ _ (and_seg w 16 8 (fld_eq w _ _ _ (by rw [hn]; show _ = 0; omega))) (and_seg w 0 8 (fld_eq w _ _ _ (by rw [hn]; show _ = 0; omega)))⟩

theorem partsz12f4z8 (w : W32) (op : BitVec 8) (x0 : BitVec 4) (h : op ++ 0#12 ++ x0 ++ 0#8 = w) :
    fld w 28 4 = op.extractLsb' 4 4 ∧ opcodeOf w = op ∧ fld w 8 4 = x0 ∧ w &&& 0xFFF0FF#32 = 0 := by
  have hn : w.toNat = (((op.toNat * 2 ^ 12 + 0) * 2 ^ 4 + x0.toNat) * 2 ^ 8 + 0) := by
    rw [← h]; simp only [toNat_app]; rfl
  have ho := op.isLt
  have hx0 := x0.isLt
  refine ⟨fld_eq w _ _ _ (by rw [hn, BitVec.extractLsb'_toNat, Nat.shiftRight_eq_div_pow]; omega), fld_eq w _ _ _ (by rw [hn]; omega), fld_eq w _ _ _ (by rw [hn]; omega),
    and_segs w _ _ (and_seg w 12 12 (fld_eq w _ _ _ (by rw [hn]; show _ = 0; omega))) (and_seg w 0 8 (fld_eq w _ _ _ (by rw [hn]; show _ = 0; omega)))⟩

theorem partsf8z4f4f8 (w : W32) (op : BitVec 8) (x0 : BitVec 8) (x1 : BitVec 4) (x2 : BitVec 8) (h : op ++ x0 ++ 0#4 ++ x1 ++ x2 = w) :
    fld w 28 4 = op.extractLsb' 4 4 ∧ opcodeOf w = op ∧ fld w 16 8 = x0 ∧ fld w 8 4 = x1 ∧ fld w 0 8 = x2 ∧ w &&& 0x00F000#32 = 0 := by
  have hn : w.toNat = ((((op.toNat * 2 ^ 8 + x0.toNat) * 2 ^ 4 + 0) * 2 ^ 4 + x1.toNat) * 2 ^ 8 + x2.toNat) := by
    rw [← h]; simp only [toNat_app]; rfl
  have ho := op.isLt
  have hx0 := x0.isLt
  have hx1 := x1.isLt
  have hx2 := x2.isLt
  refine ⟨fld_eq w _ _ _ (by rw [hn, BitVec.extractLsb'_toNat, Nat.shiftRight_eq_div_pow]; omega), fld_eq w _ _ _ (by rw [hn]; omega), fld_eq w _ _ _ (by rw [hn]; omega), fld_eq w _ _ _ (by rw [hn]; omega), fld_eq w _ _ _ (by rw [hn]; omega),
    and_seg w 12 4 (fld_eq w _ _ _ (by rw [hn]; show _ = 0; omega))⟩

theorem partsz24 (w : W32) (op : BitVec 8) (h : op ++ 0#24 = w) :
    fld w 28 4 = op.extractLsb' 4 4 ∧ opcodeOf w = op ∧ w &&& 0xFFFFFF#32 = 0 := by
  have hn : w.toNat = (op.toNat * 2 ^ 24 + 0) := by
    rw [← h]; simp only [toNat_app]; rfl
  have ho := op.isLt
  refine ⟨fld_eq w _ _ _ (by rw [hn, BitVec.extractLsb'_toNat, Nat.shiftRight_eq_div_pow]; omega), fld_eq w _ _ _ (by rw [hn]; omega),
    and_seg w 0 24 (fld_eq w _ _ _ (by rw [hn]; show _ = 0; omega))⟩

theorem partsz5f3f8f8 (w : W32) (op : BitVec 8) (x0 : BitVec 3) (x1 : BitVec 8) (x2 : BitVec 8) (h : op ++ 0#5 ++ x0 ++ x1 ++ x2 = w) :
    fld w 28 4 = op.extractLsb' 4 4 ∧ opcodeOf w = op ∧ fld w 16 3 = x0 ∧ fld w 8 8 = x1 ∧ fld w 0 8 = x2 ∧ w &&& 0xF80000#32 = 0 := by
  have hn : w.toNat = ((((op.toNat * 2 ^ 5 + 0) * 2 ^ 3 + x0.toNat) * 2 ^ 8 + x1.toNat) * 2 ^ 8 + x2.toNat) := by
    rw [← h]; simp only [toNat_app]; rfl
  have ho := op.isLt
  have hx0 := x0.isLt
  have hx1 := x1.isLt
  have hx2 := x2.isLt
  refine ⟨fld_eq w _ _ _ (by rw [hn, BitVec.extractLsb'_toNat, Nat.shiftRight_eq_div_pow]; omega), fld_eq w _ _ _ (by rw [hn]; omega), fld_eq w _ _ _ (by rw [hn]; omega), fld_eq w _ _ _ (by rw [hn]; omega), fld_eq w _ _ _ (by rw [hn]; omega),
    and_seg w 19 5 (fld_eq w _ _ _ (by rw [hn]; show _ = 0; omega))⟩

theorem partsz5f3z4f1f3z4f1f3 (w : W32) (op : BitVec 8) (x0 : BitVec 3) (x1 : BitVec 1) (x2 : BitVec 3) (x3 : BitVec 1) (x4 : BitVec 3) (h : op ++ 0#5 ++ x0 ++ 0#4 ++ x1 ++ x2 ++ 0#4 ++ x3 ++ x4 = w) :
    fld w 28 4 = op.extractLsb' 4 4 ∧ opcodeOf w = op ∧ fld w 16 3 = x0 ∧ fld w 11 1 = x1 ∧ fld w 8 3 = x2 ∧ fld w 3 1 = x3 ∧ fld w 0 3 = x4 ∧ w &&& 0xF8F0F0#32 = 0 := by
  have hn : w.toNat = ((((((((op.toNat * 2 ^ 5 + 0) * 2 ^ 3 + x0.toNat) * 2 ^ 4 + 0) * 2 ^ 1 + x1.toNat) * 2 ^ 3 + x2.toNat) * 2 ^ 4 + 0) * 2 ^ 1 + x3.toNat) * 2 ^ 3 + x4.toNat) := by
    rw [← h]; simp only [toNat_app]; rfl
  have ho := op.isLt
  have hx0 := x0.isLt
  have hx1 := x1.isLt
  have hx2 := x2.isLt
  have hx3 := x3.isLt
  have hx4 := x4.isLt
  refine ⟨fld_eq w _ _ _ (by rw [hn, BitVec.extractLsb'_toNat, Nat.shiftRight_eq_div_pow]; omega), fld_eq w _ _ _ (by rw [hn]; omega), fld_eq w _ _ _ (by rw [hn]; omega), fld_eq w _ _ _ (by rw [hn]; omega), fld_eq w _ _ _ (by rw [hn]; omega), fld_eq w _ _ _ (by rw [hn]; omega), fld_eq w _ _ _ (by rw [hn]; omega),
    and_segs w _ _ (and_segs w _ _ (and_seg w 19 5 (fld_eq w _ _ _ (by rw [hn]; show _ = 0; omega))) (and_seg w 12 4 (fld_eq w _ _ _ (by rw [hn]; show _ = 0; omega)))) (and_seg w 4 4 (fld_eq w _ _ _ (by rw [hn]; show _ = 0; omega)))⟩

theorem partsz5f3z4f1f3z8 (w : W32) (op : BitVec 8) (x0 : BitVec 3) (x1 : BitVec 1) (x2 : BitVec 3) (h : op ++ 0#5 ++ x0 ++ 0#4 ++ x1 ++ x2 ++ 0#8 = w) :
    fld w 28 4 = op.extractLsb' 4 4 ∧ opcodeOf w = op ∧ fld w 16 3 = x0 ∧ fld w 11 1 = x1 ∧ fld w 8 3 = x2 ∧ w &&& 0xF8F0FF#32 = 0 := by
  have hn : w.toNat = ((((((op.toNat * 2 ^ 5 + 0) * 2 ^ 3 + x0.toNat) * 2 ^ 4 + 0) * 2 ^ 1 + x1.toNat) * 2 ^ 3 + x2.toNat) * 2 ^ 8 + 0) := by
    rw [← h]; simp only [toNat_app]; rfl
  have ho := op.isLt
  have hx0 := x0.isLt
  have hx1 := x1.isLt
  have hx2 := x2.isLt
  refine ⟨fld_eq w _ _ _ (by rw [hn, BitVec.extractLsb'_toNat, Nat.shiftRight_eq_div_pow]; omega), fld_eq w _ _ _ (by rw [hn]; omega), fld_eq w _ _ _ (by rw [hn]; omega), fld_eq w _ _ _ (by rw [hn]; omega), fld_eq w _ _ _ (by rw [hn]; omega),
    and_segs w _ _ (and_segs w _ _ (and_seg w 19 5 (fld_eq w _ _ _ (by rw [hn]; show _ = 0; omega))) (and_seg w 12 4 (fld_eq w _ _ _ (by rw [hn]; show _ = 0; omega)))) (and_seg w 0 8 (fld_eq w _ _ _ (by rw [hn]; show _ = 0; omega)))⟩

theorem partsz12f1f3z8 (w : W32) (op : BitVec 8) (x0 : BitVec 1) (x1 : BitVec 3) (h : op ++ 0#12 ++ x0 ++ x1 ++ 0#8 = w) :
    fld w 28 4 = op.extractLsb' 4 4 ∧ opcodeOf w = op ∧ fld w 11 1 = x0 ∧ fld w 8 3 = x1 ∧ w &&& 0xFFF0FF#32 = 0 := by
  have hn : w.toNat = ((((op.toNat * 2 ^ 12 + 0) * 2 ^ 1 + x0.toNat) * 2 ^ 3 + x1.toNat) * 2 ^ 8 + 0) := by
    rw [← h]; simp only [toNat_app]; rfl
  have ho := op.isLt
  have hx0 := x0.isLt
  have hx1 := x1.isLt
  refine ⟨fld_eq w _ _ _ (by rw [hn, BitVec.extractLsb'_toNat, Nat.shiftRight_eq_div_pow]; omega), fld_eq w _ _ _ (by rw [hn]; omega), fld_eq w _ _ _ (by rw [hn]; omega), fld_eq w _ _ _ (by rw [hn]; omega),
    and_segs w _ _ (and_seg w 12 12 (fld_eq w _ _ _ (by rw [hn]; show _ = 0; omega))) (and_seg w 0 8 (fld_eq w _ _ _ (by rw [hn]; show _ = 0; omega)))⟩

theorem partsf8z4f1f3z8 (w : W32) (op : BitVec 8) (x0 : BitVec 8) (x1 : BitVec 1) (x2 : BitVec 3) (h : op ++ x0 ++ 0#4 ++ x1 ++ x2 ++ 0#8 = w) :
    fld w 28 4 = op.extractLsb' 4 4 ∧ opcodeOf w = op ∧ fld w 16 8 = x0 ∧ fld w 11 1 = x1 ∧ fld w 8 3 = x2 ∧ w &&& 0x00F0FF#32 = 0 := by
  have hn : w.toNat = (((((op.toNat * 2 ^ 8 + x0.toNat) * 2 ^ 4 + 0) * 2 ^ 1 + x1.toNat) * 2 ^ 3 + x2.toNat) * 2 ^ 8 + 0) := by
    rw [← h]; simp only [toNat_app]; rfl
  have ho := op.isLt
  have hx0 := x0.isLt
  have hx1 := x1.isLt
  have hx2 := x2.isLt
  refine ⟨fld_eq w _ _ _ (by rw [hn, BitVec.extractLsb'_toNat, Nat.shiftRight_eq_div_pow]; omega), fld_eq w _ _ _ (by rw [hn]; omega), fld_eq w _ _ _ (by rw [hn]; omega), fld_eq w _ _ _ (by rw [hn]; omega), fld_eq w _ _ _ (by rw [hn]; omega),
    and_segs w _ _ (and_seg w 12 4 (fld_eq w _ _ _ (by rw [hn]; show _ = 0; omega))) (and_seg w 0 8 (fld_eq w _ _ _ (by rw [hn]; show _ = 0; omega)))⟩

theorem partsf8f8z4f4 (w : W32) (op : BitVec 8) (x0 : BitVec 8) (x1 : BitVec 8) (x2 : BitVec 4) (h : op ++ x0 ++ x1 ++ 0#4 ++ x2 = w) :
    fld w 28 4 = op.extractLsb' 4 4 ∧ opcodeOf w = op ∧ fld w 16 8 = x0 ∧ fld w 8 8 = x1 ∧ fld w 0 4 = x2 ∧ w &&& 0x0000F0#32 = 0 := by
  have hn : w.toNat = ((((op.toNat * 2 ^ 8 + x0.toNat) * 2 ^ 8 + x1.toNat) * 2 ^ 4 + 0) * 2 ^ 4 + x2.toNat) := by
    rw [← h]; simp only [toNat_app]; rfl
  have ho := op.isLt
  have hx0 := x0.isLt
  have hx1 := x1.isLt
  have hx2 := x2.isLt
  refine ⟨fld_eq w _ _ _ (by rw [hn, BitVec.extractLsb'_toNat, Nat.shiftRight_eq_div_pow]; omega), fld_eq w _ _ _ (by rw [hn]; omega), fld_eq w _ _ _ (by rw [hn]; omega), fld_eq w _ _ _ (by rw [hn]; omega), fld_eq w _ _ _ (by rw [hn]; omega),
    and_seg w 4 4 (fld_eq w _ _ _ (by rw [hn]; show _ = 0; omega))⟩

theorem partsf8f8z7f1 (w : W32) (op : BitVec 8) (x0 : BitVec 8) (x1 : BitVec 8) (x2 : BitVec 1) (h : op ++ x0 ++ x1 ++ 0#7 ++ x2 = w) :
    fld w 28 4 = op.extractLsb' 4 4 ∧ opcodeOf w = op ∧ fld w 16 8 = x0 ∧ fld w 8 8 = x1 ∧ fld w 0 1 = x2 ∧ w &&& 0x0000FE#32 = 0 := by
  have hn : w.toNat = ((((op.toNat * 2 ^ 8 + x0.toNat) * 2 ^ 8 + x1.toNat) * 2 ^ 7 + 0) * 2 ^ 1 + x2.toNat) := by
    rw [← h]; simp only [toNat_app]; rfl
  have ho := op.isLt
  have hx0 := x0.isLt
  have hx1 := x1.isLt
  have hx2 := x2.isLt
  refine ⟨fld_eq w _ _ _ (by rw [hn, BitVec.extractLsb'_toNat, Nat.shiftRight_eq_div_pow]; omega), fld_eq w _ _ _ (by rw [hn]; omega), fld_eq w _ _ _ (by rw [hn]; omega), fld_eq w _ _ _ (by rw [hn]; omega), fld_eq w _ _ _ (by rw [hn]; omega),
    and_seg w 1 7 (fld_eq w _ _ _ (by rw [hn]; show _ = 0; omega))⟩

theorem partsz8f5f3f2f6 (w : W32) (op : BitVec 8) (x0 : BitVec 5) (x1 : BitVec 3) (x2 : BitVec 2) (x3 : BitVec 6) (h : op ++ 0#8 ++ x0 ++ x1 ++ x2 ++ x3 = w) :
    fld w 28 4 = op.extractLsb' 4 4 ∧ opcodeOf w = op ∧ fld w 11 5 = x0 ∧ fld w 8 3 = x1 ∧ fld w 6 2 = x2 ∧ fld w 0 6 = x3 ∧ w &&& 0xFF0000#32 = 0 := by
  have hn : w.toNat = (((((op.toNat * 2 ^ 8 + 0) * 2 ^ 5 + x0.toNat) * 2 ^ 3 + x1.toNat) * 2 ^ 2 + x2.toNat) * 2 ^ 6 + x3.toNat) := by
    rw [← h]; simp only [toNat_app]; rfl
  have ho := op.isLt
  have hx0 := x0.isLt
  have hx1 := x1.isLt
  have hx2 := x2.isLt
  have hx3 := x3.isLt
  refine ⟨fld_eq w _ _ _ (by rw [hn, BitVec.extractLsb'_toNat, Nat.shiftRight_eq_div_pow]; omega), fld_eq w _ _ _ (by rw [hn]; omega), fld_eq w _ _ _ (by rw [hn]; omega), fld_eq w _ _ _ (by rw [hn]; omega), fld_eq w _ _ _ (by rw [hn]; omega), fld_eq w _ _ _ (by rw [hn]; omega),
    and_seg w 16 8 (fld_eq w _ _ _ (by rw [hn]; show _ = 0; omega))⟩

theorem partsz8f8z5f3 (w : W32) (op : BitVec 8) (x0 : BitVec 8) (x1 : BitVec 3) (h : op ++ 0#8 ++ x0 ++ 0#5 ++ x1 = w) :
    fld w 28 4 = op.extractLsb' 4 4 ∧ opcodeOf w = op ∧ fld w 8 8 = x0 ∧ fld w 0 3 = x1 ∧ w &&& 0xFF00F8#32 = 0 := by
  have hn : w.toNat = ((((op.toNat * 2 ^ 8 + 0) * 2 ^ 8 + x0.toNat) * 2 ^ 5 + 0) * 2 ^ 3 + x1.toNat) := by
    rw [← h]; simp only [toNat_app]; rfl
  have ho := op.isLt
  have hx0 := x0.isLt
  have hx1 := x1.isLt
  refine ⟨fld_eq w _ _ _ (by rw [hn, BitVec.extractLsb'_toNat, Nat.shiftRight_eq_div_pow]; omega), fld_eq w _ _ _ (by rw [hn]; omega), fld_eq w _ _ _ (by rw [hn]; omega), fld_eq w _ _ _ (by rw [hn]; omega),
    and_segs w _ _ (and_seg w 16 8 (fld_eq w _ _ _ (by rw [hn]; show _ = 0; omega))) (and_seg w 3 5 (fld_eq w _ _ _ (by rw [hn]; show _ = 0; omega)))⟩

theorem partsf4f4f8f8 (w : W32) (op : BitVec 8) (x0 : BitVec 4) (x1 : BitVec 4) (x2 : BitVec 8) (x3 : BitVec 8) (h : op ++ x0 ++ x1 ++ x2 ++ x3 = w) :
    fld w 28 4 = op.extractLsb' 4 4 ∧ opcodeOf w = op ∧ fld w 20 4 = x0 ∧ fld w 16 4 = x1 ∧ fld w 8 8 = x2 ∧ fld w 0 8 = x3 := by
  have hn : w.toNat = ((((op.toNat * 2 ^ 4 + x0.toNat) * 2 ^ 4 + x1.toNat) * 2 ^ 8 + x2.toNat) * 2 ^ 8 + x3.toNat) := by
    rw [← h]; simp only [toNat_app]
  have ho := op.isLt
  have hx0 := x0.isLt
  have hx1 := x1.isLt
  have hx2 := x2.isLt
  have hx3 := x3.isLt
  refine ⟨fld_eq w _ _ _ (by rw [hn, BitVec.extractLsb'_toNat, Nat.shiftRight_eq_div_pow]; omega), fld_eq w _ _ _ (by rw [hn]; omega), fld_eq w _ _ _ (by rw [hn]; omega), fld_eq w _ _ _ (by rw [hn]; omega), fld_eq w _ _ _ (by rw [hn]; omega), fld_eq w _ _ _ (by rw [hn]; omega)⟩

theorem partsf4z4f8f8 (w : W32) (op : BitVec 8) (x0 : BitVec 4) (x1 : BitVec 8) (x2 : BitVec 8) (h : op ++ x0 ++ 0#4 ++ x1 ++ x2 = w) :
    fld w 28 4 = op.extractLsb' 4 4 ∧ opcodeOf w = op ∧ fld w 20 4 = x0 ∧ fld w 8 8 = x1 ∧ fld w 0 8 = x2 ∧ w &&& 0x0F0000#32 = 0 := by
  have hn : w.toNat = ((((op.toNat * 2 ^ 4 + x0.toNat) * 2 ^ 4 + 0) * 2 ^ 8 + x1.toNat) * 2 ^ 8 + x2.toNat) := by
    rw [← h]; simp only [toNat_app]; rfl
  have ho := op.isLt
  have hx0 := x0.isLt
  have hx1 := x1.isLt
  have hx2 := x2.isLt
  refine ⟨fld_eq w _ _ _ (by rw [hn, BitVec.extractLsb'_toNat, Nat.shiftRight_eq_div_pow]; omega), fld_eq w _ _ _ (by rw [hn]; omega), fld_eq w _ _ _ (by rw [hn]; omega), fld_eq w _ _ _ (by rw [hn]; omega), fld_eq w _ _ _ (by rw [hn]; omega),
    and_seg w 16 4 (fld_eq w _ _ _ (by rw [hn]; show _ = 0; omega))⟩

theorem partsf4f4z16 (w : W32) (op : BitVec 8) (x0 : BitVec 4) (x1 : BitVec 4) (h : op ++ x0 ++ x1 ++ 0#16 = w) :
    fld w 28 4 = op.extractLsb' 4 4 ∧ opcodeOf w = op ∧ fld w 20 4 = x0 ∧ fld w 16 4 = x1 ∧ w &&& 0x00FFFF#32 = 0 := by
  have hn : w.toNat = (((op.toNat * 2 ^ 4 + x0.toNat) * 2 ^ 4 + x1.toNat) * 2 ^ 16 + 0) := by
    rw [← h]; simp only [toNat_app]; rfl
  have ho := op.isLt
  have hx0 := x0.isLt
  have hx1 := x1.isLt
  refine ⟨fld_eq w _ _ _ (by rw [hn, BitVec.extractLsb'_toNat, Nat.shiftRight_eq_div_pow]; omega), fld_eq w _ _ _ (by rw [hn]; omega), fld_eq w _ _ _ (by rw [hn]; omega), fld_eq w _ _ _ (by rw [hn]; omega),
    and_seg w 0 16 (fld_eq w _ _ _ (by rw [hn]; show _ = 0; omega))⟩

theorem partsf4z20 (w : W32) (op : BitVec 8) (x0 : BitVec 4) (h : op ++ x0 ++ 0#20 = w) :
    fld w 28 4 = op.extractLsb' 4 4 ∧ opcodeOf w = op ∧ fld w 20 4 = x0 ∧ w &&& 0x0FFFFF#32 = 0 := by
  have hn : w.toNat = ((op.toNat * 2 ^ 4 + x0.toNat) * 2 ^ 20 + 0) := by
    rw [← h]; simp only [toNat_app]; rfl
  have ho := op.isLt
  have hx0 := x0.isLt
  refine ⟨fld_eq w _ _ _ (by rw [hn, BitVec.extractLsb'_toNat, Nat.shiftRight_eq_div_pow]; omega), fld_eq w _ _ _ (by rw [hn]; omega), fld_eq w _ _ _ (by rw [hn]; omega),
    and_seg w 0 20 (fld_eq w _ _ _ (by rw [hn]; show _ = 0; omega))⟩

theorem partsf2f2f2f2z1f7z1f7 (w : W32) (op : BitVec 8) (x0 : BitVec 2) (x1 : BitVec 2) (x2 : BitVec 2) (x3 : BitVec 2) (x4 : BitVec 7) (x5 : BitVec 7) (h : op ++ x0 ++ x1 ++ x2 ++ x3 ++ 0#1 ++ x4 ++ 0#1 ++ x5 = w) :
    fld w 28 4 = op.extractLsb' 4 4 ∧ opcodeOf w = op ∧ fld w 22 2 = x0 ∧ fld w 20 2 = x1 ∧ fld w 18 2 = x2 ∧ fld w 16 2 = x3 ∧ fld w 8 7 = x4 ∧ fld w 0 7 = x5 ∧ w &&& 0x008080#32 = 0 := by
  have hn : w.toNat = ((((((((op.toNat * 2 ^ 2 + x0.toNat) * 2 ^ 2 + x1.toNat) * 2 ^ 2 + x2.toNat) * 2 ^ 2 + x3.toNat) * 2 ^ 1 + 0) * 2 ^ 7 + x4.toNat) * 2 ^ 1 + 0) * 2 ^ 7 + x5.toNat) := by
    rw [← h]; simp only [toNat_app]; rfl
  have ho := op.isLt
  have hx0 := x0.isLt
  have hx1 := x1.isLt
  have hx2 := x2.isLt
  have hx3 := x3.isLt
  have hx4 := x4.isLt
  have hx5 := x5.isLt
  refine ⟨fld_eq w _ _ _ (by rw [hn, BitVec.extractLsb'_toNat, Nat.shiftRight_eq_div_pow]; omega), fld_eq w _ _ _ (by rw [hn]; omega), fld_eq w _ _ _ (by rw [hn]; omega), fld_eq w _ _ _ (by rw [hn]; omega), fld_eq w _ _ _ (by rw [hn]; omega), fld_eq w _ _ _ (by rw [hn]; omega), fld_eq w _ _ _ (by rw [hn]; omega), fld_eq w _ _ _ (by rw [hn]; omega),
    and_segs w _ _ (and_seg w 15 1 (fld_eq w _ _ _ (by rw [hn]; show _ = 0; omega))) (and_seg w 7 1 (fld_eq w _ _ _ (by rw [hn]; show _ = 0; omega)))⟩

theorem partsf2z22 (w : W32) (op : BitVec 8) (x0 : BitVec 2) (h : op ++ x0 ++ 0#22 = w) :
    fld w 28 4 = op.extractLsb' 4 4 ∧ opcodeOf w = op ∧ fld w 22 2 = x0 ∧ w &&& 0x3FFFFF#32 = 0 := by
  have hn : w.toNat = ((op.toNat * 2 ^ 2 + x0.toNat) * 2 ^ 22 + 0) := by
    rw [← h]; simp only [toNat_app]; rfl
  have ho := op.isLt
  have hx0 := x0.isLt
  refine ⟨fld_eq w _ _ _ (by rw [hn, BitVec.extractLsb'_toNat, Nat.shiftRight_eq_div_pow]; omega), fld_eq w _ _ _ (by rw [hn]; omega), fld_eq w _ _ _ (by rw [hn]; omega),
    and_seg w 0 22 (fld_eq w _ _ _ (by rw [hn]; show _ = 0; omega))⟩

theorem partsf2f1f4f1z1f7z5f3 (w : W32) (op : BitVec 8) (x0 : BitVec 2) (x1 : BitVec 1) (x2 : BitVec 4) (x3 : BitVec 1) (x4 : BitVec 7) (x5 : BitVec 3) (h : op ++ x0 ++ x1 ++ x2 ++ x3 ++ 0#1 ++ x4 ++ 0#5 ++ x5 = w) :
    fld w 28 4 = op.extractLsb' 4 4 ∧ opcodeOf w = op ∧ fld w 22 2 = x0 ∧ fld w 21 1 = x1 ∧ fld w 17 4 = x2 ∧ fld w 16 1 = x3 ∧ fld w 8 7 = x4 ∧ fld w 0 3 = x5 ∧ w &&& 0x0080F8#32 = 0 := by
  have hn : w.toNat = ((((((((op.toNat * 2 ^ 2 + x0.toNat) * 2 ^ 1 + x1.toNat) * 2 ^ 4 + x2.toNat) * 2 ^ 1 + x3.toNat) * 2 ^ 1 + 0) * 2 ^ 7 + x4.toNat) * 2 ^ 5 + 0) * 2 ^ 3 + x5.toNat) := by
    rw [← h]; simp only [toNat_app]; rfl
  have ho := op.isLt
  have hx0 := x0.isLt
  have hx1 := x1.isLt
  have hx2 := x2.isLt
  have hx3 := x3.isLt
  have hx4 := x4.isLt
  have hx5 := x5.isLt
  refine ⟨fld_eq w _ _ _ (by rw [hn, BitVec.extractLsb'_toNat, Nat.shiftRight_eq_div_pow]; omega), fld_eq w _ _ _ (by rw [hn]; omega), fld_eq w _ _ _ (by rw [hn]; omega), fld_eq w _ _ _ (by rw [hn]; omega), fld_eq w _ _ _ (by rw [hn]; omega), fld_eq w _ _ _ (by rw [hn]; omega), fld_eq w _ _ _ (by rw [hn]; omega), fld_eq w _ _ _ (by rw [hn]; omega),
    and_segs w _ _ (and_seg w 15 1 (fld_eq w _ _ _ (by rw [hn]; show _ = 0; omega))) (and_seg w 3 5 (fld_eq w _ _ _ (by rw [hn]; show _ = 0; omega)))⟩

theorem partsf2f2f2z18 (w : W32) (op : BitVec 8) (x0 : BitVec 2) (x1 : BitVec 2) (x2 : BitVec 2) (h : op ++ x0 ++ x1 ++ x2 ++ 0#18 = w) :
    fld w 28 4 = op.extractLsb' 4 4 ∧ opcodeOf w = op ∧ fld w 22 2 = x0 ∧ fld w 20 2 = x1 ∧ fld w 18 2 = x2 ∧ w &&& 0x03FFFF#32 = 0 := by
  have hn : w.toNat = ((((op.toNat * 2 ^ 2 + x0.toNat) * 2 ^ 2 + x1.toNat) * 2 ^ 2 + x2.toNat) * 2 ^ 18 + 0) := by
    rw [← h]; simp only [toNat_app]; rfl
  have ho := op.isLt
  have hx0 := x0.isLt
  have hx1 := x1.isLt
  have hx2 := x2.isLt
  refine ⟨fld_eq w _ _ _ (by rw [hn, BitVec.extractLsb'_toNat, Nat.shiftRight_eq_div_pow]; omega), fld_eq w _ _ _ (by rw [hn]; omega), fld_eq w _ _ _ (by rw [hn]; omega), fld_eq w _ _ _ (by rw [hn]; omega), fld_eq w _ _ _ (by rw [hn]; omega),
    and_seg w 0 18 (fld_eq w _ _ _ (by rw [hn]; show _ = 0; omega))⟩

theorem partsf2z6f16 (w : W32) (op : BitVec 8) (x0 : BitVec 2) (x1 : BitVec 16) (h : op ++ x0 ++ 0#6 ++ x1 = w) :
    fld w 28 4 = op.extractLsb' 4 4 ∧ opcodeOf w = op ∧ fld w 22 2 = x0 ∧ fld w 0 16 = x1 ∧ w &&& 0x3F0000#32 = 0 := by
  have hn : w.toNat = (((op.toNat * 2 ^ 2 + x0.toNat) * 2 ^ 6 + 0) * 2 ^ 16 + x1.toNat) := by
    rw [← h]; simp only [toNat_app]; rfl
  have ho := op.isLt
  have hx0 := x0.isLt
  have hx1 := x1.isLt
  refine ⟨fld_eq w _ _ _ (by rw [hn, BitVec.extractLsb'_toNat, Nat.shiftRight_eq_div_pow]; omega), fld_eq w _ _ _ (by rw [hn]; omega), fld_eq w _ _ _ (by rw [hn]; omega), fld_eq w _ _ _ (by rw [hn]; omega),
    and_seg w 16 6 (fld_eq w _ _ _ (by rw [hn]; show _ = 0; omega))⟩

theorem partsf2z6f8f8 (w : W32) (op : BitVec 8) (x0 : BitVec 2) (x1 : BitVec 8) (x2 : BitVec 8) (h : op ++ x0 ++ 0#6 ++ x1 ++ x2 = w) :
    fld w 28 4 = op.extractLsb' 4 4 ∧ opcodeOf w = op ∧ fld w 22 2 = x0 ∧ fld w 8 8 = x1 ∧ fld w 0 8 = x2 ∧ w &&& 0x3F0000#32 = 0 := by
  have hn : w.toNat = ((((op.toNat * 2 ^ 2 + x0.toNat) * 2 ^ 6 + 0) * 2 ^ 8 + x1.toNat) * 2 ^ 8 + x2.toNat) := by
    rw [← h]; simp only [toNat_app]; rfl
  have ho := op.isLt
  have hx0 := x0.isLt
  have hx1 := x1.isLt
  have hx2 := x2.isLt
  refine ⟨fld_eq w _ _ _ (by rw [hn, BitVec.extractLsb'_toNat, Nat.shiftRight_eq_div_pow]; omega), fld_eq w _ _ _ (by rw [hn]; omega), fld_eq w _ _ _ (by rw [hn]; omega), fld_eq w _ _ _ (by rw [hn]; omega), fld_eq w _ _ _ (by rw [hn]; omega),
    and_seg w 16 6 (fld_eq w _ _ _ (by rw [hn]; show _ = 0; omega))⟩

theorem partsz5f1f2f8f8 (w : W32) (op : BitVec 8) (x0 : BitVec 1) (x1 : BitVec 2) (x2 : BitVec 8) (x3 : BitVec 8) (h : op ++ 0#5 ++ x0 ++ x1 ++ x2 ++ x3 = w) :
    fld w 28 4 = op.extractLsb' 4 4 ∧ opcodeOf w = op ∧ fld w 18 1 = x0 ∧ fld w 16 2 = x1 ∧ fld w 8 8 = x2 ∧ fld w 0 8 = x3 ∧ w &&& 0xF80000#32 = 0 := by
  have hn : w.toNat = (((((op.toNat * 2 ^ 5 + 0) * 2 ^ 1 + x0.toNat) * 2 ^ 2 + x1.toNat) * 2 ^ 8 + x2.toNat) * 2 ^ 8 + x3.toNat) := by
    rw [← h]; simp only [toNat_app]; rfl
  have ho := op.isLt
  have hx0 := x0.isLt
  have hx1 := x1.isLt
  have hx2 := x2.isLt
  have hx3 := x3.isLt
  refine ⟨fld_eq w _ _ _ (by rw [hn, BitVec.extractLsb'_toNat, Nat.shiftRight_eq_div_pow]; omega), fld_eq w _ _ _ (by rw [hn]; omega), fld_eq w _ _ _ (by rw [hn]; omega), fld_eq w _ _ _ (by rw [hn]; omega), fld_eq w _ _ _ (by rw [hn]; omega), fld_eq w _ _ _ (by rw [hn]; omega),
    and_seg w 19 5 (fld_eq w _ _ _ (by rw [hn]; show _ = 0; omega))⟩

theorem partsz5f1f2f8z8 (w : W32) (op : BitVec 8) (x0 : BitVec 1) (x1 : BitVec 2) (x2 : BitVec 8) (h : op ++ 0#5 ++ x0 ++ x1 ++ x2 ++ 0#8 = w) :
    fld w 28 4 = op.extractLsb' 4 4 ∧ opcodeOf w = op ∧ fld w 18 1 = x0 ∧ fld w 16 2 = x1 ∧ fld w 8 8 = x2 ∧ w &&& 0xF800FF#32 = 0 := by
  have hn : w.toNat = (((((op.toNat * 2 ^ 5 + 0) * 2 ^ 1 + x0.toNat) * 2 ^ 2 + x1.toNat) * 2 ^ 8 + x2.toNat) * 2 ^ 8 + 0) := by
    rw [← h]; simp only [toNat_app]; rfl
  have ho := op.isLt
  have hx0 := x0.isLt
  have hx1 := x1.isLt
  have hx2 := x2.isLt
  refine ⟨fld_eq w _ _ _ (by rw [hn, BitVec.extractLsb'_toNat, Nat.shiftRight_eq_div_pow]; omega), fld_eq w _ _ _ (by rw [hn]; omega), fld_eq w _ _ _ (by rw [hn]; omega), fld_eq w _ _ _ (by rw [hn]; omega), fld_eq w _ _ _ (by rw [hn]; omega),
    and_segs w _ _ (and_seg w 19 5 (fld_eq w _ _ _ (by rw [hn]; show _ = 0; omega))) (and_seg w 0 8 (fld_eq w _ _ _ (by rw [hn]; show _ = 0; omega)))⟩

theorem partsf8f8z5f1f2 (w : W32) (op : BitVec 8) (x0 : BitVec 8) (x1 : BitVec 8) (x2 : BitVec 1) (x3 : BitVec 2) (h : op ++ x0 ++ x1 ++ 0#5 ++ x2 ++ x3 = w) :
    fld w 28 4 = op.extractLsb' 4 4 ∧ opcodeOf w = op ∧ fld w 16 8 = x0 ∧ fld w 8 8 = x1 ∧ fld w 2 1 = x2 ∧ fld w 0 2 = x3 ∧ w &&& 0x0000F8#32 = 0 := by
  have hn : w.toNat = (((((op.toNat * 2 ^ 8 + x0.toNat) * 2 ^ 8 + x1.toNat) * 2 ^ 5 + 0) * 2 ^ 1 + x2.toNat) * 2 ^ 2 + x3.toNat) := by
    rw [← h]; simp only [toNat_app]; rfl
  have ho := op.isLt
  have hx0 := x0.isLt
  have hx1 := x1.isLt
  have hx2 := x2.isLt
  have hx3 := x3.isLt
  refine ⟨fld_eq w _ _ _ (by rw [hn, BitVec.extractLsb'_toNat, Nat.shiftRight_eq_div_pow]; omega), fld_eq w _ _ _ (by rw [hn]; omega), fld_eq w _ _ _ (by rw [hn]; omega), fld_eq w _ _ _ (by rw [hn]; omega), fld_eq w _ _ _ (by rw [hn]; omega), fld_eq w _ _ _ (by rw [hn]; omega),
    and_seg w 3 5 (fld_eq w _ _ _ (by rw [hn]; show _ = 0; omega))⟩

theorem partsf8z6f2z8 (w : W32) (op : BitVec 8) (x0 : BitVec 8) (x1 : BitVec 2) (h : op ++ x0 ++ 0#6 ++ x1 ++ 0#8 = w) :
    fld w 28 4 = op.extractLsb' 4 4 ∧ opcodeOf w = op ∧ fld w 16 8 = x0 ∧ fld w 8 2 = x1 ∧ w &&& 0x00FCFF#32 = 0 := by
  have hn : w.toNat = ((((op.toNat * 2 ^ 8 + x0.toNat) * 2 ^ 6 + 0) * 2 ^ 2 + x1.toNat) * 2 ^ 8 + 0) := by
    rw [← h]; simp only [toNat_app]; rfl
  have ho := op.isLt
  have hx0 := x0.isLt
  have hx1 := x1.isLt
  refine ⟨fld_eq w _ _ _ (by rw [hn, BitVec.extractLsb'_toNat, Nat.shiftRight_eq_div_pow]; omega), fld_eq w _ _ _ (by rw [hn]; omega), fld_eq w _ _ _ (by rw [hn]; omega), fld_eq w _ _ _ (by rw [hn]; omega),
    and_segs w _ _ (and_seg w 10 6 (fld_eq w _ _ _ (by rw [hn]; show _ = 0; omega))) (and_seg w 0 8 (fld_eq w _ _ _ (by rw [hn]; show _ = 0; omega)))⟩

theorem partsz6f2z1f7z8 (w : W32) (op : BitVec 8) (x0 : BitVec 2) (x1 : BitVec 7) (h : op ++ 0#6 ++ x0 ++ 0#1 ++ x1 ++ 0#8 = w) :
    fld w 28 4 = op.extractLsb' 4 4 ∧ opcodeOf w = op ∧ fld w 16 2 = x0 ∧ fld w 8 7 = x1 ∧ w &&& 0xFC80FF#32 = 0 := by
  have hn : w.toNat = (((((op.toNat * 2 ^ 6 + 0) * 2 ^ 2 + x0.toNat) * 2 ^ 1 + 0) * 2 ^ 7 + x1.toNat) * 2 ^ 8 + 0) := by
    rw [← h]; simp only [toNat_app]; rfl
  have ho := op.isLt
  have hx0 := x0.isLt
  have hx1 := x1.isLt
  refine ⟨fld_eq w _ _ _ (by rw [hn, BitVec.extractLsb'_toNat, Nat.shiftRight_eq_div_pow]; omega), fld_eq w _ _ _ (by rw [hn]; omega), fld_eq w _ _ _ (by rw [hn]; omega), fld_eq w _ _ _ (by rw [hn]; omega),
    and_segs w _ _ (and_segs w _ _ (and_seg w 18 6 (fld_eq w _ _ _ (by rw [hn]; show _ = 0; omega))) (and_seg w 15 1 (fld_eq w _ _ _ (by rw [hn]; show _ = 0; omega)))) (and_seg w 0 8 (fld_eq w _ _ _ (by rw [hn]; show _ = 0; omega)))⟩

theorem partsf8z1f3z1f1f2z8 (w : W32) (op : BitVec 8) (x0 : BitVec 8) (x1 : BitVec 3) (x2 : BitVec 1) (x3 : BitVec 2) (h : op ++ x0 ++ 0#1 ++ x1 ++ 0#1 ++ x2 ++ x3 ++ 0#8 = w) :
    fld w 28 4 = op.extractLsb' 4 4 ∧ opcodeOf w = op ∧ fld w 16 8 = x0 ∧ fld w 12 3 = x1 ∧ fld w 10 1 = x2 ∧ fld w 8 2 = x3 ∧ w &&& 0x0088FF#32 = 0 := by
  have hn : w.toNat = (((((((op.toNat * 2 ^ 8 + x0.toNat) * 2 ^ 1 + 0) * 2 ^ 3 + x1.toNat) * 2 ^ 1 + 0) * 2 ^ 1 + x2.toNat) * 2 ^ 2 + x3.toNat) * 2 ^ 8 + 0) := by
    rw [← h]; simp only [toNat_app]; rfl
  have ho := op.isLt
  have hx0 := x0.isLt
  have hx1 := x1.isLt
  have hx2 := x2.isLt
  have hx3 := x3.isLt
  refine ⟨fld_eq w _ _ _ (by rw [hn, BitVec.extractLsb'_toNat, Nat.shiftRight_eq_div_pow]; omega), fld_eq w _ _ _ (by rw [hn]; omega), fld_eq w _ _ _ (by rw [hn]; omega), fld_eq w _ _ _ (by rw [hn]; omega), fld_eq w _ _ _ (by rw [hn]; omega), fld_eq w _ _ _ (by rw [hn]; omega),
    and_segs w _ _ (and_segs w _ _ (and_seg w 15 1 (fld_eq w _ _ _ (by rw [hn]; show _ = 0; omega))) (and_seg w 11 1 (fld_eq w _ _ _ (by rw [hn]; show _ = 0; omega)))) (and_seg w 0 8 (fld_eq w _ _ _ (by rw [hn]; show _ = 0; omega)))⟩

theorem partsz4f4z16 (w : W32) (op : BitVec 8) (x0 : BitVec 4) (h : op ++ 0#4 ++ x0 ++ 0#16 = w) :
    fld w 28 4 = op.extractLsb' 4 4 ∧ opcodeOf w = op ∧ fld w 16 4 = x0 ∧ w &&& 0xF0FFFF#32 = 0 := by
  have hn : w.toNat = (((op.toNat * 2 ^ 4 + 0) * 2 ^ 4 + x0.toNat) * 2 ^ 16 + 0) := by
    rw [← h]; simp only [toNat_app]; rfl
  have ho := op.isLt
  have hx0 := x0.isLt
  refine ⟨fld_eq w _ _ _ (by rw [hn, BitVec.extractLsb'_toNat, Nat.shiftRight_eq_div_pow]; omega), fld_eq w _ _ _ (by rw [hn]; omega), fld_eq w _ _ _ (by rw [hn]; omega),
    and_segs w _ _ (and_seg w 20 4 (fld_eq w _ _ _ (by rw [hn]; show _ = 0; omega))) (and_seg w 0 16 (fld_eq w _ _ _ (by rw [hn]; show _ = 0; omega)))⟩

theorem partsz1f7z6f2z8 (w : W32) (op : BitVec 8) (x0 : BitVec 7) (x1 : BitVec 2) (h : op ++ 0#1 ++ x0 ++ 0#6 ++ x1 ++ 0#8 = w) :
    fld w 28 4 = op.extractLsb' 4 4 ∧ opcodeOf w = op ∧ fld w 16 7 = x0 ∧ fld w 8 2 = x1 ∧ w &&& 0x80FCFF#32 = 0 := by
  have hn : w.toNat = (((((op.toNat * 2 ^ 1 + 0) * 2 ^ 7 + x0.toNat) * 2 ^ 6 + 0) * 2 ^ 2 + x1.toNat) * 2 ^ 8 + 0) := by
    rw [← h]; simp only [toNat_app]; rfl
  have ho := op.isLt
  have hx0 := x0.isLt
  have hx1 := x1.isLt
  refine ⟨fld_eq w _ _ _ (by rw [hn, BitVec.extractLsb'_toNat, Nat.shiftRight_eq_div_pow]; omega), fld_eq w _ _ _ (by rw [hn]; omega), fld_eq w _ _ _ (by rw [hn]; omega), fld_eq w _ _ _ (by rw [hn]; omega),
    and_segs w _ _ (and_segs w _ _ (and_seg w 23 1 (fld_eq w _ _ _ (by rw [hn]; show _ = 0; omega))) (and_seg w 10 6 (fld_eq w _ _ _ (by rw [hn]; show _ = 0; omega)))) (and_seg w 0 8 (fld_eq w _ _ _ (by rw [hn]; show _ = 0; omega)))⟩

theorem partsf8z1f7f8 (w : W32) (op : BitVec 8) (x0 : BitVec 8) (x1 : BitVec 7) (x2 : BitVec 8) (h : op ++ x0 ++ 0#1 ++ x1 ++ x2 = w) :
    fld w 28 4 = op.extractLsb' 4 4 ∧ opcodeOf w = op ∧ fld w 16 8 = x0 ∧ fld w 8 7 = x1 ∧ fld w 0 8 = x2 ∧ w &&& 0x008000#32 = 0 := by
  have hn : w.toNat = ((((op.toNat * 2 ^ 8 + x0.toNat) * 2 ^ 1 + 0) * 2 ^ 7 + x1.toNat) * 2 ^ 8 + x2.toNat) := by
    rw [← h]; simp only [toNat_app]; rfl
  have ho := op.isLt
  have hx0 := x0.isLt
  have hx1 := x1.isLt
  have hx2 := x2.isLt
  refine ⟨fld_eq w _ _ _ (by rw [hn, BitVec.extractLsb'_toNat, Nat.shiftRight_eq_div_pow]; omega), fld_eq w _ _ _ (by rw [hn]; omega), fld_eq w _ _ _ (by rw [hn]; omega), fld_eq w _ _ _ (by rw [hn]; omega), fld_eq w _ _ _ (by rw [hn]; omega),
    and_seg w 15 1 (fld_eq w _ _ _ (by rw [hn]; show _ = 0; omega))⟩

theorem partsz6f2z16 (w : W32) (op : BitVec 8) (x0 : BitVec 2) (h : op ++ 0#6 ++ x0 ++ 0#16 = w) :
    fld w 28 4 = op.extractLsb' 4 4 ∧ opcodeOf w = op ∧ fld w 16 2 = x0 ∧ w &&& 0xFCFFFF#32 = 0 := by
  have hn : w.toNat = (((op.toNat * 2 ^ 6 + 0) * 2 ^ 2 + x0.toNat) * 2 ^ 16 + 0) := by
    rw [← h]; simp only [toNat_app]; rfl
  have ho := op.isLt
  have hx0 := x0.isLt
  refine ⟨fld_eq w _ _ _ (by rw [hn, BitVec.extractLsb'_toNat, Nat.shiftRight_eq_div_pow]; omega), fld_eq w _ _ _ (by rw [hn]; omega), fld_eq w _ _ _ (by rw [hn]; omega),
    and_segs w _ _ (and_seg w 18 6 (fld_eq w _ _ _ (by rw [hn]; show _ = 0; omega))) (and_seg w 0 16 (fld_eq w _ _ _ (by rw [hn]; show _ = 0; omega)))⟩

theorem add d a b : Statement (.add d a b) := fun w _ he => by
  obtain ⟨hr, ho, h0, h1, h2⟩ := partsf8f8f8 w 0x01 d a b (Option.some.inj he)
  simp [decode, hr, decodeRow0, ho, checked, h0, h1, h2]

theorem sub d a b : Statement (.sub d a b) := fun w _ he => by
  obtain ⟨hr, ho, h0, h1, h2⟩ := partsf8f8f8 w 0x02 d a b (Option.some.inj he)
  simp [decode, hr, decodeRow0, ho, checked, h0, h1, h2]

theorem mul d a b : Statement (.mul d a b) := fun w _ he => by
  obtain ⟨hr, ho, h0, h1, h2⟩ := partsf8f8f8 w 0x03 d a b (Option.some.inj he)
  simp [decode, hr, decodeRow0, ho, checked, h0, h1, h2]

theorem mulhi d a b : Statement (.mulhi d a b) := fun w _ he => by
  obtain ⟨hr, ho, h0, h1, h2⟩ := partsf8f8f8 w 0x04 d a b (Option.some.inj he)
  simp [decode, hr, decodeRow0, ho, checked, h0, h1, h2]

theorem div d a b : Statement (.div d a b) := fun w _ he => by
  obtain ⟨hr, ho, h0, h1, h2⟩ := partsf8f8f8 w 0x05 d a b (Option.some.inj he)
  simp [decode, hr, decodeRow0, ho, checked, h0, h1, h2]

theorem and d a b : Statement (.and d a b) := fun w _ he => by
  obtain ⟨hr, ho, h0, h1, h2⟩ := partsf8f8f8 w 0x06 d a b (Option.some.inj he)
  simp [decode, hr, decodeRow0, ho, checked, h0, h1, h2]

theorem or d a b : Statement (.or d a b) := fun w _ he => by
  obtain ⟨hr, ho, h0, h1, h2⟩ := partsf8f8f8 w 0x07 d a b (Option.some.inj he)
  simp [decode, hr, decodeRow0, ho, checked, h0, h1, h2]

theorem xor d a b : Statement (.xor d a b) := fun w _ he => by
  obtain ⟨hr, ho, h0, h1, h2⟩ := partsf8f8f8 w 0x08 d a b (Option.some.inj he)
  simp [decode, hr, decodeRow0, ho, checked, h0, h1, h2]

theorem shl d a b : Statement (.shl d a b) := fun w _ he => by
  obtain ⟨hr, ho, h0, h1, h2⟩ := partsf8f8f8 w 0x09 d a b (Option.some.inj he)
  simp [decode, hr, decodeRow0, ho, checked, h0, h1, h2]

theorem shr d a b : Statement (.shr d a b) := fun w _ he => by
  obtain ⟨hr, ho, h0, h1, h2⟩ := partsf8f8f8 w 0x0A d a b (Option.some.inj he)
  simp [decode, hr, decodeRow0, ho, checked, h0, h1, h2]

theorem shra d a b : Statement (.shra d a b) := fun w _ he => by
  obtain ⟨hr, ho, h0, h1, h2⟩ := partsf8f8f8 w 0x0B d a b (Option.some.inj he)
  simp [decode, hr, decodeRow0, ho, checked, h0, h1, h2]

theorem slt d a b : Statement (.slt d a b) := fun w _ he => by
  obtain ⟨hr, ho, h0, h1, h2⟩ := partsf8f8f8 w 0x0C d a b (Option.some.inj he)
  simp [decode, hr, decodeRow0, ho, checked, h0, h1, h2]

theorem sel d a b : Statement (.sel d a b) := fun w _ he => by
  obtain ⟨hr, ho, h0, h1, h2⟩ := partsf8f8f8 w 0x0D d a b (Option.some.inj he)
  simp [decode, hr, decodeRow0, ho, checked, h0, h1, h2]

theorem setlo d i : Statement (.setlo d i) := fun w _ he => by
  obtain ⟨hr, ho, h0, h1⟩ := partsf8f16 w 0x0E d i (Option.some.inj he)
  simp [decode, hr, decodeRow0, ho, checked, h0, h1]

theorem sethi d i : Statement (.sethi d i) := fun w _ he => by
  obtain ⟨hr, ho, h0, h1⟩ := partsf8f16 w 0x0F d i (Option.some.inj he)
  simp [decode, hr, decodeRow0, ho, checked, h0, h1]

theorem bra o : Statement (.bra o) := fun w _ he => by
  obtain ⟨hr, ho, h0, hm⟩ := partsz8f16 w 0x10 o (Option.some.inj he)
  simp [decode, hr, decodeRow1, ho, checked, h0, hm]

theorem bz a o : Statement (.bz a o) := fun w _ he => by
  obtain ⟨hr, ho, h0, h1⟩ := partsf8f16 w 0x11 a o (Option.some.inj he)
  simp [decode, hr, decodeRow1, ho, checked, h0, h1]

theorem bnz a o : Statement (.bnz a o) := fun w _ he => by
  obtain ⟨hr, ho, h0, h1⟩ := partsf8f16 w 0x12 a o (Option.some.inj he)
  simp [decode, hr, decodeRow1, ho, checked, h0, h1]

theorem blt a o : Statement (.blt a o) := fun w _ he => by
  obtain ⟨hr, ho, h0, h1⟩ := partsf8f16 w 0x13 a o (Option.some.inj he)
  simp [decode, hr, decodeRow1, ho, checked, h0, h1]

theorem bge a o : Statement (.bge a o) := fun w _ he => by
  obtain ⟨hr, ho, h0, h1⟩ := partsf8f16 w 0x14 a o (Option.some.inj he)
  simp [decode, hr, decodeRow1, ho, checked, h0, h1]

theorem call a o : Statement (.call a o) := fun w _ he => by
  obtain ⟨hr, ho, h0, h1⟩ := partsf8f16 w 0x15 a o (Option.some.inj he)
  simp [decode, hr, decodeRow1, ho, checked, h0, h1]

theorem callx a : Statement (.callx a) := fun w _ he => by
  obtain ⟨hr, ho, h0, hm⟩ := partsf8z16 w 0x16 a (Option.some.inj he)
  simp [decode, hr, decodeRow1, ho, checked, h0, hm]

theorem ret a : Statement (.ret a) := fun w _ he => by
  obtain ⟨hr, ho, h0, hm⟩ := partsf8z16 w 0x17 a (Option.some.inj he)
  simp [decode, hr, decodeRow1, ho, checked, h0, hm]

theorem jmpx a : Statement (.jmpx a) := fun w _ he => by
  obtain ⟨hr, ho, h0, hm⟩ := partsf8z16 w 0x18 a (Option.some.inj he)
  simp [decode, hr, decodeRow1, ho, checked, h0, hm]

theorem loop a o : Statement (.loop a o) := fun w _ he => by
  obtain ⟨hr, ho, h0, h1⟩ := partsf8f16 w 0x19 a o (Option.some.inj he)
  simp [decode, hr, decodeRow1, ho, checked, h0, h1]

theorem sld8 d p s o b : Statement (.sld8 d p s o b) := fun w _ he => by
  obtain ⟨hr, ho, h0, h1, h2, h3, h4⟩ := partsf8f5f3f2f6 w 0x20 d p s o b (Option.some.inj he)
  simp [decode, hr, decodeRow2, ho, checked, h0, h1, h2, h3, h4]

theorem sld16 d p s o b : Statement (.sld16 d p s o b) := fun w _ he => by
  obtain ⟨hr, ho, h0, h1, h2, h3, h4⟩ := partsf8f5f3f2f6 w 0x21 d p s o b (Option.some.inj he)
  simp [decode, hr, decodeRow2, ho, checked, h0, h1, h2, h3, h4]

theorem sld32 d p s o b : Statement (.sld32 d p s o b) := fun w _ he => by
  obtain ⟨hr, ho, h0, h1, h2, h3, h4⟩ := partsf8f5f3f2f6 w 0x22 d p s o b (Option.some.inj he)
  simp [decode, hr, decodeRow2, ho, checked, h0, h1, h2, h3, h4]

theorem sld64 d p s o b : Statement (.sld64 d p s o b) := fun w _ he => by
  obtain ⟨hr, ho, h0, h1, h2, h3, h4⟩ := partsf8f5f3f2f6 w 0x23 d p s o b (Option.some.inj he)
  simp [decode, hr, decodeRow2, ho, checked, h0, h1, h2, h3, h4]

theorem sst8 d p s o b : Statement (.sst8 d p s o b) := fun w _ he => by
  obtain ⟨hr, ho, h0, h1, h2, h3, h4⟩ := partsf8f5f3f2f6 w 0x24 d p s o b (Option.some.inj he)
  simp [decode, hr, decodeRow2, ho, checked, h0, h1, h2, h3, h4]

theorem sst16 d p s o b : Statement (.sst16 d p s o b) := fun w _ he => by
  obtain ⟨hr, ho, h0, h1, h2, h3, h4⟩ := partsf8f5f3f2f6 w 0x25 d p s o b (Option.some.inj he)
  simp [decode, hr, decodeRow2, ho, checked, h0, h1, h2, h3, h4]

theorem sst32 d p s o b : Statement (.sst32 d p s o b) := fun w _ he => by
  obtain ⟨hr, ho, h0, h1, h2, h3, h4⟩ := partsf8f5f3f2f6 w 0x26 d p s o b (Option.some.inj he)
  simp [decode, hr, decodeRow2, ho, checked, h0, h1, h2, h3, h4]

theorem sst64 d p s o b : Statement (.sst64 d p s o b) := fun w _ he => by
  obtain ⟨hr, ho, h0, h1, h2, h3, h4⟩ := partsf8f5f3f2f6 w 0x27 d p s o b (Option.some.inj he)
  simp [decode, hr, decodeRow2, ho, checked, h0, h1, h2, h3, h4]

theorem sread d y : Statement (.sread d y) := fun w _ he => by
  obtain ⟨hr, ho, h0, h1, hm⟩ := partsf8f8z8 w 0x28 d y (Option.some.inj he)
  simp [decode, hr, decodeRow2, ho, checked, h0, h1, hm]

theorem swrite y b : Statement (.swrite y b) := fun w _ he => by
  obtain ⟨hr, ho, h0, h1, hm⟩ := partsz8f8f8 w 0x29 y b (Option.some.inj he)
  simp [decode, hr, decodeRow2, ho, checked, h0, h1, hm]

theorem icinv a b : Statement (.icinv a b) := fun w _ he => by
  obtain ⟨hr, ho, h0, h1, hm⟩ := partsz8f8f8 w 0x2A a b (Option.some.inj he)
  simp [decode, hr, decodeRow2, ho, checked, h0, h1, hm]

theorem mode i : Statement (.mode i) := fun w _ he => by
  obtain ⟨hr, ho, h0⟩ := partsf24 w 0x30 i (Option.some.inj he)
  simp [decode, hr, decodeRow3, ho, checked, h0]

theorem moderd d : Statement (.moderd d) := fun w _ he => by
  obtain ⟨hr, ho, h0, hm⟩ := partsf8z16 w 0x31 d (Option.some.inj he)
  simp [decode, hr, decodeRow3, ho, checked, h0, hm]

theorem shape a : Statement (.shape a) := fun w _ he => by
  obtain ⟨hr, ho, h0, hm⟩ := partsz8f8z8 w 0x32 a (Option.some.inj he)
  simp [decode, hr, decodeRow3, ho, checked, h0, hm]

theorem shaperd d : Statement (.shaperd d) := fun w _ he => by
  obtain ⟨hr, ho, h0, hm⟩ := partsf8z16 w 0x33 d (Option.some.inj he)
  simp [decode, hr, decodeRow3, ho, checked, h0, hm]

theorem bararr n : Statement (.bararr n) := fun w _ he => by
  obtain ⟨hr, ho, h0, hm⟩ := partsz12f4z8 w 0x34 n (Option.some.inj he)
  simp [decode, hr, decodeRow3, ho, checked, h0, hm]

theorem barwait n : Statement (.barwait n) := fun w _ he => by
  obtain ⟨hr, ho, h0, hm⟩ := partsz12f4z8 w 0x35 n (Option.some.inj he)
  simp [decode, hr, decodeRow3, ho, checked, h0, hm]

theorem barsync n : Statement (.barsync n) := fun w _ he => by
  obtain ⟨hr, ho, h0, hm⟩ := partsz12f4z8 w 0x36 n (Option.some.inj he)
  simp [decode, hr, decodeRow3, ho, checked, h0, hm]

theorem rquota d n b : Statement (.rquota d n b) := fun w _ he => by
  obtain ⟨hr, ho, h0, h1, h2, hm⟩ := partsf8z4f4f8 w 0x37 d n b (Option.some.inj he)
  simp [decode, hr, decodeRow3, ho, checked, h0, h1, h2, hm]

theorem step : Statement (.step) := fun w _ he => by
  obtain ⟨hr, ho, hm⟩ := partsz24 w 0x38 (Option.some.inj he)
  simp [decode, hr, decodeRow3, ho, checked, hm]

theorem vadd d a b : Statement (.vadd d a b) := fun w _ he => by
  obtain ⟨hr, ho, h0, h1, h2⟩ := partsf8f8f8 w 0x40 d a b (Option.some.inj he)
  simp [decode, hr, decodeRow4, ho, checked, h0, h1, h2]

theorem vsub d a b : Statement (.vsub d a b) := fun w _ he => by
  obtain ⟨hr, ho, h0, h1, h2⟩ := partsf8f8f8 w 0x41 d a b (Option.some.inj he)
  simp [decode, hr, decodeRow4, ho, checked, h0, h1, h2]

theorem vmul d a b : Statement (.vmul d a b) := fun w _ he => by
  obtain ⟨hr, ho, h0, h1, h2⟩ := partsf8f8f8 w 0x42 d a b (Option.some.inj he)
  simp [decode, hr, decodeRow4, ho, checked, h0, h1, h2]

theorem vfma d a b : Statement (.vfma d a b) := fun w _ he => by
  obtain ⟨hr, ho, h0, h1, h2⟩ := partsf8f8f8 w 0x43 d a b (Option.some.inj he)
  simp [decode, hr, decodeRow4, ho, checked, h0, h1, h2]

theorem vfms d a b : Statement (.vfms d a b) := fun w _ he => by
  obtain ⟨hr, ho, h0, h1, h2⟩ := partsf8f8f8 w 0x44 d a b (Option.some.inj he)
  simp [decode, hr, decodeRow4, ho, checked, h0, h1, h2]

theorem vfnma d a b : Statement (.vfnma d a b) := fun w _ he => by
  obtain ⟨hr, ho, h0, h1, h2⟩ := partsf8f8f8 w 0x45 d a b (Option.some.inj he)
  simp [decode, hr, decodeRow4, ho, checked, h0, h1, h2]

theorem vmin d a b : Statement (.vmin d a b) := fun w _ he => by
  obtain ⟨hr, ho, h0, h1, h2⟩ := partsf8f8f8 w 0x46 d a b (Option.some.inj he)
  simp [decode, hr, decodeRow4, ho, checked, h0, h1, h2]

theorem vmax d a b : Statement (.vmax d a b) := fun w _ he => by
  obtain ⟨hr, ho, h0, h1, h2⟩ := partsf8f8f8 w 0x47 d a b (Option.some.inj he)
  simp [decode, hr, decodeRow4, ho, checked, h0, h1, h2]

theorem vabs d a : Statement (.vabs d a) := fun w _ he => by
  obtain ⟨hr, ho, h0, h1, hm⟩ := partsf8f8z8 w 0x48 d a (Option.some.inj he)
  simp [decode, hr, decodeRow4, ho, checked, h0, h1, hm]

theorem vneg d a : Statement (.vneg d a) := fun w _ he => by
  obtain ⟨hr, ho, h0, h1, hm⟩ := partsf8f8z8 w 0x49 d a (Option.some.inj he)
  simp [decode, hr, decodeRow4, ho, checked, h0, h1, hm]

theorem vdiv d a b : Statement (.vdiv d a b) := fun w _ he => by
  obtain ⟨hr, ho, h0, h1, h2⟩ := partsf8f8f8 w 0x4A d a b (Option.some.inj he)
  simp [decode, hr, decodeRow4, ho, checked, h0, h1, h2]

theorem vsqrt d a : Statement (.vsqrt d a) := fun w _ he => by
  obtain ⟨hr, ho, h0, h1, hm⟩ := partsf8f8z8 w 0x4B d a (Option.some.inj he)
  simp [decode, hr, decodeRow4, ho, checked, h0, h1, hm]

theorem vrcp d a : Statement (.vrcp d a) := fun w _ he => by
  obtain ⟨hr, ho, h0, h1, hm⟩ := partsf8f8z8 w 0x4C d a (Option.some.inj he)
  simp [decode, hr, decodeRow4, ho, checked, h0, h1, hm]

theorem vrsq d a : Statement (.vrsq d a) := fun w _ he => by
  obtain ⟨hr, ho, h0, h1, hm⟩ := partsf8f8z8 w 0x4D d a (Option.some.inj he)
  simp [decode, hr, decodeRow4, ho, checked, h0, h1, hm]

theorem vexp2 d a : Statement (.vexp2 d a) := fun w _ he => by
  obtain ⟨hr, ho, h0, h1, hm⟩ := partsf8f8z8 w 0x4E d a (Option.some.inj he)
  simp [decode, hr, decodeRow4, ho, checked, h0, h1, hm]

theorem vlog2 d a : Statement (.vlog2 d a) := fun w _ he => by
  obtain ⟨hr, ho, h0, h1, hm⟩ := partsf8f8z8 w 0x4F d a (Option.some.inj he)
  simp [decode, hr, decodeRow4, ho, checked, h0, h1, hm]

theorem vand d a b : Statement (.vand d a b) := fun w _ he => by
  obtain ⟨hr, ho, h0, h1, h2⟩ := partsf8f8f8 w 0x50 d a b (Option.some.inj he)
  simp [decode, hr, decodeRow5, ho, checked, h0, h1, h2]

theorem vor d a b : Statement (.vor d a b) := fun w _ he => by
  obtain ⟨hr, ho, h0, h1, h2⟩ := partsf8f8f8 w 0x51 d a b (Option.some.inj he)
  simp [decode, hr, decodeRow5, ho, checked, h0, h1, h2]

theorem vxor d a b : Statement (.vxor d a b) := fun w _ he => by
  obtain ⟨hr, ho, h0, h1, h2⟩ := partsf8f8f8 w 0x52 d a b (Option.some.inj he)
  simp [decode, hr, decodeRow5, ho, checked, h0, h1, h2]

theorem vnot d a : Statement (.vnot d a) := fun w _ he => by
  obtain ⟨hr, ho, h0, h1, hm⟩ := partsf8f8z8 w 0x53 d a (Option.some.inj he)
  simp [decode, hr, decodeRow5, ho, checked, h0, h1, hm]

theorem vshl d a b : Statement (.vshl d a b) := fun w _ he => by
  obtain ⟨hr, ho, h0, h1, h2⟩ := partsf8f8f8 w 0x54 d a b (Option.some.inj he)
  simp [decode, hr, decodeRow5, ho, checked, h0, h1, h2]

theorem vshr d a b : Statement (.vshr d a b) := fun w _ he => by
  obtain ⟨hr, ho, h0, h1, h2⟩ := partsf8f8f8 w 0x55 d a b (Option.some.inj he)
  simp [decode, hr, decodeRow5, ho, checked, h0, h1, h2]

theorem vshra d a b : Statement (.vshra d a b) := fun w _ he => by
  obtain ⟨hr, ho, h0, h1, h2⟩ := partsf8f8f8 w 0x56 d a b (Option.some.inj he)
  simp [decode, hr, decodeRow5, ho, checked, h0, h1, h2]

theorem vrot d a b : Statement (.vrot d a b) := fun w _ he => by
  obtain ⟨hr, ho, h0, h1, h2⟩ := partsf8f8f8 w 0x57 d a b (Option.some.inj he)
  simp [decode, hr, decodeRow5, ho, checked, h0, h1, h2]

theorem vmulhi d a b : Statement (.vmulhi d a b) := fun w _ he => by
  obtain ⟨hr, ho, h0, h1, h2⟩ := partsf8f8f8 w 0x58 d a b (Option.some.inj he)
  simp [decode, hr, decodeRow5, ho, checked, h0, h1, h2]

theorem vsel d a b : Statement (.vsel d a b) := fun w _ he => by
  obtain ⟨hr, ho, h0, h1, h2⟩ := partsf8f8f8 w 0x59 d a b (Option.some.inj he)
  simp [decode, hr, decodeRow5, ho, checked, h0, h1, h2]

theorem vclz d a : Statement (.vclz d a) := fun w _ he => by
  obtain ⟨hr, ho, h0, h1, hm⟩ := partsf8f8z8 w 0x5A d a (Option.some.inj he)
  simp [decode, hr, decodeRow5, ho, checked, h0, h1, hm]

theorem vpopc d a : Statement (.vpopc d a) := fun w _ he => by
  obtain ⟨hr, ho, h0, h1, hm⟩ := partsf8f8z8 w 0x5B d a (Option.some.inj he)
  simp [decode, hr, decodeRow5, ho, checked, h0, h1, hm]

theorem vfloor d a : Statement (.vfloor d a) := fun w _ he => by
  obtain ⟨hr, ho, h0, h1, hm⟩ := partsf8f8z8 w 0x5C d a (Option.some.inj he)
  simp [decode, hr, decodeRow5, ho, checked, h0, h1, hm]

theorem vceil d a : Statement (.vceil d a) := fun w _ he => by
  obtain ⟨hr, ho, h0, h1, hm⟩ := partsf8f8z8 w 0x5D d a (Option.some.inj he)
  simp [decode, hr, decodeRow5, ho, checked, h0, h1, hm]

theorem vround d a : Statement (.vround d a) := fun w _ he => by
  obtain ⟨hr, ho, h0, h1, hm⟩ := partsf8f8z8 w 0x5E d a (Option.some.inj he)
  simp [decode, hr, decodeRow5, ho, checked, h0, h1, hm]

theorem vtrunc d a : Statement (.vtrunc d a) := fun w _ he => by
  obtain ⟨hr, ho, h0, h1, hm⟩ := partsf8f8z8 w 0x5F d a (Option.some.inj he)
  simp [decode, hr, decodeRow5, ho, checked, h0, h1, hm]

theorem vbcast d a b : Statement (.vbcast d a b) := fun w _ he => by
  obtain ⟨hr, ho, h0, h1, h2⟩ := partsf8f8f8 w 0x60 d a b (Option.some.inj he)
  simp [decode, hr, decodeRow6, ho, checked, h0, h1, h2]

theorem vperm d a b : Statement (.vperm d a b) := fun w _ he => by
  obtain ⟨hr, ho, h0, h1, h2⟩ := partsf8f8f8 w 0x61 d a b (Option.some.inj he)
  simp [decode, hr, decodeRow6, ho, checked, h0, h1, h2]

theorem vlrot d a b : Statement (.vlrot d a b) := fun w _ he => by
  obtain ⟨hr, ho, h0, h1, h2⟩ := partsf8f8f8 w 0x62 d a b (Option.some.inj he)
  simp [decode, hr, decodeRow6, ho, checked, h0, h1, h2]

theorem vscan d a : Statement (.vscan d a) := fun w _ he => by
  obtain ⟨hr, ho, h0, h1, hm⟩ := partsf8f8z8 w 0x63 d a (Option.some.inj he)
  simp [decode, hr, decodeRow6, ho, checked, h0, h1, hm]

theorem vradd d a : Statement (.vradd d a) := fun w _ he => by
  obtain ⟨hr, ho, h0, h1, hm⟩ := partsf8f8z8 w 0x64 d a (Option.some.inj he)
  simp [decode, hr, decodeRow6, ho, checked, h0, h1, hm]

theorem vrmin d a : Statement (.vrmin d a) := fun w _ he => by
  obtain ⟨hr, ho, h0, h1, hm⟩ := partsf8f8z8 w 0x65 d a (Option.some.inj he)
  simp [decode, hr, decodeRow6, ho, checked, h0, h1, hm]

theorem vrmax d a : Statement (.vrmax d a) := fun w _ he => by
  obtain ⟨hr, ho, h0, h1, hm⟩ := partsf8f8z8 w 0x66 d a (Option.some.inj he)
  simp [decode, hr, decodeRow6, ho, checked, h0, h1, hm]

theorem vmovs d a b : Statement (.vmovs d a b) := fun w _ he => by
  obtain ⟨hr, ho, h0, h1, h2⟩ := partsf8f8f8 w 0x67 d a b (Option.some.inj he)
  simp [decode, hr, decodeRow6, ho, checked, h0, h1, h2]

theorem vins d a b : Statement (.vins d a b) := fun w _ he => by
  obtain ⟨hr, ho, h0, h1, h2⟩ := partsf8f8f8 w 0x68 d a b (Option.some.inj he)
  simp [decode, hr, decodeRow6, ho, checked, h0, h1, h2]

theorem vcsign d a b : Statement (.vcsign d a b) := fun w _ he => by
  obtain ⟨hr, ho, h0, h1, h2⟩ := partsf8f8f8 w 0x69 d a b (Option.some.inj he)
  simp [decode, hr, decodeRow6, ho, checked, h0, h1, h2]

theorem vceq q a b : Statement (.vceq q a b) := fun w _ he => by
  obtain ⟨hr, ho, h0, h1, h2, hm⟩ := partsz5f3f8f8 w 0x70 q a b (Option.some.inj he)
  simp [decode, hr, decodeRow7, ho, checked, h0, h1, h2, hm]

theorem vcne q a b : Statement (.vcne q a b) := fun w _ he => by
  obtain ⟨hr, ho, h0, h1, h2, hm⟩ := partsz5f3f8f8 w 0x71 q a b (Option.some.inj he)
  simp [decode, hr, decodeRow7, ho, checked, h0, h1, h2, hm]

theorem vclt q a b : Statement (.vclt q a b) := fun w _ he => by
  obtain ⟨hr, ho, h0, h1, h2, hm⟩ := partsz5f3f8f8 w 0x72 q a b (Option.some.inj he)
  simp [decode, hr, decodeRow7, ho, checked, h0, h1, h2, hm]

theorem vcle q a b : Statement (.vcle q a b) := fun w _ he => by
  obtain ⟨hr, ho, h0, h1, h2, hm⟩ := partsz5f3f8f8 w 0x73 q a b (Option.some.inj he)
  simp [decode, hr, decodeRow7, ho, checked, h0, h1, h2, hm]

theorem vcgt q a b : Statement (.vcgt q a b) := fun w _ he => by
  obtain ⟨hr, ho, h0, h1, h2, hm⟩ := partsz5f3f8f8 w 0x74 q a b (Option.some.inj he)
  simp [decode, hr, decodeRow7, ho, checked, h0, h1, h2, hm]

theorem vcge q a b : Statement (.vcge q a b) := fun w _ he => by
  obtain ⟨hr, ho, h0, h1, h2, hm⟩ := partsz5f3f8f8 w 0x75 q a b (Option.some.inj he)
  simp [decode, hr, decodeRow7, ho, checked, h0, h1, h2, hm]

theorem vcuno q a b : Statement (.vcuno q a b) := fun w _ he => by
  obtain ⟨hr, ho, h0, h1, h2, hm⟩ := partsz5f3f8f8 w 0x76 q a b (Option.some.inj he)
  simp [decode, hr, decodeRow7, ho, checked, h0, h1, h2, hm]

theorem pand d x a y b : Statement (.pand d x a y b) := fun w _ he => by
  obtain ⟨hr, ho, h0, h1, h2, h3, h4, hm⟩ := partsz5f3z4f1f3z4f1f3 w 0x77 d x a y b (Option.some.inj he)
  simp [decode, hr, decodeRow7, ho, checked, h0, h1, h2, h3, h4, hm]

theorem por d x a y b : Statement (.por d x a y b) := fun w _ he => by
  obtain ⟨hr, ho, h0, h1, h2, h3, h4, hm⟩ := partsz5f3z4f1f3z4f1f3 w 0x78 d x a y b (Option.some.inj he)
  simp [decode, hr, decodeRow7, ho, checked, h0, h1, h2, h3, h4, hm]

theorem pxor d x a y b : Statement (.pxor d x a y b) := fun w _ he => by
  obtain ⟨hr, ho, h0, h1, h2, h3, h4, hm⟩ := partsz5f3z4f1f3z4f1f3 w 0x79 d x a y b (Option.some.inj he)
  simp [decode, hr, decodeRow7, ho, checked, h0, h1, h2, h3, h4, hm]

theorem pnot d x a : Statement (.pnot d x a) := fun w _ he => by
  obtain ⟨hr, ho, h0, h1, h2, hm⟩ := partsz5f3z4f1f3z8 w 0x7A d x a (Option.some.inj he)
  simp [decode, hr, decodeRow7, ho, checked, h0, h1, h2, hm]

theorem vif x a : Statement (.vif x a) := fun w _ he => by
  obtain ⟨hr, ho, h0, h1, hm⟩ := partsz12f1f3z8 w 0x7B x a (Option.some.inj he)
  simp [decode, hr, decodeRow7, ho, checked, h0, h1, hm]

theorem velse : Statement (.velse) := fun w _ he => by
  obtain ⟨hr, ho, hm⟩ := partsz24 w 0x7C (Option.some.inj he)
  simp [decode, hr, decodeRow7, ho, checked, hm]

theorem vendif : Statement (.vendif) := fun w _ he => by
  obtain ⟨hr, ho, hm⟩ := partsz24 w 0x7D (Option.some.inj he)
  simp [decode, hr, decodeRow7, ho, checked, hm]

theorem vany d x a : Statement (.vany d x a) := fun w _ he => by
  obtain ⟨hr, ho, h0, h1, h2, hm⟩ := partsf8z4f1f3z8 w 0x7E d x a (Option.some.inj he)
  simp [decode, hr, decodeRow7, ho, checked, h0, h1, h2, hm]

theorem vall d x a : Statement (.vall d x a) := fun w _ he => by
  obtain ⟨hr, ho, h0, h1, h2, hm⟩ := partsf8z4f1f3z8 w 0x7F d x a (Option.some.inj he)
  simp [decode, hr, decodeRow7, ho, checked, h0, h1, h2, hm]

theorem cvtif d a : Statement (.cvtif d a) := fun w _ he => by
  obtain ⟨hr, ho, h0, h1, hm⟩ := partsf8f8z8 w 0x80 d a (Option.some.inj he)
  simp [decode, hr, decodeRow8, ho, checked, h0, h1, hm]

theorem cvtfi d a : Statement (.cvtfi d a) := fun w _ he => by
  obtain ⟨hr, ho, h0, h1, hm⟩ := partsf8f8z8 w 0x81 d a (Option.some.inj he)
  simp [decode, hr, decodeRow8, ho, checked, h0, h1, hm]

theorem cvtnf d a f : Statement (.cvtnf d a f) := fun w _ he => by
  obtain ⟨hr, ho, h0, h1, h2, hm⟩ := partsf8f8z4f4 w 0x82 d a f (Option.some.inj he)
  simp [decode, hr, decodeRow8, ho, checked, h0, h1, h2, hm]

theorem cvtfn d a f : Statement (.cvtfn d a f) := fun w _ he => by
  obtain ⟨hr, ho, h0, h1, h2, hm⟩ := partsf8f8z4f4 w 0x83 d a f (Option.some.inj he)
  simp [decode, hr, decodeRow8, ho, checked, h0, h1, h2, hm]

theorem cvtfh d a b : Statement (.cvtfh d a b) := fun w _ he => by
  obtain ⟨hr, ho, h0, h1, h2⟩ := partsf8f8f8 w 0x84 d a b (Option.some.inj he)
  simp [decode, hr, decodeRow8, ho, checked, h0, h1, h2]

theorem cvthf d a s : Statement (.cvthf d a s) := fun w _ he => by
  obtain ⟨hr, ho, h0, h1, h2, hm⟩ := partsf8f8z7f1 w 0x85 d a s (Option.some.inj he)
  simp [decode, hr, decodeRow8, ho, checked, h0, h1, h2, hm]

theorem cvtfb d a b : Statement (.cvtfb d a b) := fun w _ he => by
  obtain ⟨hr, ho, h0, h1, h2⟩ := partsf8f8f8 w 0x86 d a b (Option.some.inj he)
  simp [decode, hr, decodeRow8, ho, checked, h0, h1, h2]

theorem cvtbf d a s : Statement (.cvtbf d a s) := fun w _ he => by
  obtain ⟨hr, ho, h0, h1, h2, hm⟩ := partsf8f8z7f1 w 0x87 d a s (Option.some.inj he)
  simp [decode, hr, decodeRow8, ho, checked, h0, h1, h2, hm]

theorem pack16 d a b : Statement (.pack16 d a b) := fun w _ he => by
  obtain ⟨hr, ho, h0, h1, h2⟩ := partsf8f8f8 w 0x88 d a b (Option.some.inj he)
  simp [decode, hr, decodeRow8, ho, checked, h0, h1, h2]

theorem unpk16 d a s : Statement (.unpk16 d a s) := fun w _ he => by
  obtain ⟨hr, ho, h0, h1, h2, hm⟩ := partsf8f8z7f1 w 0x89 d a s (Option.some.inj he)
  simp [decode, hr, decodeRow8, ho, checked, h0, h1, h2, hm]

theorem pack8 d a b : Statement (.pack8 d a b) := fun w _ he => by
  obtain ⟨hr, ho, h0, h1, h2⟩ := partsf8f8f8 w 0x8A d a b (Option.some.inj he)
  simp [decode, hr, decodeRow8, ho, checked, h0, h1, h2]

theorem unpk8 d a s : Statement (.unpk8 d a s) := fun w _ he => by
  obtain ⟨hr, ho, h0, h1, h2, hm⟩ := partsf8f8z7f1 w 0x8B d a s (Option.some.inj he)
  simp [decode, hr, decodeRow8, ho, checked, h0, h1, h2, hm]

theorem cvtn8 d a b : Statement (.cvtn8 d a b) := fun w _ he => by
  obtain ⟨hr, ho, h0, h1, h2⟩ := partsf8f8f8 w 0x8C d a b (Option.some.inj he)
  simp [decode, hr, decodeRow8, ho, checked, h0, h1, h2]

theorem cvtn6 d a b : Statement (.cvtn6 d a b) := fun w _ he => by
  obtain ⟨hr, ho, h0, h1, h2⟩ := partsf8f8f8 w 0x8D d a b (Option.some.inj he)
  simp [decode, hr, decodeRow8, ho, checked, h0, h1, h2]

theorem cvtn4 d a b : Statement (.cvtn4 d a b) := fun w _ he => by
  obtain ⟨hr, ho, h0, h1, h2⟩ := partsf8f8f8 w 0x8E d a b (Option.some.inj he)
  simp [decode, hr, decodeRow8, ho, checked, h0, h1, h2]

theorem cvtnx d a f : Statement (.cvtnx d a f) := fun w _ he => by
  obtain ⟨hr, ho, h0, h1, h2, hm⟩ := partsf8f8z4f4 w 0x8F d a f (Option.some.inj he)
  simp [decode, hr, decodeRow8, ho, checked, h0, h1, h2, hm]

theorem vld8 d p s o b : Statement (.vld8 d p s o b) := fun w _ he => by
  obtain ⟨hr, ho, h0, h1, h2, h3, h4⟩ := partsf8f5f3f2f6 w 0x90 d p s o b (Option.some.inj he)
  simp [decode, hr, decodeRow9, ho, checked, h0, h1, h2, h3, h4]

theorem vld16 d p s o b : Statement (.vld16 d p s o b) := fun w _ he => by
  obtain ⟨hr, ho, h0, h1, h2, h3, h4⟩ := partsf8f5f3f2f6 w 0x91 d p s o b (Option.some.inj he)
  simp [decode, hr, decodeRow9, ho, checked, h0, h1, h2, h3, h4]

theorem vld32 d p s o b : Statement (.vld32 d p s o b) := fun w _ he => by
  obtain ⟨hr, ho, h0, h1, h2, h3, h4⟩ := partsf8f5f3f2f6 w 0x92 d p s o b (Option.some.inj he)
  simp [decode, hr, decodeRow9, ho, checked, h0, h1, h2, h3, h4]

theorem vst8 d p s o b : Statement (.vst8 d p s o b) := fun w _ he => by
  obtain ⟨hr, ho, h0, h1, h2, h3, h4⟩ := partsf8f5f3f2f6 w 0x93 d p s o b (Option.some.inj he)
  simp [decode, hr, decodeRow9, ho, checked, h0, h1, h2, h3, h4]

theorem vst16 d p s o b : Statement (.vst16 d p s o b) := fun w _ he => by
  obtain ⟨hr, ho, h0, h1, h2, h3, h4⟩ := partsf8f5f3f2f6 w 0x94 d p s o b (Option.some.inj he)
  simp [decode, hr, decodeRow9, ho, checked, h0, h1, h2, h3, h4]

theorem vst32 d p s o b : Statement (.vst32 d p s o b) := fun w _ he => by
  obtain ⟨hr, ho, h0, h1, h2, h3, h4⟩ := partsf8f5f3f2f6 w 0x95 d p s o b (Option.some.inj he)
  simp [decode, hr, decodeRow9, ho, checked, h0, h1, h2, h3, h4]

theorem vpref p s o b : Statement (.vpref p s o b) := fun w _ he => by
  obtain ⟨hr, ho, h0, h1, h2, h3, hm⟩ := partsz8f5f3f2f6 w 0x96 p s o b (Option.some.inj he)
  simp [decode, hr, decodeRow9, ho, checked, h0, h1, h2, h3, hm]

theorem atadd d p s o b : Statement (.atadd d p s o b) := fun w _ he => by
  obtain ⟨hr, ho, h0, h1, h2, h3, h4⟩ := partsf8f5f3f2f6 w 0xA0 d p s o b (Option.some.inj he)
  simp [decode, hr, decodeRowA, ho, checked, h0, h1, h2, h3, h4]

theorem atmin d p s o b : Statement (.atmin d p s o b) := fun w _ he => by
  obtain ⟨hr, ho, h0, h1, h2, h3, h4⟩ := partsf8f5f3f2f6 w 0xA1 d p s o b (Option.some.inj he)
  simp [decode, hr, decodeRowA, ho, checked, h0, h1, h2, h3, h4]

theorem atmax d p s o b : Statement (.atmax d p s o b) := fun w _ he => by
  obtain ⟨hr, ho, h0, h1, h2, h3, h4⟩ := partsf8f5f3f2f6 w 0xA2 d p s o b (Option.some.inj he)
  simp [decode, hr, decodeRowA, ho, checked, h0, h1, h2, h3, h4]

theorem atand d p s o b : Statement (.atand d p s o b) := fun w _ he => by
  obtain ⟨hr, ho, h0, h1, h2, h3, h4⟩ := partsf8f5f3f2f6 w 0xA3 d p s o b (Option.some.inj he)
  simp [decode, hr, decodeRowA, ho, checked, h0, h1, h2, h3, h4]

theorem ator d p s o b : Statement (.ator d p s o b) := fun w _ he => by
  obtain ⟨hr, ho, h0, h1, h2, h3, h4⟩ := partsf8f5f3f2f6 w 0xA4 d p s o b (Option.some.inj he)
  simp [decode, hr, decodeRowA, ho, checked, h0, h1, h2, h3, h4]

theorem atxor d p s o b : Statement (.atxor d p s o b) := fun w _ he => by
  obtain ⟨hr, ho, h0, h1, h2, h3, h4⟩ := partsf8f5f3f2f6 w 0xA5 d p s o b (Option.some.inj he)
  simp [decode, hr, decodeRowA, ho, checked, h0, h1, h2, h3, h4]

theorem atxchg d p s o b : Statement (.atxchg d p s o b) := fun w _ he => by
  obtain ⟨hr, ho, h0, h1, h2, h3, h4⟩ := partsf8f5f3f2f6 w 0xA6 d p s o b (Option.some.inj he)
  simp [decode, hr, decodeRowA, ho, checked, h0, h1, h2, h3, h4]

theorem atcas d p s o b : Statement (.atcas d p s o b) := fun w _ he => by
  obtain ⟨hr, ho, h0, h1, h2, h3, h4⟩ := partsf8f5f3f2f6 w 0xA7 d p s o b (Option.some.inj he)
  simp [decode, hr, decodeRowA, ho, checked, h0, h1, h2, h3, h4]

theorem vatadd d p s o b : Statement (.vatadd d p s o b) := fun w _ he => by
  obtain ⟨hr, ho, h0, h1, h2, h3, h4⟩ := partsf8f5f3f2f6 w 0xA8 d p s o b (Option.some.inj he)
  simp [decode, hr, decodeRowA, ho, checked, h0, h1, h2, h3, h4]

theorem vatmin d p s o b : Statement (.vatmin d p s o b) := fun w _ he => by
  obtain ⟨hr, ho, h0, h1, h2, h3, h4⟩ := partsf8f5f3f2f6 w 0xA9 d p s o b (Option.some.inj he)
  simp [decode, hr, decodeRowA, ho, checked, h0, h1, h2, h3, h4]

theorem vatmax d p s o b : Statement (.vatmax d p s o b) := fun w _ he => by
  obtain ⟨hr, ho, h0, h1, h2, h3, h4⟩ := partsf8f5f3f2f6 w 0xAA d p s o b (Option.some.inj he)
  simp [decode, hr, decodeRowA, ho, checked, h0, h1, h2, h3, h4]

theorem vatxchg d p s o b : Statement (.vatxchg d p s o b) := fun w _ he => by
  obtain ⟨hr, ho, h0, h1, h2, h3, h4⟩ := partsf8f5f3f2f6 w 0xAB d p s o b (Option.some.inj he)
  simp [decode, hr, decodeRowA, ho, checked, h0, h1, h2, h3, h4]

theorem fence m s : Statement (.fence m s) := fun w _ he => by
  obtain ⟨hr, ho, h0, h1, hm⟩ := partsz8f8z5f3 w 0xAC m s (Option.some.inj he)
  simp [decode, hr, decodeRowA, ho, checked, h0, h1, hm]

theorem vatand d p s o b : Statement (.vatand d p s o b) := fun w _ he => by
  obtain ⟨hr, ho, h0, h1, h2, h3, h4⟩ := partsf8f5f3f2f6 w 0xAD d p s o b (Option.some.inj he)
  simp [decode, hr, decodeRowA, ho, checked, h0, h1, h2, h3, h4]

theorem vator d p s o b : Statement (.vator d p s o b) := fun w _ he => by
  obtain ⟨hr, ho, h0, h1, h2, h3, h4⟩ := partsf8f5f3f2f6 w 0xAE d p s o b (Option.some.inj he)
  simp [decode, hr, decodeRowA, ho, checked, h0, h1, h2, h3, h4]

theorem cst c x a b : Statement (.cst c x a b) := fun w _ he => by
  obtain ⟨hr, ho, h0, h1, h2, h3⟩ := partsf4f4f8f8 w 0xB0 c x a b (Option.some.inj he)
  simp [decode, hr, decodeRowB, ho, checked, h0, h1, h2, h3]

theorem catom c x a b : Statement (.catom c x a b) := fun w _ he => by
  obtain ⟨hr, ho, h0, h1, h2, h3⟩ := partsf4f4f8f8 w 0xB1 c x a b (Option.some.inj he)
  simp [decode, hr, decodeRowB, ho, checked, h0, h1, h2, h3]

theorem ccopy c a b : Statement (.ccopy c a b) := fun w _ he => by
  obtain ⟨hr, ho, h0, h1, h2, hm⟩ := partsf4z4f8f8 w 0xB2 c a b (Option.some.inj he)
  simp [decode, hr, decodeRowB, ho, checked, h0, h1, h2, hm]

theorem cjoin c x : Statement (.cjoin c x) := fun w _ he => by
  obtain ⟨hr, ho, h0, h1, hm⟩ := partsf4f4z16 w 0xB3 c x (Option.some.inj he)
  simp [decode, hr, decodeRowB, ho, checked, h0, h1, hm]

theorem cdrain c : Statement (.cdrain c) := fun w _ he => by
  obtain ⟨hr, ho, h0, hm⟩ := partsf4z20 w 0xB4 c (Option.some.inj he)
  simp [decode, hr, decodeRowB, ho, checked, h0, hm]

theorem mma t f m h v p : Statement (.mma t f m h v p) := fun w _ he => by
  obtain ⟨hr, ho, h0, h1, h2, h3, h4, h5, hm⟩ := partsf2f2f2f2z1f7z1f7 w 0xC0 t f m h v p (Option.some.inj he)
  simp [decode, hr, decodeRowC, ho, checked, h0, h1, h2, h3, h4, h5, hm]

theorem mzero t : Statement (.mzero t) := fun w _ he => by
  obtain ⟨hr, ho, h0, hm⟩ := partsf2z22 w 0xC1 t (Option.some.inj he)
  simp [decode, hr, decodeRowC, ho, checked, h0, hm]

theorem mxread t o g h v s : Statement (.mxread t o g h v s) := fun w _ he => by
  obtain ⟨hr, ho, h0, h1, h2, h3, h4, h5, hm⟩ := partsf2f1f4f1z1f7z5f3 w 0xC2 t o g h v s (Option.some.inj he)
  simp [decode, hr, decodeRowC, ho, checked, h0, h1, h2, h3, h4, h5, hm]

theorem mstore t m f : Statement (.mstore t m f) := fun w _ he => by
  obtain ⟨hr, ho, h0, h1, h2, hm⟩ := partsf2f2f2z18 w 0xC3 t m f (Option.some.inj he)
  simp [decode, hr, decodeRowC, ho, checked, h0, h1, h2, hm]

theorem mfence : Statement (.mfence) := fun w _ he => by
  obtain ⟨hr, ho, hm⟩ := partsz24 w 0xC4 (Option.some.inj he)
  simp [decode, hr, decodeRowC, ho, checked, hm]

theorem mbarwait n : Statement (.mbarwait n) := fun w _ he => by
  obtain ⟨hr, ho, h0, hm⟩ := partsz12f4z8 w 0xC5 n (Option.some.inj he)
  simp [decode, hr, decodeRowC, ho, checked, h0, hm]

theorem mbararr n : Statement (.mbararr n) := fun w _ he => by
  obtain ⟨hr, ho, h0, hm⟩ := partsz12f4z8 w 0xC6 n (Option.some.inj he)
  simp [decode, hr, decodeRowC, ho, checked, h0, hm]

theorem mfmt n i : Statement (.mfmt n i) := fun w _ he => by
  obtain ⟨hr, ho, h0, h1, hm⟩ := partsf2z6f16 w 0xC7 n i (Option.some.inj he)
  simp [decode, hr, decodeRowC, ho, checked, h0, h1, hm]

theorem mmap n i : Statement (.mmap n i) := fun w _ he => by
  obtain ⟨hr, ho, h0, h1, hm⟩ := partsf2z6f16 w 0xC8 n i (Option.some.inj he)
  simp [decode, hr, decodeRowC, ho, checked, h0, h1, hm]

theorem mbra o : Statement (.mbra o) := fun w _ he => by
  obtain ⟨hr, ho, h0, hm⟩ := partsz8f16 w 0xC9 o (Option.some.inj he)
  simp [decode, hr, decodeRowC, ho, checked, h0, hm]

theorem mloop l o i : Statement (.mloop l o i) := fun w _ he => by
  obtain ⟨hr, ho, h0, h1, h2, hm⟩ := partsf2z6f8f8 w 0xCA l o i (Option.some.inj he)
  simp [decode, hr, decodeRowC, ho, checked, h0, h1, h2, hm]

theorem mend : Statement (.mend) := fun w _ he => by
  obtain ⟨hr, ho, hm⟩ := partsz24 w 0xCB (Option.some.inj he)
  simp [decode, hr, decodeRowC, ho, checked, hm]

theorem nacc k n a b : Statement (.nacc k n a b) := fun w hw h => by
  obtain ⟨hr, ho, h0, h1, h2, h3, hm⟩ := partsz5f1f2f8f8 w 0xD0 k n a b (Option.some.inj h)
  have hk : w.getLsbD 18 = k.getLsbD 0 := by rw [← h0]; simp [fld]
  have hc : ∀ k : BitVec 1, k = 0 ∨ k = 1 := by decide
  obtain rfl | rfl := hc k
  · have hb : b = 0 := by
      simp [Instr.wellFormed, Instr.checks, WfCheck.holds] at hw
      exact hw.2
    subst hb
    have hz := (partsz5f1f2f8z8 w 0xD0 0 n a (Option.some.inj h)).2.2.2.2.2
    have hk' : w[18] = false := by simpa using hk
    simp [decode, hr, decodeRowD, ho, checked, h0, h1, h2, h3, hk', hz]
  · have hk' : w[18] = true := by simpa using hk
    simp [decode, hr, decodeRowD, ho, checked, h0, h1, h2, h3, hk', hm]

theorem neval d a k n : Statement (.neval d a k n) := fun w _ he => by
  obtain ⟨hr, ho, h0, h1, h2, h3, hm⟩ := partsf8f8z5f1f2 w 0xD1 d a k n (Option.some.inj he)
  simp [decode, hr, decodeRowD, ho, checked, h0, h1, h2, h3, hm]

theorem nrescale d n : Statement (.nrescale d n) := fun w _ he => by
  obtain ⟨hr, ho, h0, h1, hm⟩ := partsf8z6f2z8 w 0xD2 d n (Option.some.inj he)
  simp [decode, hr, decodeRowD, ho, checked, h0, h1, hm]

theorem nmerge n v : Statement (.nmerge n v) := fun w _ he => by
  obtain ⟨hr, ho, h0, h1, hm⟩ := partsz6f2z1f7z8 w 0xD3 n v (Option.some.inj he)
  simp [decode, hr, decodeRowD, ho, checked, h0, h1, hm]

theorem nfin d p t n : Statement (.nfin d p t n) := fun w _ he => by
  obtain ⟨hr, ho, h0, h1, h2, h3, hm⟩ := partsf8z1f3z1f1f2z8 w 0xD4 d p t n (Option.some.inj he)
  simp [decode, hr, decodeRowD, ho, checked, h0, h1, h2, h3, hm]

theorem nclear m : Statement (.nclear m) := fun w _ he => by
  obtain ⟨hr, ho, h0, hm⟩ := partsz4f4z16 w 0xD5 m (Option.some.inj he)
  simp [decode, hr, decodeRowD, ho, checked, h0, hm]

theorem nsave v n : Statement (.nsave v n) := fun w _ he => by
  obtain ⟨hr, ho, h0, h1, hm⟩ := partsz1f7z6f2z8 w 0xD6 v n (Option.some.inj he)
  simp [decode, hr, decodeRowD, ho, checked, h0, h1, hm]

theorem nload n v : Statement (.nload n v) := fun w _ he => by
  obtain ⟨hr, ho, h0, h1, hm⟩ := partsz6f2z1f7z8 w 0xD7 n v (Option.some.inj he)
  simp [decode, hr, decodeRowD, ho, checked, h0, h1, hm]

theorem ntable d v b : Statement (.ntable d v b) := fun w _ he => by
  obtain ⟨hr, ho, h0, h1, h2, hm⟩ := partsf8z1f7f8 w 0xD8 d v b (Option.some.inj he)
  simp [decode, hr, decodeRowD, ho, checked, h0, h1, h2, hm]

theorem nselect f : Statement (.nselect f) := fun w _ he => by
  obtain ⟨hr, ho, h0, hm⟩ := partsz6f2z16 w 0xD9 f (Option.some.inj he)
  simp [decode, hr, decodeRowD, ho, checked, h0, hm]

theorem copy d a b : Statement (.copy d a b) := fun w _ he => by
  obtain ⟨hr, ho, h0, h1, h2⟩ := partsf8f8f8 w 0xE0 d a b (Option.some.inj he)
  simp [decode, hr, decodeRowE, ho, checked, h0, h1, h2]

theorem fgraph d a b : Statement (.fgraph d a b) := fun w _ he => by
  obtain ⟨hr, ho, h0, h1, h2⟩ := partsf8f8f8 w 0xE1 d a b (Option.some.inj he)
  simp [decode, hr, decodeRowE, ho, checked, h0, h1, h2]

theorem waita d a b : Statement (.waita d a b) := fun w _ he => by
  obtain ⟨hr, ho, h0, h1, h2⟩ := partsf8f8f8 w 0xE2 d a b (Option.some.inj he)
  simp [decode, hr, decodeRowE, ho, checked, h0, h1, h2]

theorem lwake a : Statement (.lwake a) := fun w _ he => by
  obtain ⟨hr, ho, h0, hm⟩ := partsz8f8z8 w 0xE3 a (Option.some.inj he)
  simp [decode, hr, decodeRowE, ho, checked, h0, hm]

theorem mhint a b : Statement (.mhint a b) := fun w _ he => by
  obtain ⟨hr, ho, h0, h1, hm⟩ := partsz8f8f8 w 0xE4 a b (Option.some.inj he)
  simp [decode, hr, decodeRowE, ho, checked, h0, h1, hm]

theorem mwait a : Statement (.mwait a) := fun w _ he => by
  obtain ⟨hr, ho, h0, hm⟩ := partsz8f8z8 w 0xE5 a (Option.some.inj he)
  simp [decode, hr, decodeRowE, ho, checked, h0, hm]

theorem trap a : Statement (.trap a) := fun w _ he => by
  obtain ⟨hr, ho, h0, hm⟩ := partsz8f8z8 w 0xF0 a (Option.some.inj he)
  simp [decode, hr, decodeRowF, ho, checked, h0, hm]

theorem tret a : Statement (.tret a) := fun w _ he => by
  obtain ⟨hr, ho, h0, hm⟩ := partsz8f8z8 w 0xF1 a (Option.some.inj he)
  simp [decode, hr, decodeRowF, ho, checked, h0, hm]

theorem brk t : Statement (.brk t) := fun w _ he => by
  obtain ⟨hr, ho, h0, hm⟩ := partsz8f8z8 w 0xF2 t (Option.some.inj he)
  simp [decode, hr, decodeRowF, ho, checked, h0, hm]

theorem nop : Statement (.nop) := fun w _ he => by
  obtain ⟨hr, ho, hm⟩ := partsz24 w 0xF3 (Option.some.inj he)
  simp [decode, hr, decodeRowF, ho, checked, hm]

theorem exit : Statement (.exit) := fun w _ he => by
  obtain ⟨hr, ho, hm⟩ := partsz24 w 0xF4 (Option.some.inj he)
  simp [decode, hr, decodeRowF, ho, checked, hm]

theorem faultrd d i : Statement (.faultrd d i) := fun w _ he => by
  obtain ⟨hr, ho, h0, h1, hm⟩ := partsf8f8z8 w 0xF5 d i (Option.some.inj he)
  simp [decode, hr, decodeRowF, ho, checked, h0, h1, hm]

theorem loadReturn id uncorrectable : Statement (.loadReturn id uncorrectable) := no_word rfl

theorem atomicReturn id : Statement (.atomicReturn id) := no_word rfl

theorem nectarWriteback id : Statement (.nectarWriteback id) := no_word rfl

theorem copyChunk id : Statement (.copyChunk id) := no_word rfl

theorem copyComplete id : Statement (.copyComplete id) := no_word rfl

theorem ccopyComplete id : Statement (.ccopyComplete id) := no_word rfl

theorem foragerNodeStart replay node spad text cls : Statement (.foragerNodeStart replay node spad text cls) := no_word rfl

theorem foragerNodeComplete replay node : Statement (.foragerNodeComplete replay node) := no_word rfl

theorem foragerWaitRecheck replay node : Statement (.foragerWaitRecheck replay node) := no_word rfl

theorem replayComplete replay : Statement (.replayComplete replay) := no_word rfl

theorem collectiveSignature sender receiver inst foreign : Statement (.collectiveSignature sender receiver inst foreign) := no_word rfl

theorem mmaArrayExecute launch team : Statement (.mmaArrayExecute launch team) := no_word rfl

theorem batchComplete launch team : Statement (.batchComplete launch team) := no_word rfl

theorem waitaWake launch team group : Statement (.waitaWake launch team group) := no_word rfl

theorem vtimeCompareMatch launch team group : Statement (.vtimeCompareMatch launch team group) := no_word rfl

theorem eventTrap launch team group : Statement (.eventTrap launch team group) := no_word rfl

theorem groupExchange core launch team group : Statement (.groupExchange core launch team group) := no_word rfl

theorem groupStarved core launch team group : Statement (.groupStarved core launch team group) := no_word rfl

theorem forcedExchange core : Statement (.forcedExchange core) := no_word rfl

theorem teamPlacement part : Statement (.teamPlacement part) := no_word rfl

theorem poolSwitch core : Statement (.poolSwitch core) := no_word rfl

theorem poolSwitchComplete core : Statement (.poolSwitchComplete core) := no_word rfl

theorem teamRetirement launch team : Statement (.teamRetirement launch team) := no_word rfl

theorem launchCompletion launch : Statement (.launchCompletion launch) := no_word rfl

theorem launch fn q spad text cls splice : Statement (.launch fn q spad text cls splice) := no_word rfl

theorem nopPacket fn q : Statement (.nopPacket fn q) := no_word rfl

theorem inval fn q : Statement (.inval fn q) := no_word rfl

theorem invalComplete k : Statement (.invalComplete k) := no_word rfl

theorem debugStop fn q : Statement (.debugStop fn q) := no_word rfl

theorem debugResume fn q : Statement (.debugResume fn q) := no_word rfl

theorem debugRead fn q : Statement (.debugRead fn q) := no_word rfl

theorem debugWrite fn q : Statement (.debugWrite fn q) := no_word rfl

theorem debugBreak fn q : Statement (.debugBreak fn q) := no_word rfl

theorem pfreplyReplay fn q : Statement (.pfreplyReplay fn q) := no_word rfl

theorem pfreplyDeliver fn q : Statement (.pfreplyDeliver fn q) := no_word rfl

theorem gload fn q : Statement (.gload fn q) := no_word rfl

theorem gloadUnload fn q : Statement (.gloadUnload fn q) := no_word rfl

theorem gloadDeferredComplete k : Statement (.gloadDeferredComplete k) := no_word rfl

theorem reservedPacket fn q : Statement (.reservedPacket fn q) := no_word rfl

theorem qtailDoorbell fn q t : Statement (.qtailDoorbell fn q t) := no_word rfl

theorem queueEnable fn q : Statement (.queueEnable fn q) := no_word rfl

theorem queueDisable fn q : Statement (.queueDisable fn q) := no_word rfl

theorem qclear fn q : Statement (.qclear fn q) := no_word rfl

theorem fqctlWrite fn v : Statement (.fqctlWrite fn v) := no_word rfl

theorem fqtailWrite fn v : Statement (.fqtailWrite fn v) := no_word rfl

theorem registerWrite area off v : Statement (.registerWrite area off v) := no_word rfl

theorem hostApertureRead fn off n : Statement (.hostApertureRead fn off n) := no_word rfl

theorem hostApertureWrite fn off bytes : Statement (.hostApertureWrite fn off bytes) := no_word rfl

theorem cxlMemRead port off n : Statement (.cxlMemRead port off n) := no_word rfl

theorem cxlMemWrite port off bytes : Statement (.cxlMemWrite port off bytes) := no_word rfl

theorem hostPriResponse fn k granted bus writable : Statement (.hostPriResponse fn k granted bus writable) := no_word rfl

theorem atsInvalidation fn page : Statement (.atsInvalidation fn page) := no_word rfl

theorem channelPacketArrival k : Statement (.channelPacketArrival k) := no_word rfl

theorem channelAck k : Statement (.channelAck k) := no_word rfl

theorem streamClose k : Statement (.streamClose k) := no_word rfl

theorem packetResend id : Statement (.packetResend id) := no_word rfl

theorem linkFailure link packets acks : Statement (.linkFailure link packets acks) := no_word rfl

theorem sync k : Statement (.sync k) := no_word rfl

theorem syncRequest k : Statement (.syncRequest k) := no_word rfl

theorem linkRetrained link : Statement (.linkRetrained link) := no_word rfl

theorem linkNarrow link : Statement (.linkNarrow link) := no_word rfl

theorem linkSleep link : Statement (.linkSleep link) := no_word rfl

theorem lwakeExpiry link : Statement (.lwakeExpiry link) := no_word rfl

theorem peerUnreachable mod : Statement (.peerUnreachable mod) := no_word rfl

theorem pageMigrationStart part va target : Statement (.pageMigrationStart part va target) := no_word rfl

theorem pageMigrationComplete k : Statement (.pageMigrationComplete k) := no_word rfl

theorem gangReserve gang : Statement (.gangReserve gang) := no_word rfl

theorem gangReserveTimeout gang : Statement (.gangReserveTimeout gang) := no_word rfl

theorem gangBackoffRetry gang : Statement (.gangBackoffRetry gang) := no_word rfl

theorem gangCommit gang : Statement (.gangCommit gang) := no_word rfl

theorem preemptRequest launch team budget : Statement (.preemptRequest launch team budget) := no_word rfl

theorem drainTimeout launch team : Statement (.drainTimeout launch team) := no_word rfl

theorem saveComplete launch team : Statement (.saveComplete launch team) := no_word rfl

theorem saveWithdraw launch team : Statement (.saveWithdraw launch team) := no_word rfl

theorem flushComplete launch team : Statement (.flushComplete launch team) := no_word rfl

theorem cutStopRequest launch : Statement (.cutStopRequest launch) := no_word rfl

theorem cutCompletion launch : Statement (.cutCompletion launch) := no_word rfl

theorem cutAbandon launch : Statement (.cutAbandon launch) := no_word rfl

theorem journalCopyOnWrite launch page : Statement (.journalCopyOnWrite launch page) := no_word rfl

theorem dieFence at' : Statement (.dieFence at') := no_word rfl

theorem commandLinkMessage cell toCell urgent send msg : Statement (.commandLinkMessage cell toCell urgent send msg) := no_word rfl

theorem hiveHeartbeat received : Statement (.hiveHeartbeat received) := no_word rfl

theorem hiveTakeover : Statement (.hiveTakeover) := no_word rfl

theorem cellLinkFailure cell : Statement (.cellLinkFailure cell) := no_word rfl

theorem powerCapTick average plate : Statement (.powerCapTick average plate) := no_word rfl

theorem gtimeLockLoss : Statement (.gtimeLockLoss) := no_word rfl

theorem gtimeRelock : Statement (.gtimeRelock) := no_word rfl

theorem coldStart failedCores found : Statement (.coldStart failedCores found) := no_word rfl

theorem warmStart failedCores found : Statement (.warmStart failedCores found) := no_word rfl

theorem correctedError dram : Statement (.correctedError dram) := no_word rfl

theorem uncorrectableTeamState core : Statement (.uncorrectableTeamState core) := no_word rfl

theorem pseudoChannelSparing stack base size : Statement (.pseudoChannelSparing stack base size) := no_word rfl

theorem sparingChunkCopy k : Statement (.sparingChunkCopy k) := no_word rfl

theorem pageRetirement page target : Statement (.pageRetirement page target) := no_word rfl

theorem fatalError cause trouble : Statement (.fatalError cause trouble) := no_word rfl

theorem patchHandler k outcome value target writes : Statement (.patchHandler k outcome value target writes) := no_word rfl

theorem patchHandlerTimeout k writes : Statement (.patchHandlerTimeout k writes) := no_word rfl

theorem patchImageSwitch : Statement (.patchImageSwitch) := no_word rfl

theorem quarantineTimeout launch : Statement (.quarantineTimeout launch) := no_word rfl

theorem partSet : Statement (.partSet) := no_word rfl

theorem qcellSet : Statement (.qcellSet) := no_word rfl

theorem powerCap : Statement (.powerCap) := no_word rfl

theorem cutSet : Statement (.cutSet) := no_word rfl

theorem imgStage : Statement (.imgStage) := no_word rfl

theorem imgActivate : Statement (.imgActivate) := no_word rfl

theorem imgCommit : Statement (.imgCommit) := no_word rfl

theorem imgRevert : Statement (.imgRevert) := no_word rfl

theorem dumpClear : Statement (.dumpClear) := no_word rfl

theorem unknownCommand : Statement (.unknownCommand) := no_word rfl

theorem mcmdComplete : Statement (.mcmdComplete) := no_word rfl

theorem atomicReceiptConfirmation id : Statement (.atomicReceiptConfirmation id) := no_word rfl

theorem gtimeSlewComplete : Statement (.gtimeSlewComplete) := no_word rfl

theorem mxreadMstoreExecute launch step : Statement (.mxreadMstoreExecute launch step) := no_word rfl

end Sys2Proof.Laws.RoundTrip
end

