-- ==== Sys2Proof/Tests/Slice0.lean ====
section
/-! SUPPORT. Tests: words of the spec decoded, ill-formed terms refused, single steps with the spec's worked values, and for every
statement with hypotheses a concrete state that meets them. A `decide +kernel` is evaluated by the kernel alone. -/

namespace Sys2Proof.Tests

/-! One theorem at a time, to keep the memory of the compile small. -/
set_option Elab.async false
open Sys2Proof Sys2Proof.Machine Sys2Proof.Claims

/-! Decoding: one word or more of every row, written out from the encoding tables (spec 06 R126, and each instruction's). -/

/-- The words that the spec's own examples give (06 to 13). -/
theorem test_decode_scalar : ([
    (0x01020201, .add 2 2 1), (0x1901FFFF, .loop 1 0xFFFF), (0x0E010005, .setlo 1 5), (0x280A0200, .sread 10 2),
    (0x16010000, .callx 1), (0x17800000, .ret 0x80), (0x230A1030, .sld64 10 2 0 0 0x30), (0x2716B830, .sst64 0x16 0x17 0 0 0x30),
    (0x30000040, .mode 0x40), (0x31090000, .moderd 9), (0x34000300, .bararr 3), (0x36000F00, .barsync 15),
    (0x37080104, .rquota 8 1 4)] : List (W32 × Instr)).all (fun x => decide (decode x.1 = .ok x.2)) = true := by decide +kernel

theorem test_decode_vector : ([
    (0x400292F0, .vadd 2 0x92 0xF0), (0x42FF0592, .vmul 0xFF 5 0x92), (0x43068280, .vfma 6 0x82 0x80), (0x49020100, .vneg 2 1),
    (0x510A03F0, .vor 10 3 0xF0), (0x54030392, .vshl 3 3 0x92), (0x60FF0290, .vbcast 0xFF 2 0x90), (0x640D0500, .vradd 13 5),
    (0x72010190, .vclt 1 1 0x90), (0x7B000100, .vif 0 1), (0x7B000D00, .vif 1 5), (0x8001F100, .cvtif 1 0xF1),
    (0x83020104, .cvtfn 2 1 4), (0x840201F0, .cvtfh 2 1 0xF0), (0x85050300, .cvthf 5 3 0), (0x8E030102, .cvtn4 3 1 2),
    (0x8F040304, .cvtnx 4 3 4)] : List (W32 × Instr)).all (fun x => decide (decode x.1 = .ok x.2)) = true := by decide +kernel

theorem test_decode_memory : ([
    (0x92041001, .vld32 4 2 0 0 1), (0x950E9E90, .vst32 14 0x13 6 2 0x10), (0xA00E480D, .atadd 14 9 0 0 13),
    (0xA8082003, .vatadd 8 4 0 0 3), (0xAC000201, .fence 2 1), (0xAC00FF06, .fence 0xFF 6), (0xB0330B91, .cst 3 3 11 0x91),
    (0xB2300A06, .ccopy 3 10 6), (0xB3210000, .cjoin 2 1), (0xB4400000, .cdrain 4)] : List (W32 × Instr)).all
      (fun x => decide (decode x.1 = .ok x.2)) = true := by decide +kernel

theorem test_decode_units : ([
    (0xC0491008, .mma 1 0 2 1 0x10 8), (0xC1400000, .mzero 1), (0xC2400003, .mxread 1 0 0 0 0 3), (0xC4000000, .mfence),
    (0xC5000300, .mbarwait 3), (0xC7000010, .mfmt 0 0x10), (0xC8800040, .mmap 2 0x40), (0xCB000000, .mend),
    (0xD0040102, .nacc 1 0 1 2), (0xD10C0304, .neval 12 3 1 0), (0xD20A0000, .nrescale 10 0), (0xD40D5400, .nfin 13 5 1 0),
    (0xD5010000, .nclear 1), (0xD60C0000, .nsave 12 0), (0xD7011400, .nload 1 20), (0xD9010000, .nselect 1),
    (0xE0070A0C, .copy 7 10 12), (0xE1079004, .fgraph 7 0x90 4), (0xE2090391, .waita 9 3 0x91), (0xE3000300, .lwake 3),
    (0xE4000304, .mhint 3 4), (0xE5009100, .mwait 0x91), (0xF0000500, .trap 5), (0xF1001500, .tret 0x15), (0xF2000700, .brk 7),
    (0xF3000000, .nop), (0xF4000000, .exit), (0xF5140000, .faultrd 0x14 0)] : List (W32 × Instr)).all
      (fun x => decide (decode x.1 = .ok x.2)) = true := by decide +kernel

/-- Reserved bits and unassigned opcodes are refused, each under its name (06 R143). -/
theorem test_decode_refuses : ([0xF3000001, 0x60020500, 0xC1400001, 0x38000001, 0xB4400001] : List W32).map decode =
    [.reserved, .ok (.vbcast 2 5 0), .reserved, .reserved, .reserved] ∧
    ([0x00000000, 0xFFFFFFFF, 0xF6000000, 0x39000000] : List W32).all (fun w => decide (decode w = .unassigned)) = true := by
  decide +kernel

/-- The bytes of a word lie lowest first, and what follows them is left (06 R125). -/
theorem test_decode_bytes : decodeBytes [0x01, 0x02, 0x02, 0x01, 0xAA] = some (.ok (.add 2 2 1), [0xAA]) := by decide +kernel

/-! Well-formedness: an ill-formed term for each check, and the same term mended. -/

theorem test_wf_refuses : ([
    .add 0x80 1 2, .sethi 0xFF 0, .add 1 0xD0 2, .vadd 1 0xFF 2, .sld8 0 0 0 0 0x31, .sld8 0 0 1 0 0, .sst8 0 0 0 1 0,
    .atadd 0 0 7 1 0, .vpref 0 1 0 0, .fence 0 7, .sread 0 0x0C, .swrite 0 1, .mode 0xA00, .cvtfn 1 2 5, .cst 0 7 1 1,
    .cst 0 4 1 0xFF, .copy 0 1 0x7F, .nsave 126 0, .nacc 0 0 1 1, .nselect 3, .faultrd 0 8, .mma 0 0 0 0 0 0,
    .mxread 0 0 0 1 0 0, .mstore 0 0 3, .fqctlWrite 17 0, .qclear 0 64, .registerWrite 20 0 0, .hostApertureRead 0 60 8,
    .cxlMemRead ⟨0, 2⟩ 0 1, .dieFence ⟨none, 8⟩, .forcedExchange 256, .cellLinkFailure 64, .teamPlacement 18, .linkSleep 48,
    .pseudoChannelSparing 34 0 1, .pageRetirement 0x8000 0, .fatalError 6 ⟨false, false⟩,
    .patchHandler 0 5 0 0 ⟨[], [], [], [], [], none, none, none, [], 0, [], [], [], [], []⟩] : List Instr).all (fun i => !i.wellFormed) = true := by
  decide +kernel

theorem test_wf_accepts : ([
    .add 0xFF 1 2, .sethi 0x7F 0, .add 1 0xCF 2, .vadd 1 0xDF 2, .sld8 0 0 0 0 0x30, .sld8 0 0 1 1 0, .sst8 0 0 6 2 0,
    .atadd 0 0 6 1 0, .vpref 0 0 0 0, .fence 0 6, .sread 0 0x0B, .swrite 10 1, .mode 0x40, .cvtfn 1 2 4, .cst 0 6 1 1,
    .cst 0 3 1 0xFE, .copy 0 1 0x7E, .nsave 124 0, .nacc 1 0 1 1, .nselect 2, .faultrd 0 7, .mma 0 0 0 0 0 64,
    .mxread 0 1 0 1 0 3, .mstore 0 0 2, .fqctlWrite 16 0, .qclear 16 63, .registerWrite 19 0 0, .hostApertureRead 0 56 8,
    .cxlMemRead ⟨16, 1⟩ 0 1, .dieFence ⟨some 3, 7⟩, .forcedExchange 255, .cellLinkFailure 63, .teamPlacement 17, .linkSleep 47,
    .pseudoChannelSparing 33 0 1, .pageRetirement 0x10000 0, .fatalError 5 ⟨false, true⟩,
    .patchHandler 0 4 0 0 ⟨[], [], [], [], [], none, none, none, [], 0, [], [], [], [], []⟩] : List Instr).all (fun i => i.wellFormed) = true := by
  decide +kernel

/-! Small states: the state of the given word, with parts of its group, team and launch replaced. -/

def g0 : GroupId := ⟨⟨0, 0⟩, 0⟩
def base : State := State.reset.withFetchWord 32 0x01020201
def inG (f : Group → Group) (s : State) : State := s.mapGroup g0 f
def inT (f : Team → Team) (s : State) : State := s.mapTeam g0.team f
def inL (f : Launch → Launch) (s : State) : State := s.mapLaunch 0 f
/-- Scalar register `k` of group 0 holds `v`. -/
def sreg (k : Nat) (v : W64) (s : State) : State := inG (fun g => { g with sregs := g.sregs.set k ⟨v, none⟩ }) s
def modeIs (m : BitVec 24) (s : State) : State := inG (fun g => { g with mode := m }) s
/-- Group 0 issues, and its context meets `P`. -/
def meets (s : State) (P : Ctx → Bool) : Bool := decide (s.cur = .group g0) && (s.ctx? g0).any P

theorem ctx_id (s : State) (id : GroupId) (c : Ctx) (h : s.ctx? id = some c) : c.id = id := by
  unfold State.ctx? at h
  split at h
  · split at h
    · cases h; rfl
    · cases h
  · cases h

/-- A state that meets `P` is one in which group 0 issues with a context that meets it. -/
theorem ready {s : State} {P : Ctx → Bool} (h : meets s P = true) : ∃ c, Issuing s c ∧ P c = true := by
  simp only [meets, Bool.and_eq_true, decide_eq_true_eq] at h
  obtain ⟨hc, hp⟩ := h
  cases he : s.ctx? g0 with
  | none => simp [he] at hp
  | some c =>
    have hi := ctx_id s g0 c he
    exact ⟨c, ⟨by rw [hi]; exact hc, by rw [hi]; exact he⟩, by simpa [he] using hp⟩

/-- The memory order lets the next access of the group go on, and a release of the colours in the mask. -/
def freeB (s : State) (mask : BitVec 8) (c : Ctx) : Bool := s.packets.all fun p => decide (p.stream.owner ≠ .team c.id.team) ||
  decide (p.group ≠ c.id.group) || p.performed || (p.acq.isNone && (!p.own || p.colour.all fun k => !mask.getLsbD k.toNat))

theorem freeB_may {s : State} {m : BitVec 8} {c : Ctx} (h : freeB s m c = true) : mayAccess s c ∧ mayRelease s c m := by
  simp only [freeB, List.all_eq_true] at h
  constructor
  · intro p hp ho hg ha
    have := h p hp
    cases hq : p.acq <;> simp_all
  · intro p hp ho hg hw ⟨k, hk, hm⟩
    have := h p hp
    simp_all

/-- As `ready`, where the memory order holds nothing back. -/
theorem readyM {s : State} {m : BitVec 8} {P : Ctx → Bool} (h : meets s (fun c => P c && freeB s m c) = true) :
    ∃ c, Issuing s c ∧ P c = true ∧ mayAccess s c ∧ mayRelease s c m := by
  obtain ⟨c, hi, hp⟩ := ready h
  rw [Bool.and_eq_true] at hp
  exact ⟨c, hi, hp.1, freeB_may hp.2⟩

def isOk {α : Type} (x : Chk α) : Bool := match x with
  | .ok _ => true
  | _ => false
def isTrap {α : Type} (x : Chk α) : Bool := match x with
  | .trap _ => true
  | _ => false
/-- The checks pass at a location that the issuing core reaches without a channel. -/
def okHere (x : Chk Hit) : Bool := match x with
  | .ok h => h.dest.isNone
  | _ => false
def okAway (x : Chk Hit) : Bool := match x with
  | .ok h => h.dest.isSome
  | _ => false
def allHere (x : Chk (List (Nat × Hit))) : Bool := match x with
  | .ok hs => hs.all fun h => h.2.dest.isNone
  | _ => false

/-! Witnesses: scalar instructions and barriers. -/

theorem witness_SetImmediates : ∃ c, Issuing base c ∧ (dstS c 0xFF && dstS c 0x7F && namedS c 0x7F) = true := ready (by decide +kernel)

theorem witness_ScalarArithmetic : ∃ c, Issuing base c ∧
    (srcS c 0x7F && srcS c 0xF2 && srcS c 0xCF && dstS c 0x7F && dstS c 0xFF && namedS c 0) = true := ready (by decide +kernel)

/-- S1 holds a pointer to code, S2 one, S3 a negative number. -/
def branching : State := sreg 1 0x1000000000008 (sreg 2 1 (sreg 3 (-1) base))

theorem witness_Branching : ∃ c, Issuing branching c ∧
    (srcS c 1 && isOk (branching.checkFetch c.launch c.id.team c.die (c.readS 1)) &&
      decide (0 ≤ branchOff c 2 ∧ branchOff c 2 < 2 ^ 48) && isOk (branching.checkFetch c.launch c.id.team c.die (branchTarget c 2)) &&
      decide (c.readS 4 = 0) && srcS c 4 && decide ((c.readS 3).toInt < 0) && srcS c 3 && dstS c 0xFF && dstS c 5 &&
      namedS c 2 && decide (c.readS 2 = 1) && namedS c 3 && decide (c.readS 3 ≠ 1)) = true := ready (by decide +kernel)

/-- Offset 0x10000 is the first past the code segment; the null pointer of S4 names no segment; offset −4 is below 0. S4 holds 0 and
S3 −1, so that each conditional branch is taken on one of them. -/
theorem witness_BranchFaults : ∃ c, Issuing branching c ∧
    (decide (0 ≤ branchOff c 0x4000 ∧ branchOff c 0x4000 < 2 ^ 48) &&
      isTrap (branching.checkFetch c.launch c.id.team c.die (branchTarget c 0x4000)) && dstS c 5 && namedS c 3 &&
      decide (c.readS 3 ≠ 1) && srcS c 4 && isTrap (branching.checkFetch c.launch c.id.team c.die (c.readS 4)) &&
      srcS c 3 && decide (c.readS 4 = 0 ∧ c.readS 3 ≠ 0 ∧ (c.readS 3).toInt < 0 ∧ 0 ≤ (c.readS 4).toInt) &&
      decide (branchOff c 0xFFFF < 0) && isOk (checkSeg c.launch (ptrSeg c.group.pc) c.group.pc [.px] false 0 0)) = true := ready (by decide +kernel)

/-- The last word below 2⁴⁸: a branch of one word leaves the offsets there are. -/
theorem witness_BranchFaults_top : meets (inG (fun g => { g with pc := mkPtr 1 (2 ^ 48 - 4) }) base) (fun c =>
    decide (2 ^ 48 ≤ branchOff c 1) && isOk (checkSeg c.launch (ptrSeg c.group.pc) c.group.pc [.px] false 0 0)) = true := by decide +kernel

theorem witness_SystemState : ∃ c, Issuing base c ∧
    (dstS c 0xFF && srcS c 1 && decide (fp32.decode ((c.readS 1).truncate 32 : W32).toNat ≠ .nan) && outside c &&
      decide (base.patchImage? = none) && decide (c.launch.stopReq = false)) = true ∧ mayAccess base c ∧ mayRelease base c 0 :=
  readyM (by decide +kernel)

/-- A stop request of a stepped launch, in unfused code; and fused code with a STEP of the table at its first word alone. -/
theorem witness_SystemState_stops : meets (inL (fun l => { l with stopReq := true, krec := { l.krec with stepped := true } }) base) (fun c =>
      decide (c.launch.stopReq = true ∧ c.launch.krec.stepped = true ∧ c.launch.fused = none)) = true := by decide +kernel

/-- Legal MODE values at the ends of ETYPE and RND, and the highest system register. -/
theorem witness_SystemState_fields : (0x0B : BitVec 8).toNat < 0x0C ∧ ([0, 0x900, 0xFF910] : List (BitVec 24)).all (fun m =>
    decide (m.extractLsb' 20 4 = 0 ∧ (m.extractLsb' 9 3).toNat ≤ 4 ∧ (m.extractLsb' 5 4).toNat ≤ 8 ∧
      (m.getLsbD 4 = false → m.extractLsb' 0 4 = 0))) = true := by decide +kernel

/-- Barrier `n` of the team is as `f` makes it. -/
def bar (n : Nat) (f : Barrier → Barrier) (s : State) : State := inT (fun t => { t with bars := t.bars.modify n f }) s
def barWith (c : Ctx) (n : Nat) (P : Barrier → Bool) : Bool := (c.team.bars[n]?).any P

theorem witness_Barriers_arrive : ∃ c, Issuing base c ∧ (outside c && barWith c 15 (fun B =>
    decide (B.arr[c.id.group]? = some false) && decide (B.count + 1 ≠ B.exp) && decide (B.done[c.id.group]? = some false)) &&
    decide (c.group.heldHere = none) && dstS c 0xFF && srcS c 1) = true ∧ mayAccess base c ∧ mayRelease base c 0xFF :=
  readyM (by decide +kernel)

theorem witness_Barriers_wait : ∃ c, Issuing (bar 0 (fun B => { B with arr := B.arr.set 0 true, done := B.done.set 0 true, count := 1 })
    base) c ∧ (outside c && barWith c 0 (fun B => decide (B.done[c.id.group]? = some true) && decide (B.arr[c.id.group]? = some true)) &&
    decide (c.group.heldHere = none)) = true := ready (by decide +kernel)

/-- Three of the four groups have asked for `w` on barrier 3, and the team has more units than it uses. -/
def asking (w : W64) (f : Group → Group) : State := inL (fun l => { l with krec := { l.krec with roles := [(2, 32), (2, 16)] } })
  (inT (fun t => { t with budgets := [32, 16], alloc := 40, groups := t.groups.map fun g => f { g with vregs := List.replicate 32 ⟨Lanes.zero, none⟩ } })
    (bar 3 (fun B => { B with arr := [false, true, true, true], count := 3, reqs := [(1, w, 7), (2, w, 8), (3, w, 9)] }) (sreg 1 w base)))

/-- What the arrival that completes a phase asks, in each family. -/
def completes (s : State) : Prop := ∃ c, Issuing s c ∧ (outside c && barWith c 3 (fun B =>
    decide (B.arr[c.id.group]? = some false) && decide (B.count + 1 = B.exp)) &&
    decide (c.group.heldHere = none) && decide (c.group.run = .running) && dstS c 0xFF && srcS c 1) = true ∧ mayAccess s c ∧ mayRelease s c 0xFF

theorem witness_Barriers_complete : completes (bar 3 (fun B => { B with arr := [false, true, true, true], count := 3 }) base) ∧
    completes (asking 0x084 id) := ⟨readyM (by decide +kernel), readyM (by decide +kernel)⟩

/-- The team after the RQUOTA on barrier 3 that completes its phase. -/
def decided (s : State) (P : Team → Bool) : Bool := match exec (.rquota 0xFF 3 1) s with
  | .next t => (t.team? g0.team).any P
  | _ => false
def statusOf (t : Team) : Option SSlot := ((t.groups[0]?).map (·.squeue)).bind List.head?

/-- 07 R160: K = 24 registers from role 0 to role 1, which leaves 8, is granted; K = 32 leaves none and is refused; a register to be given
up whose writeback is pending leaves the request pending. -/
theorem test_rquota : decided (asking 0x184 id) (fun t => decide (statusOf t = some ⟨0, none⟩ ∧ t.budgets = [8, 40])) = true ∧
    decided (asking 0x204 id) (fun t => decide (statusOf t = some ⟨1, none⟩ ∧ t.budgets = [32, 16])) = true ∧
    decided (asking 0x084 fun g => { g with vregs := g.vregs.set 31 ⟨Lanes.zero, some 6⟩ }) (fun t =>
      decide (statusOf t = some ⟨2, none⟩ ∧ t.budgets = [32, 16])) = true := by decide +kernel

/-! Witnesses: vector instructions. MODE with ETYPE FP32 is 0x40, INT32 0, NAT32 0x20. -/

def fp : State := modeIs 0x40 base

theorem witness_VectorArithmetic : (∃ c, Issuing base c ∧ (outside c && srcV c 15 && srcV c 0x92 && dstV c 15 && dstV c 0xFF &&
      srcV c 0x80 && !isF c.ty && srcS c 1 && srcS c 0xF2) = true) ∧
    ∃ c, Issuing fp c ∧ (outside c && srcV c 15 && srcV c 0xCC && dstV c 0 && c.ty.fmt?.isSome) = true :=
  ⟨ready (by decide +kernel), ready (by decide +kernel)⟩

theorem witness_VectorOneSource : (∃ c, Issuing base c ∧ (outside c && srcV c 15 && dstV c 0xFF && isS c.ty) = true) ∧
    ∃ c, Issuing fp c ∧ (outside c && srcV c 15 && srcV c 0 && dstV c 15 && c.ty.fmt?.isSome) = true :=
  ⟨ready (by decide +kernel), ready (by decide +kernel)⟩

theorem witness_VectorBits : ∃ c, Issuing base c ∧ (outside c && srcV c 0 && srcV c 0xF1 && dstV c 15 && !isF c.ty) = true :=
  ready (by decide +kernel)

theorem witness_VectorIntegral : ∃ c, Issuing fp c ∧ (outside c && srcV c 15 && dstV c 0xFF && decide (c.ty.fmt? = some fp32)) = true :=
  ready (by decide +kernel)

theorem witness_VectorMovement : ∃ c, Issuing base c ∧ (outside c && srcV c 15 && dstV c 15 && dstS c 0x7F && srcS c 0xFE && srcV c 0xFC && srcVT c .nat32 0x80 &&
    srcVT c .nat32 0x93) = true := ready (by decide +kernel)

theorem witness_Comparisons : (∃ c, Issuing base c ∧ (outside c && srcV c 15 && srcV c 0x80) = true) ∧
    ∃ c, Issuing fp c ∧ (outside c && srcV c 15 && srcV c 0xCE && c.ty.fmt?.isSome) = true :=
  ⟨ready (by decide +kernel), ready (by decide +kernel)⟩

theorem witness_PredicateLogic : ∃ c, Issuing base c ∧ outside c = true := ready (by decide +kernel)

/-- Lane 127 has its nesting counter at 255 and P0 holds in lane 0 alone. -/
def nested : State := inG (fun g => { g with nest := g.nest.set 127 255, preds := g.preds.set 0 1 }) base

theorem witness_NestingCounters : (∃ c, Issuing base c ∧ (outside c && dstS c 0xFF &&
      (List.range 128).all (fun l => decide (c.active l = true) && !predIn c 0 0 l && predIn c 1 0 l) &&
      (List.range 128).all (fun l => decide (c.group.nest.getD l 0 ≠ 255))) = true) ∧
    ∃ c, Issuing nested c ∧ (outside c && c.active 0 && predIn c 0 0 0 && c.active 1 && !predIn c 0 0 1 && !c.absent 127 &&
      decide (c.group.nest.getD 127 0 = 255) && !c.active 127) = true :=
  ⟨ready (by decide +kernel), ready (by decide +kernel)⟩

theorem witness_Conversions : ([0, 0x20, 0x60, 0x80, 0xC0, 0xE0, 0x100] : List (BitVec 24)).all (fun m => meets (modeIs m base) fun c =>
      outside c && dstV c 15 && srcVT c .fp32 0 && srcVT c .hf16x2 0 && srcVT c .bf16x2 0 && srcVT c .int32 0 && srcVT c .nat32 0 &&
      srcVT c .int16x2 1 && srcVT c .nat16x2 1 && srcV c 0) = true ∧
    ([ElemType.int32, .nat32, .int16x2, .nat16x2, .int8x4, .nat8x4]).all (fun t => (List.range 9).any fun k =>
      meets (modeIs (BitVec.ofNat 24 (32 * k)) base) fun c => decide (c.ty = t)) = true := by decide +kernel

theorem witness_NarrowConversions : ∃ c, Issuing fp c ∧ (outside c && dstV c 15 && decide (c.ty = .fp32) && srcVT c .fp32 0 && srcV c 1 &&
    srcVT c .nat32 2 && ([2, 3, 4] : List (BitVec 4)).all (fun f => (narrowOf f.toNat).isSome)) = true := ready (by decide +kernel)

/-! Witnesses: memory. S1 points into segment 1; in `far` the segment's page is on die 1. -/

def near' : State := sreg 1 0x1000000000100 (sreg 2 8 base)
def far : State := { near' with mem := near'.mem.writeLe 0x5008 8 0x4000010009 }
/-- An operation of the team on channel 3 that is not acknowledged. -/
def pending : Packet := ⟨7, ⟨.team g0.team, 3, .die 1⟩, 0, .store [(.phys 0x4000010000, 5)], [], 0, none, none, false, false, false, false, [], false⟩
def waiting (s : State) : State := { s with packets := [pending], wire := [7], nextId := 8 }
/-- Lane 127 alone is active. -/
def lastLane (s : State) : State := inG (fun g => { g with nest := List.replicate 127 1 ++ [0] }) s
/-- No lane of group 0 is active. -/
def noLane (s : State) : State := inG (fun g => { g with nest := List.replicate 128 1 }) s

/-- Its colour is 3 and its home the group's own die; as an ACQ atomic of scope DIE it is not performed either. -/
def ownPacket : Packet := { pending with stream := ⟨.team g0.team, 3, .die 0⟩, colour := some 3, own := true }
def acquiring : Packet := { pending with acq := some 4 }

theorem witness_held : (∃ c, Issuing { near' with packets := [acquiring] } c ∧ ¬ mayAccess { near' with packets := [acquiring] } c) ∧
    ∃ c, Issuing { near' with packets := [ownPacket] } c ∧ ¬ mayRelease { near' with packets := [ownPacket] } c 8 := by
  refine ⟨?_, ?_⟩
  · obtain ⟨c, hi, hp⟩ := ready (s := { near' with packets := [acquiring] }) (P := fun c => decide (c.id = g0)) (by decide +kernel)
    refine ⟨c, hi, fun h => ?_⟩
    have hc : c.id = g0 := of_decide_eq_true hp
    have := h acquiring (by simp) (by rw [hc]; rfl) (by rw [hc]; rfl) (by rfl)
    simp [acquiring, pending] at this
  · obtain ⟨c, hi, hp⟩ := ready (s := { near' with packets := [ownPacket] }) (P := fun c => decide (c.id = g0)) (by decide +kernel)
    refine ⟨c, hi, fun h => ?_⟩
    have hc : c.id = g0 := of_decide_eq_true hp
    have := h ownPacket (by simp) (by rw [hc]; rfl) (by rw [hc]; rfl) (by rfl)
      ⟨3, rfl, by decide⟩
    simp [ownPacket, pending] at this

theorem witness_canonical : memoriesWf base ∧ memoriesWf far ∧ memoriesWf State.reset := by decide +kernel

theorem witness_StoresReadBack : (base.team? g0.team).isSome = true ∧ (∃ x, base.group? g0 = some x ∧ ∃ r, x.vregs[15]? = some r ∧
      r.val.length = 128) ∧
    (base.team? g0.team).any (fun t => (t.tiles[3]?).any fun cs => (cs[255]?).any fun col => decide (511 / 4 < col.length)) = true ∧
    byteKey (.host 0 4) ≠ byteKey (.host 9 4) ∧ byteKey (.phys 0) ≠ byteKey (.phys 1) := by
  refine ⟨by decide +kernel, ?_, by decide +kernel, by decide +kernel, by decide +kernel⟩
  have h : ((base.group? g0).any fun x => (x.vregs[15]?).any fun r => decide (r.val.length = 128)) = true := by decide +kernel
  simp only [Option.any_eq_true, decide_eq_true_eq] at h
  exact h

/-- Each clause of the checks: no such segment (2), a window and the private segment, a right that is missing, an offset that is
not aligned, one byte past the limit, and the last word of the segment. -/
theorem witness_AccessChecksInOrder : (base.launch? 0).any (fun l =>
      decide (l.seg? 2 = none) && (l.seg? 1).any (fun v => decide (v.space ≠ .window ∧ v.space ≠ .priv) && decide (v.limit = 0x10000) &&
        v.rights.contains .pr && v.rights.contains .pc) &&
      isOk (base.checkScalar l g0.team 0 (mkPtr 1 0) 0xFFF8 8 [.pr] false) &&
      isTrap (base.checkScalar l g0.team 0 (mkPtr 1 0) 0xFFFC 8 [.pr] false) &&
      isTrap (base.checkScalar l g0.team 0 (mkPtr 1 0) 0x10000 8 [.pr] false)) = true ∧
    ((inL (fun l => { l with segs := [⟨0x10000, 0x10000, 0xDE, 0⟩] }) base).launch? 0).any (fun l =>
      (l.seg? 1).any fun v => !v.rights.contains .pr && v.rights.contains .pw) = true := by decide +kernel

/-- The page of segment 1 is not there. -/
def unmapped : State := { near' with mem := near'.mem.writeLe 0x5008 8 0 }
def isPage {α : Type} (x : Chk α) : Bool := match x with
  | .page _ _ _ _ _ _ => true
  | _ => false

/-- A vector access's clauses: lanes 0 and 127, no such segment, a right that is missing, a misaligned lane, one past the limit, a page
that is not there; and a scalar access to it, of a load and of a store. -/
theorem witness_AccessChecksInOrder_lanes : ∃ c, Issuing unmapped c ∧ (isTrap (c.checkLanes (mkPtr 2 0) 4 [.pr] false true [(0, 0)]) &&
      isTrap (c.checkLanes (mkPtr 1 0) 4 [.pr] false true [(0, 0), (127, 2)]) &&
      isTrap (c.checkLanes (mkPtr 1 0) 4 [.pr] false true [(0, 0xFFFC), (127, 0x10000)]) &&
      isPage (c.checkLanes (mkPtr 1 0) 4 [.pr] false true [(0, 0), (127, 4)]) && ptrFull c 1 && shortS c 2 && dstS c 0x7F && loadCodes 0 0 &&
      srcS c 0x7F && storeCodes 0 0 &&
      isPage (unmapped.checkScalar c.launch c.id.team c.die (c.readPtr 1) (ptrOff (c.readPtr 1) + 8) 8 [.pr] false) &&
      isPage (unmapped.checkScalar c.launch c.id.team c.die (c.readPtr 1) (ptrOff (c.readPtr 1) + 8) 8 [.pw] true)) = true ∧
      mayAccess unmapped c ∧ mayRelease unmapped c 0xFF := readyM (by decide +kernel)

/-- The fault queue has room, and once its one entry is used it has none. -/
theorem witness_AccessChecksInOrder_queue : (unmapped.fns[0]?).any (fun f => decide ((f.fqhead - f.fqtail).toNat < 2 ^ (f.fqctl.toNat % 32))) =
    true ∧ ((1 : W32) - 0).toNat ≥ 2 ^ ((0 : W64).toNat % 32) := by decide +kernel

theorem witness_AccessChecksInOrder_private : (base.launch? 0).any (fun l => ([65534, 65535] : List Nat).any fun k =>
    (l.seg? k).any fun v => decide (v.space = .priv)) = true := by decide +kernel

def scalarAt (s : State) (c : Ctx) (off n : Nat) (rights : List Right) (w : Bool) : Chk Hit :=
  s.checkScalar c.launch c.id.team c.die (c.readPtr 1) (ptrOff (c.readPtr 1) + off) n rights w

theorem witness_ScalarMemory : (∃ c, Issuing near' c ∧ (dstS c 0xFF && dstS c 0x7F && ptrFull c 1 && shortS c 2 && shortS c 0x30 &&
      loadCodes 0 0 && loadCodes 6 1 && srcS c 0x7F && storeCodes 0 0 && storeCodes 6 2 && decide (c.group.heldHere = none) &&
      decide (c.team.lost = 0 ∧ near'.unackedOf c.id.team = []) &&
      okHere (scalarAt near' c 8 8 [.pr] false) && okHere (scalarAt near' c 8 1 [.pr] false) && okHere (scalarAt near' c 8 8 [.pw] true) &&
      !near'.loadHeld c.id (spans (.phys 0x10108) 8) && !near'.ownHeld c.id (spans (.phys 0x10108) 8)) = true ∧
      mayAccess near' c ∧ mayRelease near' c 0xFF) ∧
    ∃ c, Issuing far c ∧ (okAway (scalarAt far c 8 8 [.pw] true) && decide (c.team.lost.getLsbD 0 = false) &&
      !far.copyBlocks c.id.team 0 (.die 1) far.nextId &&
      (far.sendOp (.team c.id.team) 0 c.id.group (tagOf c none) (.die 1) (.store (cellsAt (.phys 0x4000010108) 8 1))).isSome) = true :=
  ⟨readyM (by decide +kernel), ready (by decide +kernel)⟩

theorem witness_ChannelNumbers : ∃ c, Issuing (waiting near') c ∧ (srcS c 0xF2 && ptrFull c 1 && shortS c 2 && storeCodes 5 2 &&
    isWide 5 2 (c.launch.spaceOf (c.readPtr 1)) && decide (c.group.heldHere = none) && decide (c.team.lost = 0) &&
    decide ((waiting near').unackedOf c.id.team ≠ []) && okHere (scalarAt (waiting near') c 8 8 [.pw] true) &&
    ((waiting near').sendOp (.team c.id.team) 3 0 (tagOf c none) (.die 1) (.store [])).isSome) = true ∧
    mayAccess (waiting near') c ∧ mayRelease (waiting near') c 0xFF := readyM (by decide +kernel)

theorem witness_VectorLoads : (∃ c, Issuing (lastLane near') c ∧ (outside c && dstV c 15 && ptrFull c 1 && shortV c 0x30 && loadCodes 6 1 && someActive c &&
      allHere (c.checkLanes (c.readPtr 1) 4 [.pr] false true (laneOffsets c 1 0x30)) &&
      !near'.loadHeld c.id (spans (.phys 0x10100) 4)) = true ∧ mayAccess (lastLane near') c ∧ mayRelease (lastLane near') c 0) ∧
    ∃ c, Issuing (noLane near') c ∧ (outside c && dstV c 0xFF && ptrFull c 1 && shortV c 0 && !someActive c) = true ∧
      mayAccess (noLane near') c ∧ mayRelease (noLane near') c 0 := ⟨readyM (by decide +kernel), readyM (by decide +kernel)⟩

theorem witness_VectorStores : (∃ c, Issuing (lastLane near') c ∧ (outside c && srcVT c .nat32 0xF1 && srcVT c .nat32 0x92 && ptrFull c 1 &&
      shortV c 0x30 && storeCodes 6 2 && someActive c &&
      decide (c.group.heldHere = none ∧ c.team.lost = 0) && decide (near'.packets = []) &&
      allHere (c.checkLanes (c.readPtr 1) 4 [.pw] true true (laneOffsets c 1 0x30)) &&
      !near'.ownHeld c.id (spans (.phys 0x10100) 4)) = true ∧ mayAccess (lastLane near') c ∧ mayRelease (lastLane near') c 0xFF) ∧
    ∃ c, Issuing (noLane near') c ∧ (outside c && srcVT c .nat32 15 && ptrFull c 1 && shortV c 0 && !someActive c) = true :=
  ⟨readyM (by decide +kernel), ready (by decide +kernel)⟩

theorem witness_Atomics : (∃ c, Issuing (lastLane near') c ∧ (outside c && ptrFull c 1 && shortS c 2 && atomCodes 0 0 && atomCodes 6 3 &&
    decide (c.group.heldHere = none ∧ c.team.lost = 0) && decide (near'.packets = []) && okHere (scalarAt near' c 0 8 [.pa] true) &&
    !near'.ownHeld c.id (spans (.phys 0x10100) 8) && namedS c 0x7F && dstS c 0xFF && namedV c 15 && shortV c 0x30 &&
    decide (c.ty = .int32) && someActive c &&
    allHere (c.checkLanes (c.readPtr 1) 4 [.pa] true true (laneOffsets c 1 0x30))) = true ∧
    mayAccess (lastLane near') c ∧ mayRelease (lastLane near') c 0xFF) ∧
    ∃ c, Issuing far c ∧ (okAway (scalarAt far c 0 8 [.pa] true) && decide (c.team.lost.getLsbD 0 = false) &&
      !({ far with nextId := far.nextId + 1 } : State).copyBlocks c.id.team 0 (.die 1) far.nextId &&
      (far.sendOp (.team c.id.team) 0 c.id.group (tagOf c (some 6)) (.die 1)
        (.atomic [⟨0, .phys 0x4000010100, .add, .int64, 1, 0, 0, false⟩] (some 9))).isSome) = true :=
  ⟨readyM (by decide +kernel), ready (by decide +kernel)⟩

theorem witness_ChannelOperations : (∃ c, Issuing (lastLane near') c ∧ (srcS c 1 && srcS c 2 && srcV c 0xF1 && outside c && someActive c &&
      decide (c.team.lost = 0) && okHere (near'.checkScalar c.launch c.id.team c.die (c.readS 1) (ptrOff (c.readS 1)) 8 [.pm, .pw] true) &&
      okHere (near'.checkScalar c.launch c.id.team c.die (c.readS 1) (ptrOff (c.readS 1)) 8 [.pm, .pa] true) &&
      allHere (c.checkLanes (c.readS 1) 4 [.pm, .pw] true false
        (((List.range 128).filter c.active).map fun l => (l, ptrOff (c.readS 1) + 4 * l))) &&
      !near'.copyBlocks c.id.team 15 (.die 0) near'.nextId &&
      (near'.sendOps (.team c.id.team) 15 0 (tagOf c none) [(⟨.die 0, false, .store []⟩ : Outgoing), ⟨.lake 1, false, .store []⟩]).isSome &&
      decide (c.group.heldHere = none) && decide (near'.unackedOn c.id.team 15 = [])) = true ∧
      mayAccess (lastLane near') c ∧ mayRelease (lastLane near') c 0) ∧
    (∃ c, Issuing (waiting near') c ∧ (outside c && decide (c.team.lost.getLsbD 3 = false) && decide (c.group.heldHere = none) &&
      decide ((waiting near').unackedOn c.id.team 3 ≠ [])) = true) ∧
    (∃ c, Issuing (inT (fun t => { t with lost := 8 }) near') c ∧ (c.team.lost.getLsbD 3) = true) ∧
    ∃ c, Issuing (noLane near') c ∧ (srcS c 1 && srcV c 0 && !someActive c) = true :=
  ⟨readyM (by decide +kernel), ready (by decide +kernel), ready (by decide +kernel), ready (by decide +kernel)⟩

/-- An operation of colour 3 that the group's own die has not performed holds a FENCE of that colour only. -/
theorem witness_OnlyGoOn : (∃ c, Issuing near' c ∧ (srcS c 1 && srcS c 3 && srcS c 2 && decide (c.readS 3 = 0) && decide (c.readS 2 ≠ 0) &&
    decide (c.group.heldHere = none ∧ c.team.lost = 0) && decide (near'.packets = []) && outside c && ptrFull c 1 && shortV c 0x30) =
    true ∧ mayAccess near' c ∧ mayRelease near' c 0xFF) ∧
    ∃ c, Issuing { near' with packets := [ownPacket] } c ∧ srcS c 1 = true ∧ mayAccess { near' with packets := [ownPacket] } c ∧
      mayRelease { near' with packets := [ownPacket] } c 0xF7 := ⟨readyM (by decide +kernel), readyM (by decide +kernel)⟩

/-- ICINV of eight bytes passes its checks. -/
theorem witness_OnlyGoOn_range : ∃ c, Issuing near' c ∧
    (match checkSeg c.launch (ptrSeg (c.readS 1)) (c.readS 1) [.px, .pc] false 0 0 with
      | .ok v => decide (ptrOff (c.readS 1) + (c.readS 2).toNat ≤ v.limit)
      | _ => false) = true := ready (by decide +kernel)

/-! Witnesses: the matrix stream, Nectar, engines and traps. -/

def stream : State := State.reset.withFetchWord 32 0xC4000000
def inQ (f : Sequencer → Sequencer) (s : State) : State := inT (fun t => { t with seq := t.seq.map f }) s
/-- The sequencer issues, and what it holds meets `P`. -/
def streams (s : State) (P : Team → Launch → Sequencer → Bool) : Bool :=
  decide (s.cur = .sequencer g0.team) && (s.team? g0.team).any fun t => decide (t.id = g0.team) &&
    (s.launch? 0).any fun l => (t.seq).any fun q => P t l q

theorem readyS {s : State} {P : Team → Launch → Sequencer → Bool} (h : streams s P = true) :
    ∃ t l q, Streaming s g0.team t l q ∧ P t l q = true := by
  simp only [streams, Bool.and_eq_true, decide_eq_true_eq, Option.any_eq_true] at h
  obtain ⟨hc, t, ht, hi, l, hl, q, hq, hp⟩ := h
  exact ⟨t, l, q, ⟨hc, ht, hl, hq, hi⟩, hp⟩

/-- M0 maps one column at 0 as BF16, F0 is BF16 by BF16. -/
def mapped (s : State) : State := inQ (fun q => { q with m := q.m.set 0 (2 ^ 64), f := q.f.set 0 0 }) s

theorem witness_StreamInstructions : ∃ t l q, Streaming (mapped stream) g0.team t l q ∧
    (decide ((3 : Nat) < l.krec.nt) && decide (16 * 255 + 16 ≤ l.krec.spadsz) && decide (32 * 127 + 32 ≤ l.krec.spadsz) &&
      formatOk (BitVec.ofNat 256 (leNat (t.spad.readBytes (32 * 127) 32))) &&
      (let fb := q.f.getD 0 0
       let mb := q.m.getD 0 0
       decide (MapBlock.fmt mb = FormatBlock.afmt fb ∧ MapBlock.reserved mb = false ∧ 1 ≤ MapBlock.kext mb ∧ MapBlock.kext mb ≤ 4096) &&
        mmaInBounds fb mb l.krec.spadsz && decide (4 * 0 + 3 < groupCount l.krec.lanes) &&
        (List.range 4).all (fun k => decide (15 + quarterRegs fb mb ≤ t.budgetOf l (4 * 0 + k))) && mstoreInBounds mb 2 l.krec.spadsz) &&
      decide (q.opened = false ∧ q.doneb = q.closed) && decide (q.owe.getD 15 0 = 0) && decide (q.ops = []) &&
      (t.bars[15]?).any (fun B => decide (B.arrSeq = false ∧ B.count + 1 ≠ B.exp)) && decide (q.lc.getD 3 0 = 0) &&
      decide (4 * 255 + 4 ≤ l.krec.spadsz) &&
      isOk ((mapped stream).checkFetch l g0.team (dieOfCore (t.core?.getD 0)) (mkPtr (ptrSeg q.spc) 8)) && decide (ptrOff q.spc = 0)) =
      true := readyS (by decide +kernel)

/-- With a budget of 64 registers MXREAD's 32 fit, an owed completion lets MBARWAIT go on, an operation holds MBARARR, and an open
batch is closed by MEND. -/
theorem witness_StreamInstructions_busy : ∃ t l q, Streaming (inQ (fun q => { q with
      owe := q.owe.set 15 1
      ops := [(1, .mzero 0)]
      opened := true
      lc := [2, 0, 0, 0] }) (inT (fun t => { t with budgets := [64] }) stream)) g0.team t l q ∧
    (decide (q.owe.getD 15 0 ≠ 0 ∧ q.ops ≠ [] ∧ q.opened = true ∧ q.doneb ≠ q.closed + 1 ∧ q.lc.getD 0 0 ≠ 0) &&
      decide ((3 : Nat) < groupCount l.krec.lanes) && decide (32 + 32 ≤ t.budgetOf l 3)) = true := readyS (by decide +kernel)

/-- The matrix sequencer's arrival completes the phase of barrier 3, on which group 0 waits. -/
theorem witness_Barriers_sequencer : ∃ t l q, Streaming (bar 3 (fun B => { B with arr := [true, true, true, false], count := 3 }) stream)
    g0.team t l q ∧ (decide (q.ops = []) && (t.bars[3]?).any fun B => decide (B.arrSeq = false ∧ B.count + 1 = B.exp)) = true :=
  readyS (by decide +kernel)

theorem witness_ArrayAndPorts : ([.mzero 3, .mma 0 0 (2 ^ 64) 0 0 1, .mstore 0 0 0 [], .mstore 0 0 0 [5], .mxread 0 false 3 false 0 0] : List StreamOp).all (fun op =>
      streams (inQ (fun q => { q with ops := [(1, op)] }) stream) fun t _ q => decide (q.ops = (1, op) :: []) &&
        decide (t.groups.length = 4) && (List.range 16).all fun r => t.regReady 3 r) = true ∧
    ((inQ (fun q => { q with closed := 1 }) stream).team? ⟨0, 0⟩).any (fun t => (t.seq).any fun q =>
      decide (q.doneb ≠ q.closed ∧ q.ending = false ∧ q.ops = [])) = true := by decide +kernel

theorem witness_NectarInstructions : ∃ c, Issuing (lastLane fp) c ∧ (outside c && srcV c 15 && srcV c 0xF1 && isF c.ty && c.family?.isSome &&
    rangeV c 12 4 && rangeV c 13 3 && dstS c 0x7F && pairS c 0x7E && dstV c 15 && someActive c &&
    (List.range 128).all (fun l => !c.active l || (match c.family? with
      | some fam => decide (((laneOf c 0 l).terms fam (c.subVals ((c.readV 15).at l))).2 = false) &&
        (c.subVals ((c.readV 15).at l)).all (fun x => match (laneOf c 0 l).eval fam false c.fmt c.rnd c.sat x with
          | .val _ => true
          | _ => false) &&
        (match (laneOf c 0 l).finish fam false c.fmt c.rnd c.sat with
          | .val _ => true
          | _ => false)
      | none => false))) = true := ready (by decide +kernel)

theorem witness_NectarInstructions_none : ∃ c, Issuing (noLane fp) c ∧ (outside c && srcV c 0 && dstV c 0xFF && isF c.ty && c.family?.isSome &&
    !someActive c) = true := ready (by decide +kernel)

/-- Each family admitted: +∞ and a finite SHAPE, geometric, and a user pair; DPOL set. -/
theorem witness_NectarInstructions_families : ([(0, 0x7F800000), (0, 0x3F800000), (1, 0x40000000), (2, 0)] : List (BitVec 2 × W32)).all (fun x =>
    meets (inG (fun g => { g with family := x.1, shape := x.2, mode := 0x80040, user := some ⟨[], [], 0, 0, 0, 0⟩ }) base) fun c =>
      c.family?.isSome && modeDpol c.group.mode && isF c.ty && c.group.user.isSome && rangeV c 12 4 && srcV c 0 && dstV c 0) = true := by
  decide +kernel

/-- S1 is the destination pointer, S2 and S3 the source pointer and a count of 8; S4 and S5 are zero. -/
def copying : State := sreg 1 0x1000000000100 (sreg 2 0x1000000000200 (sreg 3 8 base))

theorem witness_EngineInstructions : ∃ c, Issuing copying c ∧ (outside c && srcS c 1 && srcS c 4 && dstS c 0xFF && pairS c 2 && pairS c 4 &&
    decide ((c.readS 3).toNat = 8 ∧ (c.readS 5).toNat = 0) &&
    isOk (checkCopy c.launch true (c.readS 2) (c.readS 1) 8 [.pw]) && isOk (checkCopy c.launch false (c.readS 2) (c.readS 1) 8 [.pm, .pw]) &&
    decide (c.team.lost = 0) && okHere (copying.checkScalar c.launch c.id.team c.die (c.readS 1) (ptrOff (c.readS 1)) 8 [.pr] false) &&
    !copying.loadHeld c.id (spans (.phys 0x10100) 8) &&
    decide (((0 : W64) - c.readS 4).toNat < 2 ^ 63) && decide (2 ^ 63 ≤ ((0 : W64) - c.readS 3).toNat) && decide (c.launch.dieLost = false) &&
    (c.team.seq).any (fun q => decide ((q.doneb - (c.readS 4).truncate 32).toNat < 2 ^ 31) && decide (q.sqstate = .run) &&
      decide (2 ^ 31 ≤ (q.doneb - (c.readS 3).truncate 32).toNat))) = true ∧ mayAccess copying c ∧ mayRelease copying c 0xFF :=
  readyM (by decide +kernel)

/-- LWAKE of a page on another die and of a pointer past its segment; MHINT of a tiered segment, KIND 3; a stream that has stopped
and one that has ended. -/
theorem witness_EngineInstructions_hints : meets far (fun c => (c.launch.seg? (ptrSeg (c.readS 1))).any fun v =>
      decide (v.space ≠ .priv ∧ v.space ≠ .window ∧ Right.pr ∈ v.rights ∧ ptrOff (c.readS 1) < v.limit) &&
      match far.translate c.launch c.id.team c.die v (ptrOff (c.readS 1)) false with
        | .ok h => decide (h.home ≠ .die c.die)
        | _ => false) = true ∧
    meets (sreg 1 0x1000000010000 base) (fun c => (c.launch.seg? (ptrSeg (c.readS 1))).any fun v => decide (v.limit ≤ ptrOff (c.readS 1))) = true ∧
    meets (inL (fun l => { l with segs := [⟨0x10000, 0x10000, 0x9DF, 0⟩] }) (sreg 1 0x1000000000000 (sreg 2 0x3000000000008 base))) (fun c =>
      let w := c.readS 2
      (c.launch.seg? 1).any fun v => v.tiered && decide (w.toNat / 2 ^ 52 = 0 ∧ w.toNat / 2 ^ 48 % 16 < 4 ∧ w.toNat % 2 ^ 48 ≤ v.limit) &&
        (List.range 8).all fun x => match c.s.translate c.launch c.id.team c.die v x false with
          | .ok _ => true
          | _ => false) = true ∧
    ([SqState.stopped, .ended]).all (fun st => meets (inQ (fun q => { q with sqstate := st }) (sreg 1 1 base)) fun c =>
      (c.team.seq).any fun q => decide (q.sqstate = st) && decide (2 ^ 31 ≤ (q.doneb - (c.readS 1).truncate 32).toNat)) = true := by
  decide +kernel

def noPend {α : Type} (q : List (Slot α)) : Bool := q.all fun x => decide (x.pend = none)

theorem witness_TrapInstructions : (∃ c, Issuing branching c ∧ (srcS c 1 && decide (c.launch.breakArmed = false ∧ c.group.inTrap = false) &&
      noPend c.group.sregs && noPend c.group.squeue && noPend c.group.trapQueue && noPend c.group.vregs && noPend c.group.vqueue &&
      dstS c 0x7F) = true) ∧
    (∃ c, Issuing (inG (fun g => { g with inTrap := true, sregs := g.sregs.set 9 ⟨0, some 5⟩ }) branching) c ∧ (srcS c 1 && c.group.inTrap &&
      decide (c.launch.fused = none) && isOk (branching.checkFetch c.launch c.id.team c.die (c.readS 1)) && !noPend c.group.sregs) = true) ∧
    ∃ c, Issuing (inL (fun l => { l with breakArmed := true }) base) c ∧ c.launch.breakArmed = true :=
  ⟨ready (by decide +kernel), ready (by decide +kernel), ready (by decide +kernel)⟩

/-- An armed debugger and a rewritten instruction with a further word; an empty vector register that EXIT waits for. -/
theorem witness_TrapInstructions_waits :
    (∃ c, Issuing (inL (fun l => { l with breakArmed := true }) (inG (fun g => { g with rewriting := some ([0xF2000700, 0xF3000000], 1) }) base)) c ∧
      (c.launch.breakArmed && decide (c.group.rewriting = some ([0xF2000700, 0xF3000000], 1))) = true) ∧
    ∃ c, Issuing (inG (fun g => { g with vregs := g.vregs.set 3 ⟨Lanes.zero, some 5⟩ }) base) c ∧ noPend c.group.vregs = false :=
  ⟨ready (by decide +kernel), by
    obtain ⟨c, h, p⟩ := ready (s := inG (fun g => { g with vregs := g.vregs.set 3 ⟨Lanes.zero, some 5⟩ }) base)
      (P := fun c => !noPend c.group.vregs) (by decide +kernel)
    exact ⟨c, h, by simpa using p⟩⟩

/-! Witnesses: operands, encoding, steps and taking a trap. -/

theorem witness_OperandValues : meets base (fun c => (c.group.sregs[0x7F]?).isSome && (c.group.squeue[15]?).isSome &&
      (c.group.trapQueue[15]?).isSome && (c.group.vregs[15]?).isSome && (c.group.vqueue[15]?).isSome && decide (c.ty.fmt? = none) &&
      decide (c.ty.minInt ≤ -8 ∧ 16777216 ≤ c.ty.maxInt) && decide (c.team.budgetOf c.launch c.id.group = 16)) = true ∧
    tableInts[37]?.isSome = true ∧ tableInts[38]? = none ∧ tableFp32[21]?.isSome = true ∧
    meets fp (fun c => decide (c.ty.fmt? = some fp32 ∧ c.ty = .fp32 ∧ c.rnd = .rne) && (specials c)[11]?.isSome) = true ∧
    meets (modeIs 0x20 base) (fun c => decide (c.ty.fmt? = none ∧ c.ty.isSigned = false ∧ -(2 ^ (c.ty.width - 1)) ≤ (-8 : Int))) = true ∧
    meets (modeIs 0xE0 base) (fun c => decide (c.ty.fmt? = none ∧ c.ty.maxInt < 128)) = true := by decide +kernel

theorem witness_GroupReplacedAlone : (base.team? g0.team).isSome = true ∧ (base.group? g0).isSome = true := by decide +kernel

theorem witness_DecodeOfEncode : (Instr.vld32 127 31 6 1 0x30).wellFormed = true ∧ isEvent (.vld32 127 31 6 1 0x30) = false := by decide

theorem witness_EncodeOfDecode : ∃ i, decode 0xFF000000 = .unassigned ∧ decode 0x920E1030 = .ok i := ⟨.vld32 14 2 0 0 0x30, by decide +kernel⟩

/-- Everything that `StepRunsInstructions` asks of a turn of group 0. -/
def turning (s : State) (P : Ctx → W32 → State → Bool) : Bool :=
  let s1 := s.tickOn.vtimeCheck g0
  decide (s.schedule = [] ∧ s.cur = .group g0 ∧ s.fatal = false) && (s1.ctx? g0).any fun c =>
    let s2 := s1.setGroup g0 { c.group with run := .running, stall := .waits }
    s1.isActive c.core g0 && decide (c.group.run = .running ∧ c.team.frozen = false) &&
      (!s1.cutting g0.team.launch || c.team.begun) && (s2.ctx? g0).any fun c2 =>
        decide (c2.group.rewriting = none ∧ c2.group.eventReady = false) &&
          match c2.group.decoded with
          | some w => P c2 w s2
          | none => match s2.checkFetch c2.launch g0.team c2.die c2.group.pc with
          | .ok h =>
            let s3 := (s2.markHits [h] false).trafficTo c2.die [h]
            let w : W32 := BitVec.ofNat 32 (s2.loadLoc h.loc 4)
            decide (s3.decodeSlot? w = none) && P c2 w s3
          | _ => false

/-- A turn of the word ADD S2, S2, S1 runs it and the group has issued, also where STREAM is pending already, MWAIT of a stopped
stream finds STREAM, a word decoded before is run, and the words 0 and 0xF3000001 decode to none. -/
theorem witness_StepRunsInstructions : turning base (fun c w s3 => decide (decode w = .ok (.add 2 2 1) ∧ c.group.evStream = false) &&
      match exec (.add 2 2 1) { s3 with cur := .group g0 } with
      | .next t => (t.group? g0).any fun g => decide (g.stall = .issued ∧ g.evStream = false)
      | _ => false) = true ∧
    turning (inG (fun g => { g with inTrap := true, evStream := true }) base) (fun c _ _ => c.group.evStream) = true ∧
    turning (State.reset.withFetchWord 32 0xE5009100 |> inT (fun t => { t with seq := t.seq.map fun q => { q with sqstate := .stopped } }))
      (fun c w s3 => decide (decode w = .ok (.mwait 0x91) ∧ c.group.evStream = false) &&
        match exec (.mwait 0x91) { s3 with cur := .group g0 } with
        | .next t => (t.group? g0).any fun g => decide (g.stall ≠ .issued ∧ g.evStream = true ∧ g.inTrap = false)
        | _ => false) = true ∧
    turning (inG (fun g => { g with decoded := some 0xF3000000 }) base) (fun _ w _ => decide (w = 0xF3000000 ∧ decode w = .ok .nop)) = true ∧
    turning (State.reset.withFetchWord 32 0) (fun _ w _ => decide (decode w = .unassigned)) = true ∧
    turning (State.reset.withFetchWord 32 0xF3000001) (fun _ w _ => decide (decode w = .reserved)) = true := by decide +kernel

theorem witness_StepRunsInstructions_stream : streams stream (fun t l q => decide (stream.schedule = [] ∧ stream.fatal = false) &&
      decide (t.core? = some 0 ∧ t.frozen = false ∧ q.sqstate = .run ∧ q.pageWait = false ∧ q.ending = false) &&
      (!stream.cutting 0 || t.begun) &&
      match stream.tickOn.checkFetch l g0.team (dieOfCore 0) q.spc with
      | .ok h => decide (decode (BitVec.ofNat 32 (stream.tickOn.loadLoc h.loc 4)) = .ok .mfence)
      | _ => false) = true ∧
    streams (inQ (fun q => { q with spc := mkPtr 1 0x10000 }) stream) (fun _ l q =>
      isTrap (stream.tickOn.checkFetch l g0.team (dieOfCore 0) q.spc)) = true ∧ isEvent .gtimeLockLoss = true ∧
    isEvent (.copyChunk 5) = true := by decide +kernel

def isNext (r : Res) : Bool := match r with
  | .next _ => true
  | _ => false

theorem witness_StepKeepsCanonicalMemories : memoriesWf base ∧ isNext (step base) = true ∧
    memoriesWf { base with schedule := [.event .gtimeLockLoss] } ∧ isNext (step { base with schedule := [.event .gtimeLockLoss] }) = true := by
  decide +kernel

theorem witness_FatalHoldsUntilStart : isNext (step { base with fatal := true }) = true ∧
    isNext (step { base with fatal := true, schedule := [.event (.coldStart [] ⟨[], 1, 30⟩)] }) = true := by decide +kernel

/-- Outside a handler with a handler, outside without one, and inside. -/
theorem witness_TakingATrap : meets (inL (fun l => { l with trapHandler := mkPtr 1 0x100 }) base) (fun c =>
      decide (c.launch.fused = none ∧ c.group.rewriting = none ∧ c.group.inTrap = false ∧ c.launch.trapHandler ≠ 0) &&
      isOk (base.checkFetch c.launch c.id.team c.die c.launch.trapHandler) && decide (c.group.stepOnce ≠ .armed)) = true ∧ base.faultSlot? 0x05 0 = none ∧
    meets base (fun c => decide (c.launch.fused = none ∧ c.group.rewriting = none ∧ c.group.inTrap = false ∧ c.launch.trapHandler = 0)) = true ∧
    meets (inG (fun g => { g with inTrap := true }) base) (fun c => c.group.inTrap) = true ∧
    meets (inL (fun l => { l with trapHandler := mkPtr 1 0x100 }) (inG (fun g => { g with stepOnce := .armed }) base)) (fun c =>
      decide (c.group.stepOnce = .armed ∧ c.group.inTrap = false)) = true := by decide +kernel

/-- A stream word in a group, a vector word in a handler, and a group's word in the stream; then for each fault of an operand the
field that raises it. -/
theorem witness_Illegal : encode .mfence = some 0xC4000000 ∧ meets base (fun _ => true) = true ∧
    encode (.vadd 0 0 0) = some 0x40000000 ∧ meets (inG (fun g => { g with inTrap := true }) base) (fun c => c.group.inTrap) = true ∧
    encode .nop = some 0xF3000000 ∧ stream.cur = .sequencer g0.team ∧
    meets (inG (fun g => { g with sregs := g.sregs.set 9 ⟨0, some 5⟩, mode := 0x30000 }) base) (fun c =>
      !scalarSrcLegal 0xD0 && scalarSrcLegal 0xB6 && (scalarConst (0xB6 - 0x90)).isNone && c.scalarEmpty 9 && modeEpa c.group.mode &&
      modeEpb c.group.mode && !c.scalarEmpty 1 && !c.vectorSrcLegal 16 && c.vectorSrcLegal 15 && !c.vectorEmpty 15 &&
      (vectorConst c.ty c.rnd c.sat (0xB6 - 0x90)).isNone) = true ∧
    meets (inG (fun g => { g with sregs := g.sregs.set 9 ⟨0, some 5⟩, vregs := g.vregs.set 9 ⟨Lanes.zero, some 5⟩ }) base) (fun c =>
      c.scalarEmpty 9 && c.vectorEmpty 9 && !modeEpa c.group.mode && !modeEpb c.group.mode) = true := by decide +kernel

/-! Witnesses: the steps of the schedule. -/

def flight (k : FlightKind) : Flight := ⟨5, g0, k, .scalar 7, [], []⟩

theorem witness_EventsOfAGroup_results : ([FlightKind.load, .atomic, .engine, .nectar]).all (fun k =>
      let s : State := { base with flights := [flight k] }
      decide (s.flights.find? (fun x => decide (x.id = 5)) = some (flight k)) && (s.team? g0.team).any (fun t => (t.groups[0]?).isSome) &&
      decide (s.packets = []) && (flight k).locs.all fun x => match x with
        | .phys _ => false
        | _ => true) = true ∧
    (({ waiting base with packets := [{ pending with acked := true, kept := true }] } : State).packet? 7).any (·.acked) = true := by
  decide +kernel

def copyCmd (always : Bool) : CopyCmd :=
  ⟨5, g0, 2, always, none, none, 0x1000000000200, 0x1000000000100, 8, 0, 0, false, none, none, none, [], []⟩
def copyState (always : Bool) : State := { near' with copies := [copyCmd always], nextId := 6 }

theorem witness_EventsOfAGroup_copies : ([false, true]).all (fun w =>
      let s := copyState w
      let k := copyCmd w
      decide (s.copies.find? (fun x => decide (x.id = 5)) = some k) && decide (s.fatal = false) && (s.launch? 0).any fun l =>
        (match s.chunkOf l (s.copyDie k) k with
          | some (.inl ch) => ch.hits.head?.any (·.dest.isNone) && (ch.hits ++ ch.reads).all fun h => match h.loc with
              | .tileWin _ _ _ => false
              | .regWin _ _ _ => false
              | _ => true
          | _ => false) && ((List.range 8).all fun i => !k.overlapped l i) &&
        (!s.copyBlocks g0.team 2 (.die 0) 5) &&
        (s.sendOp (.team g0.team) 2 0 ⟨none, none, false, some [], []⟩ (.die 0) (.chunk 5 [] none)).isSome) = true ∧
    decide ((8 : Nat) ≤ ({ copyCmd false with next := 8 }).next) = true := by decide +kernel

/-- A parked group, its flag readable; one whose VTIME has reached VTCMP; and one with each event pending, noted at a boundary. -/
theorem witness_EventsOfAGroup_events :
    (let s := inG (fun g => { g with run := .parked 0x1000000000100 0 0, vtcmp := 0 }) base
     (s.group? g0).any (fun g => decide (g.run = .parked 0x1000000000100 0 0 ∧ g.vtcmp ≠ BitVec.allOnes 64 ∧ g.vtcmp.toNat ≤ 0)) &&
      (s.ctx? g0).any fun c => okHere (s.checkScalar c.launch g0.team c.die 0x1000000000100 0x100 8 [.pr] false) &&
        !s.loadHeld g0 (spans (.phys 0x10100) 8)) = true ∧
    ((inG (fun g => { g with evStream := true, evCollective := [(1, 2), (3, 4)], evVtime := true, evStop := true }) base).group? g0).any (fun g =>
      decide (g.inTrap = false ∧ g.run = .running ∧ g.rewriting = none ∧ g.evStream = true ∧ g.evCollective = (1, 2) :: [(3, 4)] ∧
        g.evVtime = true ∧ g.evStop = true)) = true ∧
    (base.team? g0.team).any (fun t => t.seq.isSome && decide (t.frozen = false) && t.core?.isSome) = true ∧
    g0 ∈ ({ base with noted := [g0] } : State).noted := by decide +kernel

/-! Witnesses: Forager replays. -/

def nodeOf (kind npred : Nat) (inst : W32) : GraphNode :=
  ⟨kind, 0, 0, 0, npred, 0, 0, (0, 0), (0, 0), (0, 0x40), 0, 0, inst⟩
def graphOf (kind : Nat) : GraphImage := ⟨1, [nodeOf kind 0 0], [], []⟩
/-- A replay of one node on die 0, its one base pointer into segment 1. -/
def replayOf (im : GraphImage) (st : NodeState) : Replay :=
  ⟨9, 0, g0, 9, 0, 0x11000, 0, im, [0x1000000000100], [0], [st], 0, 0, true, false, [], [], none, []⟩
def replaying (kind : Nat) (st : NodeState) : State := { near' with replays := [replayOf (graphOf kind) st], nextId := 10 }

def forReplay (s : State) (P : Replay → Launch → GraphNode → Bool) : Bool := (s.replay? 9).any fun r =>
  (s.launch? r.group.team.launch).any fun l => (r.image.nodes[0]?).any fun n => P r l n

/-- FGRAPH of a loaded entry, by a group whose S1 is the entry's number 0 and S2 the pointer to the base table. -/
def graphs (s : State) : State := inL (fun l => { l with graphTab := 0x11000, ngraph := 1 })
  { s with graphs := [⟨0, 0x11000, 0, graphOf 0⟩], mem := s.mem.writeLe 0x11008 1 0 |>.writeLe 0x11007 1 0x80 }

theorem witness_ForagerReplays_start : ∃ c, Issuing (graphs (sreg 2 0x1000000000100 base)) c ∧ (outside c && dstS c 0xFF && srcS c 1 && srcS c 2 &&
    decide ((c.readS 1).toNat < c.launch.ngraph) && decide ((graphs base).graph? c.launch.fn c.launch.graphTab (c.readS 1).toNat = some (graphOf 0)) &&
    isOk ((graphs base).checkBase c.launch c.id.team c.die (c.readS 2) 1) && decide ((graphs base).replaysOn c.die < 16) &&
    decide (c.group.heldHere = none ∧ c.team.lost = 0) && decide (base.packets = [])) = true ∧
    mayAccess (graphs (sreg 2 0x1000000000100 base)) c ∧ mayRelease (graphs (sreg 2 0x1000000000100 base)) c 0 := readyM (by decide +kernel)

/-- The 16 replays of a die's Forager: the next FGRAPH waits. -/
theorem witness_ForagerReplays_full : (16 : Nat) ≤ ({ near' with
    replays := (List.range 16).map fun k => { replayOf (graphOf 0) .idle with id := k } } : State).replaysOn 0 := by decide +kernel

/-- The source of node 0, `n` bytes, is readable. -/
def sourceB (s : State) (r : Replay) (l : Launch) (x : GraphNode) (n : Nat) : Bool := decide (s.sourceCode l r x n = 0) &&
  (s.sourceHits l r 0 x n).all fun h => match h with
    | .ok h => s.locReady h.loc
    | _ => false

/-- A COPY of no bytes, a WAIT whose word is there, and what ends them; a replay that has ended, with a mismatch and without. -/
theorem witness_ForagerReplays_nodes : forReplay (replaying 0 .idle) (fun r l n => !r.paged && r.startsNext 0 && r.sent &&
      (r.transfer n).any fun tr => decide ((replaying 0 .idle).transferCode l r n tr = 0)) = true ∧
    forReplay (replaying 5 .idle) (fun r l n => r.startsNext 0 && decide (n.kind = 5) && sourceB (replaying 5 .idle) r l n 8) = true ∧
    forReplay (replaying 5 .met) (fun r _ _ => decide (r.states[0]? = some .met)) = true ∧
    forReplay (replaying 5 .started) (fun r l n => decide (r.states[0]? = some .started) && sourceB (replaying 5 .started) r l n 8) = true ∧
    (let s : State := { replaying 0 .started with
       copies := [⟨5, g0, 0, false, some (9, 0), none, 0, 0, 0, 0, 0, false, none, none, none, [], []⟩] }
     s.copies.any fun k => decide (k.node = some (9, 0)) && s.copyEnded k && decide (k.code = 0)) = true ∧
    forReplay (replaying 0 .done) (fun r _ _ => r.ended && decide (r.mismatch = none)) = true ∧
    ({ replayOf (graphOf 0) .done with mismatch := some 3, code := 6 } : Replay).ended = true := by decide +kernel

/-- One collective instance of three members: this Forager, that of die 1 and module 8. -/
def instOf : InstRec := ⟨3, 3, 64, 0, 0, [0, 9, 17]⟩
def collective : State := inL (fun l => { l with gang := 7 }) { near' with
  replays := [{ replayOf ⟨1, [nodeOf 2 0 3], [], [instOf]⟩ .started with names := [(3, .die 1), (3, .module 8)] }]
  signatures := [⟨⟨4, 7, 1, 20⟩, .die 0, ⟨3, 64, 0, 0⟩⟩, ⟨⟨4, 7, 1, 20⟩, .die 0, ⟨3, 65, 0, 0⟩⟩] }

theorem witness_ForagerReplays_signatures : forReplay collective (fun r l _ =>
      decide (r.image.insts.find? (fun x => decide (x.inst = 3)) = some instOf) && r.awaits 3 (.module 8) && decide (l.gang ≠ 0) &&
      r.awaits 3 (.die 1) && sameJob l 4 7 && decide (r.id ≠ 20 ∧ r.mismatch = none ∧ collective.replays = [r]) &&
      decide ((64 : Nat) % 2 ^ 32 = instOf.count.toNat ∧ 64 / 2 ^ 32 % 16 = instOf.typ ∧ 64 / 2 ^ 36 % 16 = instOf.op)) = true ∧
    (collective.signatures[0]?).any (fun g => decide (g.sig = ⟨3, instOf.count, instOf.typ, instOf.op⟩ ∧ g.dest = .die 0)) = true ∧
    (collective.signatures[1]?).any (fun g => decide (g.sig.inst = 3 ∧ g.sig ≠ ⟨3, instOf.count, instOf.typ, instOf.op⟩)) = true := by
  decide +kernel

/-- 12 R256: an unequal signature stops the replay with code 6, and its held node writes nothing. -/
theorem test_mismatch : (match exec (.collectiveSignature 1 9 3 none) collective with
    | .next t => (t.replay? 9).any fun r => decide (r.code = 6 ∧ r.mismatch = some 3 ∧ r.states = [.done])
    | _ => false) = true := by decide +kernel

/-- A LAUNCH node whose packet image is at offset 0x100 of segment 1. -/
theorem witness_ForagerReplays_launch : forReplay (replaying 6 .idle) (fun r l n => decide (n.kind = 6) && r.startsNext 0 &&
    sourceB (replaying 6 .idle) r l n 64) = true := by decide +kernel

/-! Witnesses: placement, sets, gangs. -/

/-- The launch of `base` before its first team is placed, without private memory. -/
def plain : Launch := { placedLaunch with nextTeam := 0, krec := { placedKernel with priv := 0 } }

/-- `plain` that demands more scratchpad than a core has. -/
def huge : Launch := { plain with krec := { plain.krec with spadu := 2000 } }

/-- That launch with no team placed yet, in a partition of cluster 0. -/
def unplaced : State := { base with
  teams := []
  launches := [plain]
  cores := State.reset.cores
  parts := base.parts.set 0 { Partition.reset with mask := 1, nearGib := 1, ptRoot := 0x1000 } }

theorem dropMarks_same (s : State) (P : Nat) (h : (s.dropMarks P).cores = s.cores) : s.dropMarks P = s := by
  have e : s.dropMarks P = { s with cores := (s.dropMarks P).cores } := rfl
  rw [e, h]

theorem witness_Placement : unplaced.dropMarks 0 = unplaced ∧ (unplaced.waitingLaunches 0).map (·.seq) = [0] ∧
    (unplaced.waitingLaunches 0).all (fun l => decide (unplaced.switchesFor l = false ∧
      unplaced.nextTeam l = some 0 ∧ unplaced.pickCore l = some 0)) = true ∧ unplaced.team? ⟨0, 0⟩ = none ∧
    (unplaced.cores.all fun y => decide (y.marked ≠ some 0)) = true :=
  ⟨dropMarks_same _ _ (by decide +kernel), by decide +kernel, by decide +kernel, by decide +kernel, by decide +kernel⟩

/-- The first launch's team fits on no core; the second launch's team fits on core 0. -/
def tooBig : State := { unplaced with launches :=
  [huge, { plain with seq := 1 }] }

theorem witness_Placement_later : tooBig.dropMarks 0 = tooBig ∧ (match tooBig.waitingLaunches 0 with
      | l :: l2 :: _ => decide (tooBig.pickCore l = none ∧ tooBig.markChoice l = none ∧ tooBig.nextTeam l2 = some 0 ∧
          tooBig.pickAmong (tooBig.toSwitch l) l2 = some 0 ∧ l2.seq = 1)
      | _ => false) = true ∧ tooBig.team? ⟨1, 0⟩ = none ∧ (tooBig.cores.all fun y => decide (y.marked ≠ some 1)) = true :=
  ⟨dropMarks_same _ _ (by decide +kernel), by decide +kernel, by decide +kernel, by decide +kernel⟩

/-- Every core of the cluster holds a team, and the launch's team fits on none: a core is marked for it. -/
def crowded : State := { tooBig with
  launches := tooBig.launches.take 1
  teams := (List.range 4).flatMap fun c => (base.teams.take 1).map fun t => { t with id := ⟨0, c + 1⟩, place := .resident c } }

theorem witness_Placement_mark : crowded.dropMarks 0 = crowded ∧ (match crowded.waitingLaunches 0 with
      | [l] => decide (crowded.pickCore l = none ∧ crowded.markChoice l = some 0 ∧ l.pool = (crowded.cores.getD 0 Core.reset).pool ∧
          ∀ x ∈ crowded.coresOf l.domain, crowded.residents x ≤ 64)
      | _ => false) = true ∧ (crowded.cores[0]?).isSome :=
  ⟨dropMarks_same _ _ (by decide +kernel), by decide +kernel, by decide +kernel⟩

/-- The same, and the launch's configuration is that of no core. -/
def crowdedPool : State := { crowded with cores := crowded.cores.map fun c => { c with poolReg := 0x100 } }

theorem witness_Placement_mark_other : (crowdedPool.waitingLaunches 0).all (fun l => decide (crowdedPool.markChoice l = some 0 ∧
    ∀ x ∈ crowdedPool.coresOf l.domain, (crowdedPool.cores.getD x Core.reset).pool ≠ l.pool ∧ crowdedPool.residents x ≤ 64)) = true := by
  decide +kernel

/-- Cores 1 and 2 were freed, core 2 first: it takes the next team, though core 0 has the lowest index. -/
theorem witness_Placement_freed : ((unplaced.waitingLaunches 0).map fun l => { l with refill := [(1, 9, 1), (2, 4, 1)] }).all (fun l =>
    decide (unplaced.pickAmong [] l = some 2 ∧ unplaced.pickAmong [2] l = some 1 ∧ unplaced.pickAmong [0, 1, 2, 3] l = none)) = true := by
  decide +kernel

/-- A saved team of the launch waits to be restored. -/
def away : State := { unplaced with
  teams := base.teams.map fun t => { t with place := .saved }
  launches := [{ plain with nextTeam := 1 }] }

theorem witness_Placement_restore : away.dropMarks 0 = away ∧ (match away.waitingLaunches 0 with
      | [l] => decide (away.switchesFor l = false ∧ away.nextTeam l = some 0 ∧ away.pickCore l = some 0 ∧ l.seq = 0) &&
          (away.team? ⟨0, 0⟩).any fun t => decide (t.id = ⟨0, 0⟩ ∧ t.place = .saved ∧ t.groups.length = groupCount l.krec.lanes)
      | _ => false) = true ∧ (away.cores.all fun y => decide (y.marked ≠ some 0)) = true :=
  ⟨dropMarks_same _ _ (by decide +kernel), by decide +kernel, by decide +kernel⟩

/-- The team fits on core 0, while core 1 is empty and has another configuration. -/
def onePool : State := { unplaced with cores := unplaced.cores.modify 1 fun c => { c with poolReg := 0x100 } }

theorem witness_Placement_hold : onePool.dropMarks 0 = onePool ∧ (onePool.waitingLaunches 0).all (fun l =>
    onePool.switchesFor l && (onePool.pickCore l).isSome) = true :=
  ⟨dropMarks_same _ _ (by decide +kernel), by decide +kernel⟩

/-- A core of another configuration is switched; a core that is switching; a finished team; a launch whose teams have retired. -/
def otherPool : State := { unplaced with cores := unplaced.cores.map fun c => { c with poolReg := 0x100 } }

theorem witness_Placement_switch : (otherPool.waitingLaunches 0).any (fun l => decide ((otherPool.toSwitch l).head? = some 0)) = true ∧
    0 ∈ otherPool.coresOf 0 ∧ (∀ d < 18, d ≠ 0 → 0 ∉ otherPool.coresOf d) ∧ otherPool.switchingIn 0 = false ∧ (otherPool.cores[0]?).isSome ∧
    ((otherPool.cores[0]?).map fun c => ({ c with switching := some (0, ⟨0x200, 0x300, 0x400⟩) } : Core).switching) =
      some (some (0, ⟨0x200, 0x300, 0x400⟩)) := by decide +kernel

def ended : State := inT (fun t => { t with
  groups := t.groups.map fun g => { g with run := .ended }
  seq := t.seq.map fun q => { q with sqstate := .ended } }) base

theorem witness_Placement_retire : (ended.team? ⟨0, 0⟩).any (fun t => (ended.launch? 0).any fun l => t.finished l.dbg && t.core?.isSome) = true ∧
    ended.gangs = [] ∧
    ((inL (fun l => { l with retired := 1, compAddr := 0x4000 }) base).launch? 0).any (fun l => decide (l.stage = .ready ∧ l.retired = l.grid ∧
      l.node = none ∧ l.fused = none ∧ l.compDev = false ∧ l.compAddr ≠ 0) && base.launchQuiet 0 &&
      !base.cpStalls l.fn l.compDev l.compAddr.toNat 96 true) = true ∧
    ((inL (fun l => { l with retired := 0, gang := 6 }) base).launches.any fun m => decide (m.gang = 6 ∧ m.stage ≠ .complete ∧
      m.retired ≠ m.grid)) = true := by decide +kernel

/-- Core 0 with a full active set, and a pending group that is ready and starved. -/
def entry (g : Nat) (starved : Bool) : SetEntry := ⟨⟨⟨0, 0⟩, g⟩, 0, 0, starved, false⟩
def fullSet (n : Nat) : State := { base with
  noted := [⟨⟨0, 0⟩, 9⟩]
  stalled := [⟨⟨0, 0⟩, 6⟩]
  cores := base.cores.modify 0 fun c => { c with active := (List.range n).map (entry · false), pending := [entry 9 true] } }

theorem witness_Placement_sets : ([7, 8]).all (fun n => ((fullSet n).cores[0]?).any fun c => decide ((fullSet n).incoming c = some (entry 9 true) ∧
      c.active.length = n)) = true ∧
    ((fullSet 8).cores[0]?).any (fun c => (c.active.any fun x => decide (x.group = ⟨⟨0, 0⟩, 7⟩)) && (c.active.all fun x => !x.kept) &&
      decide ((fullSet 8).longest (·.lastIssue) (c.pending.filter fun x => x.starved && (fullSet 8).noted.contains x.group) = some (entry 9 true)) &&
      ((fullSet 8).longest (·.since) (c.active.filter fun x => decide ((fullSet 8).levelOf x.group =
        ((c.active.map fun y => (fullSet 8).levelOf y.group).min?.getD 0)))).isSome) = true ∧
    (⟨⟨0, 0⟩, 7⟩ : GroupId) ∉ (fullSet 8).stalled ∧ (⟨⟨0, 0⟩, 6⟩ : GroupId) ∈ (fullSet 8).stalled ∧ (⟨⟨0, 0⟩, 9⟩ : GroupId) ∈ (fullSet 8).noted := by decide +kernel

/-- A gang of two parts in each of its states. -/
def gangIn (st : GangState) : Gang := ⟨6, 2, [(0, 0), (1, 1)], st, 0, 2, [], false⟩
def ganged (st : GangState) : State := { unplaced with
  clock := ⟨0, 0, 200000⟩
  gangs := [gangIn st]
  launches := [0, 1].map fun n => { plain with seq := n, lid := BitVec.ofNat 32 (n + 1), gang := 6, gangN := 2, gpart := n, stage := .gang } }

theorem witness_GangsAndQuarantine : ([GangState.collect, .reserve, .backoff, .commit]).all (fun st =>
      decide ((ganged st).gang? 6 = some (gangIn st) ∧ (ganged st).gangs = [gangIn st]) && (ganged st).gangCollected (gangIn st) &&
      decide ((gangIn st).since + 100000 ≤ (ganged st).clock.gtime)) = true ∧
    (let l : Launch := { placedLaunch with quarantined := true, qlimitUs := 1000, placedAt := 0 }
     let s : State := { base with launches := [l], clock := ⟨0, 0, 1000000⟩ }
     decide (s.launch? 0 = some l ∧ l.quarantined = true ∧ l.stage = .ready ∧ 0 < l.nextTeam ∧ l.retired < l.grid ∧
       l.placedAt + 1000 * l.qlimitUs ≤ s.clock.gtime ∧ l.away = none ∧ ({ l with away := some 0 } : Launch).away ≠ none)) = true := by
  decide +kernel

/-- Quarantine: of every launch, gangs or none. -/
theorem witness_GangsAndQuarantine_none : base.gangs = [] := by decide +kernel

/-- One of two parts is read, and a peer module may hold the other: the gang looks there, whatever it finds. -/
def halfGang : State := { ganged .collect with
  gangs := [{ gangIn .collect with parts := [(0, 0)] }]
  peers := [⟨0, [], [], true⟩]
  launches := (ganged .collect).launches.take 1 }

theorem witness_GangsAndQuarantine_abroad : (halfGang.gangs.all fun g => decide (g.state = .collect ∧ halfGang.gang? 6 = some g ∧ g.reserved = [] ∧
      halfGang.partsStall g = false ∧ halfGang.gangAbroad g = true ∧ halfGang.gangCollected g = true)) = true ∧
    (halfGang.gangs.all fun g => decide (halfGang.refusedAbroad g = true) || decide (halfGang.refusedAbroad g = false)) = true := by
  refine ⟨by decide +kernel, ?_⟩
  simp only [List.all_eq_true]
  intro g _
  cases halfGang.refusedAbroad g <;> rfl

/-- The gang in RESERVE, each part demanding `n` units of the scratchpad. -/
def unitGang (n : Nat) : State :=
  { ganged .reserve with launches := (ganged .reserve).launches.map fun l => { l with krec := { l.krec with spadu := n } } }

/-- The two parts of a gang in RESERVE hold what they need; a part too large for a core never does. -/
theorem witness_GangsAndQuarantine_held : ([(1, true), (2000, false)]).all (fun x =>
    ((gangIn .reserve).parts.foldl (fun (u : State) p => u.reservePart p.2) (unitGang x.1)).gangs.all fun g => decide (g.allHeld = x.2)) = true := by
  decide +kernel

/-! Witnesses: packets. Function 0's queue 0 lies in host memory at 0x100 and holds one packet. -/

def withPacket (w : List W64) (s : State) : State := { s with
  fns := [{ Fn.reset with queues := [⟨0x100, 0, 0, false, false, true, 0, 1, .active, 0, 0, none⟩], faults := (s.fns.getD 0 Fn.reset).faults }]
  hostMem := [(0, Memory.writeBytes [] 0x100 (wordBytes w))] }
def packetMeets (w : List W64) (s : State) (P : State → Queue → List W64 → Bool) : Bool := match (withPacket w s).nextPacket 0 0 with
  | some (q, some v) => P (withPacket w s) q v
  | _ => false

/-- The packets of every type but LAUNCH, and of a type that is not assigned. -/
theorem witness_QueuePackets : ([2, 3, 4, 5, 6] : List Nat).all (fun k =>
      packetMeets [BitVec.ofNat 64 (k + 7 * 2 ^ 32), if k = 2 then 0 else 1, if k = 4 then 0x100 else 0, 0, 0, 0, if k = 5 then 0 else 0x4000, 0] base fun s q w =>
        decide (packetKind w = k) && packetWellFormed w && !s.cpStalls 0 q.qloc (pword w 6) 16 true) = true ∧
    packetMeets [9, 0, 0, 0, 0, 0, 0x4000, 0] base (fun _ _ w => !packetWellFormed w && decide (packetKind w ≠ 1 ∧ packetKind w ≠ 5)) = true ∧
    (({ base with invals := [⟨0, [7], 0, 0x10000, 3, 0x4000, false⟩] } : State).invals[0]?).isSome = true := by decide +kernel

/-- Each DEBUG command on group 0 of launch 1: at rest, and running. -/
theorem witness_QueuePackets_debug : ([(1, true), (2, true), (3, true), (4, true), (5, true), (1, false)] : List (Nat × Bool)).all (fun y =>
      let k := y.1
      let t := if y.2 then inG (fun g => { g with run := .debugStopped }) base else base
      packetMeets [4, 1, BitVec.ofNat 64 (256 * k + 3 * 2 ^ 24 + 127 * 2 ^ 32), 1, 0, 0, 0x4000, 0] t fun s _ w =>
          decide (debugCommand w = k) && (s.debugTarget 0 w).any fun x =>
            (x.2.2.2.atRest == y.2) && decide (debugItem x.2.2.2 16 0 5 3 127 = some (0, false)) &&
            (match debugPut x.2.2.2 16 false 3 127 9 with
              | .ok _ => true
              | _ => false)) = true := by decide +kernel

/-- A descriptor of a kernel of one group at 0x13000, with its one segment at 0x12000. -/
def descriptorWords : List W64 := [4 * 2 ^ 32, 0xFFFFFFFF00000000, 0xFFFFFFFF + 128 * 2 ^ 32, 0, 0, 0x0801, 0x0101010101010101, 0x0101010101010101,
  3 + 2 ^ 32 * 1, 0, 0, 0, 0, 0, 0, 0, 0, 0x0001000100000001, 0x040003000200, 0, 0x12000, 0x10001, 0, 0, 0, 0, 0, 0, 0, 0, 0, 0]
def described (s : State) : State := { s with
  mem := (s.mem.writeBytes 0x12000 (wordBytes [0x10000, 0x10000, 0xDF, 0])).writeBytes 0x13000 (wordBytes descriptorWords) }
def launchPacket : List W64 := [1 + 5 * 2 ^ 32, 0x13000, 1, 0, 0, 0, 0x4000, 0]

/-- The launch is not refused; with the CLASS 7 it is, for reason 3. Launch 1, which it waits for, is outstanding. -/
theorem witness_LaunchSubmitted : packetMeets launchPacket (described base) (fun s q w => decide (packetKind w = 1) && packetWellFormed w &&
      !s.cpStalls 0 q.qloc (pword w 6) 96 true && (s.descriptor w).any fun d =>
        let l := s.launchOf 0 0 q w d [] 4 [] none
        decide (s.refusal d l 0 = 0 ∧ s.refusal d l 7 = 3 ∧ l.gang = 0) && (s.producerOf 0 0).isNone &&
        s.launches.any fun x => decide (x.fn = 0 ∧ x.stage ≠ .complete ∧ x.lid ≠ 0 ∧ x.lid ∈ l.waits)) = true := by decide +kernel

/-- A LAUNCH node whose image at offset 0x100 of segment 1 is that packet, without the wait. -/
def launchNode : State := { described (replaying 6 .idle) with
  mem := (described (replaying 6 .idle)).mem.writeBytes 0x10140 (wordBytes [1 + 5 * 2 ^ 32, 0x13000, 0, 0, 0, 0, 0x4000, 0])
  replays := [{ replayOf ⟨1, [{ nodeOf 6 0 0 with src := (0, 0x40) }], [], []⟩ .idle with base := [0x1000000000100] }] }

def allOk (hs : List Tr) : Option (List Hit) := hs.mapM fun h => match h with
  | .ok h => some h
  | _ => none

theorem witness_ForagerReplays_submits : forReplay launchNode (fun r l n => decide (launchNode.sourceCode l r n 64 = 0) &&
    (allOk (launchNode.sourceHits l r 0 n 64)).any fun hs =>
      let q := (launchNode.fns.getD l.fn Fn.reset).queues.getD l.queue Queue.reset
      let pw := bytesWords (hs.map fun h => launchNode.readLoc h.loc) 8
      (hs.all fun h => launchNode.locReady h.loc) &&
      decide (packetKind pw = 1) && packetWellFormed pw && !launchNode.cpStalls l.fn q.qloc (pword pw 6) 96 true &&
        (launchNode.descriptor pw).any fun d =>
          let x := launchNode.launchOf l.fn l.queue q pw d [] 4 [] (some (9, 0))
          decide (launchNode.refusal d x 0 = 0) && !launchNode.codeStalls x x.textBytes) = true := by decide +kernel

def fault' : PageFault := ⟨some 1, false, 0x20000, true, none, 1, 0, .group g0, 0, 0⟩
def faulted (s : State) : State := inG (fun g => { g with run := .pageWait }) { s with fns := s.fns.modify 0 fun f => { f with faults := [fault'] } }

/-- Entry 0 of the graph table at 0x11000 names an image at 0x14000 of one COPY node of no bytes. -/
def imaged (s : State) : State := { s with
  mem := (s.mem.writeBytes 0x11000 (wordBytes [0x14000, 128])).writeBytes 0x14000 (wordBytes [1 + 2 ^ 32]) }

theorem witness_RepliesAndGraphs_image : packetMeets [6, 0x11000, 0, 0, 0, 0, 0x4000, 0] (imaged base) (fun s _ w =>
    gloadTarget w && !(readOn s 0 0).graphBit (pword w 1) 0 && ((readOn s 0 0).graphWritten (pword w 1) 0).isSome) = true := by decide +kernel

/-- A reply to an outstanding fault of a group; unloading; a deferred GLOAD. -/
theorem witness_RepliesAndGraphs : ([0, 1] : List Nat).all (fun k => packetMeets [5, 1, BitVec.ofNat 64 k, 0, 0, 0, 0, 0] (faulted base) fun s _ w =>
      decide (s.faultOf? 0 (pword w 1) = some fault' ∧ pword w 2 = k) && (s.group? g0).any fun g => decide (g.run = .pageWait)) = true ∧
    ([0, 1] : List Nat).all (fun k => packetMeets [6, 0x11000, BitVec.ofNat 64 (k * 2 ^ 32), 0, 0, 0, 0x4000, 0] base fun s _ w =>
      gloadTarget w && !s.graphBit (pword w 1) 0 && decide (pword w 2 / 2 ^ 32 % 2 = k)) = true ∧
    (({ base with deferred := [⟨0, 0, 0x11000, 0, none, 3, 0x4000, false⟩] } : State).deferred[0]?).any (fun d =>
      !base.cpStalls d.fn d.compDev d.compAddr.toNat 16 true) = true ∧ base.replays = [] := by decide +kernel

/-! Witnesses: the host interface, channels and links. -/

/-- Function 16 with queue 63 as given, and function 0 with one aperture window over segment 1's pages. -/
def hosted (en : Bool) (st : QState) (qtail : W32) : State := { base with
  fns := ((base.fns.set 16 { Fn.reset with queues := (Fn.reset.queues).set 63 { Queue.reset with enable := en, qstate := st, qtail := qtail } }).set 0
    { Fn.reset with aptes := Fn.reset.aptes.set 63 3 }) }
def queueIs (s : State) (P : Queue → Bool) : Bool := (s.fns[16]?).any fun f => (f.queues[63]?).any P

/-- A queue of one entry: the tail 1 past the head and 2 past it, and half the range past the old tail. -/
theorem witness_HostInterface_queues :
    queueIs (hosted false .stopped 0) (fun q => decide (q.enable = false ∧ q.qstate = .stopped)) = true ∧
    queueIs (hosted false .disabled 0) (fun q => decide (q.enable = false ∧ q.qstate = .disabled)) = true ∧
    queueIs (hosted true .active 0) (fun q => q.enable && decide (((1 : W32) - q.qhead).toNat ≤ 2 ^ q.qsize.toNat ∧ ((1 : W32) - q.qtail).toNat < 2 ^ 31 ∧
      2 ^ q.qsize.toNat < ((2 : W32) - q.qhead).toNat)) = true ∧
    queueIs (hosted true .active 0x80000001) (fun q => decide (((1 : W32) - q.qhead).toNat ≤ 2 ^ q.qsize.toNat ∧ 2 ^ 31 ≤ ((1 : W32) - q.qtail).toNat)) = true ∧
    (0x200 : W64).toNat / 2 ^ 9 % 2 = 1 := by decide +kernel

/-- The window 63 of the aperture shows virtual 0 on; segment 1's virtual 0x10000 is at offset 0x10000 of it, and 0x20000 is mapped nowhere. -/
theorem witness_HostInterface_aperture : apertureShape 0xFC010000 1 = true ∧ apertureShape 0xFC01003F 1 = true ∧
    ([false, true]).all (fun w => match (hosted false .disabled 0).apertureWalks 0 0xFC010000 1 w with
      | some [.page _ _] => true
      | _ => false) = true ∧
    (hosted false .disabled 0).apertureWalks 0 0 1 false = none ∧ base.transits = [] ∧ base.mgmt.busy = false ∧
    ({ base.mgmt with busy := true }).busy = true := by decide +kernel

def priFault : PageFault := ⟨none, true, 0x20000, true, none, 1, 0, .group g0, 0, 0⟩
/-- Faults of both kinds; the answer to a page request reaches a group that waits for it. -/
theorem witness_HostInterface_faults : ((faulted base).fns[0]?).any (fun f => decide (f.faults ≠ []) &&
      f.faults.all fun y => y.seqno.isSome) = true ∧ (base.fns[0]?).any (fun f => decide (f.faults = [])) = true ∧
    (let s : State := inG (fun g => { g with run := .pageWait }) { base with fns := base.fns.modify 0 fun f => { f with faults := [priFault] } }
     (s.fns[0]?).any (fun f => decide (f.faults[0]? = some priFault)) && decide (priFault.pri = true ∧ priFault.who = .group g0) &&
      (s.team? g0.team).any fun t => (t.groups[g0.group]?).any fun x => decide (x.run = .pageWait)) = true := by decide +kernel

/-- The port of `pending`'s stream, with its expected number. -/
def porting (e : BitVec 16) : State := { waiting base with ports := [⟨pending.stream, e⟩] }

/-- The distances 0, 1, 1024, 1025, 32767 and 32768 to the expected number. -/
theorem witness_Transport_arrival : ([0, 1, 1024, 1025, 32767, 32768] : List Nat).all (fun d =>
      let s := porting (BitVec.ofNat 16 (65536 - d))
      decide (s.wire[0]? = some pending.id ∧ s.packet? pending.id = some pending ∧ pending.acked = false ∧ s.fatal = false ∧
        s.closes.contains pending.stream = false ∧ s.joinsDone pending = true ∧ s.opReady pending.op = true ∧ s.buffered = []) &&
      (s.ports.find? fun e => decide (e.stream = pending.stream)).isSome && decide ((pending.num - expects s pending.stream).toNat = d)) = true := by
  decide +kernel

theorem witness_Transport_messages : ({ waiting base with acks := [7] } : State).acks[0]? = some pending.id ∧
    ({ base with closes := [pending.stream] } : State).closes[0]? = some pending.stream ∧
    ({ base with packets := [{ pending with resend := true }] } : State).packet? 7 = some { pending with resend := true } ∧
    ([0, 1] : List (BitVec 16)).all (fun e => ([⟨0, .team g0.team, [(pending.stream, e)]⟩, ⟨5, .team g0.team, [(pending.stream, e)]⟩] : List SyncMsg).all fun m =>
      let s : State := { waiting base with syncs := [m] }
      decide (s.syncs[0]? = some m ∧ m.streams = [(pending.stream, e)]) && s.packets.all fun y => decide (y.stream = pending.stream ∧ y.acked = false) &&
        s.packets.all (fun z => decide (z.id ≠ y.id) || decide (z = y)) &&
        decide (if e = 1 then 32768 ≤ (y.num - e).toNat else (y.num - e).toNat < 32768)) = true ∧
    ([0, 1] : List (BitVec 16)).all (fun e => decide
      (({ base with syncReqs := [⟨5, .team g0.team, [(pending.stream, e)]⟩] } : State).syncReqs[0]? = some ⟨5, .team g0.team, [(pending.stream, e)]⟩)) = true := by
  decide +kernel

/-- The last of the 48 links: up at full width, at the end of its hold and within it, 2 µs and 50 µs after its last traffic and just
before; and down. -/
theorem witness_Transport_links :
    (let s (x : Link) : State := { waiting base with links := base.links.set 47 x, clock := ⟨0, 0, 52000⟩ }
     ([(⟨true, .full, 50000, 52000⟩, true, true, false), (⟨true, .full, 50001, 52001⟩, false, false, false),
       (⟨true, .full, 2000, 0⟩, true, true, true), (⟨true, .narrow, 2001, 0⟩, true, true, false), (⟨false, .full, 0, 0⟩, true, true, true)] :
       List (Link × Bool × Bool × Bool)).all fun y =>
       decide ((s y.1).links[47]? = some y.1) && (decide (y.1.holdUntil ≤ (s y.1).clock.gtime) == y.2.1) &&
       (decide (y.1.lastTraffic + 2000 ≤ (s y.1).clock.gtime) == y.2.2.1) && (decide (y.1.lastTraffic + 50000 ≤ (s y.1).clock.gtime) == y.2.2.2) &&
       decide ((s y.1).wire.count pending.id ≤ 1 ∧ pending ∈ (s y.1).packets ∧ pending.acked = false ∧ (s y.1).cuts = []) &&
       ((s y.1).team? g0.team).isSome) = true := by decide +kernel

/-- A stream of the team to module 3, and a copy whose chunks still to send go to memory of that module, through segment 1. -/
def peered : State := inL (fun l => { l with segs := [⟨0x10000, 0x10000, 0x303DF, 0⟩] })
  (inT (fun t => { t with chans := t.chans.modify 2 fun c => { c with streams := [⟨.peer 3 0, 0, 0, 0⟩] } })
  { copyState true with
    copies := [{ copyCmd true with code := 0 }]
    peers := [⟨3, [(0, (base.parts.getD 0 Partition.reset).ptRoot)], base.mem, true⟩] })

theorem witness_Transport_unreachable : peered.cuts = [] ∧ (peered.team? g0.team).any (fun t => (t.chans[2]?.toList.flatMap (·.streams)).any fun e =>
    decide (e.dest = .peer 3 0)) = true ∧ (peered.copies.all fun y => decide (y.code = 0) && peered.restTo y fun d => match d with
      | .peer j _ => decide (j = 3)
      | _ => false) = true := by decide +kernel

/-- The last register of each area: of function 16 at the end of its 64 KiB. -/
theorem witness_HostInterface_registers : (16 : Nat) < 17 ∧ (0xFFFF : Nat) < 0x10000 ∧ (base.fns[16]?).isSome ∧
    base.registerRead (0x0C0000000000 + 0x10000 * 16 + 0xFFF8) = some 0 := by decide +kernel

/-! Witnesses: pages, pre-emption, cuts and losses. -/

def leaf : Leaf := ⟨0x10000, 0x10000, 0x10000, 0x5008⟩
def transit : Transit := ⟨0, 0x10000, 0x5008, 0x10000, 0x30000, 0x10000⟩

/-- Segment 1 is a tiered lake segment. -/
def tieredSeg (s : State) : State := inL (fun l => { l with segs := [⟨0x10000, 0x10000, 0x9DF, 0⟩] }) s

/-- The first and the last byte of the page; a tiered page, a rehomed one and one of neither; and the page in transit. -/
theorem witness_PagesMove : ([0x10000, 0x1FFFF] : List Nat).all (fun va =>
      decide ((base.leavesOf 0).find? (fun p => decide (p.va ≤ va) && decide (va < p.va + p.size)) = some leaf)) = true ∧
    base.movable leaf 0x30000 = true ∧ memoriesWf base ∧ (tieredSeg base).tieredPage 0 leaf = true ∧ base.tieredPage 0 leaf = false ∧
    isNear 0x30000 = true ∧ (0, leaf.va, nearDie 0x30000) ∈ ({ base with rehomed := [(0, 0x10000, 0)] } : State).rehomed ∧
    base.rehomed = [] ∧ base.moved = [] ∧ isLake 0x040000000000 = true ∧
    (let s : State := { base with mem := base.mem.writeLe 0x5008 8 (base.mem.read64 0x5008 ||| 0x20).toNat, transits := [transit] }
     decide (memoriesWf s ∧ s.transits[0]? = some transit ∧ s.stops = [] ∧ (s.mem.read64 transit.entry).getLsbD 5 = true) &&
       decide (transit.entry + 8 ≤ transit.newPage ∧ transit.oldPage + transit.size ≤ transit.newPage ∧ transit.newPage % 4096 = 0 ∧
         transit.newPage < 2 ^ 56)) = true := by decide +kernel

/-- The pool of partition 0 holds 32 MiB; the clock stands past a budget of 1 ms. -/
def pooled (p : Option Preempt) (s : State) : State := inT (fun t => { t with preempt := p })
  { s with parts := s.parts.modify 0 fun x => { x with poolMib := 32 }, clock := ⟨0, 0, 1000000⟩ }
def teamIs (s : State) (P : Team → Launch → Bool) : Bool := (s.team? ⟨0, 0⟩).any fun t => (s.launch? 0).any (P t)

/-- A team none of whose groups has begun; one with a group in its trap handler, one with a group that a debugger stopped. -/
theorem witness_PreEmption_request : ([base, inG (fun g => { g with begun := true, inTrap := true }) base,
      inG (fun g => { g with begun := true, run := .debugStopped }) base] : List State).all (fun s0 =>
        let s := pooled none s0
        teamIs s fun t l => t.core?.isSome && decide (t.preempt = none ∧ s.cutting 0 = false ∧ t.saveBarred = false ∧ l.gang = 0) &&
          decide (s.poolUsed l.fn + saveBytes l t ≤ (s.parts.getD l.fn Partition.reset).poolMib * 2 ^ 20) &&
          ((t.groups.all fun g => !g.begun) || t.groups.any fun g => g.begun && (g.inTrap || decide (g.run = .debugStopped)))) = true := by
  decide +kernel

/-- A team that has begun, of a launch of eight teams seven of which retired after 5000 cycles each: a budget of 1 ms lets it drain; of
an idempotent kernel it is flushed, and else saved. -/
theorem witness_PreEmption_kinds : ([(true, true), (false, true), (false, false)]).all (fun x =>
    let s := pooled none (inG (fun g => { g with begun := true }) (inL (fun l => { l with
      krec := { l.krec with idem := x.2 }, retired := if x.1 then 7 else 0, vtSum := if x.1 then 35000 else 0 }) base))
    teamIs s fun t l =>
      let vt := (s.vtime t).toNat
      let n := l.retired - l.lostTeams
      decide (t.preempt = none ∧ l.gang = 0) && (t.groups.any (·.begun)) && (t.groups.all fun g => !g.inTrap && decide (g.run = .running)) &&
      (decide (0 < n ∧ (l.vtSum - vt * n) * 1000 ≤ 1000000 * (1400 - 50 * s.mgmt.clockStep) * n) == x.1) &&
      (decide (l.krec.idem = true ∧ vt * 512 ≤ saveBytes l t ∧ l.gang = 0) == x.2)) = true := by decide +kernel

theorem witness_PreEmption_progress : ([PreKind.drain, .save, .flush]).all (fun k =>
      teamIs (pooled (some ⟨k, 1000000, 0⟩) base) fun t _ => t.core?.isSome && decide (t.preempt = some ⟨k, 1000000, 0⟩) &&
        (pooled (some ⟨k, 1000000, 0⟩) base).settled t && decide ((0 : Nat) + 1000000 ≤ (pooled none base).clock.gtime)) = true ∧
    teamIs (pooled (some ⟨.save, 0, 0⟩) (waiting base)) (fun t _ => decide ((pooled (some ⟨.save, 0, 0⟩) (waiting base)).settled t = false) &&
      decide ((0 : Nat) + max 0 1000000 ≤ (pooled none base).clock.gtime)) = true := by decide +kernel

def job : CutJob := ⟨[0], true, 0, 1000, false, [], [], [], [(0x040000000000, 0x10000)]⟩
/-- Every group of the team waits at a STEP of a kernel with cuts. -/
def stepping (js : List CutJob) : State := inT (fun t => { t with groups := t.groups.map fun g => { g with run := .stepHeld } })
  (inL (fun l => { l with cutp := true, krec := { l.krec with stepped := true } }) { base with cuts := js, clock := ⟨0, 0, 1000000⟩ })

theorem witness_ConsistentCuts : ((stepping []).launch? 0).any (fun l => l.cutp && decide (l.stage = .ready ∧ l.gang = 0)) = true ∧
    (stepping []).cutting 0 = false ∧ (stepping []).job? 0 = none ∧ ((stepping []).teams.all fun t => decide (t.preempt = none)) = true ∧
    (stepping [job]).job? 0 = some job ∧ (stepping [job]).cuts = [job] ∧ job.requested = true ∧ (stepping [job]).jobHeld job = true ∧
    (stepping [job]).stepCounts 0 = [0, 0, 0, 0] ∧ ((stepping [job]).teams.all fun t => (stepping [job]).settled t) = true ∧
    job.since + 1000 * job.limitUs ≤ (stepping [job]).clock.gtime ∧
    ((stepping [job]).launch? 0).any (fun l => decide ((stepping [job]).clock.gtime <
      job.since + 1000000 * ((stepping [job]).parts.getD l.fn Partition.reset).cutIntervalMs)) = true ∧
    job.cow.find? (fun x => decide (x.1 = 0x040000000000)) = some (0x040000000000, 0x10000) := by decide +kernel

/-- The same job between cuts, with the interval after the last cut over; a launch of a gang of two, one part on another module; groups at
unequal STEP counts, the one behind let go for one instruction alone; and records in the pool of teams of the job and of others. -/
def idleJob : CutJob := { job with requested := false, complete := true }
def unequal : State := inG (fun g => { g with stepcnt := 1, stepOnce := .armed }) { stepping [job] with areas := [⟨g0.team, 0, []⟩, ⟨⟨7, 0⟩, 1, []⟩] }

theorem witness_ConsistentCuts_again : (stepping [idleJob]).job? 0 = some idleJob ∧ (stepping [idleJob]).cutting 0 = false ∧
    ((stepping [idleJob]).launch? 0).any (fun l => l.cutp && decide (l.stage = .ready)) = true ∧
    (let s : State := { stepping [idleJob] with clock := ⟨0, 0, 0xFFFFFFFFFFFFFFFF⟩ }
     (s.launch? 0).any fun l => decide (idleJob.since + 1000000 * (s.parts.getD l.fn Partition.reset).cutIntervalMs ≤ s.clock.gtime)) = true ∧
    ((inL (fun l => { l with gang := 6, gangN := 2 }) (stepping [])).launch? 0).any (fun l => decide (l.gang = 6) && l.cutp &&
      decide (jobSeqs (inL (fun l => { l with gang := 6, gangN := 2 }) (stepping [])) l = [0])) = true ∧
    unequal.job? 0 = some job ∧ unequal.jobHeld job = true ∧ unequal.stepCounts 0 = [1, 0, 0, 0] ∧
    (unequal.group? g0).any (fun g => decide (g.run = .stepHeld ∧ g.stepOnce = .armed)) = true ∧
    (unequal.areas.any fun a => decide (a.kind = 1) && !job.launches.contains a.team.launch) = true ∧
    ((stepping [job]).teams.any fun t => job.launches.contains t.id.launch && t.core?.isSome) = true := by decide +kernel

/-- Groups of the team have begun. -/
theorem witness_ConsistentCuts_begun :
    let s := inG (fun g => { g with begun := true }) (stepping [job])
    s.jobHeld job = true ∧ (s.teams.any fun t => job.launches.contains t.id.launch && t.core?.isSome && t.begun) = true := by decide +kernel

/-- A second team, on die 1, whose groups are parked. -/
def twoDies : State := { base with teams := base.teams ++ [(fun (t : Team) => { t with
  groups := t.groups.map fun g => { g with run := .parked 0 0 0 } }) (Team.fresh placedLaunch 1 32 0 [0, 1, 2, 3])] }

theorem witness_Losses_parked : twoDies.cuts = [] ∧ twoDies.faultSlot? 0x0C 0 = none ∧ dieOfCore 32 ≠ 0 ∧
    (twoDies.team? ⟨0, 1⟩).any (fun t => decide (t.core? = some 32) && (t.groups[0]?).any fun g =>
      decide (g.run = .parked 0 0 0 ∧ g.inTrap = false)) = true ∧
    teamIs twoDies (fun t l => decide (t.core?.map dieOfCore = some 0 ∧ l.stage = .ready ∧ 0 < l.nextTeam)) = true := by decide +kernel

/-- The die, core and cell of the team; a cluster with a spare core, and one without. The three grounds of R388. -/
def linksDown (s : State) : State := { s with links := s.links.map fun x => { x with up := false } }
def cellsLost (s : State) : State := { s with hive := { s.hive with lostCells := List.range 8 } }
def coresLost (s : State) : State := { s with
  spares := s.spares.set 0 0
  cores := (s.cores.modify 4 fun c => { c with enabled := false }).modify 31 fun c => { c with enabled := false } }

theorem witness_Losses : base.cuts = [] ∧ 0 ∉ base.fencedDies ∧ 0 ∉ base.hive.lostCells ∧ 63 ∉ base.hive.lostCells ∧
    teamIs base (fun t l => decide (t.core?.map dieOfCore = some 0 ∧ l.stage = .ready ∧ 0 < l.nextTeam ∧ t.place = .resident 0)) = true ∧
    (base.cores[0]?).any (·.enabled) = true ∧ 0 < base.spares.getD 0 0 ∧ ({ base with spares := base.spares.set 0 0 } : State).spares.getD 0 0 = 0 := by
  decide +kernel

theorem down_of_list (s : State) (h : s.links.all (fun x => !x.up) = true) (d : Nat) : DieIsGone s d :=
  Or.inl fun k x e _ => by
    have := List.all_eq_true.mp h x (List.mem_of_getElem? e)
    simpa using this

theorem witness_Losses_grounds : DieIsGone (linksDown base) 0 ∧ DieIsGone (cellsLost base) 0 ∧ DieIsGone (coresLost base) 0 ∧
    (linksDown base).touchesDie placedLaunch 0 = true ∧ (∀ l ∈ (linksDown base).launches, NoCut (linksDown base) l.seq) := by
  refine ⟨down_of_list _ (by decide +kernel) _, Or.inr (Or.inl (by decide +kernel)),
    Or.inr (Or.inr ⟨by decide +kernel, 4, 31, by decide, by decide, by decide,
      ⟨{ Core.reset with enabled := false }, by decide +kernel, rfl⟩, ⟨{ Core.reset with enabled := false }, by decide +kernel, rfl⟩⟩),
    by decide +kernel, ?_⟩
  intro l _ k hk
  exact absurd hk (by rw [show (linksDown base).cuts = [] from by decide +kernel]; simp)

/-- No die is gone where a link is up, a cell left and a core spare, if the die has such a link: at 8 there is no die. -/
theorem witness_Losses_stays : 0 ∈ ({ base with fencedDies := [0] } : State).fencedDies ∧ ¬ (8 : Nat) < 8 ∧ (7 : Nat) < 8 := by decide +kernel

/-- Both teams' launch has a complete cut: team 0 on core 0 and die 0, team 1 on core 32 and die 1. Its journal holds a page. -/
def cutJob : CutJob := ⟨[0], false, 0, 1000, true, twoDies.teams, twoDies.launches, [⟨0x20000, 16, twoDies.mem.slice 0x20000 16⟩], []⟩
def cutDies : State := inL (fun l => { l with cutp := true }) { twoDies with cuts := [cutJob] }

theorem jobHit_of (hit : Launch → Prop) (h : ∃ l ∈ cutDies.launches, hit l) : JobHit cutDies cutJob hit := by
  have hc : cutDies.cuts = [cutJob] := by decide +kernel
  have all : ∀ l ∈ cutDies.launches, l.seq ∈ cutJob.launches ∧ l.cutp = true ∧ l.dieLost = false ∧ l.gang = 0 := by decide +kernel
  obtain ⟨l, hl, hx⟩ := h
  refine ⟨by simp [hc], by decide +kernel, ⟨l, hl, (all l hl).1, hx⟩, by decide +kernel,
    fun m hm _ => ⟨(all m hm).2.1, (all m hm).2.2.1, fun h => absurd (all m hm).2.2.2 h⟩, ?_⟩
  intro k hk hne
  rw [hc, List.mem_singleton] at hk
  exact absurd hk hne

theorem journalled_cutDies : Journalled cutDies cutDies.mem := by
  refine ⟨by decide +kernel, ?_⟩
  rw [show cutDies.cuts = [cutJob] from by decide +kernel]
  intro k hk x hx
  rw [List.mem_singleton] at hk
  subst hk
  have hx : x = ⟨0x20000, 16, twoDies.mem.slice 0x20000 16⟩ := List.mem_singleton.mp hx
  subst hx
  decide +kernel

theorem witness_Losses_cut : JobHit cutDies cutJob (fun l => ∃ t ∈ cutDies.teams, t.id.launch = l.seq ∧ t.place = .resident 0) ∧
    JobHit cutDies cutJob (fun l => ∃ t ∈ cutDies.teams, t.id.launch = l.seq ∧ ∃ k, t.place = .resident k ∧ k / 4 = 0) ∧
    JobHit cutDies cutJob (fun l => cutDies.touchesDie l 1 = true) ∧ DieIsGone (linksDown cutDies) 1 ∧
    (∀ k ∈ cutDies.cuts, ∀ x ∈ k.journal, isNear x.page = true → nearDie x.page ≠ 1) ∧ cutDies.mem.wf = true := by
  have first : cutDies.launches.all (fun l => cutDies.teams.any fun t => decide (t.id.launch = l.seq ∧ t.place = .resident 0)) = true := by
    decide +kernel
  have one : ∃ l ∈ cutDies.launches, True := ⟨cutDies.launches.head (by decide +kernel), List.head_mem _, trivial⟩
  obtain ⟨l, hl, _⟩ := one
  obtain ⟨t, ht, h⟩ := List.any_eq_true.mp (List.all_eq_true.mp first l hl)
  obtain ⟨h1, h2⟩ := of_decide_eq_true h
  refine ⟨jobHit_of _ ⟨l, hl, t, ht, h1, h2⟩, jobHit_of _ ⟨l, hl, t, ht, h1, 0, h2, rfl⟩, jobHit_of _ ⟨l, hl, ?_⟩,
    down_of_list _ (by decide +kernel) _, by decide +kernel, by decide +kernel⟩
  exact List.all_eq_true.mp (show cutDies.launches.all (fun l => cutDies.touchesDie l 1) = true from by decide +kernel) l hl

/-- A peer may hold parts of the gang of the launch, of which one part is here. -/
theorem witness_Losses_abroad : (inL (fun l => { l with gang := 6, gangN := 2 }) base).launches.all (fun l => decide (l.gang ≠ 0 ∧ l.stage = .ready ∧
    l.aborted = false)) = true ∧ base.cuts = [] := by decide +kernel

/-- The journal copy of a page lies apart from the page and its entry. -/
theorem witness_Losses_home : (leaf.size = 0x10000 ∧ base.mem.wf = true ∧ leaf.entry + 8 ≤ journalPlace leaf ∧
    leaf.pa + leaf.size ≤ journalPlace leaf) := by
  have h : 0x040000000000 ≤ journalPlace leaf := Nat.le_add_right _ _
  exact ⟨rfl, by decide +kernel, Nat.le_trans (by decide) h, Nat.le_trans (by decide) h⟩

/-! Witnesses: management commands, images, firmware, time, power, errors and handlers. -/

/-- A management command that has not run. -/
def commanded (op : BitVec 8) (args : List W64) (s : State) : State := { s with
  mgmt := { s.mgmt with busy := true, ran := false, op := op, margs := args } }

/-- Another partition has cluster 3, and cluster 63 is the quarantine cell. -/
def shared : State := { base with parts := base.parts.set 1 { Partition.reset with mask := 8 }, mgmt := { base.mgmt with qcell := some 63 } }
def takenB (s : State) (p : Nat) (mask : BitVec 64) : Bool := ((s.parts.zipIdx.any fun x => decide (x.2 ≠ p) && decide (x.1.mask &&& mask ≠ 0))) ||
  s.mgmt.qcell.any fun c => mask.getLsbD c

/-- PART_SET of the last partition with one cluster and the least pool fits; with a cluster less pool, or a cluster taken, or a partition 17, it does not. -/
theorem witness_ManagementCommands_partSet : (commanded 1 [16, 1, 1 + 2 ^ 32, 32] shared).mgmt.busy = true ∧ takenB shared 16 1 = false ∧
    takenB shared 16 8 = true ∧ takenB shared 16 0x8000000000000000 = true ∧
    (let new (pool : Nat) : Partition := { shared.parts.getD 16 Partition.reset with mask := 1, nearGib := 1, lakeGib := 1, poolMib := pool }
     decide (((shared.parts.set 16 (new 32)).map (·.nearGib)).sum ≤ 8 * 254) &&
       decide (((shared.parts.set 16 (new 32)).map fun x => 1024 * (x.lakeGib + x.journalGib) + x.poolMib).sum ≤ 1024 * 2 * (2048 - 32)) &&
       decide (32 * ((List.range 64).filter fun c => (1 : BitVec 64).getLsbD c).length ≤ (new 32).poolMib ∧ (new 31).poolMib < 32)) = true ∧
    ((base.fns.getD 16 Fn.reset).queues.all fun q => !q.enable) = true ∧ (base.launches.all fun l => decide (l.fn = 0 ∧ l.stage ≠ .complete)) = true := by
  decide +kernel

/-- The ends of each range, and the values one past them. -/
theorem witness_ManagementCommands_ranges : ([(4, [16, 1000, 1000000]), (4, [17, 1000, 1000]), (4, [0, 999, 1000]), (4, [0, 3600001, 1000]), (4, [0, 3600000, 999]),
      (2, [0, 1000]), (2, [255, 10000000]), (2, [64, 1000]), (2, [3, 1000]), (2, [0, 999]), (3, [4000]), (3, [9000]), (3, [3999]), (3, [9001]), (0, []),
      (10, []), (255, [])] : List (BitVec 8 × List W64)).all (fun y => (commanded y.1 y.2 shared).mgmt.busy && !(commanded y.1 y.2 shared).mgmt.ran) = true ∧
    (shared.parts.all fun x => !x.mask.getLsbD 0) = true ∧ (shared.parts.any fun x => x.mask.getLsbD 3) = true ∧
    (([true, false] : List Bool).all fun w => (inL (fun l => { l with quarantined := w }) base).launches.all fun l =>
      (l.quarantined == w) && decide (l.stage = .ready ∧ 0 < l.nextTeam)) = true ∧
    (∃ m : Mgmt, m.busy = true ∧ m.ran = true) := ⟨by decide +kernel, by decide +kernel, by decide +kernel, by decide +kernel,
      { State.reset.mgmt with busy := true, ran := true }, by decide +kernel, by decide +kernel⟩

def image (k v : Nat) : Image := ⟨k, BitVec.ofNat 16 v, 1, [], []⟩
def classed (ic : ImageClass) : State := { base with images := base.images.set 4 ic |>.set 1 ic |>.set 0 ic }

/-- Classes 1, 2 and 5 with an image at the counter, one above it and one below it, with none, and with all 64 rows programmed. -/
theorem witness_ImageCommands : ([⟨some (image 1 3), some (image 1 3), [3]⟩, ⟨some (image 1 4), some (image 1 4), [1, 3]⟩,
      ⟨some (image 1 2), some (image 1 2), [3]⟩, ⟨none, none, []⟩, ⟨none, none, List.replicate 64 1⟩] : List ImageClass).all (fun ic =>
        ([0, 1, 4] : List Nat).all fun k => decide ((classed ic).images[k]? = some ic)) = true ∧
    ((commanded 9 [] base).mgmt.op = 9 ∧ memoriesWf (commanded 9 [] base)) ∧ (commanded 5 [0x100, 16] base).acceptImage
      ((List.range 16).map fun i => (commanded 5 [0x100, 16] base).hostRead 0 (0x100 + i)) = none := by decide +kernel

/-- An image of class 1, version 1, with a payload of one byte: accepted where its key is fused and its signature verifies, both of
free values (spec 25 R369). -/
def imageBytes : List (BitVec 8) := wordBytes [0x0000010100474D49, 1, 1, 0] ++ List.replicate 0x1FE1 0

theorem witness_ImageCommands_accepted (h : base.imageSigned imageBytes 0 1 = true) :
    base.acceptImage imageBytes = some ⟨1, 1, 1, [], imageBytes⟩ := by
  have e0 : (bytesWords imageBytes 8).getD 0 0 = 0x0000010100474D49 := by decide +kernel
  have e1 : (bytesWords imageBytes 8).getD 1 0 = 1 := by decide +kernel
  have e2 : (bytesWords imageBytes 8).getD 2 0 = 1 := by decide +kernel
  have e3 : (bytesWords imageBytes 8).getD 3 0 = 0 := by decide +kernel
  have e4 : ((bytesWords imageBytes 8).drop 4).all (fun v => decide (v = 0)) = true := by decide +kernel
  have e5 : 0x2001 ≤ imageBytes.length := by decide +kernel
  have e7 : (base.classOf 1).counter = 0 := by decide +kernel
  simp only [State.acceptImage, e0, e1, e2, e3, e4]
  simp only [show BitVec.toNat (0 : W64) / 2 ^ 0 % 2 ^ 2 = 0 from rfl]
  simp [e5, e7, h]

def cmdLink (p : Nat) : CmdLink := ⟨p, p, [7, 8], [7, 8]⟩

/-- Command links of cell 63 with permits and without, and messages of both classes at their heads. -/
theorem witness_FirmwareLinks : ([0, 1] : List Nat).all (fun p =>
      let s : State := { base with hive := { base.hive with toCells := base.hive.toCells.set 63 (cmdLink p), fromCells := base.hive.fromCells.set 63 (cmdLink p) } }
      decide (s.hive.lostCells.contains 63 = false ∧ s.hive.toCells[63]? = some (cmdLink p) ∧ s.hive.fromCells[63]? = some (cmdLink p) ∧
        (cmdLink p).urgent = 7 :: [8] ∧ (cmdLink p).normal = 7 :: [8])) = true := by decide +kernel

/-- A heartbeat is due 100 µs after the last, and a clock step a millisecond after the last; a fenced controller takes over no more. -/
theorem witness_PowerAndTime_due : ([(99999, 999999, false), (100000, 1000000, true)] : List (Nat × Nat × Bool)).all (fun y =>
      (decide (base.hive.beatAt + 100000 ≤ y.1) == y.2.2) && (decide (base.mgmt.capAt + 1000000 ≤ y.2.1) == y.2.2)) = true ∧
    base.hive.fenced = none ∧ ({ base.hive with fenced := some 0 } : Hive).fenced ≠ none := by decide +kernel

/-- The boundaries of the clock steps, at a cap of 4000 W. -/
theorem witness_PowerAndTime : ([(0, 4001), (13, 4001), (14, 4001), (1, 3800), (14, 3800), (0, 3800), (7, 3801), (14, 4000)] : List (Nat × Nat)).all (fun y =>
      let s : State := { base with mgmt := { base.mgmt with powerCap := 4000, clockStep := y.1 } }
      decide (s.mgmt.clockStep ≤ 14) && (decide (s.mgmt.powerCap < y.2) || decide (y.2 + 200 ≤ s.mgmt.powerCap ∨
        (y.2 ≤ s.mgmt.powerCap ∧ s.mgmt.powerCap < y.2 + 200)))) = true ∧ base.started = true ∧
    ([2, 3] : List Nat).map (fun n => decide (3 ≤ ({ base.hive with missed := n }).missed)) = [false, true] ∧
    ([true, false] : List Bool).map (fun w => ({ base.gtstat with locked := w }).locked) = [true, false] := by decide +kernel

/-- A sparing at its last chunk and before it; a page that is mapped and one that is not; a dump that is there and one that is not. -/
theorem witness_StartsAndErrors : base.sparings = [] ∧ base.remaps = [] ∧ (31 : Nat) < 32 ∧ 64 * 2 ^ 30 - 2 ^ 30 + 2 ^ 29 ≤ 64 * 2 ^ 30 - 2 ^ 29 ∧
    ([0x200000, 0x200001] : List Nat).map (fun n => decide ((⟨3, 0, n, 0⟩ : Sparing).size ≤ (⟨3, 0, n, 0⟩ : Sparing).next + 0x200000)) = [true, false] ∧
    isNear 0x10000 = true ∧ 0x10000 ∉ base.retiredPages ∧ base.mappedAt 0x10000 = some (0, leaf) ∧ base.movable leaf 0x040000000000 = true ∧
    isLake 0x040000000000 = true ∧ memoriesWf base ∧ (base.mem.read 0x05F800000006).getLsbD 0 = false ∧
    ((base.mem.write 0x05F800000006 1).read 0x05F800000006).getLsbD 0 = true ∧ ([(3, 5, 7)].any fun y => decide (y.1 = 3)) = true := by
  decide +kernel

/-- An image that is not signed at all, of each class, active: refused at a start. Saved items of stepping 2, taken 15 and 16 degrees off. -/
def unsigned (k : Nat) : State := { base with images := base.images.modify k fun c => { c with active := some (image (k + 1) 1) } }
def warmed : State := { base with flash := { base.flash with saved := List.replicate 5 (some (2, 40)) } }

theorem witness_StartsAndErrors_images : ([0, 3, 4]).all (fun k => decide (((unsigned k).images.getD k ImageClass.none).active = some (image (k + 1) 1) ∧
      (unsigned k).acceptImage (image (k + 1) 1).raw = none)) = true ∧ (base.images.all fun c => decide (c.active = none)) = true ∧
    (([0, 4]).all fun n => decide (warmed.flash.saved[n]? = some (some (2, 40)))) = true ∧
    ((40 : Int) - 55).natAbs ≤ 15 ∧ ((40 : Int) - 24).natAbs = 16 := by decide +kernel

/-- A digest that flash notes passes at a warm start. -/
theorem witness_StartsAndErrors_reused : (Config.shake256 (image 1 1).raw, 0) ∈
    ({ unsigned 0 with flash := ⟨[(Config.shake256 (image 1 1).raw, 0)], warmed.flash.saved⟩ } : State).flash.checks ∧
    (((unsigned 0).images.getD 0 ImageClass.none).rows.map (·.toNat)).foldl max 0 = 0 := ⟨List.mem_singleton.mpr rfl, by decide +kernel⟩

/-- The lake page at 0x040000000000 that segment 1's entry maps, and the near page that it maps in transit. -/
theorem witness_StartsAndErrors_retire :
    (let s : State := { base with mem := base.mem.writeLe 0x5008 8 (base.mem.read64 0x5008 ||| 0x20).toNat }
     decide ((s.mappedAt 0x10000).isSome ∧ (s.mem.read64 0x5008).getLsbD 5 = true)) = true ∧ (base.mem.read64 0x5008).getLsbD 5 = false ∧
    isLake 0x050000000000 = true ∧ (0x050000000000 : Nat) % 0x10000 = 0 ∧ 0x050000000000 ∉ base.retiredPages := by decide +kernel

/-- A dump that is there, and the count of lost dumps at its end. -/
theorem witness_StartsAndErrors_dump :
    (let s : State := { base with mem := base.mem.write 0x05F800000006 1, dumpsLost := 0xFFFF }
     decide ((s.mem.read (0x05F800000000 + 6)).getLsbD 0 = true ∧ memoriesWf s ∧ s.dumpsLost = 0xFFFF)) = true ∧ base.fatal = false ∧
    ({ base with fatal := true } : State).fatal = true := by decide +kernel

theorem leavesFrom_nil (rd : Nat → W64) (h : ∀ a, rd a = 0) (ls : List (Nat × Nat × Nat)) (b va : Nat) : leavesFrom rd ls b va = [] := by
  cases ls with
  | nil => rfl
  | cons x rest => simp [leavesFrom, h]

theorem read64_nil (a : Nat) : Memory.read64 [] a = 0 := by
  have h (x : Nat) : Memory.read [] x = 0 := rfl
  simp [Memory.read64, Memory.readLe, Memory.readBytes, h, leNat, List.range, List.range.loop]

/-- With nothing in memory no near page is mapped. -/
theorem witness_StartsAndErrors_unmapped : State.reset.mappedAt 0x10000 = none := by
  have hm : State.reset.mem = [] := rfl
  simp only [State.mappedAt, State.leafAt, State.leavesOf, hm, leavesFrom_nil _ read64_nil, List.find?_nil, Option.map_none]
  decide

/-- A handler of slot 0 in progress: a TRAP slot that matched a fault or a word, and an EMULATE slot. -/
def patching (act : BitVec 2) (f : Option FaultRecord) : State :=
  let im : Image := ⟨5, 1, 1, [⟨true, false, act, 0, 0, 0, 0xFFFFFFFF, 0, 0, 0, 4, []⟩], []⟩
  { base with patchActs := [⟨g0, 0, im, 0x01020201, f⟩], teams := (inG (fun g => { g with run := .patchWait 0 }) base).teams }

/-- A group has the places that a jump to `v` and a step past its instruction leave it at. -/
theorem witness_goneOn (g : Group) (v : W64) (h : g.rewriting = none) : (∃ g', Jumped g g' v ∧ g' = goneOn g g') ∧
    ∃ g', Passed g g' ∧ g' = goneOn g g' := by
  let k (t : W64) : Group := { g with
    held := g.held.filter fun x => decide (x.inTrap ≠ g.inTrap)
    begun := true
    stall := .issued
    pc := t
    rewriting := none
    decoded := none
    due := none
    stepOnce := match g.due with
      | some r => if r = .debugStopped then .off else g.stepOnce
      | none => if g.stepOnce = .armed then .done else g.stepOnce
    run := match g.due with
      | some r => r
      | none => if g.stepOnce = .armed then .debugStopped else g.run }
  have st (t : W64) : StepsOnce g (k t) := by
    refine ⟨rfl, ?_⟩
    cases hd : g.due with
    | some r => simp [k, hd]
    | none => by_cases hs : g.stepOnce = .armed <;> simp [k, hd, hs]
  exact ⟨⟨k v, ⟨rfl, rfl, rfl, rfl, rfl, rfl, st v⟩, rfl⟩, k (g.pc + 4), ⟨rfl, rfl, rfl, rfl, by rw [h]; exact ⟨rfl, rfl, st _⟩⟩, rfl⟩

theorem witness_PatchHandlers : ([(0, none), (0, some (FaultRecord.zero)), (2, none)] : List (BitVec 2 × Option FaultRecord)).all (fun y =>
      let s := patching y.1 y.2
      match s.handlerOf? 0 with
      | some (p, c, em) =>
        decide (c.group.inTrap = false ∧ c.group.rewriting = none ∧ em = decide (y.1 = 2)) &&
          decide ((c.group.sregs.getD 127 ⟨0, none⟩).pend = none ∧ p.slot = 0)
      | none => false) = true ∧ isFaultClass (0x09 : BitVec 8) = true ∧ isFaultClass (0x04 : BitVec 8) = true ∧ lastSub 0x04 = 5 ∧ lastSub 0x03 = 0 ∧
    isFaultClass (0x0E : BitVec 8) = false := by decide +kernel

/-- The handler's instruction reads a vector register whose value is still to come. -/
theorem witness_PatchHandlers_reads :
    let s := inG (fun g => { g with vregs := g.vregs.map fun x => { x with pend := some 3 } }) (patching 0 none)
    (s.handlerOf? 0).any (fun x => (x.2.1.group.vregs[0]?).any fun y => y.pend.isSome) = true := by decide +kernel

/-- The window of core 0: a unit of the L1 region, and the tile of the team there (03 R76). -/
theorem test_core_window : base.windowRead (0x080000000000 + 0x300000) = some 0 ∧
    base.windowTile? 0 0x400004 = some (.tileWin ⟨0, 0⟩ 0 4) := by decide +kernel

/-! Single steps. The expected values are the spec's own worked examples, or hand calculation from its tables. -/

/-- The group after one instruction meets `P`. -/
def after (i : Instr) (s : State) (P : Group → Bool) : Bool := match exec i s with
  | .next s' => (s'.group? g0).any P
  | _ => false
/-- Vector register `k` of group 0 holds `f l` in lane `l`. -/
def vreg (k : Nat) (f : Nat → W32) (s : State) : State := inG (fun g => { g with vregs := g.vregs.set k ⟨Lanes.tab f, none⟩ }) s
def sval (g : Group) (k : Nat) : W64 := (g.sregs.getD k ⟨0, none⟩).val
def vval (g : Group) (k l : Nat) : W32 := Lanes.at (g.vregs.getD k ⟨Lanes.zero, none⟩).val l

/-- 07 R147 and its table: the pointer 0x7F000000FF00, and −256. -/
theorem test_setlo_sethi : after (.setlo 3 0xFF00) base (fun g => sval g 3 == 0xFFFFFFFFFFFFFF00) = true ∧
    after (.sethi 3 0xFF00) (sreg 3 0x7F000000 base) (fun g => sval g 3 == 0x00007F000000FF00) = true := by decide +kernel

/-- 07 R144: the sum wraps; R145: it is pushed, and the destination may be a source. -/
theorem test_add_wraps : after (.add 2 2 1) (sreg 1 2 (sreg 2 0xFFFFFFFFFFFFFFFF base)) (fun g => sval g 2 == 1 &&
    decide (g.squeue.head? = some ⟨1, none⟩) && decide (g.pc = mkPtr 1 4)) = true := by decide +kernel

/-- 07, worked loop: the first LOOP from 5 jumps back one word, and the fifth goes on; nothing is pushed. -/
theorem test_loop : after (.loop 1 0xFFFF) (inG (fun g => { g with pc := mkPtr 1 12 }) (sreg 1 5 base)) (fun g =>
      sval g 1 == 4 && decide (g.pc = mkPtr 1 8)) = true ∧
    after (.loop 1 0xFFFF) (inG (fun g => { g with pc := mkPtr 1 12 }) (sreg 1 1 base)) (fun g => sval g 1 == 0 && decide (g.pc = mkPtr 1 16)) =
    true := by decide +kernel

/-- 06 R141 and its examples: K3, K31 and K17 in packed types, K38 in both 16-bit types, K47 under RUP and RDN. -/
theorem test_constants : vectorConst .int8x4 .rne false 3 = some 0x03030303 ∧ vectorConst .int8x4 .rne false 31 = none ∧
    vectorConst .nat8x4 .rne false 31 = some 0xFFFFFFFF ∧ vectorConst .nat8x4 .rne false 17 = some 0xFFFFFFFF ∧
    vectorConst .hf16x2 .rne false 38 = some 0x38003800 ∧ vectorConst .bf16x2 .rne false 38 = some 0x3F003F00 ∧
    vectorConst .fp32 .rup false 47 = some 0x3EAAAAAB ∧ vectorConst .fp32 .rdn false 47 = some 0x3EAAAAAA := by decide +kernel

/-- 08, nested regions: VCLT P1, V1, K0 and VIF P1 on x = lane − 1. -/
def regions : State := vreg 1 (fun l => if l = 0 then 0xBF800000 else if l = 1 then 0 else 0x3F800000) fp
theorem test_vclt : after (.vclt 1 1 0x90) regions (fun g => (g.preds.getD 0 0).getLsbD 1 && !(g.preds.getD 1 0).getLsbD 1) = true := by
  decide +kernel
theorem test_vif : after (.vif 0 1) (inG (fun g => { g with preds := g.preds.set 0 2 }) regions) (fun g =>
    decide (g.nest.take 3 = [0, 1, 1] ∧ g.nest.getD 127 0 = 1)) = true := by decide +kernel

/-- 08 R174: the reduction sums in ascending lane order; 0x4B800000 is 2²⁴, to which 1 adds nothing. -/
theorem test_vradd : after (.vradd 13 5) (vreg 5 (fun l => if l = 0 then 0x4B800000 else 0x3F800000) fp) (fun g =>
    sval g 13 == 0x4B800000) = true := by decide +kernel

/-- 08, narrow conversions: 3.0, 0.25, −1.0 take the header 0x7D7F, the codes 3, 4, 8, the word 0x0843, and come back. -/
def threeOf (a b c : W32) (l : Nat) : W32 := if l = 0 then a else if l = 1 then b else if l = 2 then c else 0
theorem test_cvtfn : after (.cvtfn 2 1 4) (vreg 1 (threeOf 0x40400000 0x3E800000 0xBF800000) fp) (fun g =>
    vval g 2 0 == 0x7D7F && vval g 2 31 == 0x7D7F && vval g 2 32 == 0) = true := by decide +kernel
theorem test_cvtn4 : after (.cvtn4 3 1 2) (vreg 1 (threeOf 0x40400000 0x3E800000 0xBF800000) (vreg 2 (fun l => if l < 32 then 0x7D7F else 0) fp))
    (fun g => vval g 3 0 == 0x7D7F0003 && vval g 3 1 == 0x7D7F0004 && vval g 3 2 == 0x7D7F0008) = true := by decide +kernel
theorem test_cvtnx : after (.cvtnx 4 3 4) (vreg 3 (fun l => if l < 32 then 0x7D7F0000 ||| threeOf 3 4 8 l else 0) fp) (fun g =>
    vval g 4 0 == 0x0843 && vval g 4 1 == 0 && vval g 4 64 == 0x7D7F && vval g 4 65 == 0) = true := by decide +kernel
theorem test_cvtnf : after (.cvtnf 5 3 4) (vreg 3 (fun l => if l < 32 then 0x7D7F0000 ||| threeOf 3 4 8 l else 0) fp) (fun g =>
    vval g 5 0 == 0x40400000 && vval g 5 1 == 0x3E800000 && vval g 5 2 == 0xBF800000) = true := by decide +kernel

/-- 02 R57: 1.0, 1.125 and 1.75 under the N4 header 0x7D7F, and 1.125 under RNA. -/
theorem test_narrow_ties : after (.cvtn4 3 1 2) (vreg 1 (threeOf 0x3F800000 0x3F900000 0x3FE00000) (vreg 2 (fun _ => 0x7D7F) fp))
    (fun g => vval g 3 0 == 0x7D7F0007 && vval g 3 1 == 0x7D7F0007 && vval g 3 2 == 0x7D7F0002) = true ∧
    after (.cvtn4 3 1 2) (vreg 1 (threeOf 0x3F800000 0x3F900000 0x3FE00000) (vreg 2 (fun _ => 0x7D7F) (modeIs 0x840 base)))
    (fun g => vval g 3 1 == 0x7D7F0001) = true := by decide +kernel

/-- 02, worked accumulation: 0x3FC00001; and with every B negated, from +0, 0xBF800001. -/
theorem test_mma : (let A : Nat → Nat := fun k => [0x3F80, 0x3980, 0xB300, 0x0000].getD k 0
    let B : Nat → Nat := fun k => [0x3F80, 0x3980, 0x3300, 0x4040].getD k 0
    decide (mmaElem 0 4 4 (fun k => (A k, 0)) (fun k => (B k, 0)) 0x3F000000 = 0x3FC00001) &&
      decide (mmaElem 0 4 4 (fun k => (A k, 0)) (fun k => (B k ^^^ 0x8000, 0)) 0 = 0xBF800001)) = true := by decide +kernel

/-- 03, worked check: of a load at offset 0xFF00 of 4 × LANE the lanes 64 to 127 are out of bounds; nothing is loaded, and the
handler finds the mask (13). -/
theorem test_bounds : after (.vld32 4 2 0 0 1) (inL (fun l => { l with trapHandler := mkPtr 1 0x40 })
    (vreg 1 (fun l => BitVec.ofNat 32 (4 * l)) (sreg 2 (mkPtr 1 0xFF00) base))) (fun g =>
    g.inTrap && decide (g.pc = mkPtr 1 0x40 ∧ g.record.pc = mkPtr 1 0 ∧ g.record.maskLo = 0 ∧ g.record.maskHi = BitVec.allOnes 64) &&
      vval g 4 0 == 0) = true := by decide +kernel

/-- 09, histogram: VATADD of 1 to the bins of LANE mod 4, in ascending lane order: lane 5 finds 1 in its bin and lane 127 finds 31. -/
theorem test_vatadd : (let s := vreg 3 (fun l => BitVec.ofNat 32 (4 * (l % 4))) (vreg 8 (fun _ => 1) (sreg 4 0xFFFF000000000000 base))
    match exec (.vatadd 8 4 0 0 3) s with
    | .next s' => (s'.team? g0.team).any fun t => decide (t.spad.readLe 0 4 = 32 ∧ t.spad.readLe 12 4 = 32)
    | _ => false) = true := by decide +kernel

/-- 13 R268: TRET leaves the handler at its operand. -/
theorem test_tret : after (.tret 0x15) (inG (fun g => { g with inTrap := true }) (sreg 0x15 (mkPtr 1 0x104) base)) (fun g =>
    !g.inTrap && decide (g.pc = mkPtr 1 0x104)) = true := by decide +kernel

/-- 04 R93: a CST carries the store colour of MODE, 3 here; its home is the group's own die. -/
theorem test_cst_colour : (match exec (.cst 3 3 1 2) (modeIs 0x6040 near') with
    | .next s' => s'.packets.any fun p => decide (p.colour = some 3 ∧ p.own = true ∧ p.performed = false)
    | _ => false) = true := by decide +kernel

/-- 13 R269: TRET discards the trap queue, whose pending entry no EXIT waits for. -/
theorem test_tret_queue : after (.tret 0x15) (inG (fun g => { g with inTrap := true, trapQueue := ⟨0, some 5⟩ :: g.trapQueue.take 15 })
    (sreg 0x15 (mkPtr 1 0x104) base)) (fun g => g.allFull) = true := by decide +kernel

end Sys2Proof.Tests
end

section
/-! What the issue of an instruction gives the statements: the context of the issuing group, the gate that opens, and the place in
the program of a group that has gone on. -/

namespace Sys2Proof.Claims
open Sys2Proof.Machine

/-! The context. -/

theorem Issuing.state {s : State} {c : Ctx} (h : Issuing s c) : c.s = s := (s.ctx?_spec c.id c h.2).1

/-- An instruction outside a trap handler whose fields are all met has its effect. -/
theorem issue_of_met {s : State} {c : Ctx} (i : Instr) (needs : List Need) (body : Ctx → Res) (h : Issuing s c)
    (ho : outside c = true) (hm : ∀ n ∈ needs, n.met c = true) : issue i s needs body = body c :=
  issue_go i s needs body c h.1 h.2 (fun ht => by simp [outside, ht] at ho) hm

/-! Fields that are met. -/

theorem met_dstS {c : Ctx} {d : BitVec 8} (h : dstS c d = true) (sub : BitVec 8) : (Need.dstS sub d).met c = true := by
  have hlegal : scalarDstLegal d = true := by
    simp only [dstS, Bool.or_eq_true, Bool.and_eq_true, decide_eq_true_eq] at h
    rcases h with rfl | ⟨hd, -⟩
    · rfl
    · simp [scalarDstLegal, hd]
  have hfull : namedPend d (c.scalarPend d) = [] := by
    simp only [dstS, Ctx.scalarEmpty, Bool.or_eq_true, Bool.and_eq_true, decide_eq_true_eq, Bool.not_eq_true',
      Option.isSome_eq_false_iff, Option.isNone_iff_eq_none] at h
    rcases h with rfl | ⟨-, hp⟩
    · rfl
    · simp [namedPend, hp]
  simp [Need.met, Need.illegal, Need.untyped, Need.empty?, Need.waits, hlegal, hfull, emptyIf]

theorem met_srcS {c : Ctx} {a : BitVec 8} (h : srcS c a = true) (sub : BitVec 8) (pol : Pol) :
    (Need.srcS sub pol a).met c = true := by
  simp only [srcS, Ctx.scalarEmpty, Bool.and_eq_true, Bool.not_eq_true', Option.isSome_eq_false_iff,
    Option.isNone_iff_eq_none, Bool.or_eq_true] at h
  obtain ⟨⟨hl, hp⟩, hk⟩ := h
  have hconst : (isConst a && (scalarConst (a.toNat - 0x90)).isNone) = false := by
    rcases hk with hk | hk
    · simp [hk]
    · simp [hk]
  simp [Need.met, Need.illegal, Need.untyped, Need.empty?, Need.waits, hl, hp, hconst, emptyIf]

theorem met_pairS {c : Ctx} {b : BitVec 8} (h : pairS c b = true) : (Need.pairS b).met c = true := by
  simp only [pairS, Ctx.scalarEmpty, Bool.and_eq_true, decide_eq_true_eq, Bool.not_eq_true', Option.isSome_eq_false_iff,
    Option.isNone_iff_eq_none] at h
  obtain ⟨⟨hl, h0⟩, h1 : c.scalarPend (b + 1#8) = none⟩ := h
  simp [Need.met, Need.illegal, Need.untyped, Need.empty?, Need.waits, hl, h0, h1, emptyIf]

theorem met_access {s : State} {c : Ctx} (hs : c.s = s) (h : mayAccess s c) : Need.access.met c = true := by
  have hp : c.s.acqPending c.id = false := by
    rw [hs, State.acqPending, List.any_eq_false]
    intro p hp
    have := h p hp
    simp only [Bool.and_eq_true, decide_eq_true_eq, Bool.not_eq_true', not_and, Bool.not_eq_false]
    rintro ⟨⟨ho, hg⟩, ha⟩
    exact this ho hg ha
  simp [Need.met, Need.illegal, Need.untyped, Need.empty?, Need.waits, hp]

theorem met_released {s : State} {c : Ctx} {mask : BitVec 8} (hs : c.s = s) (h : mayRelease s c mask) :
    (Need.released mask).met c = true := by
  have hp : c.s.ownPending c.id mask = false := by
    rw [hs, State.ownPending, List.any_eq_false]
    intro p hp hall
    simp only [Bool.and_eq_true, decide_eq_true_eq, Bool.not_eq_true', Option.any_eq_true] at hall
    obtain ⟨⟨⟨⟨ho, hg⟩, hown⟩, hperf⟩, k, hk, hmask⟩ := hall
    have := h p hp ho hg hown ⟨k, hk, hmask⟩
    simp [hperf] at this
  simp [Need.met, Need.illegal, Need.untyped, Need.empty?, Need.waits, hp]

/-! Where a group stands once it has gone on. -/

theorem bounded_stepsOnce (g : Group) : StepsOnce g g.bounded := by
  unfold Group.bounded
  cases hd : g.due with
  | some r => simp [StepsOnce, hd]
  | none => by_cases ha : g.stepOnce = .armed <;> simp [StepsOnce, hd, ha, Group.stepped]

theorem advance_goneOn (g : Group) : g.advance = goneOn g g.advance := by
  unfold Group.advance Group.bounded
  split
  · rfl
  · split
    · unfold Group.stepped
      split <;> rfl
    · rfl

/-- An instruction that has issued leaves the group where `Passed` says. -/
theorem advance_passed (g : Group) : Passed g g.advance := by
  unfold Passed
  split
  · next h => simp [Group.advance, h, Group.unheld]
  · next hnone =>
    have hadv : g.advance = Group.bounded
        { g.unheld with pc := g.pc + 4, rewriting := none, decoded := none, begun := true, stall := .issued } := by
      unfold Group.advance
      split
      · next h => exact absurd h (hnone _ _ _ _)
      · rfl
    have hstep := bounded_stepsOnce
      { g.unheld with pc := g.pc + 4, rewriting := none, decoded := none, begun := true, stall := .issued }
    rw [hadv]
    exact ⟨by simp [Group.unheld], by simp, by simp, by simp, by simp, by simp, hstep⟩

/-- `Passed` reads of the group before only where it stands in the program. -/
theorem passed_congr {g g1 g' : Group} (h : Passed g1 g') (hheld : g1.held = g.held) (htrap : g1.inTrap = g.inTrap)
    (hrew : g1.rewriting = g.rewriting) (hpc : g1.pc = g.pc) (hrun : g1.run = g.run) (honce : g1.stepOnce = g.stepOnce)
    (hdue : g1.due = g.due) : Passed g g' := by
  unfold Passed StepsOnce at *
  rw [hheld, htrap, hrew, hpc, hrun, honce, hdue] at h
  exact h

theorem pushS_pushed (g : Group) (x : SSlot) : PushedS g (g.pushS x) x := by
  unfold PushedS Group.pushS
  split <;> exact ⟨rfl, rfl⟩

/-- A scalar result entered, whatever the slot: the group has gone on, and only its scalar registers and queues differ. -/
theorem pushed_written (g : Group) (d : BitVec 8) (x : SSlot) :
    let g' := ((g.pushS x).writeS d x).advance
    Passed g g' ∧ OnlyScalars g g' ∧ PushedS g g' x ∧
      g'.sregs = if d.toNat < 128 then g.sregs.set d.toNat x else g.sregs := by
  intro g'
  refine ⟨passed_congr (advance_passed ((g.pushS x).writeS d x)) (by simp) (by simp) (by simp) (by simp) (by simp) (by simp)
    (by simp), ?_, ?_, ?_⟩
  · have hgone : g' = goneOn ((g.pushS x).writeS d x) g' := advance_goneOn _
    rw [OnlyScalars, hgone]
    simp only [goneOn, Group.writeS, Group.pushS]
    split <;> split <;> rfl
  · simpa [PushedS, g'] using pushS_pushed g x
  · simp only [g', Group.advance_sregs, Group.writeS]
    split <;> simp

theorem resultS_result (g : Group) (d : BitVec 8) (v : W64) : ScalarResult d v g (g.resultS d v) := pushed_written g d _

theorem pendS_pending (g : Group) (d : BitVec 8) (k : Nat) : ScalarPending d k g (g.pendS d k).advance := pushed_written g d _

/-- An instruction whose one effect is a scalar result. -/
theorem finishS_scalar {s : State} {c : Ctx} (hs : c.s = s) (d : BitVec 8) (v : W64) : Scalar s c (c.finishS d v) d v :=
  ⟨c.group.resultS d v, resultS_result c.group d v, by rw [Ctx.finishS, Ctx.put, hs]⟩

/-- An instruction that only goes on. -/
theorem put_advance_nothing {s : State} {c : Ctx} (hs : c.s = s) : Nothing s c (.next (c.put c.group.advance)) :=
  ⟨c.group.advance, ⟨advance_passed _, advance_goneOn _⟩, by rw [Ctx.put, hs]⟩

end Sys2Proof.Claims
end

section
/-! Replacing a group (spec 01 R9, R39), and the module after reset. -/

namespace Sys2Proof.Claims
open Sys2Proof.Machine

/-- The team of the group replaced. -/
theorem team?_setGroup {s : State} {id : GroupId} {t : Team} (h : s.team? id.team = some t) (g : Group) :
    (s.setGroup id g).team? id.team = some { t with groups := t.groups.set id.group g } :=
  s.team?_mapTeam id.team (fun t => t.setGroup id.group g) t h fun _ => rfl

/-- Every other team. -/
theorem team?_setGroup_other (s : State) (id : GroupId) (g : Group) {j : TeamId} (h : j ≠ id.team) :
    (s.setGroup id g).team? j = s.team? j :=
  s.team?_mapTeam_other id.team j (fun t => t.setGroup id.group g) (fun _ => rfl) h

/-- What a team holds beside its groups reads as before. -/
theorem team?_setGroup_field {α : Type} {s : State} {id : GroupId} {t : Team} (h : s.team? id.team = some t) (g : Group)
    (f : Team → α) (hf : ∀ (u : Team) gs, f { u with groups := gs } = f u) (j : TeamId) :
    ((s.setGroup id g).team? j).map f = (s.team? j).map f := by
  by_cases hj : j = id.team
  · rw [hj, team?_setGroup h, h]
    exact congrArg some (hf t _)
  · rw [team?_setGroup_other s id g hj]

/-! What a byte that lies in a team reads of it. -/

theorem readLoc_spad (s : State) (u : TeamId) (o : Nat) :
    s.readLoc (.spad u o) = ((s.team? u).map fun t => t.spad.read o).getD 0 := by
  simp only [State.readLoc]
  cases s.team? u <;> rfl

theorem readLoc_priv (s : State) (u : TeamId) (o : Nat) :
    s.readLoc (.priv u o) = ((s.team? u).map fun t => t.priv.read o).getD 0 := by
  simp only [State.readLoc]
  cases s.team? u <;> rfl

theorem readLoc_tileWin (s : State) (u : TeamId) (k o : Nat) : s.readLoc (.tileWin u k o) =
    ((s.team? u).map fun t => byteOf (((t.tiles.getD k []).getD (o / 4 % 256) []).at (o / 1024)) o).getD 0 := by
  simp only [State.readLoc]
  cases s.team? u <;> rfl

/-- Every byte but those of the register windows of the group reads as before. -/
theorem readLoc_setGroup {s : State} {id : GroupId} {t : Team} (h : s.team? id.team = some t) (g : Group) (loc : Loc)
    (hloc : ∀ o, loc ≠ .regWin id.team id.group o) : (s.setGroup id g).readLoc loc = s.readLoc loc := by
  cases loc with
  | phys a => rfl
  | host fn a => rfl
  | peer m a => rfl
  | fused n o => rfl
  | spad u o => rw [readLoc_spad, readLoc_spad, team?_setGroup_field h g (fun t => t.spad.read o) fun _ _ => rfl]
  | priv u o => rw [readLoc_priv, readLoc_priv, team?_setGroup_field h g (fun t => t.priv.read o) fun _ _ => rfl]
  | tileWin u k o =>
    rw [readLoc_tileWin, readLoc_tileWin, team?_setGroup_field h g
      (fun t => byteOf (((t.tiles.getD k []).getD (o / 4 % 256) []).at (o / 1024)) o) fun _ _ => rfl]
  | regWin u k o =>
    have hne : (⟨u, k⟩ : GroupId) ≠ id := fun e => hloc o (by rw [← e])
    simp only [State.readLoc, State.group?_setGroup_other s id ⟨u, k⟩ g hne]

/-- So do those windows when the new group has the old one's registers. -/
theorem readLoc_setGroup_sameRegs {s : State} {id : GroupId} {t : Team} {g g' : Group} (ht : s.team? id.team = some t)
    (hg : s.group? id = some g) (hv : g'.vregs = g.vregs) (loc : Loc) : (s.setGroup id g').readLoc loc = s.readLoc loc := by
  by_cases hloc : ∀ o, loc ≠ .regWin id.team id.group o
  · exact readLoc_setGroup ht g' loc hloc
  · push Not at hloc
    obtain ⟨o, rfl⟩ := hloc
    simp only [State.readLoc, State.group?_setGroup s id g g' hg, hg, hv]

end Sys2Proof.Claims

open Sys2Proof Sys2Proof.Machine Sys2Proof.Claims

/-- Settles O32, a clause by each lemma about the replaced group. -/
theorem groupReplacedAlone : Obligations.GroupReplacedAlone := by
  intro s id t g g' ht hg
  exact ⟨State.group?_setGroup s id g g' hg, team?_setGroup ht g', rfl, fun j hj => State.group?_setGroup_other s id j g' hj,
    fun j hj => team?_setGroup_other s id g' hj, readLoc_setGroup ht g', readLoc_setGroup_sameRegs ht hg⟩

/-- Settles O40: the cores, functions, partitions and links of the reset state are equal ones, and its other fields are given. -/
theorem resetValues : Obligations.ResetValues := by
  refine ⟨fun c hc => ?_, fun f hf => ?_, fun p hp => ?_, rfl, rfl, rfl, rfl, rfl, rfl, rfl, rfl, fun k hk => ?_⟩
  · obtain rfl : c = Core.reset := List.eq_of_mem_replicate hc
    exact ⟨rfl, rfl, rfl, rfl, rfl⟩
  · obtain rfl : f = Fn.reset := List.eq_of_mem_replicate hf
    refine ⟨rfl, fun q hq => ?_⟩
    obtain rfl : q = Queue.reset := List.eq_of_mem_replicate hq
    exact ⟨rfl, rfl, rfl, rfl, rfl, rfl⟩
  · obtain rfl : p = Partition.reset := List.eq_of_mem_replicate hp
    exact ⟨rfl, rfl⟩
  · obtain rfl : k = CmdLink.reset := by
      rcases List.mem_append.mp hk with h | h <;> exact List.eq_of_mem_replicate h
    exact ⟨rfl, rfl⟩
end

section
/-! The nesting counters (spec 08 R179) and the reductions of a predicate (R180). -/

namespace Sys2Proof.Claims
open Sys2Proof.Machine

theorem predSrc_eq_predIn (c : Ctx) (x : BitVec 1) (p : BitVec 3) (l : Nat) : c.predSrc x p l = predIn c x p l := by
  unfold Ctx.predSrc Ctx.pred predIn
  by_cases h : x = 1
  · simp [h]
  · rw [if_neg h, decide_eq_false h, Bool.bne_false]

/-- The counters of the present lanes changed by `f`, which `n` says in natural numbers. -/
theorem setNest_counters {s : State} {c : Ctx} (hs : c.s = s) (f : Nat → BitVec 8 → BitVec 8) (n : Nat → Nat → Nat)
    (hf : ∀ l < 128, c.absent l = false → (f l (c.group.nest.getD l 0)).toNat = n l (c.group.nest.getD l 0).toNat) :
    Counters s c (.next (c.put (c.setNest f).advance)) n := by
  refine ⟨(c.setNest f).advance, ⟨?_, ?_, ?_, ?_⟩, by rw [Ctx.put, hs]⟩
  · exact passed_congr (advance_passed (c.setNest f)) rfl rfl rfl rfl rfl rfl rfl
  · rw [advance_goneOn (c.setNest f)]
    rfl
  · simp [Ctx.setNest, numLanes]
  · intro l hl
    have hget : (c.setNest f).advance.nest.getD l 0 =
        if c.absent l then c.group.nest.getD l 0 else f l (c.group.nest.getD l 0) := by
      simp [Ctx.setNest, numLanes, hl]
    rw [hget]
    cases ha : c.absent l
    · simpa using hf l hl ha
    · simp

/-- 08 R179: VELSE exchanges the counters 0 and 1. -/
theorem velse_counter (n : BitVec 8) :
    (if n = 0 then 1 else if n = 1 then 0 else n : BitVec 8).toNat = if n.toNat = 0 then 1 else if n.toNat = 1 then 0 else n.toNat := by
  have h0 : n = 0 ↔ n.toNat = 0 := by rw [BitVec.toNat_eq]; rfl
  have h1 : n = 1 ↔ n.toNat = 1 := by rw [BitVec.toNat_eq]; rfl
  simp only [h0, h1]
  split
  · rfl
  · split <;> rfl

/-- 08 R179: VENDIF counts down to 0. -/
theorem vendif_counter (n : BitVec 8) : (if n = 0 then 0 else n - 1 : BitVec 8).toNat = n.toNat - 1 := by
  have h0 : n = 0 ↔ n.toNat = 0 := by rw [BitVec.toNat_eq]; rfl
  split
  · simp_all
  · next h =>
    rw [h0] at h
    have := n.isLt
    rw [BitVec.toNat_sub]
    simp
    omega

/-- 08 R179: a counter below 255 rises. -/
theorem vif_counter (n : BitVec 8) (h : n ≠ 255) : (n + 1).toNat = n.toNat + 1 := by
  have h255 : n.toNat ≠ 255 := fun e => h (BitVec.eq_of_toNat_eq e)
  have := n.isLt
  rw [BitVec.toNat_add]
  simp
  omega

theorem any_lanes (f : Nat → Bool) : (List.range numLanes).any f = true ↔ ∃ l < 128, f l = true := by
  simp [numLanes]

theorem all_lanes (f : Nat → Bool) : (List.range numLanes).all f = true ↔ ∀ l < 128, f l = true := by
  simp [numLanes]

section
variable {s : State} {c : Ctx} (hi : Issuing s c) (ho : outside c = true)
include hi ho

/-- 08 R180: VANY gives whether some active lane holds the predicate. -/
theorem exec_vany (x : BitVec 1) (p : BitVec 3) (d : BitVec 8) (hd : dstS c d = true) : exec (.vany d x p) s =
    c.finishS d (if (List.range numLanes).any fun l => c.active l && predIn c x p l then 1 else 0) := by
  show execVany d x p s = _
  unfold execVany
  rw [issue_of_met _ _ _ hi ho (by simpa using met_dstS hd 0)]
  simp only [predSrc_eq_predIn]

/-- 08 R180: VALL gives whether every active lane holds it. -/
theorem exec_vall (x : BitVec 1) (p : BitVec 3) (d : BitVec 8) (hd : dstS c d = true) : exec (.vall d x p) s =
    c.finishS d (if (List.range numLanes).all fun l => !c.active l || predIn c x p l then 1 else 0) := by
  show execVall d x p s = _
  unfold execVall
  rw [issue_of_met _ _ _ hi ho (by simpa using met_dstS hd 0)]
  simp only [predSrc_eq_predIn]

/-- 08 R179, 01 R14: VIF faults where a counter that would rise is 255, and else counts. -/
theorem exec_vif (x : BitVec 1) (p : BitVec 3) (takes full : Nat → Bool)
    (htakes : takes = fun l => c.active l && predIn c x p l)
    (hfull : full = fun l => !c.absent l && (c.group.nest.getD l 0 == 255) && !takes l) :
    exec (.vif x p) s = if (List.range numLanes).any full then
        .next (s.deliver c.id (.nesting (laneMask full).1 (laneMask full).2) false (wordOf (.vif x p)))
      else (.next (c.put (c.setNest fun l n => if takes l then 0 else n + 1).advance) : Res) := by
  subst hfull htakes
  show execVif x p s = _
  unfold execVif
  rw [issue_of_met _ _ _ hi ho (by simp)]
  simp only [predSrc_eq_predIn, Ctx.fault, hi.state, beq_eq_decide]

end

end Sys2Proof.Claims

open Sys2Proof Sys2Proof.Machine Sys2Proof.Claims

/-- Settles O14: the effects of VIF, VELSE and VENDIF on a counter, one fact about its numbers each, and VANY and VALL as
scalar results. -/
theorem nestingCounters : Obligations.NestingCounters := by
  intro s c x p d hi ho takes full
  have hs := hi.state
  refine ⟨fun hd => ⟨fun h => ?_, fun h => ?_, fun h => ?_, fun h => ?_⟩, fun h => ?_, fun h => ?_, ?_, ?_⟩
  · rw [exec_vany hi ho x p d hd, if_pos ((any_lanes _).mpr h)]
    exact finishS_scalar hs d 1
  · rw [exec_vany hi ho x p d hd, if_neg (fun e => by
      obtain ⟨l, hl, ht⟩ := (any_lanes _).mp e
      exact absurd ht (by simpa [takes] using h l hl))]
    exact finishS_scalar hs d 0
  · rw [exec_vall hi ho x p d hd, if_pos ((all_lanes _).mpr fun l hl => by
      cases ha : c.active l
      · rfl
      · simpa using h l hl ha)]
    exact finishS_scalar hs d 1
  · rw [exec_vall hi ho x p d hd, if_neg (fun e => by
      obtain ⟨l, hl, ha, hp⟩ := h
      simpa [ha, hp] using (all_lanes _).mp e l hl)]
    exact finishS_scalar hs d 0
  · rw [exec_vif hi ho x p takes full rfl rfl, if_neg (fun e => by
      obtain ⟨l, hl, ht⟩ := (any_lanes _).mp e
      exact absurd ht (by rw [h l hl]; decide))]
    refine setNest_counters hs _ _ fun l hl ha => ?_
    cases ht : takes l
    · exact vif_counter _ (by simpa [full, ha, ht] using h l hl)
    · rfl
  · rw [exec_vif hi ho x p takes full rfl rfl, if_pos ((any_lanes _).mpr h)]
  · show Counters s c (execVelse s) _
    unfold execVelse
    rw [issue_of_met _ _ _ hi ho (by simp)]
    exact setNest_counters hs _ _ fun l _ _ => velse_counter _
  · show Counters s c (execVendif s) _
    unfold execVendif
    rw [issue_of_met _ _ _ hi ho (by simp)]
    exact setNest_counters hs _ _ fun l _ _ => vendif_counter _
end

section
/-! Which instructions and operand codes are refused (spec 06 R136, R143; 10 R214; 13 R266): every instruction of a group goes through
`issue` and every stream instruction through `streamIssue`, and what the gate of `issue` answers. -/

namespace Sys2Proof.Claims
open Sys2Proof.Machine

/-! The row of a word. -/

/-- The instructions of row 0xC, which only a sequencer issues (10 R214). -/
def inStreamRow : Instr → Bool
  | .mma .. | .mzero .. | .mxread .. | .mstore .. | .mfence | .mbarwait .. | .mbararr .. | .mfmt .. | .mmap .. | .mbra ..
  | .mloop .. | .mend => true
  | _ => false

theorem opcodeOf_toNat (w : W32) : (opcodeOf w).toNat = w.toNat / 2 ^ 24 := by
  have := w.isLt
  simp only [opcodeOf, fld, BitVec.extractLsb'_toNat, Nat.shiftRight_eq_div_pow]
  omega

/-- A stream instruction has its opcode in row 0xC. -/
theorem opcode_of_inStreamRow {i : Instr} {w : W32} (h : encode i = some w) (hr : inStreamRow i = true) :
    0xC0 ≤ (opcodeOf w).toNat ∧ (opcodeOf w).toNat < 0xD0 := by
  rw [opcodeOf_toNat]
  cases i
  case mma | mzero | mxread | mstore | mfence | mbarwait | mbararr | mfmt | mmap | mbra | mloop | mend =>
    cases h
    simp only [Laws.RoundTrip.toNat_app, BitVec.toNat_ofNat]
    omega
  all_goals cases hr

/-- Every other instruction with a word has its opcode in another row. -/
theorem opcode_of_not_inStreamRow {i : Instr} {w : W32} (h : encode i = some w) (hr : inStreamRow i = false) :
    ¬ (0xC0 ≤ (opcodeOf w).toNat ∧ (opcodeOf w).toNat < 0xD0) := by
  rw [opcodeOf_toNat]
  cases i <;> cases h
  case mma | mzero | mxread | mstore | mfence | mbarwait | mbararr | mfmt | mmap | mbra | mloop | mend => cases hr
  all_goals
    simp only [Laws.RoundTrip.toNat_app, BitVec.toNat_ofNat]
    omega

theorem exec_stream (i : Instr) (s : State) (hr : inStreamRow i = true) : ∃ body, exec i s = streamIssue i s body := by
  cases i
  case mma | mzero | mxread | mstore | mfence | mbarwait | mbararr | mfmt | mmap | mbra | mloop | mend => exact ⟨_, rfl⟩
  all_goals cases hr

theorem exec_group {i : Instr} {w : W32} (s : State) (h : encode i = some w) (hr : inStreamRow i = false) :
    ∃ needs body, exec i s = issue i s needs body := by
  cases i <;> cases h
  case mma | mzero | mxread | mstore | mfence | mbarwait | mbararr | mfmt | mmap | mbra | mloop | mend => cases hr
  all_goals exact ⟨_, _, rfl⟩

/-- The instructions that a trap handler admits, by the number of the opcode. -/
theorem trapLegal_iff (w : W32) : trapLegal w = true ↔ (opcodeOf w).toNat < 0x34 ∨ (opcodeOf w).toNat = 0xAC ∨
    ((opcodeOf w).toNat = 0xB0 ∧ w.getLsbD 18 = false) ∨ (opcodeOf w).toNat = 0xB4 ∨ 0xF0 ≤ (opcodeOf w).toNat := by
  simp only [trapLegal, Bool.or_eq_true, Bool.and_eq_true, decide_eq_true_eq, Bool.not_eq_true', BitVec.toNat_eq (x := opcodeOf w)]
  tauto

theorem wordOf_eq {i : Instr} {w : W32} (h : encode i = some w) : wordOf i = w := by simp [wordOf, h]

/-! What issuing answers where the gate does not open. -/

theorem issue_trap {i : Instr} {s : State} {c : Ctx} {needs : List Need} {t : TrapInfo} (body : Ctx → Res) (hi : Issuing s c)
    (hg : gate (wordOf i) c needs = .trap t) : issue i s needs body = .next (s.deliver c.id t false (wordOf i)) := by
  simp only [issue, hi.1, hi.2, hg]

theorem issue_hold {i : Instr} {s : State} {c : Ctx} {needs : List Need} {ps : List Nat} (body : Ctx → Res) (hi : Issuing s c)
    (hg : gate (wordOf i) c needs = .hold ps) : Waits s c (issue i s needs body) (.operands ps) := by
  simp only [Waits, issue, hi.1, hi.2, hg, Ctx.held, hi.state]

theorem gate_outside {w : W32} {c : Ctx} (needs : List Need) (ht : c.group.inTrap = true) (hl : trapLegal w = false) :
    gate w c needs = .trap (.illegalInstruction w) := by
  simp [gate, ht, hl]

section
variable {w : W32} {c : Ctx} {needs : List Need} (ht : (c.group.inTrap && !trapLegal w) = false)
include ht

theorem gate_illegal {sub : BitVec 8} (h : needs.findSome? (Need.illegal c) = some sub) :
    gate w c needs = .trap (.illegalOperand w sub) := by
  simp only [gate, ht, h, Bool.false_eq_true, if_false]

variable (hcodes : needs.findSome? (Need.illegal c) = none)
include hcodes

theorem gate_untyped (h : needs.any (Need.untyped c) = true) : gate w c needs = .trap (.illegalOperand w 5) := by
  simp only [gate, ht, hcodes, h, Bool.false_eq_true, if_false, if_true]

variable (htypes : needs.any (Need.untyped c) = false)
include htypes

theorem gate_hold {es : List Machine.Empty} (h : needs.filterMap (Need.empty? c) = es) (hw : (es.any fun e => !e.traps) = true) :
    gate w c needs = .hold (es.flatMap (·.producers)) := by
  simp only [gate, ht, hcodes, htypes, h, hw, Bool.false_eq_true, if_false, if_true]

theorem gate_emptyTrap {e : Machine.Empty} {es : List Machine.Empty} (h : needs.filterMap (Need.empty? c) = e :: es)
    (hw : ((e :: es).any fun e => !e.traps) = false) : gate w c needs = .trap (.emptyOperand e.sub e.code) := by
  simp only [gate, ht, hcodes, htypes, h, hw, List.head?_cons, Bool.false_eq_true, if_false]

end

/-- 13 R266; 06 R143; 10 R214: an instruction by the agent that fetches it. -/
theorem exec_refused {s : State} {c : Ctx} {i : Instr} {w : W32} (h : encode i = some w) :
    (Issuing s c → inStreamRow i = true → exec i s = .next (s.deliver c.id (.illegalInstruction w) false w)) ∧
    (Issuing s c → c.group.inTrap = true → trapLegal w = false →
      exec i s = .next (s.deliver c.id (.illegalInstruction w) false w)) ∧
    (∀ t, s.cur = .sequencer t → inStreamRow i = false → exec i s = .next (s.streamStop t 0)) := by
  have hw := wordOf_eq h
  have hstream (hi : Issuing s c) (hr : inStreamRow i = true) :
      exec i s = .next (s.deliver c.id (.illegalInstruction w) false w) := by
    obtain ⟨body, he⟩ := exec_stream i s hr
    simp only [he, streamIssue, hi.1, hw]
  refine ⟨hstream, fun hi ht hl => ?_, fun t ht hr => ?_⟩
  · cases hr : inStreamRow i
    · obtain ⟨needs, body, he⟩ := exec_group s h hr
      rw [he, issue_trap body hi (gate_outside needs ht (by rw [hw, hl])), hw]
    · exact hstream hi hr
  · obtain ⟨needs, body, he⟩ := exec_group s h hr
    simp only [he, issue, ht]

/-! Operands of an instruction of two sources. -/

/-- What the checks of 06 R136 and R143 over a destination and two sources answer: whether each code is legal (`okD`, `okA`,
`okB`), whether each constant has a value (`kA`, `kB`), and the producers awaited. -/
def OperandFaults (s : State) (c : Ctx) (i : Instr) (a b : BitVec 8) (okD okA okB kA kB : Bool) (pD pA pB : Option Nat) : Prop :=
  let ill (k : BitVec 8) : Prop := exec i s = .next (s.deliver c.id (.illegalOperand (wordOf i) k) false (wordOf i))
  (okD = false → ill 0) ∧ (okD = true → okA = false → ill 1) ∧ (okD = true → okA = true → okB = false → ill 2) ∧
  (okD = true → okA = true → okB = true →
    (kA = false ∨ kB = false → ill 5) ∧
    (kA = true → kB = true →
      ((pD ≠ none ∨ (pA ≠ none ∧ modeEpa c.group.mode = false) ∨ (pB ≠ none ∧ modeEpb c.group.mode = false)) →
        Waits s c (exec i s) (.operands (pD.toList ++ pA.toList ++ pB.toList))) ∧
      (pD = none → pA ≠ none → modeEpa c.group.mode = true → (pB ≠ none → modeEpb c.group.mode = true) →
        exec i s = .next (s.deliver c.id (.emptyOperand 1 a) false (wordOf i))) ∧
      (pD = none → pA = none → pB ≠ none → modeEpb c.group.mode = true →
        exec i s = .next (s.deliver c.id (.emptyOperand 2 b) false (wordOf i)))))

/-- The empty operands of a destination, which always holds, and of two sources under their policies. -/
def emptiesOf (pD pA pB : Option Nat) (epa epb : Bool) (a b d : BitVec 8) : List Machine.Empty :=
  (emptyIf pD.toList false 0 d).toList ++ (emptyIf pA.toList epa 1 a).toList ++ (emptyIf pB.toList epb 2 b).toList

theorem emptiesOf_producers (pD pA pB : Option Nat) (epa epb : Bool) (a b d : BitVec 8) :
    (emptiesOf pD pA pB epa epb a b d).flatMap (·.producers) = pD.toList ++ pA.toList ++ pB.toList := by
  cases pD <;> cases pA <;> cases pB <;> rfl

/-- The fields of an instruction of two sources answer for their codes, constants and registers as `OperandFaults` reads them. -/
structure TwoSources (c : Ctx) (needs : List Need) (d a b : BitVec 8) (okD okA okB kA kB : Bool) (pD pA pB : Option Nat) : Prop where
  codes : needs.findSome? (Need.illegal c) = if okD then if okA then if okB then none else some 2 else some 1 else some 0
  constants : needs.any (Need.untyped c) = (!kA || !kB)
  empties : needs.filterMap (Need.empty? c) = emptiesOf pD pA pB (modeEpa c.group.mode) (modeEpb c.group.mode) a b d

theorem operandFaults_of_twoSources {s : State} {c : Ctx} {i : Instr} {needs : List Need} {body : Ctx → Res} {d a b : BitVec 8}
    {okD okA okB kA kB : Bool} {pD pA pB : Option Nat} (hi : Issuing s c) (he : exec i s = issue i s needs body)
    (ht : (c.group.inTrap && !trapLegal (wordOf i)) = false) (h : TwoSources c needs d a b okD okA okB kA kB pD pA pB) :
    OperandFaults s c i a b okD okA okB kA kB pD pA pB := by
  have trap {t : TrapInfo} (hg : gate (wordOf i) c needs = .trap t) :
      exec i s = .next (s.deliver c.id t false (wordOf i)) := by rw [he, issue_trap body hi hg]
  have codes (hD : okD = true) (hA : okA = true) (hB : okB = true) : needs.findSome? (Need.illegal c) = none := by
    rw [h.codes, hD, hA, hB]
    rfl
  have constants (hA : kA = true) (hB : kB = true) : needs.any (Need.untyped c) = false := by rw [h.constants, hA, hB]; rfl
  refine ⟨fun hD => trap (gate_illegal ht ?_), fun hD hA => trap (gate_illegal ht ?_),
    fun hD hA hB => trap (gate_illegal ht ?_), fun hD hA hB => ⟨fun hk => trap (gate_untyped ht (codes hD hA hB) ?_),
      fun hkA hkB => ⟨fun hp => ?_, fun hpD hpA hA1 hB1 => trap ?_, fun hpD hpA hpB hB1 => trap ?_⟩⟩⟩
  · rw [h.codes, hD]; rfl
  · rw [h.codes, hD, hA]; rfl
  · rw [h.codes, hD, hA, hB]; rfl
  · rw [h.constants]
    rcases hk with rfl | rfl <;> simp
  · rw [he]
    have hflat := (emptiesOf_producers pD pA pB (modeEpa c.group.mode) (modeEpb c.group.mode) a b d)
    rw [← hflat]
    refine issue_hold body hi (gate_hold ht (codes hD hA hB) (constants hkA hkB) h.empties ?_)
    cases pD <;> cases pA <;> cases pB <;> simp_all [emptiesOf, emptyIf]
  · obtain ⟨p, rfl⟩ := Option.ne_none_iff_exists'.mp hpA
    subst hpD
    refine gate_emptyTrap ht (codes hD hA hB) (constants hkA hkB) (e := ⟨true, 1, a, [p]⟩)
      (es := (emptyIf pB.toList (modeEpb c.group.mode) 2 b).toList) ?_ ?_
    · rw [h.empties, hA1]
      rfl
    · cases pB <;> simp_all [emptyIf]
  · obtain ⟨p, rfl⟩ := Option.ne_none_iff_exists'.mp hpB
    subst hpD hpA
    refine gate_emptyTrap ht (codes hD hA hB) (constants hkA hkB) (e := ⟨true, 2, b, [p]⟩) (es := []) ?_ rfl
    rw [h.empties, hB1]
    rfl

theorem filterMap_cons_toList {α β : Type} (f : α → Option β) (a : α) (l : List α) :
    (a :: l).filterMap f = (f a).toList ++ l.filterMap f := by
  cases h : f a <;> simp [h]

theorem namedPend_eq (d : BitVec 8) (p : Option Nat) : namedPend d p = (if d.toNat < 128 then p else none).toList := by
  unfold namedPend
  split <;> rfl

theorem twoSources_scalar (c : Ctx) (d a b : BitVec 8) :
    TwoSources c [.dstS 0 d, .srcS 1 .epa a, .srcS 2 .epb b] d a b (decide (d.toNat < 128 ∨ d = 0xFF)) (scalarSrcLegal a)
      (scalarSrcLegal b) (!isConst a || (scalarConst (a.toNat - 0x90)).isSome) (!isConst b || (scalarConst (b.toNat - 0x90)).isSome)
      (if d.toNat < 128 then c.scalarPend d else none) (c.scalarPend a) (c.scalarPend b) where
  codes := by
    have hd : scalarDstLegal d = decide (d.toNat < 128 ∨ d = 0xFF) := by simp [scalarDstLegal, BitVec.toNat_eq (x := d)]
    simp only [List.findSome?_cons, List.findSome?_nil, Need.illegal, hd]
    generalize decide (d.toNat < 128 ∨ d = 0xFF) = okD, scalarSrcLegal a = okA, scalarSrcLegal b = okB
    cases okD <;> cases okA <;> cases okB <;> rfl
  constants := by simp [Need.untyped]
  empties := by
    simp only [filterMap_cons_toList, List.filterMap_nil, Need.empty?, namedPend_eq, Ctx.policy, emptiesOf, List.append_assoc,
      List.append_nil]

theorem twoSources_vector (c : Ctx) (d a b : BitVec 8) :
    TwoSources c [.dstV d, .srcV 1 .epa a, .srcV 2 .epb b, .etype tyAny] d a b
      (decide ((d.toNat < 128 ∧ d.toNat < c.budget) ∨ d = 0xFF)) (c.vectorSrcLegal a) (c.vectorSrcLegal b)
      (!isConst a || (vectorConst c.ty c.rnd c.sat (a.toNat - 0x90)).isSome)
      (!isConst b || (vectorConst c.ty c.rnd c.sat (b.toNat - 0x90)).isSome)
      (if d.toNat < 128 then c.vectorPend d else none) (c.vectorPend a) (c.vectorPend b) where
  codes := by
    have hd : c.vectorDstLegal d = decide ((d.toNat < 128 ∧ d.toNat < c.budget) ∨ d = 0xFF) := by
      simp [Ctx.vectorDstLegal, BitVec.toNat_eq (x := d)]
    simp only [List.findSome?_cons, List.findSome?_nil, Need.illegal, hd]
    generalize decide ((d.toNat < 128 ∧ d.toNat < c.budget) ∨ d = 0xFF) = okD, c.vectorSrcLegal a = okA, c.vectorSrcLegal b = okB
    cases okD <;> cases okA <;> cases okB <;> rfl
  constants := by simp [Need.untyped, tyAny]
  empties := by
    simp only [filterMap_cons_toList, List.filterMap_nil, Need.empty?, namedPend_eq, Ctx.policy, emptiesOf, List.append_assoc,
      List.append_nil, Option.toList_none]

/-- An instruction whose opcode row a trap handler admits. -/
theorem trapGate_admitted {i : Instr} {w : W32} {c : Ctx} (h : encode i = some w) (hop : (opcodeOf w).toNat < 0x34) :
    (c.group.inTrap && !trapLegal (wordOf i)) = false := by
  have : trapLegal (wordOf i) = true := by rw [wordOf_eq h, trapLegal_iff]; exact .inl hop
  simp [this]

/-- Rows 0x0 of the opcode map: the two-source scalar instructions. -/
theorem scalarFaults {s : State} {c : Ctx} (hi : Issuing s c) (i : Instr) (op d a b : BitVec 8) (f : W64 → W64 → W64)
    (he : exec i s = scalar2 i d a b f s) (hw : encode i = some (op ++ d ++ a ++ b)) (hop : op.toNat < 0x34) :
    OperandFaults s c i a b (decide (d.toNat < 128 ∨ d = 0xFF)) (scalarSrcLegal a) (scalarSrcLegal b)
      (!isConst a || (scalarConst (a.toNat - 0x90)).isSome) (!isConst b || (scalarConst (b.toNat - 0x90)).isSome)
      (if d.toNat < 128 then c.scalarPend d else none) (c.scalarPend a) (c.scalarPend b) := by
  have hopcode : opcodeOf (op ++ d ++ a ++ b) = op := (Laws.RoundTrip.partsf8f8f8 _ op d a b rfl).2.1
  exact operandFaults_of_twoSources hi he (trapGate_admitted hw (by rwa [hopcode])) (twoSources_scalar c d a b)

/-- The two-source vector instructions, outside a trap handler. -/
theorem vectorFaults {s : State} {c : Ctx} (hi : Issuing s c) (ht : c.group.inTrap = false) (i : Instr) (d a b : BitVec 8)
    (f : Ctx → W32 → W32 → W32) (he : exec i s = vec2 i d a b tyAny f s) :
    OperandFaults s c i a b (decide ((d.toNat < 128 ∧ d.toNat < c.budget) ∨ d = 0xFF)) (c.vectorSrcLegal a) (c.vectorSrcLegal b)
      (!isConst a || (vectorConst c.ty c.rnd c.sat (a.toNat - 0x90)).isSome)
      (!isConst b || (vectorConst c.ty c.rnd c.sat (b.toNat - 0x90)).isSome)
      (if d.toNat < 128 then c.vectorPend d else none) (c.vectorPend a) (c.vectorPend b) :=
  operandFaults_of_twoSources hi he (by simp [ht]) (twoSources_vector c d a b)

end Sys2Proof.Claims

open Sys2Proof Sys2Proof.Machine Sys2Proof.Claims

/-- Settles O42: an instruction is refused by its row (`exec_refused`), and an operand by the gate over its three fields. -/
theorem illegal : Obligations.Illegal := by
  refine ⟨fun s c i w h => ⟨fun hi hrow => ?_, fun hi ht hl => ?_, fun t ht hrow => ?_⟩, fun s c d a b hi => ?_⟩
  · cases hr : inStreamRow i
    · exact absurd hrow (opcode_of_not_inStreamRow h hr)
    · exact (exec_refused h).1 hi hr
  · exact (exec_refused h).2.1 hi ht (by rw [← trapLegal_iff] at hl; simpa using hl)
  · cases hr : inStreamRow i
    · exact (exec_refused (c := c) h).2.2 t ht hr
    · exact absurd (opcode_of_inStreamRow h hr) hrow
  · exact ⟨scalarFaults hi _ 0x01 d a b (· + ·) rfl rfl (by decide), scalarFaults hi _ 0x02 d a b (· - ·) rfl rfl (by decide),
      scalarFaults hi _ 0x03 d a b (· * ·) rfl rfl (by decide),
      scalarFaults hi _ 0x09 d a b (fun x y => x <<< shAmt y) rfl rfl (by decide),
      scalarFaults hi _ 0x0C d a b (fun x y => if x.toInt < y.toInt then 1 else 0) rfl rfl (by decide),
      fun ht => ⟨vectorFaults hi ht _ d a b _ rfl, vectorFaults hi ht _ d a b _ rfl, vectorFaults hi ht _ d a b _ rfl,
        vectorFaults hi ht _ d a b _ rfl, vectorFaults hi ht _ d a b _ rfl⟩⟩
end

section
/-! Barriers (spec 07 R159): a completing BARARR of a group whose due stop is a wait on the same barrier. The group goes on twice,
once past its BARARR and once more when the completion finds it waiting, where the statement has it go on once. -/

namespace Sys2Proof.Claims
open Sys2Proof.Machine

/-- A launch of one group, whose barriers expect one arrival. -/
def soloLaunch : Launch :=
  { placedLaunch with krec := { placedKernel with lanes := 128, nt := 0, roles := [(1, 16)], exps := List.replicate 16 1 } }

/-- Its group, running, with a wait on barrier 0 to be entered at the next boundary. -/
def waitDueGroup : Group := { Group.fresh soloLaunch 0 16 with due := some (.barWait 0) }

def waitDueTeam : Team := { Team.fresh soloLaunch 0 0 0 [0] with groups := [waitDueGroup] }

def waitDueState : State :=
  { State.reset with cur := .group ⟨⟨0, 0⟩, 0⟩, launches := [soloLaunch], teams := [waitDueTeam] }

def waitDueCtx : Ctx := ⟨waitDueState, ⟨⟨0, 0⟩, 0⟩, waitDueTeam, soloLaunch, waitDueGroup, 0⟩

theorem waitDue_issuing : Issuing waitDueState waitDueCtx := ⟨rfl, rfl⟩

/-- The team that the completing BARARR leaves: its one group stands two instructions further on. -/
theorem waitDue_bararr : ∃ T0 : Team, exec (.bararr 0) waitDueState = .next (waitDueState.setTeam T0) ∧ T0.id = waitDueTeam.id ∧
    (T0.groups[0]?.map fun g => g.pc) = some (waitDueGroup.pc + 8) :=
  ⟨(waitDueTeam.setGroup 0 waitDueGroup.advance).arrive soloLaunch 0 0 none, rfl, rfl, rfl⟩

theorem waitDue_lookup (T : Team) (h : T.id = waitDueTeam.id) : (waitDueState.setTeam T).teams = [T] := by
  simp [State.setTeam, State.mapTeam, waitDueState, h]

end Sys2Proof.Claims

open Sys2Proof Sys2Proof.Machine Sys2Proof.Claims

/-- Refutes O6: the group of `waitDueState` completes the phase with a BARARR while a wait on that barrier is due. It stands at the
wait when the completion is given out, consumes it, and its PC passes the next instruction too. -/
theorem not_barriers : ¬ Obligations.Barriers := by
  intro h
  obtain ⟨-, -, completes, -⟩ := h
  obtain ⟨⟨T, hT, hdone⟩, -, -⟩ := completes waitDueState waitDueCtx 0 0 0 ⟨1, 0, [false], false, [false], []⟩ waitDue_issuing rfl rfl
    rfl rfl rfl rfl (fun p hp => absurd hp List.not_mem_nil) (fun p hp => absurd hp List.not_mem_nil)
  obtain ⟨T0, hT0, hid0, hpc0⟩ := waitDue_bararr
  obtain ⟨st, B', -, hteam, -, -, -, -, -, hgroups⟩ := hdone
  have hid : T.id = waitDueTeam.id := by rw [hteam]; rfl
  have hsame : T = T0 := by
    have hnext := hT.symm.trans hT0
    injection hnext with hstate
    have := congrArg State.teams hstate
    rwa [waitDue_lookup T hid, waitDue_lookup T0 hid0, List.singleton_inj] at this
  obtain ⟨y, hy, hself, -⟩ := hgroups 0 waitDueGroup rfl
  obtain ⟨⟨-, -, -, -, hpc, -⟩, -⟩ := hself (.inr rfl)
  rw [hsame] at hy
  rw [hy] at hpc0
  simp only [Option.map_some, Option.some.injEq] at hpc0
  have htwice := hpc.symm.trans hpc0
  revert htwice
  simp [quotaGroup]
end

section
/-! What marking table entries, traffic on links and taking an exception leave of the state. -/

namespace Sys2Proof.Claims
open Sys2Proof.Machine

/-- Marking table entries writes memory, this module's and a peer's, and nothing else. -/
theorem markHits_frame (s : State) (hs : List Hit) (write : Bool) :
    s.markHits hs write = { s with mem := (s.markHits hs write).mem, peers := (s.markHits hs write).peers } := by
  unfold State.markHits
  induction hs generalizing s with
  | nil => rfl
  | cons h hs ih =>
    simp only [List.foldl_cons]
    split
    · exact ih s
    · exact ih _
    · exact ih _

@[simp] theorem markHits_teams (s : State) (hs : List Hit) (write : Bool) : (s.markHits hs write).teams = s.teams := by
  rw [markHits_frame]

/-- Traffic touches links alone. -/
theorem trafficTo_frame (s : State) (src : Nat) (hs : List Hit) :
    s.trafficTo src hs = { s with links := (s.trafficTo src hs).links } := by
  unfold State.trafficTo
  induction (hs.filterMap (·.dest)).dedup generalizing s with
  | nil => rfl
  | cons d ds ih => exact ih (s.traffic src d)

@[simp] theorem trafficTo_teams (s : State) (src : Nat) (hs : List Hit) : (s.trafficTo src hs).teams = s.teams := by
  rw [trafficTo_frame]

/-- A group is looked up among the teams. -/
theorem group?_congr {s t : State} (h : t.teams = s.teams) (id : GroupId) : t.group? id = s.group? id := by
  simp only [State.group?, State.team?, h]

theorem team?_mapTeam_map (s : State) (id : TeamId) (f : Team → Team) (hf : ∀ t, (f t).id = t.id) :
    (s.mapTeam id f).team? id = (s.team? id).map f := by
  cases h : s.team? id with
  | some t => exact s.team?_mapTeam id f t h hf
  | none =>
    simp only [State.team?, State.mapTeam, List.find?_eq_none, List.mem_map, decide_eq_true_eq, Option.map_none] at h ⊢
    rintro t ⟨u, hu, rfl⟩
    simp [h u hu]

theorem group?_mapGroup (s : State) (id : GroupId) (f : Group → Group) :
    (s.mapGroup id f).group? id = (s.group? id).map f := by
  rw [State.group?, State.mapGroup, team?_mapTeam_map, State.group?]
  · cases s.team? id.team with
    | none => rfl
    | some t => simp
  · exact fun _ => rfl

/-- What every change of a group keeps, the group keeps. -/
theorem group?_mapGroup_keeps {α : Type} (φ : Group → α) (f : Group → Group) (hf : ∀ g, φ (f g) = φ g) (s : State) (id : GroupId) :
    ((s.mapGroup id f).group? id).map φ = (s.group? id).map φ := by
  rw [group?_mapGroup, Option.map_map]
  congr 1
  funext g
  exact hf g

theorem group?_setGroup_keeps {α : Type} (φ : Group → α) {s : State} {id : GroupId} {g : Group} (hg : s.group? id = some g)
    {g' : Group} (h : φ g' = φ g) : ((s.setGroup id g').group? id).map φ = (s.group? id).map φ := by
  rw [s.group?_setGroup id g g' hg, hg, Option.map_some, Option.map_some, h]

/-- Delivery leaves a pending STREAM pending, and raises none. -/
theorem stopGroup_evStream (s : State) (id : GroupId) (r : FaultRecord) :
    ((s.stopGroup id r).group? id).map (·.evStream) = (s.group? id).map (·.evStream) :=
  group?_mapGroup_keeps (·.evStream) (fun g => { g with
    record := r, run := .stopped, rewriting := none, due := none, decoded := none, evStop := false, stepOnce := .off,
    begun := g.begun || r.done }) (fun _ => rfl) s id

theorem deliverRecord_evStream {s : State} {id : GroupId} {g : Group} (hg : s.group? id = some g) (l : Launch) (t : Team)
    (r : FaultRecord) : ((s.deliverRecord l t id g r).group? id).map (·.evStream) = (s.group? id).map (·.evStream) := by
  have taken (g1 : Group) (h1 : g1.evStream = g.evStream) :
      ((s.setGroup id (if r.done then g1.stepped else g1)).group? id).map (·.evStream) = (s.group? id).map (·.evStream) :=
    group?_setGroup_keeps (·.evStream) hg (by split <;> simp [h1])
  unfold State.deliverRecord
  split
  · exact stopGroup_evStream s id _
  · dsimp only
    split
    · exact stopGroup_evStream s id r
    · split
      · rw [stopGroup_evStream]
        exact taken _ rfl
      · exact taken _ rfl

theorem patchAct_evStream (s : State) (id : GroupId) (k : Nat) (p : PatchSlot) (w : W32) (r : Option FaultRecord) :
    ((s.patchAct id k p w r).group? id).map (·.evStream) = (s.group? id).map (·.evStream) := by
  let s1 : State := { s with telemetry := { s.telemetry with patchActs := satInc s.telemetry.patchActs } }
  unfold State.patchAct
  dsimp only
  split
  · exact group?_mapGroup_keeps (·.evStream) (fun g => { g with rewriting := some (p.words.take p.nrew.toNat, k) }) (fun _ => rfl)
      s1 id
  · split
    · exact group?_mapGroup_keeps (·.evStream) (fun g => { g with run := .patchWait k }) (fun _ => rfl) s1 id
    · rfl

theorem clearLost_group? (s : State) (t : TeamId) (r : FaultRecord) (id : GroupId) : (s.clearLost t r).group? id = s.group? id := by
  unfold State.clearLost
  split
  · unfold State.group?
    by_cases h : id.team = t
    · rw [h, team?_mapTeam_map]
      · cases s.team? t <;> rfl
      · exact fun _ => rfl
    · rw [State.team?_mapTeam_other (h := h)]
      exact fun _ => rfl
  · rfl

theorem deliver_evStream (s : State) (id : GroupId) (x : TrapInfo) (done : Bool) (w : W32) :
    ((s.deliver id x done w).group? id).map (·.evStream) = (s.group? id).map (·.evStream) := by
  unfold State.deliver
  split
  · next t l g ht hl hg =>
    dsimp only
    split
    · exact patchAct_evStream s id _ _ w _
    · rw [clearLost_group?]
      exact deliverRecord_evStream hg l t _
  · rfl

end Sys2Proof.Claims
end

section
/-! A turn of a group and of a sequencer, and an event of the schedule (spec 06 R143, 01 R34, 10 R207-R209). -/

namespace Sys2Proof.Claims
open Sys2Proof.Machine

/-! What the turn has issued, and what is noted of it. -/

/-- The group as the turn left it has issued: it completed its instruction, or it waits in one that it has begun. -/
def HasIssued (before : Group) (t : State) (id : GroupId) : Prop := ∃ g, t.group? id = some g ∧
  (g.stall = .issued ∨ (g.heldHere ≠ none ∧ before.heldHere = none) ∨ ∃ n, g.run = .barWait n)

theorem issuedSince_iff (a g : Group) : a.issuedSince g = true ↔
    (g.stall = .issued ∨ (g.heldHere ≠ none ∧ a.heldHere = none) ∨ ∃ n, g.run = .barWait n) := by
  unfold Group.issuedSince
  cases g.run <;> simp [Option.isSome_iff_ne_none]

theorem hasIssued_iff (a : Group) (t : State) (id : GroupId) :
    (t.group? id).any a.issuedSince = true ↔ HasIssued a t id := by
  cases h : t.group? id with
  | none => simp [HasIssued, h]
  | some g => simp [HasIssued, h, issuedSince_iff]

/-- The writing of what an instruction that issued wrote, of a single step and of a stop. -/
theorem afterTurn_next {s2 : State} {id : GroupId} {c2 : Ctx} {w : W32} (hc : s2.ctx? id = some c2)
    (hw : s2.nextWord? c2 = some w) (core : Nat) (t : State) : ∃ t1, afterTurn s2 core id (.next t) = .next t1 ∧
    (HasIssued c2.group t id → t1 = ((s2.noteWrites id (c2.writePlaces w) (t.noteTurn core id)).recordSteps id.team).finishStops) ∧
    (¬ HasIssued c2.group t id → t1 = ((s2.noteWrites id [] t).recordSteps id.team).finishStops) := by
  obtain ⟨-, -, -, -, hg, -⟩ := s2.ctx?_spec id c2 hc
  have hissued := hasIssued_iff c2.group t id
  unfold afterTurn
  simp only [hg, Option.any_some, hc, Option.elim_some, hw, Option.map_some, Option.getD_some]
  refine ⟨_, rfl, fun h => ?_, fun h => ?_⟩
  · rw [if_pos (hissued.mpr h), if_pos (hissued.mpr h)]
  · rw [if_neg (hissued.not.mpr h), if_neg (hissued.not.mpr h)]

/-- A turn that no fatal error, set, cut or save keeps from its group. -/
theorem groupTurn_runs {s : State} {id : GroupId} {c c2 : Ctx} (hc : (s.vtimeCheck id).ctx? id = some c)
    (hc2 : ((s.vtimeCheck id).atTurn c).ctx? id = some c2) (hfatal : s.fatal = false)
    (hactive : (s.vtimeCheck id).isActive c.core id = true) (hrun : c.group.run = .running) (hfrozen : c.team.frozen = false)
    (hcut : (s.vtimeCheck id).cutting id.team.launch = true → c.team.begun = true) :
    s.groupTurn id = afterTurn ((s.vtimeCheck id).atTurn c) c.core id (((s.vtimeCheck id).atTurn c).boundary c2) := by
  obtain ⟨-, -, hteam, -⟩ := State.ctx?_spec _ id c hc
  have hid : c.team.id = id.team := by simpa using List.find?_some hteam
  have hheld : (s.vtimeCheck id).heldBack c.team = false := by
    rw [State.heldBack, hid]
    cases h : (s.vtimeCheck id).cutting id.team.launch
    · rfl
    · simp [hcut h]
  have hfatal' : (s.vtimeCheck id).fatal = false := by
    unfold State.vtimeCheck
    split
    · split <;> exact hfatal
    · exact hfatal
  simp [State.groupTurn, hfatal, hc, hfatal', hactive, Group.mayIssue, hrun, hheld, hfrozen, hc2]

/-- Where no event is pending at the boundary, the turn is the word's, unless it raised a STREAM. -/
theorem boundary_next {s : State} {c : Ctx} {t : State} (hr : c.group.rewriting = none) (he : c.group.eventReady = false)
    (h : s.fetchRun c = .next t) :
    s.boundary c = .next (if raisedStream (.next t) c.id c.group then t.takeEvent c.id else t) := by
  simp only [State.boundary, hr, h, he, Bool.false_and, Bool.false_eq_true, if_false]
  split <;> rfl

theorem boundary_fault {s : State} {c : Ctx} {f : Fault} (hr : c.group.rewriting = none) (h : s.fetchRun c = .fault f) :
    s.boundary c = .fault f := by
  simp only [State.boundary, hr, h]

/-- The word that `fetchRun` runs, and the state in which it does. -/
def Fetched (s s3 : State) (c : Ctx) (h : Hit) (w : W32) : Prop :=
  (c.group.decoded = some w ∧ s3 = s) ∨ (c.group.decoded = none ∧ s3 = (s.markHits [h] false).trafficTo c.die [h] ∧
    w = BitVec.ofNat 32 (s.loadLoc h.loc 4) ∧ s3.decodeSlot? w = none ∧
    s.checkFetch c.launch c.id.team c.die c.group.pc = .ok h)

theorem Fetched.run {s s3 : State} {c : Ctx} {h : Hit} {w : W32} (hf : Fetched s s3 c h w) : s.fetchRun c = s3.runWord c.id w := by
  rcases hf with ⟨hd, rfl⟩ | ⟨hd, rfl, rfl, hslot, hcheck⟩
  · simp [State.fetchRun, hd]
  · simp [State.fetchRun, hd, hcheck, hslot]

theorem Fetched.nextWord {s s3 : State} {c : Ctx} {h : Hit} {w : W32} (hf : Fetched s s3 c h w) (hr : c.group.rewriting = none) :
    s.nextWord? c = some w := by
  rcases hf with ⟨hd, rfl⟩ | ⟨hd, rfl, rfl, hslot, hcheck⟩
  · simp [State.nextWord?, hd, hr]
  · simp [State.nextWord?, hd, hr, hcheck]

theorem Fetched.group? {s s3 : State} {c : Ctx} {h : Hit} {w : W32} (hf : Fetched s s3 c h w) (id : GroupId) :
    s3.group? id = s.group? id := by
  rcases hf with ⟨-, rfl⟩ | ⟨-, rfl, -⟩
  · rfl
  · exact group?_congr (by simp) id

theorem runWord_ok {w : W32} {i : Instr} (h : decode w = .ok i) (s : State) (id : GroupId) :
    s.runWord id w = exec i { s with cur := .group id } := by simp [State.runWord, h]

theorem runWord_illegal {w : W32} (h : decode w = .unassigned ∨ decode w = .reserved) (s : State) (id : GroupId) :
    s.runWord id w = .next (s.deliver id (.illegalInstruction w) false w) := by
  rcases h with h | h <;> simp [State.runWord, h]

theorem raisedStream_iff (t : State) (id : GroupId) (before : Group) : raisedStream (.next t) id before = true ↔
    before.evStream = false ∧ ∃ g, t.group? id = some g ∧ g.evStream = true ∧ g.inTrap = false := by
  cases h : t.group? id with
  | none => simp [raisedStream, h]
  | some g => simp [raisedStream, h]

/-- A word that decodes to no instruction raises no STREAM. -/
theorem raisedStream_deliver {s : State} {id : GroupId} {g : Group} (hg : s.group? id = some g) (x : TrapInfo) (w : W32) :
    raisedStream (.next (s.deliver id x false w)) id g = false := by
  rw [← Bool.not_eq_true, raisedStream_iff]
  rintro ⟨hoff, g', hg', hon, -⟩
  have := deliver_evStream s id x false w
  rw [hg, hg', Option.map_some, Option.map_some, hon, hoff] at this
  simp at this

/-! A sequencer's turn. -/

/-- A sequencer's turn that no fatal error, save, cut or wait keeps from it is what its fetch gives. -/
theorem sequencerTurn_runs {s : State} {id : TeamId} {t : Team} {l : Launch} {q : Sequencer} {core : Nat}
    (ht : s.team? id = some t) (hl : s.launch? id.launch = some l) (hq : t.seq = some q) (hcore : t.core? = some core)
    (hid : t.id = id) (hfatal : s.fatal = false) (hfrozen : t.frozen = false) (hrun : q.sqstate = .run)
    (hpage : q.pageWait = false) (hending : q.ending = false) (hcut : s.cutting id.launch = true → t.begun = true) :
    (∀ h, s.checkFetch l id (dieOfCore core) q.spc = .ok h →
      (∀ i, decode (BitVec.ofNat 32 (s.loadLoc h.loc 4)) = .ok i → s.sequencerTurn id =
        afterStream id (exec i { (s.markHits [h] false).trafficTo (dieOfCore core) [h] with cur := .sequencer id })) ∧
      ((decode (BitVec.ofNat 32 (s.loadLoc h.loc 4)) = .unassigned ∨ decode (BitVec.ofNat 32 (s.loadLoc h.loc 4)) = .reserved) →
        s.sequencerTurn id = .next (s.streamStop id 0))) ∧
    (∀ x, s.checkFetch l id (dieOfCore core) q.spc = .trap x → s.sequencerTurn id = .next (s.streamStop id 5)) := by
  have hheld : s.heldBack t = false := by
    rw [State.heldBack, hid]
    cases h : s.cutting id.launch
    · rfl
    · simp [hcut h]
  refine ⟨fun h hh => ⟨fun i hi => ?_, ?_⟩, fun x hx => ?_⟩
  · simp [State.sequencerTurn, ht, hl, hq, hcore, hfatal, hfrozen, hheld, hrun, hpage, hending, hh, hi]
  · rintro (hi | hi) <;> simp [State.sequencerTurn, ht, hl, hq, hcore, hfatal, hfrozen, hheld, hrun, hpage, hending, hh, hi]
  · simp [State.sequencerTurn, ht, hl, hq, hcore, hfatal, hfrozen, hheld, hrun, hpage, hending, hx]

/-! An event of the schedule. -/

theorem step_event {s : State} {e : Instr} {rest : List Turn} (hs : s.schedule = .event e :: rest) (he : isEvent e = true)
    (hfatal : s.fatal = false) : step s = afterEvent { s.tickOn with schedule := rest } e
      (exec e (State.note { s.tickOn with schedule := rest } e)) := by
  have hadmits : State.admits { s.tickOn with schedule := rest } e = true := by
    unfold State.admits
    simp [State.tickOn, hfatal]
  simp only [step, hs, he, hadmits, Bool.and_self, if_true]

/-- Only a copy's chunk and a packet's arrival write for others than the group of a turn. -/
theorem afterEvent_other {e : Instr} (hchunk : ∀ k, e ≠ .copyChunk k) (harrival : ∀ k, e ≠ .channelPacketArrival k)
    (before : State) (r : Res) : afterEvent before e r = r := by
  cases r with
  | next t =>
    unfold afterEvent
    dsimp only
    split
    · next k => exact absurd rfl (hchunk k)
    · next k => exact absurd rfl (harrival k)
    · rfl
  | refused x => rfl
  | fault f => rfl

end Sys2Proof.Claims

open Sys2Proof Sys2Proof.Machine Sys2Proof.Claims

/-- Settles O36: a turn is `fetchRun` between the boundary (`boundary_next`) and what is noted of it (`afterTurn_next`). -/
theorem stepRunsInstructions : Obligations.StepRunsInstructions := by
  refine ⟨?_, ?_⟩
  · intro s s3 id c c2 h w hsched hcur s1 s2 issued after streams hc hc2 hfatal hactive hrun hfrozen hcut hrew hev hfetched
    obtain ⟨-, rfl, -, -, hg2, -⟩ := State.ctx?_spec s2 id c2 hc2
    have hatTurn : s1.atTurn c = s2 := by
      obtain ⟨-, hid, -⟩ := State.ctx?_spec s1 _ c hc
      simp only [State.atTurn, hid, s2]
    have hstep : step s = afterTurn s2 c.core c2.id (s2.boundary c2) := by
      simp only [step, hsched, hcur, State.turn]
      rw [← hatTurn]
      exact groupTurn_runs hc (by rw [hatTurn]; exact hc2) hfatal hactive hrun hfrozen hcut
    have hf : Fetched s2 s3 c2 h w := hfetched
    have noted (t : State) : ∃ t1, after t t1 ∧ afterTurn s2 c.core c2.id (.next t) = .next t1 := by
      obtain ⟨t1, h1, h2⟩ := afterTurn_next hc2 (hf.nextWord hrew) c.core t
      exact ⟨t1, h2, h1⟩
    refine ⟨fun i t hi ht => ⟨fun hno => ?_, fun hoff hstream => ?_⟩, fun i f hi ht => ?_, fun hill => ?_⟩
    · have hquiet : raisedStream (.next t) c2.id c2.group = false := by
        rw [← Bool.not_eq_true, raisedStream_iff]
        rintro ⟨hoff, hst⟩
        rcases hno with hno | hno
        · exact hno hst
        · simp [hoff] at hno
      rw [hstep, boundary_next hrew hev (by rw [hf.run, runWord_ok hi, ht]), hquiet]
      exact noted t
    · rw [hstep, boundary_next hrew hev (by rw [hf.run, runWord_ok hi, ht]),
        if_pos ((raisedStream_iff t c2.id c2.group).mpr ⟨hoff, hstream⟩)]
      exact noted _
    · rw [hstep, boundary_fault hrew (by rw [hf.run, runWord_ok hi, ht])]
      rfl
    · rw [hstep, boundary_next hrew hev (by rw [hf.run, runWord_illegal hill]),
        raisedStream_deliver ((hf.group? c2.id).trans hg2)]
      exact noted _
  · intro s id t l q h e rest core s1 w
    refine ⟨fun hsched hst hcore hfatal hfrozen hrun hpage hending hcut => ?_, fun hsched hevent hfatal => ?_⟩
    · obtain ⟨hcur, ht, hl, hq, hid⟩ := hst
      have hstep : step s = s1.sequencerTurn id := by simp only [step, hsched, hcur, State.turn, s1]
      obtain ⟨hok, htrap⟩ := sequencerTurn_runs (s := s1) ht hl hq hcore hid hfatal hfrozen hrun hpage hending hcut
      refine ⟨fun hh => ⟨fun i t1 hi ht1 => ?_, fun hill => ?_⟩, fun x hx => ?_⟩
      · rw [hstep, (hok h hh).1 i hi, ht1, afterStream]
      · rw [hstep, (hok h hh).2 hill]
      · rw [hstep, htrap x hx]
    · have hstep := step_event hsched hevent hfatal
      refine ⟨fun hchunk harrival => ?_, fun k t1 ht1 => ⟨?_, ?_⟩⟩
      · rw [hstep, afterEvent_other hchunk harrival]
      · rintro rfl
        rw [hstep, ht1, afterEvent]
      · rintro rfl
        rw [hstep, ht1, afterEvent]
end

section
/-! What a sampled read leaves behind, and what it reads (spec 03 R78, R82; 04 R95; 12 R261). -/

namespace Sys2Proof.Claims
open Sys2Proof.Machine

/-! Bytes are read from memories, teams and launches. -/

theorem readLoc_congr {s t : State} (hmem : t.mem = s.mem) (hhost : t.hostMem = s.hostMem) (hpeers : t.peers = s.peers)
    (hteams : t.teams = s.teams) (hlaunches : t.launches = s.launches) (loc : Loc) : t.readLoc loc = s.readLoc loc := by
  cases loc <;> simp only [State.readLoc, State.hostRead, State.team?, State.launch?, State.group?, hmem, hhost, hpeers,
    hteams, hlaunches]

theorem read_markEntry_other {m : Memory} (hm : Memory.wf m = true) {e a : Nat} (ha : ¬ (e ≤ a ∧ a < e + 8)) (write : Bool) :
    (markEntry m e write).read a = m.read a :=
  Memory.read_writeLe_other m e a 8 _ hm (by omega)

/-- A search by a field that a map keeps finds the mapped element. -/
theorem find?_map_of_same {α β : Type} [DecidableEq β] {φ : α → β} {f : α → α} (hf : ∀ a, φ (f a) = φ a) (b : β) (xs : List α) :
    (xs.map f).find? (fun a => decide (φ a = b)) = (xs.find? fun a => decide (φ a = b)).map f := by
  rw [List.find?_map]
  congr 2
  funext a
  simp [hf]

/-- Marking an entry changes the bytes of the entry alone. -/
theorem readLoc_markHit {s : State} (hwf : memoriesWf s) (h : Hit) (write : Bool) (loc : Loc) (hloc : ¬ inEntry h loc) :
    (s.markHits [h] write).readLoc loc = s.readLoc loc := by
  obtain ⟨hmem, -, hpeers, -⟩ := hwf
  simp only [State.markHits, List.foldl_cons, List.foldl_nil]
  split
  · rfl
  · next e he =>
    cases loc with
    | phys a => exact read_markEntry_other hmem (by simpa [inEntry, he] using hloc) write
    | _ => rfl
  · next m e he =>
    cases loc with
    | peer m' a =>
      simp only [State.readLoc]
      rw [find?_map_of_same (φ := fun p : Peer => p.mod) (fun p => by split <;> rfl)]
      cases hp : s.peers.find? fun p => decide (p.mod = m') with
      | none => rfl
      | some p =>
        have hmod : p.mod = m' := by simpa using List.find?_some hp
        simp only [Option.map_some]
        split
        · next hm =>
          exact read_markEntry_other (hpeers p (List.mem_of_find?_eq_some hp))
            (fun ha => hloc (by simpa [inEntry, he] using ⟨hm.symm.trans hmod, ha⟩)) write
        · rfl
    | _ => rfl

/-! The cores of a read. -/

theorem cores_mapCore (s : State) (k : Nat) (f : Core → Core) : (s.mapCore k f).cores[k]? = s.cores[k]?.map f := by
  simp only [State.mapCore, List.getElem?_modify_eq]
  cases s.cores[k]? <;> rfl

theorem cores_mapCore_other (s : State) {j k : Nat} (f : Core → Core) (h : j ≠ k) : (s.mapCore k f).cores[j]? = s.cores[j]? := by
  simp [State.mapCore, Ne.symm h]

theorem coresSame_refl (s : State) (k : Nat) : CoresSame s s k := ⟨rfl, fun _ x hx => ⟨x, hx, fun _ => rfl, rfl⟩⟩

theorem coresSame_trans {s t u : State} {k : Nat} (h1 : CoresSame s t k) (h2 : CoresSame t u k) : CoresSame s u k := by
  refine ⟨h2.1.trans h1.1, fun j x hx => ?_⟩
  obtain ⟨y, hy, hne, hl1⟩ := h1.2 j x hx
  obtain ⟨z, hz, hne', hl1'⟩ := h2.2 j y hy
  refine ⟨z, hz, fun hj => (hne' hj).trans (hne hj), ?_⟩
  rw [hl1', hl1]

theorem coresSame_of_eq {s t : State} (k : Nat) (h : t.cores = s.cores) : CoresSame s t k := by
  simpa only [CoresSame, h] using coresSame_refl s k

/-- A change of one core's lines. -/
theorem coresSame_mapCore (s : State) (k : Nat) (f : Core → Core) (hf : ∀ x, f x = { x with l1 := (f x).l1 }) :
    CoresSame s (s.mapCore k f) k := by
  refine ⟨by simp [State.mapCore], fun j x hx => ?_⟩
  by_cases hj : j = k
  · subst hj
    exact ⟨f x, by rw [cores_mapCore, hx]; rfl, fun h => absurd rfl h, hf x⟩
  · exact ⟨x, by rw [cores_mapCore_other s f hj, hx], fun _ => rfl, rfl⟩

theorem coresSame_touchLine (s : State) (core : Nat) (start : Loc) : CoresSame s (s.touchLine core start) core := by
  unfold State.touchLine
  dsimp only
  split
  · exact coresSame_of_eq core rfl
  · exact coresSame_trans (coresSame_mapCore s core (fun c => c.putLine (s.fillLine start)) fun _ => rfl) (coresSame_of_eq core rfl)

theorem touchLine_frame (s : State) (core : Nat) (start : Loc) :
    s.touchLine core start = { s with cores := (s.touchLine core start).cores, free := (s.touchLine core start).free } := by
  unfold State.touchLine
  dsimp only
  split <;> rfl

/-- Touching lines changes the core's lines and uses up free values, and nothing else. -/
theorem touch_frame (s : State) (core : Nat) (locs : List Loc) : CoresSame s (s.touch core locs) core ∧
    s.touch core locs = { s with cores := (s.touch core locs).cores, free := (s.touch core locs).free } := by
  unfold State.touch
  induction (locs.filterMap Loc.line).dedup generalizing s with
  | nil => exact ⟨coresSame_refl s core, rfl⟩
  | cons l ls ih =>
    obtain ⟨hcores, hframe⟩ := ih (s.touchLine core l)
    refine ⟨coresSame_trans (coresSame_touchLine s core l) hcores, ?_⟩
    rw [List.foldl_cons, hframe, touchLine_frame s core l]

theorem touchLine_readLoc (s : State) (core : Nat) (start loc : Loc) : (s.touchLine core start).readLoc loc = s.readLoc loc := by
  rw [touchLine_frame]
  exact readLoc_congr rfl rfl rfl rfl rfl loc

/-! Lines that hold what memory holds. -/

/-- Every line of the core's L1 is as memory holds it now. -/
def LinesFresh (s : State) (core : Nat) : Prop := ∀ x, s.cores[core]? = some x → ∀ n ∈ x.l1, n = s.fillLine n.start

theorem linesFresh_clearL1 (s : State) (core : Nat) : LinesFresh (s.clearL1 core) core := by
  intro x hx n hn
  rw [State.clearL1, cores_mapCore, Option.map_eq_some_iff] at hx
  obtain ⟨y, -, rfl⟩ := hx
  exact absurd hn List.not_mem_nil

theorem fillLine_touchLine (s : State) (core : Nat) (l start : Loc) : (s.touchLine core l).fillLine start = s.fillLine start := by
  simp only [State.fillLine, touchLine_readLoc]

theorem linesFresh_touchLine {s : State} {core : Nat} (h : LinesFresh s core) (l : Loc) : LinesFresh (s.touchLine core l) core := by
  intro x hx n hn
  rw [fillLine_touchLine]
  unfold State.touchLine at hx
  dsimp only at hx
  split at hx
  · exact h x hx n hn
  · rw [cores_mapCore, Option.map_eq_some_iff] at hx
    obtain ⟨y, hy, rfl⟩ := hx
    rcases List.mem_append.mp hn with hn | hn
    · exact h y hy n (List.mem_of_mem_filter hn)
    · rw [List.mem_singleton.mp hn]
      rfl

theorem linesFresh_touch {s : State} {core : Nat} (h : LinesFresh s core) (locs : List Loc) : LinesFresh (s.touch core locs) core := by
  unfold State.touch
  induction (locs.filterMap Loc.line).dedup generalizing s with
  | nil => exact h
  | cons l ls ih => exact ih (linesFresh_touchLine h l)

/-- A byte of a line that is as memory holds it is memory's. -/
theorem byteAt_fillLine (s : State) {loc start : Loc} (h : loc.line = some start) : (s.fillLine start).byteAt loc = s.readLoc loc := by
  cases loc with
  | phys a =>
    cases h
    simp [State.fillLine, L1Line.byteAt, Loc.plus, Nat.mod_lt, Nat.div_add_mod']
  | host f a =>
    cases h
    simp [State.fillLine, L1Line.byteAt, Loc.plus, Nat.mod_lt, Nat.div_add_mod']
  | peer m a =>
    cases h
    simp [State.fillLine, L1Line.byteAt, Loc.plus, Nat.mod_lt, Nat.div_add_mod']
  | _ => simp [Loc.line] at h

theorem served_of_fresh {s : State} {core : Nat} (h : LinesFresh s core) (loc : Loc) : s.served core loc = s.readLoc loc := by
  unfold State.served
  split
  · next n hn =>
    obtain ⟨start, hstart, hn⟩ := Option.bind_eq_some_iff.mp hn
    obtain ⟨x, hx, hline⟩ := Option.bind_eq_some_iff.mp hn
    have hplace : n.start = start := by simpa using List.find?_some hline
    rw [h x hx n (List.mem_of_find?_eq_some hline), hplace]
    exact byteAt_fillLine s hstart
  · rfl

theorem served_of_uncached {loc : Loc} (h : loc.line = none) (s : State) (core : Nat) : s.served core loc = s.readLoc loc := by
  simp [State.served, h]

/-! A sampled read. -/

theorem clearL1_frame (s : State) (core : Nat) : s.clearL1 core = { s with cores := (s.clearL1 core).cores } := rfl

/-- Sampling marks entries, wakes links and moves lines of the core, and nothing else. -/
theorem sample_frame (c : Ctx) (hs : List Hit) (acq : Bool) (locs : List Loc) :
    c.sample hs acq locs = { c.s with
      mem := (c.s.markHits hs false).mem, peers := (c.s.markHits hs false).peers, links := (c.sample hs acq locs).links
      cores := (c.sample hs acq locs).cores, free := (c.sample hs acq locs).free } := by
  unfold Ctx.sample
  dsimp only
  split
  · rw [(touch_frame _ c.core locs).2, clearL1_frame, trafficTo_frame, markHits_frame]
  · rw [(touch_frame _ c.core locs).2, trafficTo_frame, markHits_frame]

theorem sample_teams (c : Ctx) (hs : List Hit) (acq : Bool) (locs : List Loc) : (c.sample hs acq locs).teams = c.s.teams := by
  rw [sample_frame]

theorem sample_cores (c : Ctx) (hs : List Hit) (acq : Bool) (locs : List Loc) : CoresSame c.s (c.sample hs acq locs) c.core := by
  have hmarked : CoresSame c.s ((c.s.markHits hs false).trafficTo c.die hs) c.core :=
    coresSame_of_eq c.core (by rw [trafficTo_frame, markHits_frame])
  unfold Ctx.sample
  dsimp only
  refine coresSame_trans hmarked ?_
  split
  · exact coresSame_trans (coresSame_mapCore _ c.core (fun x => { x with l1 := [] }) fun _ => rfl) (touch_frame _ c.core locs).1
  · exact (touch_frame _ c.core locs).1

theorem sample_links (c : Ctx) (h : Hit) (acq : Bool) (locs : List Loc) (hd : h.dest = none) :
    (c.sample [h] acq locs).links = c.s.links := by
  have hmarked : ((c.s.markHits [h] false).trafficTo c.die [h]).links = c.s.links := by
    simp only [State.trafficTo, List.filterMap_cons, hd, List.filterMap_nil, List.dedup_nil, List.foldl_nil]
    rw [markHits_frame]
  unfold Ctx.sample
  dsimp only
  split <;> rw [(touch_frame _ c.core locs).2] <;> exact hmarked

theorem sample_readLoc (c : Ctx) (hs : List Hit) (acq : Bool) (locs : List Loc) (loc : Loc) :
    (c.sample hs acq locs).readLoc loc = (c.s.markHits hs false).readLoc loc := by
  rw [sample_frame, markHits_frame]
  exact readLoc_congr rfl rfl rfl rfl rfl loc

/-- A read that lets no older line serve it reads memory: an acquire that clears the L1, or bytes that no L1 holds. -/
theorem sample_served (c : Ctx) (hs : List Hit) (acq : Bool) (locs : List Loc) (loc : Loc)
    (h : acq = true ∨ loc.line = none) :
    (c.sample hs acq locs).served c.core loc = (c.s.markHits hs false).readLoc loc := by
  rw [← sample_readLoc c hs acq locs]
  rcases h with rfl | h
  · exact served_of_fresh (linesFresh_touch (linesFresh_clearL1 _ c.core) locs) loc
  · exact served_of_uncached h _ _

/-- The bytes from a location, by name. -/
theorem bytesOf_spans (l : Loc) (n : Nat) : bytesOf l n = spans l n := by
  unfold bytesOf spans
  refine List.map_congr_left fun i _ => ?_
  cases l <;> rfl

/-- The number that such a read gives. -/
theorem sample_servedLoc (c : Ctx) (hs : List Hit) (acq : Bool) (locs : List Loc) (l : Loc) (n : Nat)
    (h : acq = true ∨ ∀ i, (l.plus i).line = none) :
    (c.sample hs acq locs).servedLoc c.core l n = leNat ((spans l n).map (c.s.markHits hs false).readLoc) := by
  rw [← bytesOf_spans, State.servedLoc, bytesOf, List.map_map]
  congr 1
  refine List.map_congr_left fun i _ => sample_served c hs acq locs _ ?_
  exact h.imp id fun h => h i

/-- What a sampled read leaves, whatever else is done to cores: the group replaced keeps its registers. -/
theorem sampled_setGroup {s : State} {c : Ctx} (hs : c.s = s) {t : Team} (ht : s.team? c.id.team = some t)
    (hg : s.group? c.id = some c.group)
    {g' : Group} (hv : g'.vregs = c.group.vregs) (h : Hit) (acq : Bool) (locs : List Loc) (cores : List Core) :
    Sampled s { (c.sample [h] acq locs).setGroup c.id g' with cores := cores } (s.setGroup c.id g') [h] := by
  subst hs
  refine ⟨?_, fun hd => ?_, fun hwf loc _ hentry => ?_⟩
  · rw [sample_frame]
    rfl
  · exact sample_links c h acq locs (hd h (List.mem_singleton_self h))
  · have hteams := sample_teams c [h] acq locs
    have ht' : (c.sample [h] acq locs).team? c.id.team = some t := by rw [State.team?, hteams]; exact ht
    calc _ = ((c.sample [h] acq locs).setGroup c.id g').readLoc loc := readLoc_congr rfl rfl rfl rfl rfl loc
      _ = (c.sample [h] acq locs).readLoc loc :=
          readLoc_setGroup_sameRegs ht' ((group?_congr hteams c.id).trans hg) hv loc
      _ = (c.s.markHits [h] false).readLoc loc := sample_readLoc c [h] acq locs loc
      _ = c.s.readLoc loc := readLoc_markHit hwf h false loc (hentry h (List.mem_singleton_self h))

end Sys2Proof.Claims
end

section
/-! The instructions that ask an engine, wait for a flag or a batch, or hint (spec 12 R243, R260, R262, R263; 09 R203; 10 R223). -/

namespace Sys2Proof.Claims
open Sys2Proof.Machine

theorem check_ok {α : Type} (c : Ctx) (i : Instr) {x : Chk α} {a : α} (h : x = .ok a) (k : α → Res) : c.check i x k = k a := by
  simp [Ctx.check, h]

theorem met_source {c : Ctx} {a : BitVec 8} (ha : srcS c a = true) : ∀ n ∈ [Need.srcS 1 .epa a], n.met c = true := by
  rw [List.forall_mem_singleton]
  exact met_srcS ha 1 .epa

/-! Copies. -/

/-- A copy of nothing is done at once. -/
theorem copyIssue_zero {s : State} {c : Ctx} (hs : c.s = s) (i : Instr) (d a b : BitVec 8) (ch : Nat) (always : Bool)
    (rights : List Right) (hn : (c.readS (b + 1)).toNat = 0) : Scalar s c (copyIssue i d a b ch always rights c) d 0 := by
  rw [copyIssue]
  simp only [hn, if_true]
  exact finishS_scalar hs d 0

/-- A copy whose checks pass and whose channel is not lost is queued, its status pending. -/
theorem copyIssue_queued {c : Ctx} (i : Instr) (d a b : BitVec 8) (ch : Nat) (always : Bool) (rights : List Right)
    (hpos : 0 < (c.readS (b + 1)).toNat) (hmax : (c.readS (b + 1)).toNat ≤ 2 ^ 32)
    (hcheck : checkCopy c.launch (!always) (c.readS b) (c.readS a) (c.readS (b + 1)).toNat rights = .ok ())
    (hlost : c.team.lost.getLsbD ch = false) :
    copyIssue i d a b ch always rights c = .next { c.s.setGroup c.id (c.group.pendS d c.s.nextId).advance with
      nextId := c.s.nextId + 1
      copies := c.s.copies ++ [c.s.newCopy c.launch c.die c.id ch always none none (c.readS b) (c.readS a)
        (c.readS (b + 1)).toNat (c.readS (b + 1)).toNat (c.team.chans.getD ch Channel.empty).joins] } := by
  have hchan : c.lostCheck ch = .ok () := by simp [Ctx.lostCheck, hlost]
  rw [copyIssue]
  simp only [hchan, ite_self]
  rw [if_neg (by omega), if_neg (by omega), hcheck]
  rfl

/-- The command that a copy queues. -/
theorem newCopy_eq (s : State) (l : Launch) (die : Nat) (g : GroupId) (ch : Nat) (always : Bool) (src dst : W64) (joins : List Nat)
    {n : Nat} (hn : 0 < n) : s.newCopy l die g ch always none none src dst n n joins =
      ⟨s.nextId, g, ch, always, none, none, src, dst, n, 0,
        firstCode [s.windowCode l g.team die (ptrSeg src) (ptrOff src) n, s.windowCode l g.team die (ptrSeg dst) (ptrOff dst) n], false,
        (s.windowOf l g.team die (ptrSeg src) (ptrOff src) n).bind Window.place?,
        (s.windowOf l g.team die (ptrSeg dst) (ptrOff dst) n).bind Window.place?, none, joins, []⟩ := by
  simp only [State.newCopy, if_neg (Nat.ne_of_gt hn)]

/-! WAITA. -/

/-- A scalar check that passes names a location, of a segment that a scalar access may name. -/
theorem checkScalar_ok {s : State} {l : Launch} {t : TeamId} {die : Nat} {p : W64} {o : Int} {n : Nat} {rights : List Right}
    {write : Bool} {h : Hit} (hc : s.checkScalar l t die p o n rights write = .ok h) : ∃ v, l.seg? (ptrSeg p) = some v ∧
      v.space ≠ .priv ∧ v.space ≠ .window ∧ s.translate l t die v o.toNat write = .ok h := by
  unfold State.checkScalar checkSeg at hc
  split at hc
  · simp [Chk.andThen] at hc
  · next v hv =>
    refine ⟨v, hv, ?_⟩
    split at hc
    · simp [Chk.andThen] at hc
    · next hspace =>
      split at hc
      · simp [Chk.andThen] at hc
      · simp only [Chk.andThen] at hc
        split at hc
        · simp at hc
        · split at hc
          · simp at hc
          · split at hc
            · next htr =>
              cases hc
              simp only [Bool.or_eq_true, decide_eq_true_eq, Bool.and_eq_true, Bool.not_false, and_true, not_or] at hspace
              exact ⟨hspace.2, hspace.1, htr⟩
            · simp at hc
            · simp at hc
            · simp at hc

/-- The flag of a WAITA is read past the L1, or from the scratchpad, which no L1 holds. -/
theorem acquire_or_uncached {c : Ctx} {p : W64} {n : Nat} {h : Hit}
    (hc : c.s.checkScalar c.launch c.id.team c.die p (ptrOff p) n [.pr] false = .ok h) :
    acqWide 6 1 (c.launch.spaceOf p) = true ∨ ∀ i, (h.loc.plus i).line = none := by
  obtain ⟨v, hv, hpriv, -, htr⟩ := checkScalar_ok hc
  have hspace : c.launch.spaceOf p = v.space := by simp [Launch.spaceOf, hv]
  by_cases hscratch : v.space = .scratch
  · right
    simp only [State.translate, hscratch] at htr
    cases htr
    exact fun _ => rfl
  · left
    simp [acqWide, isAcquire, hspace, hscratch, hpriv]

/-- WAITA once its fields are met and its address checked: the flag is compared. -/
theorem waita_reads {s : State} {c : Ctx} {d a b : BitVec 8} {h : Hit} (hi : Issuing s c) (ho : outside c = true)
    (hd : dstS c d = true) (ha : srcS c a = true) (hb : srcS c b = true) (hacc : mayAccess s c)
    (hc : c.s.checkScalar c.launch c.id.team c.die (c.readS a) (ptrOff (c.readS a)) 8 [.pr] false = .ok h)
    (hheld : c.s.loadHeld c.id (spans h.loc 8) = false) :
    ∃ acq, exec (.waita d a b) s =
      let m := BitVec.ofNat 64 (leNat ((spans h.loc 8).map (c.s.markHits [h] false).readLoc))
      let s1 := c.sample [h] acq (spans h.loc 8)
      if reached64 m (c.readS b) then .next (s1.setGroup c.id (c.group.resultS d m))
      else if c.launch.dieLost then c.fault (.waita d a b) .barrierLost
      else .next ((s1.setGroup c.id { c.group with run := .parked (c.readS a) (c.readS b) c.s.clock.gtime }).mapCore c.core
        (Core.park c.id c.s.clock.tick)) := by
  refine ⟨acqWide 6 1 (c.launch.spaceOf (c.readS a)), ?_⟩
  have hm := sample_servedLoc c [h] _ (spans h.loc 8) h.loc 8 (acquire_or_uncached hc)
  show execWaita d a b s = _
  rw [execWaita, issue_of_met _ _ _ hi ho (by
    rw [List.forall_mem_cons, List.forall_mem_cons, List.forall_mem_cons, List.forall_mem_singleton]
    exact ⟨met_dstS hd 0, met_srcS ha 1 .epa, met_srcS hb 2 .epb, met_access hi.state hacc⟩)]
  simp only [check_ok c _ hc, bytesOf_spans, hheld, Bool.false_eq_true, if_false, hm]

theorem park_core (g : GroupId) (now : Nat) (x : Core) : x.park g now = { x with
    active := x.active.filter (fun e => decide (e.group ≠ g))
    pending := x.pending ++ (x.active.filter fun e => decide (e.group = g)).map
      (fun e => { e with since := now, starved := false, kept := false }) } := rfl

/-! LWAKE and MHINT. -/

theorem copySeg_eq (l : Launch) (p : W64) : l.copySeg? false p =
    (l.seg? (ptrSeg p)).filter fun v => decide (v.space ≠ .priv ∧ v.space ≠ .window) := by
  unfold Launch.copySeg?
  cases l.seg? (ptrSeg p) with
  | none => rfl
  | some v => cases hs : v.space <;> simp [Option.filter, hs]

/-- A segment that a read through a bounded pointer may name. -/
def Readable (c : Ctx) (p : W64) (v : SegView) : Prop :=
  c.launch.seg? (ptrSeg p) = some v ∧ v.space ≠ .priv ∧ v.space ≠ .window ∧ Right.pr ∈ v.rights

theorem hintDest_remote {c : Ctx} {p : W64} {v : SegView} {h : Hit} (hr : Readable c p v) (hlim : ptrOff p < v.limit)
    (htr : c.s.translate c.launch c.id.team c.die v (ptrOff p) false = .ok h) (hhome : h.home ≠ .die c.die) :
    c.hintDest p = some h.home := by
  obtain ⟨hseg, hpriv, hwin, hright⟩ := hr
  simp [Ctx.hintDest, copySeg_eq, hseg, Option.filter, hpriv, hwin, Nat.not_le.mpr hlim, hright, htr, hhome]

theorem hintDest_none {c : Ctx} {p : W64} {v : SegView} (h : c.launch.seg? (ptrSeg p) = none ∨
    (c.launch.seg? (ptrSeg p) = some v ∧ (v.space = .priv ∨ v.space = .window ∨ Right.pr ∉ v.rights ∨ v.limit ≤ ptrOff p))) :
    c.hintDest p = none := by
  rcases h with hseg | ⟨hseg, hbad⟩
  · simp [Ctx.hintDest, copySeg_eq, hseg]
  · by_cases hspace : v.space ≠ .priv ∧ v.space ≠ .window
    · have hbad' : v.limit ≤ ptrOff p ∨ Right.pr ∉ v.rights := by
        rcases hbad with h | h | h | h
        · exact absurd h hspace.1
        · exact absurd h hspace.2
        · exact .inr h
        · exact .inl h
      simp [Ctx.hintDest, copySeg_eq, hseg, Option.filter, hspace, hbad']
    · simp only [Ctx.hintDest, copySeg_eq, hseg, Option.filter, hspace, decide_false, Bool.false_eq_true, if_false]

/-- What the words of a hint ask of it: no reserved bit, a known class, and a range inside a tiered segment. -/
def HintNamed (p w : W64) (v : SegView) : Prop :=
  w.toNat / 2 ^ 52 = 0 ∧ w.toNat / 2 ^ 48 % 16 < 4 ∧ v.tiered = true ∧ ptrOff p + w.toNat % 2 ^ 48 ≤ v.limit

/-- The first byte that a range has in the `k`th of its 64 KiB pages lies in the range. -/
theorem pageStart_in_range {o len k : Nat} (hlen : len ≠ 0) (hk : k < (o + len - 1) / 0x10000 - o / 0x10000 + 1) :
    o ≤ max o ((o / 0x10000 + k) * 0x10000) ∧ max o ((o / 0x10000 + k) * 0x10000) < o + len := by
  have hmono : o / 0x10000 ≤ (o + len - 1) / 0x10000 := Nat.div_le_div_right (by omega)
  have hpage : (o / 0x10000 + k) * 0x10000 ≤ (o + len - 1) / 0x10000 * 0x10000 := Nat.mul_le_mul_right _ (by omega)
  have hlast := Nat.div_mul_le_self (o + len - 1) 0x10000
  omega

theorem hintValid_of_mapped {c : Ctx} {p w : W64} {v : SegView} (hr : Readable c p v) (hn : HintNamed p w v)
    (hmap : ∀ x, ptrOff p ≤ x → x < ptrOff p + w.toNat % 2 ^ 48 →
      ∃ y, c.s.translate c.launch c.id.team c.die v x false = .ok y) : c.hintValid p w = true := by
  obtain ⟨hseg, hpriv, hwin, hright⟩ := hr
  obtain ⟨hres, hclass, htier, hlim⟩ := hn
  have hpages : (decide (w.toNat % 2 ^ 48 = 0) ||
      (List.range ((ptrOff p + w.toNat % 2 ^ 48 - 1) / 0x10000 - ptrOff p / 0x10000 + 1)).all fun k =>
        match c.s.translate c.launch c.id.team c.die v (max (ptrOff p) ((ptrOff p / 0x10000 + k) * 0x10000)) false with
        | .ok _ => true
        | _ => false) = true := by
    by_cases hlen : w.toNat % 2 ^ 48 = 0
    · rw [decide_eq_true hlen, Bool.true_or]
    · simp only [hlen, decide_false, Bool.false_or, List.all_eq_true, List.mem_range]
      intro k hk
      obtain ⟨hlo, hhi⟩ := pageStart_in_range hlen hk
      obtain ⟨y, hy⟩ := hmap _ hlo hhi
      rw [hy]
  unfold Ctx.hintValid
  simp only [copySeg_eq, hseg, Option.filter, hpriv, hwin, ne_eq, not_false_eq_true, and_self, decide_true, if_true, hres, hclass,
    htier, hlim, List.contains_iff_mem.mpr hright, Bool.true_and]
  exact hpages

theorem hintValid_void {c : Ctx} {p w : W64} {v : SegView} (hseg : c.launch.seg? (ptrSeg p) = some v)
    (h : ¬ (Readable c p v ∧ HintNamed p w v)) : c.hintValid p w = false := by
  rw [← Bool.not_eq_true]
  intro hvalid
  refine h ?_
  unfold Ctx.hintValid at hvalid
  simp only [copySeg_eq, hseg, Option.filter, Bool.and_eq_true, decide_eq_true_eq] at hvalid
  obtain ⟨⟨hres, hclass⟩, hvalid⟩ := hvalid
  split at hvalid
  · next u hu =>
    split at hu
    · next hspace =>
      cases hu
      simp only [Bool.and_eq_true, decide_eq_true_eq, List.contains_iff_mem] at hvalid hspace
      obtain ⟨⟨⟨htier, hright⟩, hlim⟩, -⟩ := hvalid
      exact ⟨⟨hseg, hspace.1, hspace.2, hright⟩, hres, hclass, htier, hlim⟩
    · simp at hu
  · simp at hvalid

theorem exec_lwake {s : State} {c : Ctx} {a : BitVec 8} (hi : Issuing s c) (ho : outside c = true) (ha : srcS c a = true) :
    exec (.lwake a) s = match c.hintDest (c.readS a) with
      | some d => .next { s.setGroup c.id c.group.advance with
          links := s.links.zipIdx.map fun x => if x.1.up && Config.onPath c.die d.code x.2 then
            { x.1 with state := .full, holdUntil := s.clock.gtime + 20000 } else x.1 }
      | none => .next (c.put c.group.advance) := by
  have hs := hi.state
  subst hs
  show execLwake a c.s = _
  rw [execLwake, issue_of_met _ _ _ hi ho (met_source ha)]
  cases c.hintDest (c.readS a) <;> rfl

theorem exec_mhint {s : State} {c : Ctx} {a b : BitVec 8} (hi : Issuing s c) (ho : outside c = true) (ha : srcS c a = true)
    (hb : srcS c b = true) : exec (.mhint a b) s =
      .next (if c.hintValid (c.readS a) (c.readS b) then
        { s.setGroup c.id c.group.advance with hints := s.hints ++ [(c.readS a, c.readS b)] } else c.put c.group.advance) := by
  have hs := hi.state
  subst hs
  show execMhint a b c.s = _
  rw [execMhint, issue_of_met _ _ _ hi ho (by
    rw [List.forall_mem_cons, List.forall_mem_singleton]
    exact ⟨met_srcS ha 1 .epa, met_srcS hb 2 .epb⟩)]
  rfl

/-! MWAIT. -/

theorem exec_mwait {s : State} {c : Ctx} {a : BitVec 8} {q : Sequencer} (hi : Issuing s c) (ho : outside c = true)
    (ha : srcS c a = true) (hq : c.team.seq = some q) : exec (.mwait a) s =
      let n : W32 := (c.readS a).truncate 32
      if decide (q.sqstate = .stopped) && !reached32 q.doneb n then .next (c.put { c.group with evStream := true, stall := .mwait })
      else if reached32 q.doneb n || decide (q.sqstate = .ended) then
        .next (s.setTeam ((c.team.setGroup c.id.group c.group.advance).passMwait c.id.group n))
      else c.held .mwait := by
  have hs := hi.state
  subst hs
  show execMwait a c.s = _
  rw [execMwait, issue_of_met _ _ _ hi ho (met_source ha)]
  simp only [hq]

/-- The group once it has passed the MWAIT of batch `n`. -/
def mwaitPassed (g : Group) (n : W32) : Group := { g.advance with mwaited := if reached32 n g.mwaited then n else g.mwaited }

/-- What passing an MWAIT forgets: the MMAs that every group has passed, and reads and stores. -/
theorem passMwait_eq {t : Team} {q : Sequencer} (hq : t.seq = some q) (i : Nat) (g : Group) (n : W32) : ∃ q' : Sequencer,
    (t.setGroup i g.advance).passMwait i n = { t with groups := t.groups.set i (mwaitPassed g n), seq := some q' } ∧
    q' = { q with live := q'.live, outs := q'.outs } ∧
    (∀ x, x ∈ q'.live ↔ x ∈ q.live ∧ ∃ y ∈ t.groups.set i (mwaitPassed g n), 2 ^ 31 ≤ (y.mwaited - x.batch).toNat) ∧
    (∀ x ∈ q'.outs, x ∈ q.outs) := by
  have hgroups : (t.groups.set i g.advance).modify i (fun g => { g with mwaited := if reached32 n g.mwaited then n else g.mwaited }) =
      t.groups.set i (mwaitPassed g n) := by
    refine List.ext_getElem? fun j => ?_
    rw [List.getElem?_modify]
    by_cases hj : i = j
    · subst hj
      simp only [if_true, List.getElem?_set_self', mwaitPassed]
      cases t.groups[i]? <;> simp
    · simp [hj]
  have hseq : (t.setGroup i g.advance).seq = some q := hq
  refine ⟨((t.setGroup i g.advance).passMwait i n).seq.getD q, ?_, ?_, fun x => ?_, fun x hx => ?_⟩
  · simp [Team.passMwait, Team.setGroup, hq, hgroups]
  · simp only [Team.passMwait, hseq, Option.map_some, Option.getD_some]
  · have hlive : (((t.setGroup i g.advance).passMwait i n).seq.getD q).live =
        q.live.filter fun m => !(t.groups.set i (mwaitPassed g n)).all fun y => reached32 y.mwaited m.batch := by
      rw [← hgroups]
      simp only [Team.passMwait, hseq, Option.map_some, Option.getD_some]
      rfl
    simp only [hlive, List.mem_filter, reached32, Bool.not_eq_true', List.all_eq_false, decide_eq_true_eq, Nat.not_lt]
  · simp only [Team.passMwait, hseq, Option.map_some, Option.getD_some, List.mem_filter] at hx
    exact hx.1

/-- A copy, from its checks to its command. -/
theorem copyIssue_copied {s : State} {c : Ctx} (hs : c.s = s) (i : Instr) (d a b : BitVec 8) (ch : Nat) (always : Bool) :
    let n := (c.readS (b + 1)).toNat
    let r := copyIssue i d a b ch always (if always then [.pm, .pw] else [.pw]) c
    (n = 0 → Scalar s c r d 0) ∧
    (0 < n → n ≤ 2 ^ 32 →
      checkCopy c.launch (!always) (c.readS b) (c.readS a) n (if always then [.pm, .pw] else [.pw]) = .ok () →
      c.team.lost.getLsbD ch = false →
      ∃ g', ScalarPending d s.nextId c.group g' ∧ r = .next { s.setGroup c.id g' with
        nextId := s.nextId + 1
        copies := s.copies ++ [⟨s.nextId, c.id, ch, always, none, none, c.readS b, c.readS a, n, 0,
          firstCode [s.windowCode c.launch c.id.team c.die (ptrSeg (c.readS b)) (ptrOff (c.readS b)) n,
            s.windowCode c.launch c.id.team c.die (ptrSeg (c.readS a)) (ptrOff (c.readS a)) n], false,
          (s.windowOf c.launch c.id.team c.die (ptrSeg (c.readS b)) (ptrOff (c.readS b)) n).bind Window.place?,
          (s.windowOf c.launch c.id.team c.die (ptrSeg (c.readS a)) (ptrOff (c.readS a)) n).bind Window.place?, none,
          (c.team.chans.getD ch Channel.empty).joins, []⟩] }) := by
  subst hs
  refine ⟨copyIssue_zero rfl i d a b ch always _, fun hpos hmax hcheck hlost => ⟨_, pendS_pending c.group d c.s.nextId, ?_⟩⟩
  rw [← newCopy_eq c.s c.launch c.die c.id ch always (c.readS b) (c.readS a) _ hpos]
  exact copyIssue_queued i d a b ch always _ hpos hmax hcheck hlost

/-- WAITA whose condition holds takes the value. -/
theorem waita_met {s : State} {c : Ctx} {d a b : BitVec 8} {h : Hit} (hi : Issuing s c) (ho : outside c = true)
    (hd : dstS c d = true) (ha : srcS c a = true) (hb : srcS c b = true) (hacc : mayAccess s c)
    (hc : s.checkScalar c.launch c.id.team c.die (c.readS a) (ptrOff (c.readS a)) 8 [.pr] false = .ok h)
    (hheld : s.loadHeld c.id (spans h.loc 8) = false) :
    let m : W64 := BitVec.ofNat 64 (leNat ((spans h.loc 8).map (s.markHits [h] false).readLoc))
    ((m - c.readS b).toNat < 2 ^ 63 → ∃ g' t, ScalarResult d m c.group g' ∧ exec (.waita d a b) s = .next t ∧
      Sampled s t (s.setGroup c.id g') [h] ∧ CoresSame s t c.core) ∧
    (2 ^ 63 ≤ (m - c.readS b).toNat → c.launch.dieLost = false → ∃ t, exec (.waita d a b) s = .next t ∧
      Sampled s t (s.setGroup c.id { c.group with run := .parked (c.readS a) (c.readS b) s.clock.gtime }) [h] ∧
      ∀ (k : Nat) (x : Core), s.cores[k]? = some x → ∃ y : Core, t.cores[k]? = some y ∧ (k ≠ c.core → y = x) ∧
        (k = c.core → y = { x with
          l1 := y.l1
          active := x.active.filter (fun e => decide (e.group ≠ c.id))
          pending := x.pending ++ (x.active.filter fun e => decide (e.group = c.id)).map
            (fun e => { e with since := s.clock.tick, starved := false, kept := false }) })) ∧
    (2 ^ 63 ≤ (m - c.readS b).toNat → c.launch.dieLost = true → exec (.waita d a b) s =
      .next (s.deliver c.id .barrierLost false (wordOf (.waita d a b)))) := by
  intro m
  obtain ⟨-, -, ht, -, hg, -⟩ := s.ctx?_spec c.id c hi.2
  have hs := hi.state
  subst hs
  obtain ⟨acq, hexec⟩ := waita_reads hi ho hd ha hb hacc hc hheld
  have hcores := sample_cores c [h] acq (spans h.loc 8)
  have hunmet (hm : 2 ^ 63 ≤ (m - c.readS b).toNat) : ¬ reached64 m (c.readS b) = true := by
    rw [reached64, decide_eq_true_eq, Nat.not_lt]
    exact hm
  refine ⟨fun hm => ?_, fun hm hlost => ?_, fun hm hlost => ?_⟩
  · refine ⟨c.group.resultS d m, _, resultS_result c.group d m, ?_,
      sampled_setGroup rfl ht hg (by simp [Group.resultS]) h acq (spans h.loc 8) _, hcores⟩
    rw [hexec]
    exact if_pos (decide_eq_true hm)
  · have hsampled := sampled_setGroup (g' := { c.group with run := .parked (c.readS a) (c.readS b) c.s.clock.gtime }) rfl ht hg rfl
      h acq (spans h.loc 8) ((c.sample [h] acq (spans h.loc 8)).mapCore c.core (Core.park c.id c.s.clock.tick)).cores
    refine ⟨_, ?_, hsampled, fun k x hx => ?_⟩
    · rw [hexec]
      exact (if_neg (hunmet hm)).trans (if_neg (by rw [hlost]; exact Bool.false_ne_true))
    · obtain ⟨y, hy, hother, hl1⟩ := hcores.2 k x hx
      by_cases hk : k = c.core
      · subst hk
        exact ⟨y.park c.id c.s.clock.tick, by rw [cores_mapCore, hy]; rfl, fun h => absurd rfl h, fun _ => by rw [park_core, hl1]⟩
      · exact ⟨y, by rw [cores_mapCore_other _ _ hk, hy], hother, fun h => absurd h hk⟩
  · rw [hexec]
    exact (if_neg (hunmet hm)).trans (if_pos hlost)

/-- MWAIT whose batch is done, or whose stream has ended, passes. -/
theorem mwait_goes {s : State} {c : Ctx} {a : BitVec 8} {q : Sequencer} (hi : Issuing s c) (ho : outside c = true)
    (ha : srcS c a = true) (hq : c.team.seq = some q)
    (h : (q.doneb - (c.readS a).truncate 32).toNat < 2 ^ 31 ∨ q.sqstate = .ended) : exec (.mwait a) s =
      .next (s.setTeam ((c.team.setGroup c.id.group c.group.advance).passMwait c.id.group ((c.readS a).truncate 32))) := by
  have hstopped : (decide (q.sqstate = .stopped) && !reached32 q.doneb ((c.readS a).truncate 32)) = false := by
    rcases h with h | h
    · rw [reached32, decide_eq_true h, Bool.not_true, Bool.and_false]
    · simp [h]
  have hgoes : (reached32 q.doneb ((c.readS a).truncate 32) || decide (q.sqstate = .ended)) = true := by
    rw [reached32, Bool.or_eq_true, decide_eq_true_eq, decide_eq_true_eq]
    exact h
  rw [exec_mwait hi ho ha hq]
  exact (if_neg (by rw [hstopped]; exact Bool.false_ne_true)).trans (if_pos hgoes)

/-- MWAIT of a batch that a running stream has still to do waits. -/
theorem mwait_waits {s : State} {c : Ctx} {a : BitVec 8} {q : Sequencer} (hi : Issuing s c) (ho : outside c = true)
    (ha : srcS c a = true) (hq : c.team.seq = some q) (hstop : q.sqstate ≠ .stopped) (hend : q.sqstate ≠ .ended)
    (h : 2 ^ 31 ≤ (q.doneb - (c.readS a).truncate 32).toNat) : Waits s c (exec (.mwait a) s) .mwait := by
  have hnot : reached32 q.doneb ((c.readS a).truncate 32) = false := by
    rw [reached32, decide_eq_false_iff_not, Nat.not_lt]
    exact h
  rw [exec_mwait hi ho ha hq, Waits]
  simp only [hnot, hstop, hend, decide_false, Bool.false_and, Bool.or_self, Bool.false_eq_true, if_false, Ctx.held, hi.state]

/-- MWAIT that finds its stream stopped makes STREAM pending. -/
theorem mwait_stopped {s : State} {c : Ctx} {a : BitVec 8} {q : Sequencer} (hi : Issuing s c) (ho : outside c = true)
    (ha : srcS c a = true) (hq : c.team.seq = some q) (hstop : q.sqstate = .stopped)
    (h : 2 ^ 31 ≤ (q.doneb - (c.readS a).truncate 32).toNat) :
    exec (.mwait a) s = .next (s.setGroup c.id { c.group with evStream := true, stall := .mwait }) := by
  have hnot : reached32 q.doneb ((c.readS a).truncate 32) = false := by
    rw [reached32, decide_eq_false_iff_not, Nat.not_lt]
    exact h
  rw [exec_mwait hi ho ha hq]
  simp only [hnot, hstop, decide_true, Bool.true_and, Bool.not_false, if_true, Ctx.put, hi.state]

/-- A group that has passed an MWAIT differs in its place in the program and in the batch that it has waited for. -/
theorem mwaitPassed_goneOn (g : Group) (n : W32) : mwaitPassed g n = { goneOn g (mwaitPassed g n) with
    mwaited := if (n - g.mwaited).toNat < 2 ^ 31 then n else g.mwaited } := by
  have hgone := advance_goneOn g
  unfold mwaitPassed reached32
  rw [hgone]
  simp only [goneOn, decide_eq_true_eq]

end Sys2Proof.Claims

open Sys2Proof Sys2Proof.Machine Sys2Proof.Claims

/-- Settles O29, an instruction at a time. -/
theorem engineInstructions : Obligations.EngineInstructions := by
  intro s c ch d a b h q v hi ho ha n place code copy copied p m readable
  have hs := hi.state
  refine ⟨fun hd hb hacc hrel => ?_, fun hb hacc hrel => ?_, fun hd hb hacc hc hheld => ?_, fun hr hlim htr hhome => ?_,
    fun hbad => ?_, fun hb => ⟨fun hr hn hmap => ?_, fun hseg hvoid => ?_⟩,
    fun hq => ⟨fun hdone => ?_, fun hrun hk => ?_, fun hstop hk => ?_⟩⟩
  · have hexec : exec (.copy d a b) s = copyIssue (.copy d a b) d a b 0 false [.pw] c :=
      issue_of_met _ _ _ hi ho (by
        rw [List.forall_mem_cons, List.forall_mem_cons, List.forall_mem_cons, List.forall_mem_cons, List.forall_mem_singleton]
        exact ⟨met_dstS hd 0, met_srcS ha 1 .epa, met_pairS hb, met_access hs hacc, met_released hs hrel⟩)
    rw [hexec]
    exact copyIssue_copied hs _ d a b 0 false
  · have hexec : exec (.ccopy ch a b) s = copyIssue (.ccopy ch a b) 0xFF a b ch.toNat true [.pm, .pw] c :=
      issue_of_met _ _ _ hi ho (by
        rw [List.forall_mem_cons, List.forall_mem_cons, List.forall_mem_cons, List.forall_mem_singleton]
        exact ⟨met_srcS ha 1 .epa, met_pairS hb, met_access hs hacc, met_released hs hrel⟩)
    rw [hexec]
    exact copyIssue_copied hs _ 0xFF a b ch.toNat true
  · exact waita_met hi ho hd ha hb hacc hc hheld
  · refine ⟨c.group.advance, advance_passed _, advance_goneOn _, ?_⟩
    rw [exec_lwake hi ho ha, hintDest_remote hr hlim (by rw [hs]; exact htr) hhome]
    simp only [Bool.and_eq_true]
  · rw [exec_lwake hi ho ha, hintDest_none hbad]
    exact put_advance_nothing hs
  · refine ⟨c.group.advance, advance_passed _, advance_goneOn _, ?_⟩
    rw [exec_mhint hi ho ha hb, hintValid_of_mapped hr hn (by rw [hs]; exact hmap), if_pos rfl]
  · rw [exec_mhint hi ho ha hb, hintValid_void hseg hvoid]
    exact put_advance_nothing hs
  · obtain ⟨q', hteam, hq', hlive, houts⟩ := passMwait_eq hq c.id.group c.group (p.truncate 32)
    refine ⟨mwaitPassed c.group (p.truncate 32), _, q', advance_passed c.group, mwaitPassed_goneOn _ _, rfl, hq', hlive, houts, ?_⟩
    rw [← hteam]
    exact mwait_goes hi ho ha hq hdone
  · exact mwait_waits hi ho ha hq (by rcases hrun with h | h <;> simp [h]) (by rcases hrun with h | h <;> simp [h]) hk
  · exact mwait_stopped hi ho ha hq hstop hk
end

section
/-! The order of waiting launches and the choice of a core (spec 01 R26-R31). -/

namespace Sys2Proof.Claims
open Sys2Proof.Machine

/-! The order of R31. -/

theorem putInOrder_eq {α : Type} (le : α → α → Bool) (x : α) (ys : List α) :
    putInOrder le x ys = ys.orderedInsert (fun a b => le a b = true) x := by
  induction ys with
  | nil => rfl
  | cons y ys ih => simp only [putInOrder, List.orderedInsert_cons, ih]

theorem inOrder_eq {α : Type} (le : α → α → Bool) (xs : List α) : inOrder le xs = xs.insertionSort (fun a b => le a b = true) := by
  induction xs with
  | nil => rfl
  | cons x xs ih => rw [List.insertionSort_cons, ← ih, ← putInOrder_eq]; rfl

/-- `a` comes before `b`: restores with precedence, then the higher level, then the order in which they were read. -/
theorem before_iff (s : State) (a b : Launch) : s.before a b = true ↔ (s.precedence a = true ∧ s.precedence b = false) ∨
    (s.precedence a = s.precedence b ∧ (b.prio < a.prio ∨ (a.prio = b.prio ∧ a.seq ≤ b.seq))) := by
  unfold State.before
  by_cases hp : s.precedence a = s.precedence b
  · by_cases hl : a.prio = b.prio
    · simp [hp, hl]
    · simp [hp, hl]
  · cases ha : s.precedence a <;> cases hb : s.precedence b <;> simp_all

theorem before_total (s : State) (a b : Launch) : s.before a b = true ∨ s.before b a = true := by
  rw [before_iff, before_iff]
  cases s.precedence a <;> cases s.precedence b <;> simp <;> omega

theorem before_trans (s : State) (a b c : Launch) (hab : s.before a b = true) (hbc : s.before b c = true) : s.before a c = true := by
  rw [before_iff] at *
  rcases hab with ⟨ha, hb⟩ | ⟨hab, hle⟩ <;> rcases hbc with ⟨hb', hc⟩ | ⟨hbc, hle'⟩
  · exact .inl ⟨ha, hc⟩
  · exact .inl ⟨ha, hbc ▸ hb⟩
  · exact .inl ⟨hab ▸ hb', hc⟩
  · exact .inr ⟨hab.trans hbc, by omega⟩

theorem waitingLaunches_sorted (s : State) (dom : Nat) : (s.waitingLaunches dom).Pairwise fun a b => s.before a b = true := by
  have htotal : Std.Total fun a b => s.before a b = true := ⟨before_total s⟩
  have htrans : IsTrans Launch fun a b => s.before a b = true := ⟨before_trans s⟩
  rw [State.waitingLaunches, inOrder_eq]
  exact List.pairwise_insertionSort _ _

theorem mem_waitingLaunches (s : State) (dom : Nat) (l : Launch) : l ∈ s.waitingLaunches dom ↔
    l ∈ s.launches ∧ l.domain = dom ∧ (s.nextTeam l).isSome ∧ s.quarantineTurn l = true := by
  rw [State.waitingLaunches, inOrder_eq, List.mem_insertionSort, List.mem_filter]
  simp [and_assoc]

/-! Where a team fits. -/

theorem mem_coresOf (s : State) (dom core : Nat) : core ∈ s.coresOf dom ↔
    core < 256 ∧ (s.cores.getD core Core.reset).enabled = true ∧ dieOfCore core ∉ s.fencedDies ∧
      if dom = 17 then s.mgmt.qcell = some (core / 4) else (s.parts.getD dom Partition.reset).mask.getLsbD (core / 4) = true := by
  unfold State.coresOf
  split <;> simp [List.mem_filter, and_assoc]

theorem coresOf_sorted (s : State) (dom : Nat) : (s.coresOf dom).Pairwise (· < ·) := List.pairwise_lt_range.filter _

theorem fitsOn_iff (s : State) (l : Launch) (core : Nat) : s.fitsOn l core = true ↔
    (s.cores.getD core Core.reset).pool = l.pool ∧ (s.cores.getD core Core.reset).switching = none ∧
    ((s.cores.getD core Core.reset).marked = none ∨ (s.cores.getD core Core.reset).marked = some l.seq) ∧
    (∀ x ∈ (s.freeOn core).zip l.krec.demand, x.2 ≤ x.1) ∧ s.tilesOn core + l.krec.nt ≤ 4 ∧
    s.privRoom l 1 (dieOfCore core) = true := by
  simp only [State.fitsOn, State.takes, State.roomFor, fitsIn, Nat.one_mul, List.map_id', Bool.and_eq_true, Bool.or_eq_true,
    decide_eq_true_eq, Option.isNone_iff_eq_none, List.all_eq_true, and_assoc]

/-! The best of a list: a fold that goes over to the next element where that one is better. -/

/-- Keep the best so far, or go over to the next one. -/
def better {α : Type} (p : α → α → Prop) [DecidableRel p] (best : Option α) (x : α) : Option α := match best with
  | some y => if p x y then some x else some y
  | none => some x

theorem foldl_better_isSome {α : Type} (p : α → α → Prop) [DecidableRel p] (xs : List α) (y : α) :
    ∃ m, xs.foldl (better p) (some y) = some m := by
  induction xs generalizing y with
  | nil => exact ⟨y, rfl⟩
  | cons x xs ih =>
    rw [List.foldl_cons, better]
    split <;> exact ih _

theorem foldl_better_none {α : Type} (p : α → α → Prop) [DecidableRel p] (xs : List α) :
    xs.foldl (better p) none = none ↔ xs = [] := by
  cases xs with
  | nil => simp
  | cons x xs =>
    obtain ⟨m, hm⟩ := foldl_better_isSome p xs x
    simp [better, hm]

/-- What such a fold ends with comes, in a transitive order `r` that the comparison decides, before every element. -/
theorem foldl_better_some {α : Type} (p r : α → α → Prop) [DecidableRel p] (hrefl : ∀ x, r x x)
    (htrans : ∀ x y z, r x y → r y z → r x z) {xs : List α} (hp : xs.Pairwise fun a b => (p b a → r b a) ∧ (¬ p b a → r a b)) {m : α}
    (h : xs.foldl (better p) none = some m) : m ∈ xs ∧ ∀ x ∈ xs, r m x := by
  suffices hgen : ∀ (xs : List α) (y m : α), (y :: xs).Pairwise (fun a b => (p b a → r b a) ∧ (¬ p b a → r a b)) →
      xs.foldl (better p) (some y) = some m → m ∈ y :: xs ∧ ∀ x ∈ y :: xs, r m x by
    cases xs with
    | nil => simp at h
    | cons x xs => exact hgen xs x m hp h
  intro xs
  induction xs with
  | nil =>
    intro y m _ h
    cases h
    simpa using hrefl y
  | cons x xs ih =>
    intro y m hp h
    obtain ⟨hy, hx, hxs⟩ := by simpa only [List.pairwise_cons] using hp
    rw [List.foldl_cons, better] at h
    split at h
    · next hxy =>
      obtain ⟨hmem, hbest⟩ := ih x m (List.pairwise_cons.mpr ⟨hx, hxs⟩) h
      refine ⟨List.mem_cons_of_mem y hmem, fun z hz => ?_⟩
      rcases List.mem_cons.mp hz with rfl | hz
      · exact htrans m x z (hbest x List.mem_cons_self) ((hy x List.mem_cons_self).1 hxy)
      · exact hbest z hz
    · next hxy =>
      obtain ⟨hmem, hbest⟩ := ih y m (List.pairwise_cons.mpr ⟨fun z hz => hy z (List.mem_cons_of_mem x hz), hxs⟩) h
      refine ⟨?_, fun z hz => ?_⟩
      · rcases List.mem_cons.mp hmem with rfl | hmem
        · exact List.mem_cons_self
        · exact List.mem_cons_of_mem y (List.mem_cons_of_mem x hmem)
      · rcases List.mem_cons.mp hz with rfl | hz
        · exact hbest z List.mem_cons_self
        · rcases List.mem_cons.mp hz with rfl | hz
          · exact htrans m y z (hbest y List.mem_cons_self) ((hy z List.mem_cons_self).2 hxy)
          · exact hbest z (List.mem_cons_of_mem y hz)

/-! The core with the most of something. -/

theorem bestCore_eq (f : Nat → Nat) (cs : List Nat) : bestCore f cs = cs.foldl (better fun x y => f y < f x) none := by
  unfold bestCore
  congr 1
  funext b x
  cases b <;> rfl

theorem bestCore_none (f : Nat → Nat) (cs : List Nat) : bestCore f cs = none ↔ cs = [] := by
  rw [bestCore_eq, foldl_better_none]

/-- In an ascending list it is the lowest of those with the most. -/
theorem bestCore_some {f : Nat → Nat} {cs : List Nat} (hsorted : cs.Pairwise (· < ·)) {m : Nat} (h : bestCore f cs = some m) :
    Most f (· ∈ cs) m := by
  rw [bestCore_eq] at h
  refine foldl_better_some _ (fun a b => f b < f a ∨ (f b = f a ∧ a ≤ b)) (by simp) (by omega) ?_ h
  exact hsorted.imp fun hab => by omega

theorem firstFreed_eq (xs : List (Nat × Nat × Nat)) : firstFreed xs =
    (xs.foldl (better fun x y => x.2.1 < y.2.1 ∨ (x.2.1 = y.2.1 ∧ x.1 < y.1)) none).map (·.1) := by
  unfold firstFreed
  congr 2
  funext b x
  cases b <;> rfl

theorem firstFreed_none (xs : List (Nat × Nat × Nat)) : firstFreed xs = none ↔ xs = [] := by
  rw [firstFreed_eq, Option.map_eq_none_iff, foldl_better_none]

/-- The place of the earliest retirement, of the lowest core among those of one cycle. -/
theorem firstFreed_some {xs : List (Nat × Nat × Nat)} {core : Nat} (h : firstFreed xs = some core) :
    ∃ x ∈ xs, x.1 = core ∧ ∀ y ∈ xs, x.2.1 < y.2.1 ∨ (x.2.1 = y.2.1 ∧ core ≤ y.1) := by
  rw [firstFreed_eq, Option.map_eq_some_iff] at h
  obtain ⟨m, hm, rfl⟩ := h
  obtain ⟨hmem, hbest⟩ := foldl_better_some _ (fun a b => a.2.1 < b.2.1 ∨ (a.2.1 = b.2.1 ∧ a.1 ≤ b.1)) (by simp) (by omega)
    (List.pairwise_of_forall fun a b => by omega) hm
  exact ⟨m, hmem, rfl, hbest⟩

/-! The limiting resource (R28). -/

theorem limiting_eq (cap dem : List Nat) : limiting cap dem =
    ((((cap.zip dem).zipIdx.filter fun x => decide (x.1.2 ≠ 0)).map fun x => (x.1.1 / x.1.2, x.2)).foldl
      (better fun (x y : Nat × Nat) => x.1 < y.1) none).elim 0 (·.2) := by
  unfold limiting
  rw [List.foldl_map, List.foldl_filter]
  congr 2
  funext b x
  by_cases hx : x.1.2 = 0 <;> cases b <;> simp [hx, better]

/-- The ratios of capacity to demand, with their places, where there is a demand. -/
def ratios (cap dem : List Nat) : List (Nat × Nat) :=
  ((cap.zip dem).zipIdx.filter fun x => decide (x.1.2 ≠ 0)).map fun x => (x.1.1 / x.1.2, x.2)

theorem mem_ratios {cap dem : List Nat} {r i : Nat} : (r, i) ∈ ratios cap dem ↔
    ∃ c d, cap[i]? = some c ∧ dem[i]? = some d ∧ d ≠ 0 ∧ r = c / d := by
  simp only [ratios, List.mem_map, List.mem_filter, decide_eq_true_eq, Prod.mk.injEq]
  constructor
  · rintro ⟨⟨⟨c, d⟩, k⟩, ⟨hmem, hd⟩, rfl, rfl⟩
    obtain ⟨hc, hd'⟩ := by simpa [List.getElem?_zip_eq_some] using List.mem_zipIdx_iff_getElem?.mp hmem
    exact ⟨c, d, hc, hd', hd, rfl⟩
  · rintro ⟨c, d, hc, hd', hd, rfl⟩
    exact ⟨((c, d), i), ⟨List.mem_zipIdx_iff_getElem?.mpr (List.getElem?_zip_eq_some.mpr ⟨hc, hd'⟩), hd⟩, rfl, rfl⟩

theorem ratios_ascending (cap dem : List Nat) : (ratios cap dem).Pairwise fun a b => a.2 < b.2 := by
  have hidx : (cap.zip dem).zipIdx.Pairwise fun a b => a.2 < b.2 := by
    rw [← List.pairwise_map (f := fun x : (Nat × Nat) × Nat => x.2) (R := (· < ·)), List.zipIdx_map_snd]
    exact List.pairwise_lt_range'
  exact (hidx.filter _).map _ fun _ _ h => h

/-- The resource with the smallest ratio of capacity to a demand that is not zero, the first of equals. -/
theorem limiting_least {cap dem : List Nat} {j cj dj : Nat} (hc : cap[j]? = some cj) (hd : dem[j]? = some dj) (hj : dj ≠ 0) :
    ∃ ci di, cap[limiting cap dem]? = some ci ∧ dem[limiting cap dem]? = some di ∧ di ≠ 0 ∧
      (ci / di < cj / dj ∨ (ci / di = cj / dj ∧ limiting cap dem ≤ j)) := by
  have hmem : (cj / dj, j) ∈ ratios cap dem := mem_ratios.mpr ⟨cj, dj, hc, hd, hj, rfl⟩
  have hsome : (ratios cap dem).foldl (better fun (x y : Nat × Nat) => x.1 < y.1) none ≠ none := by
    rw [ne_eq, foldl_better_none]
    exact List.ne_nil_of_mem hmem
  obtain ⟨⟨r, i⟩, hm⟩ := Option.ne_none_iff_exists'.mp hsome
  have hlim : limiting cap dem = i := by
    rw [limiting_eq]
    exact congrArg (fun o => o.elim 0 Prod.snd) hm
  obtain ⟨hbest, hleast⟩ := foldl_better_some _ (fun (a b : Nat × Nat) => a.1 < b.1 ∨ (a.1 = b.1 ∧ a.2 ≤ b.2)) (by simp) (by omega)
    ((ratios_ascending cap dem).imp fun {a b} hab => by omega) hm
  obtain ⟨ci, di, hci, hdi, hdi0, rfl⟩ := mem_ratios.mp hbest
  rw [hlim]
  exact ⟨ci, di, hci, hdi, hdi0, hleast _ hmem⟩

/-! The core of R29, and the one that R26 marks. -/

/-- The launch's team may go to the core: one of its distributor on which it fits. -/
def Able (s : State) (l : Launch) (except : List Nat) (x : Nat) : Prop := x ∈ s.coresOf l.domain ∧ s.fitsOn l x = true ∧ x ∉ except

/-- The cores that `pickAmong` chooses from. -/
def ableCores (s : State) (l : Launch) (except : List Nat) : List Nat :=
  (s.coresOf l.domain).filter fun c => s.fitsOn l c && !except.contains c

theorem mem_ableCores {s : State} {l : Launch} {except : List Nat} {x : Nat} : x ∈ ableCores s l except ↔ Able s l except x := by
  simp [ableCores, Able, List.mem_filter]

theorem pickAmong_eq (s : State) (except : List Nat) (l : Launch) : s.pickAmong except l =
    (firstFreed (l.refill.filter fun x => (ableCores s l except).contains x.1)).or
      (bestCore (unitsOn s l) (ableCores s l except)) := rfl

theorem mem_refillAble {s : State} {l : Launch} {except : List Nat} {x : Nat × Nat × Nat} :
    x ∈ l.refill.filter (fun x => (ableCores s l except).contains x.1) ↔ x ∈ l.refill ∧ Able s l except x.1 := by
  rw [List.mem_filter, List.contains_iff_mem, mem_ableCores]

theorem pickAmong_none (s : State) (except : List Nat) (l : Launch) : s.pickAmong except l = none ↔ ∀ x, ¬ Able s l except x := by
  rw [pickAmong_eq, Option.or_eq_none_iff, firstFreed_none, bestCore_none, List.eq_nil_iff_forall_not_mem,
    List.eq_nil_iff_forall_not_mem]
  simp only [mem_refillAble, mem_ableCores]
  exact ⟨fun h => h.2, fun h => ⟨fun x hx => h x.1 hx.2, h⟩⟩

/-- The core is the first that a retirement freed, where one of those will do, else the one with the most free units. -/
theorem pickAmong_some {s : State} {except : List Nat} {l : Launch} {core : Nat} (h : s.pickAmong except l = some core) :
    Able s l except core ∧
    ((∀ x ∈ l.refill, ¬ Able s l except x.1) → Most (unitsOn s l) (Able s l except) core) ∧
    ((∃ x ∈ l.refill, Able s l except x.1) → ∃ x ∈ l.refill, x.1 = core ∧
      ∀ y ∈ l.refill, Able s l except y.1 → x.2.1 < y.2.1 ∨ (x.2.1 = y.2.1 ∧ core ≤ y.1)) := by
  rw [pickAmong_eq, Option.or_eq_some_iff] at h
  rcases h with h | ⟨hnone, h⟩
  · obtain ⟨x, hx, rfl, hbest⟩ := firstFreed_some h
    obtain ⟨hrefill, hable⟩ := mem_refillAble.mp hx
    exact ⟨hable, fun hno => absurd hable (hno x hrefill), fun _ =>
      ⟨x, hrefill, rfl, fun y hy hyable => hbest y (mem_refillAble.mpr ⟨hy, hyable⟩)⟩⟩
  · obtain ⟨hmem, hmost⟩ := bestCore_some ((coresOf_sorted s l.domain).filter _) h
    refine ⟨mem_ableCores.mp hmem, fun _ => ⟨mem_ableCores.mp hmem, fun x hx => hmost x (mem_ableCores.mpr hx)⟩, ?_⟩
    rintro ⟨x, hx, hable⟩
    have := mem_refillAble.mpr ⟨hx, hable⟩
    rw [(firstFreed_none _).mp hnone] at this
    exact absurd this List.not_mem_nil

/-- A core of the launch's distributor with its pool configuration. -/
def SamePool (s : State) (l : Launch) (x : Nat) : Prop := x ∈ s.coresOf l.domain ∧ (s.cores.getD x Core.reset).pool = l.pool

theorem mem_samePool {s : State} {l : Launch} {x : Nat} :
    x ∈ (s.coresOf l.domain).filter (fun c => decide ((s.cores.getD c Core.reset).pool = l.pool)) ↔ SamePool s l x := by
  simp [SamePool, List.mem_filter]

theorem markChoice_some {s : State} {l : Launch} {core : Nat} (h : s.markChoice l = some core)
    (hres : ∀ x ∈ s.coresOf l.domain, s.residents x ≤ 64) :
    (∀ x ∈ s.coresOf l.domain, s.coreEmpty x = false ∧ (s.cores.getD x Core.reset).marked ≠ some l.seq) ∧
    ((∃ x, SamePool s l x) → Most (unitsOn s l) (SamePool s l) core) ∧
    ((∀ x, ¬ SamePool s l x) → core ∈ s.coresOf l.domain ∧ ∀ x ∈ s.coresOf l.domain, s.residents core < s.residents x ∨
      (s.residents core = s.residents x ∧ core ≤ x)) := by
  unfold State.markChoice at h
  dsimp only at h
  split at h
  · simp at h
  · next hidle =>
    simp only [Bool.or_eq_true, List.any_eq_true, decide_eq_true_eq, not_or, not_exists, not_and, Bool.not_eq_true] at hidle
    refine ⟨fun x hx => ⟨hidle.1 x hx, hidle.2 x hx⟩, ?_⟩
    split at h
    · next hsame =>
      have hnone (x : Nat) : ¬ SamePool s l x := fun hx => by
        have := mem_samePool.mpr hx
        rw [List.isEmpty_iff.mp hsame] at this
        exact absurd this List.not_mem_nil
      obtain ⟨hmem, hmost⟩ := bestCore_some (coresOf_sorted s l.domain) h
      refine ⟨fun ⟨x, hx⟩ => absurd hx (hnone x), fun _ => ⟨hmem, fun x hx => ?_⟩⟩
      have hc := hres core hmem
      have hx' := hres x hx
      have hbest : 64 - s.residents x < 64 - s.residents core ∨ (64 - s.residents x = 64 - s.residents core ∧ core ≤ x) := hmost x hx
      omega
    · next hsame =>
      obtain ⟨hmem, hmost⟩ := bestCore_some ((coresOf_sorted s l.domain).filter _) h
      refine ⟨fun _ => ⟨mem_samePool.mp hmem, fun x hx => hmost x (mem_samePool.mpr hx)⟩, fun hno => ?_⟩
      exact absurd (mem_samePool.mp hmem) (hno core)

end Sys2Proof.Claims
end

section
/-! What a placement opportunity does (spec 01 R26, R29-R32; 24 R356): the team placed, first or restored, and the core switched or
marked. -/

namespace Sys2Proof.Claims
open Sys2Proof.Machine

/-! Placing a team. -/

/-- Groups enter one set or the other. -/
theorem enter_groups (tick : Nat) (ids : List GroupId) (c : Core) : c.enter tick ids = { c with
      active := (c.enter tick ids).active, pending := (c.enter tick ids).pending } ∧
    List.Perm (((c.enter tick ids).active ++ (c.enter tick ids).pending).map (·.group))
      ((c.active ++ c.pending).map (·.group) ++ ids) := by
  unfold Core.enter
  induction ids generalizing c with
  | nil => exact ⟨rfl, by simp⟩
  | cons g gs ih =>
    simp only [List.foldl_cons]
    split
    · obtain ⟨hframe, hperm⟩ := ih { c with active := c.active ++ [⟨g, tick, tick, false, false⟩] }
      refine ⟨hframe, hperm.trans ?_⟩
      simp only [List.map_append, List.map_cons, List.append_assoc, List.singleton_append]
      exact (List.perm_middle.symm).append_left _
    · obtain ⟨hframe, hperm⟩ := ih { c with pending := c.pending ++ [⟨g, tick, tick, false, false⟩] }
      refine ⟨hframe, hperm.trans ?_⟩
      simp

/-- The groups of team `index` of a launch. -/
def teamGroups (l : Launch) (index : Nat) : List GroupId := (List.range (groupCount l.krec.lanes)).map fun g => ⟨⟨l.seq, index⟩, g⟩

/-- The teams of the state once team `index` of the launch has been placed. -/
def teamsPlaced (s : State) (l : Launch) (index core : Nat) : List Team :=
  let slots := s.freeSlots core (groupCount l.krec.lanes)
  match s.team? ⟨l.seq, index⟩ with
  | some t => (s.setTeam (match t.place with
      | .flushed => t.again l core s.clock.cycles slots
      | _ => t.restore core s.clock.cycles slots)).teams
  | none => s.teams ++ [Team.fresh l index core s.clock.cycles slots]

/-- The core that takes the team: an L1 that serves nothing from before, its groups in the sets, no mark of the launch. -/
def coreEntered (s : State) (l : Launch) (index core k : Nat) (x : Core) : Core :=
  let y := if k = core then ({ x with l1 := [] } : Core).enter s.clock.tick (teamGroups l index)
    else x
  if y.marked = some l.seq then { y with marked := none } else y

/-- The launch once its team has been placed. -/
def launchPlaced (s : State) (index core : Nat) (m : Launch) : Launch := { m with
  nextTeam := max m.nextTeam (index + 1)
  placedAt := if m.nextTeam = 0 then s.clock.gtime else m.placedAt + m.away.elim 0 fun a => s.clock.gtime - a
  away := none
  qlimitUs := if m.nextTeam = 0 then s.mgmt.qlimitUs else m.qlimitUs
  refill := placesLeft core m.refill }

/-- What becomes of the cores. -/
def coresPlaced (s : State) (l : Launch) (index core : Nat) : List Core :=
  ((s.clearL1 core).mapCore core fun c => c.enter s.clock.tick (teamGroups l index)).cores.map
      fun c => if c.marked = some l.seq then { c with marked := none } else c

/-- `placeTeam` from the state `s1` in which the teams are as they will be. -/
def placedFrom (s s1 : State) (l : Launch) (index core : Nat) : State :=
  { ((s1.clearL1 core).mapCore core fun c => c.enter s.clock.tick (teamGroups l index)).mapLaunch l.seq (launchPlaced s index core) with
    cores := ((s1.clearL1 core).mapCore core fun c => c.enter s.clock.tick (teamGroups l index)).cores.map
        fun c => if c.marked = some l.seq then { c with marked := none } else c
    areas := s1.areas.filter fun a => !(decide (a.team = ⟨l.seq, index⟩) && decide (a.kind = 0)) }

theorem placeTeam_from (s : State) (l : Launch) (index core : Nat) :
    s.placeTeam l index core = placedFrom s { s with teams := teamsPlaced s l index core } l index core := by
  have hteams : { s with teams := teamsPlaced s l index core } = (match s.team? ⟨l.seq, index⟩ with
      | some t => s.setTeam (match t.place with
        | .flushed => t.again l core s.clock.cycles (s.freeSlots core (groupCount l.krec.lanes))
        | _ => t.restore core s.clock.cycles (s.freeSlots core (groupCount l.krec.lanes)))
      | none => { s with
          teams := s.teams ++ [Team.fresh l index core s.clock.cycles (s.freeSlots core (groupCount l.krec.lanes))] }) := by
    unfold teamsPlaced
    cases s.team? ⟨l.seq, index⟩ <;> rfl
  rw [hteams]
  rfl

theorem placeTeam_eq (s : State) (l : Launch) (index core : Nat) : s.placeTeam l index core = { s with
    teams := teamsPlaced s l index core
    cores := coresPlaced s l index core
    launches := s.launches.map fun m => if m.seq = l.seq then launchPlaced s index core m else m
    areas := s.areas.filter fun a => !(decide (a.team = ⟨l.seq, index⟩) && decide (a.kind = 0)) } := by
  rw [placeTeam_from]
  rfl

theorem placeTeam_core (s : State) (l : Launch) (index core k : Nat) :
    (s.placeTeam l index core).cores[k]? = s.cores[k]?.map (coreEntered s l index core k) := by
  have hcores : (s.placeTeam l index core).cores = coresPlaced s l index core := by rw [placeTeam_eq]
  rw [hcores, coresPlaced, List.getElem?_map]
  by_cases hk : k = core
  · subst hk
    rw [cores_mapCore, State.clearL1, cores_mapCore, Option.map_map, Option.map_map]
    congr 1
    funext x
    simp only [Function.comp_apply, coreEntered, if_true]
  · rw [cores_mapCore_other _ _ hk, State.clearL1, cores_mapCore_other _ _ hk]
    congr 1
    funext x
    simp only [coreEntered, if_neg hk]

theorem coreEntered_frame (s : State) (l : Launch) (index core k : Nat) (x : Core) :
    let y := coreEntered s l index core k x
    y = { x with active := y.active, pending := y.pending, marked := y.marked, l1 := y.l1 } ∧
    (k ≠ core → y.active = x.active ∧ y.pending = x.pending ∧ y.l1 = x.l1) ∧
    (k = core → y.l1 = [] ∧ List.Perm ((y.active ++ y.pending).map (·.group)) ((x.active ++ x.pending).map (·.group) ++
      (List.range (groupCount l.krec.lanes)).map fun g => (⟨⟨l.seq, index⟩, g⟩ : GroupId))) := by
  intro y
  by_cases hk : k = core
  · obtain ⟨hframe, hperm⟩ := enter_groups s.clock.tick (teamGroups l index)
      { x with l1 := [] }
    refine ⟨?_, fun h => absurd hk h, fun _ => ?_⟩
    · simp only [y, coreEntered, if_pos hk]
      split <;> rw [hframe]
    · simp only [y, coreEntered, if_pos hk]
      split
      · exact ⟨by rw [hframe], hperm⟩
      · exact ⟨by rw [hframe], hperm⟩
  · refine ⟨?_, fun _ => ?_, fun h => absurd h hk⟩ <;> simp only [y, coreEntered, if_neg hk] <;> split <;> simp

theorem placeTeam_onCore (s : State) (l : Launch) (index core : Nat) : OnCore s l index core (s.placeTeam l index core) := by
  refine ⟨?_, fun k x hx => ?_, fun k m hm => ?_⟩
  · rw [placeTeam_eq]
  · exact ⟨coreEntered s l index core k x, by rw [placeTeam_core, hx]; rfl, coreEntered_frame s l index core k x⟩
  · refine ⟨if m.seq = l.seq then launchPlaced s index core m else m, ?_, fun h => if_neg h, fun h => ?_⟩
    · rw [placeTeam_eq]
      simp [List.getElem?_map, hm]
    · rw [if_pos h]
      exact ⟨fun h0 => by simp [launchPlaced, h0], rfl⟩

/-- A team that no record stands for is placed as launch leaves it. -/
theorem placeTeam_first {s : State} {l : Launch} {index : Nat} (core : Nat) (h : s.team? ⟨l.seq, index⟩ = none) :
    PlacedFirst s l index core (s.placeTeam l index core) := by
  refine ⟨?_, placeTeam_onCore s l index core⟩
  rw [placeTeam_eq]
  simp only [teamsPlaced, h]

theorem team?_setTeam (s : State) {t : Team} (h : (s.team? t.id).isSome = true) : (s.setTeam t).team? t.id = some t := by
  obtain ⟨u, hu⟩ := Option.isSome_iff_exists.mp h
  have hid : u.id = t.id := by simpa using List.find?_some hu
  have hset : s.setTeam t = s.mapTeam t.id fun x => if x.id = t.id then t else x := by
    simp only [State.setTeam, State.mapTeam]
    congr 2
    funext x
    split <;> rfl
  rw [hset, s.team?_mapTeam t.id _ u hu fun x => by split <;> simp_all, if_pos hid]

theorem team?_setTeam_other (s : State) (t : Team) {id : TeamId} (h : id ≠ t.id) : (s.setTeam t).team? id = s.team? id := by
  have := find_map_other (fun x : Team => decide (x.id = t.id)) (fun x => decide (x.id = id)) (fun _ => t) s.teams (by
    intro x hx
    simp only [decide_eq_true_eq] at hx
    simp [hx, Ne.symm h])
  simpa [State.team?, State.setTeam, State.mapTeam] using this

/-- A held instruction issues again; a group in another state keeps it. -/
theorem restored_run (g : Group) : ∃ r, g.restored = { g with run := r } ∧
    ((∃ n, g.run = .barWait n) ∨ (∃ p v n, g.run = .parked p v n) ∨ g.run = .stepHeld → r = .running) ∧
    ((∀ n, g.run ≠ .barWait n) → (∀ p v n, g.run ≠ .parked p v n) → g.run ≠ .stepHeld → r = g.run) := by
  unfold Group.restored
  split
  · next n h => exact ⟨.running, rfl, fun _ => rfl, fun hno => absurd h (hno n)⟩
  · next p v n h => exact ⟨.running, rfl, fun _ => rfl, fun _ hno => absurd h (hno p v n)⟩
  · next h => exact ⟨.running, rfl, fun _ => rfl, fun _ _ hno => absurd h hno⟩
  · next hbar hpark hstep =>
    refine ⟨g.run, rfl, fun h => ?_, fun _ _ _ => rfl⟩
    rcases h with ⟨n, h⟩ | ⟨p, v, n, h⟩ | h
    · exact absurd h (hbar n)
    · exact absurd h (hpark p v n)
    · exact absurd h hstep

/-- A saved team is restored. -/
theorem placeTeam_restored {s : State} {l : Launch} {t : Team} {index : Nat} (core : Nat) (h : s.team? ⟨l.seq, index⟩ = some t)
    (hid : t.id = ⟨l.seq, index⟩) (hsaved : t.place = .saved) : Restored s l t core (s.placeTeam l index core) := by
  let slots := s.freeSlots core (groupCount l.krec.lanes)
  have hteams : (s.placeTeam l index core).teams = (s.setTeam (t.restore core s.clock.cycles slots)).teams := by
    rw [placeTeam_eq]
    simp only [teamsPlaced, h, hsaved]
    rfl
  have hlook (u : TeamId) : (s.placeTeam l index core).team? u = (s.setTeam (t.restore core s.clock.cycles slots)).team? u := by
    rw [State.team?, hteams]
    rfl
  refine ⟨?_, fun u hu => ?_, t.restore core s.clock.cycles slots, ?_, rfl, ?_, fun j g hg => ?_⟩
  · rw [hid]
    exact placeTeam_onCore s l index core
  · rw [hlook]
    exact team?_setTeam_other s (t.restore core s.clock.cycles slots) hu
  · rw [hlook]
    refine team?_setTeam s (t := t.restore core s.clock.cycles slots) ?_
    show (s.team? t.id).isSome = true
    rw [hid, h]
    rfl
  · simp [Team.restore]
  · obtain ⟨r, hr, hrun⟩ := restored_run g
    refine ⟨r, ?_, hrun⟩
    simp [Team.restore, hg, hr, slots]

/-! A placement opportunity. -/

/-- The launch that comes first is served, where its next team fits somewhere. -/
theorem exec_teamPlacement_fits {s : State} {P core : Nat} {l : Launch} {ls : List Launch} (hdrop : s.dropMarks P = s)
    (hw : s.waitingLaunches P = l :: ls) (hpick : s.pickCore l = some core) :
    exec (.teamPlacement P) s = .next (if s.switchesFor l then s else s.placeFirst [] [l]) := by
  show execTeamPlacement P s = _
  simp only [execTeamPlacement, hdrop, hw, hpick]

/-- Where it fits nowhere, a core may be marked for it, and a later launch is served. -/
theorem exec_teamPlacement_unfit {s : State} {P : Nat} {l : Launch} {ls : List Launch} (hdrop : s.dropMarks P = s)
    (hw : s.waitingLaunches P = l :: ls) (hpick : s.pickCore l = none) : exec (.teamPlacement P) s =
      .next (State.placeFirst ((s.markChoice l).elim s fun c => s.mapCore c fun c => { c with marked := some l.seq }) (s.toSwitch l) ls) := by
  show execTeamPlacement P s = _
  simp only [execTeamPlacement, hdrop, hw, hpick]
  cases s.markChoice l <;> rfl

theorem placeFirst_cons {s : State} {except : List Nat} {l : Launch} {i core : Nat} (ls : List Launch) (hnext : s.nextTeam l = some i)
    (hpick : s.pickAmong except l = some core) : s.placeFirst except (l :: ls) = s.placeTeam l i core := by
  simp only [State.placeFirst, hnext, hpick]

/-- The next team of the first launch goes to the core of R29. -/
theorem exec_teamPlacement_places {s : State} {P core i : Nat} {l : Launch} {ls : List Launch} (hdrop : s.dropMarks P = s)
    (hw : s.waitingLaunches P = l :: ls) (hswitch : s.switchesFor l = false) (hnext : s.nextTeam l = some i)
    (hpick : s.pickCore l = some core) : exec (.teamPlacement P) s = .next (s.placeTeam l i core) := by
  rw [exec_teamPlacement_fits hdrop hw hpick, hswitch, if_neg Bool.false_ne_true, placeFirst_cons [] hnext hpick]

/-- A change of one core. -/
theorem mapCore_eq_set {s : State} {core : Nat} {c : Core} (h : s.cores[core]? = some c) (f : Core → Core) :
    s.mapCore core f = { s with cores := s.cores.set core (f c) } := by
  have : s.cores.modify core f = s.cores.set core (f c) := by
    refine List.ext_getElem? fun k => ?_
    rw [List.getElem?_modify]
    by_cases hk : core = k
    · subst hk
      obtain ⟨hlt, rfl⟩ := List.getElem?_eq_some_iff.mp h
      simp [hlt]
    · simp [hk]
  rw [State.mapCore, this]

/-! Switching a core. -/

theorem exec_poolSwitch {s : State} {P core : Nat} {l : Launch} {ls : List Launch} {c : Core} (hw : s.waitingLaunches P = l :: ls)
    (hmem : core ∈ s.coresOf P) (honly : ∀ d < 18, d ≠ P → core ∉ s.coresOf d) (hP : P < 18) (hquiet : s.switchingIn P = false)
    (hfirst : (s.toSwitch l).head? = some core) (hc : s.cores[core]? = some c) : exec (.poolSwitch core) s =
      .next { s with cores := s.cores.set core { c with switching := some (l.seq, l.pool) } } := by
  have hdoms : ((List.range 18).filter fun d => (s.coresOf d).contains core) = [P] := by
    refine List.Perm.eq_singleton ((List.perm_of_nodup_nodup_toFinset_eq (List.nodup_range.filter _) (List.nodup_singleton P) ?_))
    ext d
    simp only [List.mem_toFinset, List.mem_filter, List.mem_range, List.contains_iff_mem, List.mem_singleton]
    constructor
    · rintro ⟨hd, hcore⟩
      by_contra hne
      exact honly d hd hne hcore
    · rintro rfl
      exact ⟨hP, hmem⟩
  show execPoolSwitch core s = _
  simp only [execPoolSwitch, hdoms, List.foldl_cons, List.foldl_nil, hw, hquiet, hfirst, Bool.not_false, decide_true,
    Bool.and_self, if_true]
  rw [mapCore_eq_set hc]

end Sys2Proof.Claims
end

section
/-! The retirement of a team (spec 01 R29, 10 R222). -/

namespace Sys2Proof.Claims
open Sys2Proof.Machine

/-! Room on a core does not depend on what launches remember of freed cores. -/

/-- The state in which launches remember other freed cores. -/
def remembering (s : State) (f : Launch → Launch) : State := { s with launches := s.launches.map f }

/-- `f` changes only what a launch remembers. -/
def OnlyRefill (f : Launch → Launch) : Prop := ∀ m, f m = { m with refill := (f m).refill }

theorem launch?_remembering (s : State) {f : Launch → Launch} (hf : OnlyRefill f) (n : Nat) :
    (remembering s f).launch? n = (s.launch? n).map f :=
  find?_map_of_same (φ := fun m : Launch => m.seq) (fun m => by rw [hf m]) n s.launches

theorem usedOn_remembering (s : State) {f : Launch → Launch} (hf : OnlyRefill f) (core : Nat) :
    (remembering s f).usedOn core = s.usedOn core := by
  unfold State.usedOn
  simp only [launch?_remembering s hf]
  congr 1
  funext u n
  cases s.launch? n with
  | none => rfl
  | some m => simp only [Option.map_some]; rw [hf m]

theorem tilesOn_remembering (s : State) {f : Launch → Launch} (hf : OnlyRefill f) (core : Nat) :
    (remembering s f).tilesOn core = s.tilesOn core := by
  unfold State.tilesOn
  simp only [launch?_remembering s hf]
  congr 1
  funext u n
  cases s.launch? n with
  | none => rfl
  | some m => simp only [Option.map_some]; rw [hf m]

theorem homeBytes_remembering (s : State) {f : Launch → Launch} (hf : OnlyRefill f) (part die : Nat) :
    (remembering s f).homeBytes part die = s.homeBytes part die := by
  unfold State.homeBytes
  congr 3
  funext p
  congr 1
  simp only [remembering, List.any_map]
  congr 1
  funext m
  simp only [Function.comp_apply]
  rw [hf m]

/-- The bytes that the areas of the lanes of launch `l`'s function take up on a die (03 R73). -/
def privUsed (s : State) (l : Launch) (die : Nat) : Nat :=
  (s.launchesOn fun c => decide (dieOfCore c = die)).foldl (fun a n => match s.launch? n with
    | some m => if m.fn = l.fn then a + m.privBytes else a
    | none => a) 0

theorem privRoom_eq (s : State) (l : Launch) (k die : Nat) : s.privRoom l k die = (decide (l.privBytes = 0) ||
    decide (privUsed s l die + s.homeBytes l.fn die + k * l.privBytes ≤ s.privShare l.fn)) := rfl

theorem privUsed_remembering (s : State) {f : Launch → Launch} (hf : OnlyRefill f) (l : Launch) (die : Nat) :
    privUsed (remembering s f) l die = privUsed s l die := by
  unfold privUsed
  simp only [launch?_remembering s hf]
  congr 1
  funext a n
  cases s.launch? n with
  | none => rfl
  | some m => simp only [Option.map_some]; rw [hf m]; rfl

theorem privRoom_remembering (s : State) {f : Launch → Launch} (hf : OnlyRefill f) (l : Launch) (k die : Nat) :
    (remembering s f).privRoom l k die = s.privRoom l k die := by
  rw [privRoom_eq, privRoom_eq, privUsed_remembering s hf, homeBytes_remembering s hf]
  rfl

theorem roomFor_remembering (s : State) {f : Launch → Launch} (hf : OnlyRefill f) (l : Launch) (core k : Nat) :
    (remembering s f).roomFor l core k = s.roomFor l core k := by
  simp only [State.roomFor, State.freeOn, usedOn_remembering s hf, tilesOn_remembering s hf, privRoom_remembering s hf]
  rfl

theorem fitsOn_remembering (s : State) {f : Launch → Launch} (hf : OnlyRefill f) (l : Launch) (core : Nat) :
    (remembering s f).fitsOn l core = s.fitsOn l core := by
  simp only [State.fitsOn, roomFor_remembering s hf]
  rfl

theorem placesOn_remembering (s : State) {f : Launch → Launch} (hf : OnlyRefill f) (l : Launch) (core : Nat) :
    (remembering s f).placesOn l core = s.placesOn l core := by
  simp only [State.placesOn, roomFor_remembering s hf]

/-! What a launch remembers. -/

theorem noteFreed_onlyRefill (s s2 : State) (core : Nat) : OnlyRefill (s.noteFreed s2 core) := by
  intro m
  unfold State.noteFreed
  split <;> rfl

/-- A launch whose next team fitted nowhere, and that remembers nothing, remembers the core where it fits there now. -/
theorem noteFreed_unfit {s : State} {m : Launch} (s2 : State) (core : Nat) (hnext : (s.nextTeam m).isSome = true)
    (hrefill : m.refill = []) (hunfit : ∀ x ∈ s.coresOf m.domain, s.fitsOn m x = false) : (s.noteFreed s2 core m).refill =
      if core ∈ s.coresOf m.domain ∧ s2.fitsOn m core = true then [(core, s.clock.cycles, s2.placesOn m core)] else [] := by
  have hnot : ((s.coresOf m.domain).any (s.fitsOn m)) = false := by
    rw [List.any_eq_false]
    exact fun x hx => by simp [hunfit x hx]
  have hsome : (s.nextTeam m).isNone = false := by simpa using hnext
  unfold State.noteFreed
  simp [hsome, hrefill, hnot]

/-! The team and its launch. -/

/-- The team once it has retired. -/
def retiredTeam (s : State) (t : Team) : Team :=
  { t with place := .retired, vtSaved := (s.vtime t).toNat, preempt := none, frozen := false }

/-- Another team of the launch is on a core. -/
def staysPlaced (s : State) (id : TeamId) : Bool :=
  s.teams.any fun x => decide (x.id.launch = id.launch) && decide (x.id ≠ id) && x.core?.isSome

/-- The launch once the team has retired. -/
def retiredLaunch (s : State) (t : Team) (m : Launch) : Launch := { m with
  retired := m.retired + 1
  vtSum := m.vtSum + (s.vtime t).toNat
  away := if staysPlaced s t.id then m.away else m.away.or (some s.clock.gtime) }

/-- The state once the team has left its core, before launches remember that. -/
def leftCore (s : State) (t : Team) (n : Nat) : State := { s with
  teams := (s.setTeam (retiredTeam s t)).teams
  cores := (s.leaveCore t.id).cores
  launches := s.launches.map fun m => if m.seq = n then retiredLaunch s t m else m }

theorem staysPlaced_retired (s : State) (t : Team) :
    ((s.setTeam (retiredTeam s t)).teams.any fun x => decide (x.id.launch = t.id.launch) && x.core?.isSome) = staysPlaced s t.id := by
  simp only [State.setTeam, State.mapTeam, staysPlaced, List.any_map]
  congr 1
  funext x
  by_cases hx : x.id = t.id
  · simp [hx, retiredTeam, Team.core?]
  · simp [hx, retiredTeam]

theorem noteAway_retired (s : State) (t : Team) :
    ((((s.leaveCore t.id).setTeam (retiredTeam s t)).mapLaunch t.id.launch fun m =>
      { m with retired := m.retired + 1, vtSum := m.vtSum + (s.vtime t).toNat }).noteAway t.id.launch) = leftCore s t t.id.launch := by
  have hstay := staysPlaced_retired s t
  unfold State.noteAway
  split
  · next h =>
    have hyes : staysPlaced s t.id = true := hstay.symm.trans h
    simp only [leftCore, retiredLaunch, hyes, if_true]
    rfl
  · next h =>
    have hno : staysPlaced s t.id = false := hstay.symm.trans ((Bool.not_eq_true _).mp h)
    simp only [leftCore, retiredLaunch, hno, Bool.false_eq_true, if_false, State.mapLaunch, List.map_map]
    congr 1
    refine List.map_congr_left fun m _ => ?_
    by_cases hm : m.seq = t.id.launch
    · simp only [Function.comp_apply, hm, if_true]
      rfl
    · simp only [Function.comp_apply, hm, if_false]

theorem retireTeam_eq {s : State} {t : Team} {l : Launch} {core : Nat} (hid : t.id.launch = l.seq) (hcore : t.core? = some core)
    (hgangs : ∀ g ∈ s.gangs, g.state ≠ .backoff) : s.retireTeam t l =
      remembering (leftCore s t l.seq) (s.noteFreed (leftCore s t l.seq) core) := by
  have haway := noteAway_retired s t
  rw [hid] at haway
  unfold State.retireTeam
  simp only [hcore]
  rw [show { t with place := .retired, vtSaved := (s.vtime t).toNat, preempt := none, frozen := false } = retiredTeam s t from rfl,
    haway]
  have hgangs' : ((leftCore s t l.seq).gangs.map fun g => if g.state = .backoff &&
      g.parts.any fun p => ((s.launch? p.2).map fun m => decide (m.fn = l.fn)).getD false then
        { g with state := .reserve, since := s.clock.gtime } else g) = s.gangs := by
    refine (List.map_congr_left fun g hg => ?_).trans (List.map_id s.gangs)
    simp [hgangs g hg]
  rw [hgangs']
  rfl

/-- TEAM_RETIREMENT of a finished team on a core. -/
theorem exec_teamRetirement {s : State} {L T : Nat} {t : Team} {l : Launch} (ht : s.team? ⟨L, T⟩ = some t) (hl : s.launch? L = some l)
    (hfin : t.finished l.dbg = true) (hcore : t.core?.isSome = true) : exec (.teamRetirement L T) s = .next (s.retireTeam t l) := by
  show execTeamRetirement L T s = _
  simp only [execTeamRetirement, ht, hl, hfin, hcore, Bool.and_self, if_true]

/-- What the retirement leaves of every launch. -/
theorem retired_launch {s : State} {t : Team} {n core k : Nat} {m : Launch} (hm : s.launches[k]? = some m) :
    let s2 := leftCore s t n
    let s' := remembering s2 (s.noteFreed s2 core)
    ∃ m' : Launch, s'.launches[k]? = some m' ∧
      (m.seq = n → m' = { retiredLaunch s t m with refill := m'.refill }) ∧
      (m.seq ≠ n → m' = { m with refill := m'.refill } ∧
        ((s.nextTeam m).isSome = true → m.refill = [] → (∀ x ∈ s.coresOf m.domain, s.fitsOn m x = false) →
          m'.refill = if core ∈ s.coresOf m.domain ∧ s'.fitsOn m core = true
            then [(core, s.clock.cycles, s'.placesOn m core)] else [])) := by
  intro s2 s'
  have honly := noteFreed_onlyRefill s s2 core
  refine ⟨s.noteFreed s2 core (if m.seq = n then retiredLaunch s t m else m), ?_, fun h => ?_,
    fun h => ⟨?_, fun hnext hrefill hunfit => ?_⟩⟩
  · simp [s', remembering, s2, leftCore, hm]
  · rw [if_pos h]
    exact honly _
  · rw [if_neg h]
    exact honly m
  · rw [if_neg h, noteFreed_unfit s2 core hnext hrefill hunfit, fitsOn_remembering s2 honly, placesOn_remembering s2 honly]

theorem staysPlaced_true {s : State} {id : TeamId} (h : ∃ x ∈ s.teams, x.id.launch = id.launch ∧ x.id ≠ id ∧ x.core?.isSome = true) :
    staysPlaced s id = true := by
  obtain ⟨x, hx, hl, hne, hcore⟩ := h
  rw [staysPlaced, List.any_eq_true]
  exact ⟨x, hx, by simp [hl, hne, hcore]⟩

theorem staysPlaced_false {s : State} {id : TeamId} (h : ∀ x ∈ s.teams, x.id.launch = id.launch → x.id ≠ id → x.core? = none) :
    staysPlaced s id = false := by
  rw [staysPlaced, List.any_eq_false]
  intro x hx
  by_cases hl : x.id.launch = id.launch
  · by_cases hne : x.id = id
    · simp [hne]
    · simp [h x hx hl hne]
  · simp [hl]

end Sys2Proof.Claims
end

section
/-! The completion of a launch (spec 23 R343, R344). -/

namespace Sys2Proof.Claims
open Sys2Proof.Machine

/-! What the command processor writes and marks. -/

theorem hostWrite_frame (s : State) (link a : Nat) (v : Byte) :
    s.hostWrite link a v = { s with hostMem := (s.hostWrite link a v).hostMem } := by
  unfold State.hostWrite
  split <;> rfl

theorem hostWrite_congr {s t : State} (h : t.hostMem = s.hostMem) (link a : Nat) (v : Byte) :
    (t.hostWrite link a v).hostMem = (s.hostWrite link a v).hostMem := by
  unfold State.hostWrite
  rw [h]
  split <;> rfl

theorem hostWriteBytes_frame (s : State) (link a : Nat) (bs : List Byte) :
    s.hostWriteBytes link a bs = { s with hostMem := (s.hostWriteBytes link a bs).hostMem } := by
  unfold State.hostWriteBytes
  induction bs.zipIdx generalizing s with
  | nil => rfl
  | cons b bs ih => rw [List.foldl_cons, ih, hostWrite_frame]

/-- What is written to host memory depends on host memory alone. -/
theorem hostWriteBytes_congr {s t : State} (h : t.hostMem = s.hostMem) (link a : Nat) (bs : List Byte) :
    (t.hostWriteBytes link a bs).hostMem = (s.hostWriteBytes link a bs).hostMem := by
  unfold State.hostWriteBytes
  induction bs.zipIdx generalizing s t with
  | nil => exact h
  | cons b bs ih => exact ih (hostWrite_congr h link (a + b.2) b.1)

theorem cpWrite_frame (s : State) (fn : Nat) (dev : Bool) (addr : Nat) (bs : List Byte) : s.cpWrite fn dev addr bs =
    { s with mem := (s.cpWrite fn dev addr bs).mem, hostMem := (s.cpWrite fn dev addr bs).hostMem } := by
  unfold State.cpWrite
  split
  · rfl
  · split
    · split <;> rfl
    · rw [hostWriteBytes_frame]

theorem cpWrite_host (s : State) (fn : Nat) {addr : Nat} (bs : List Byte) (h : addr ≠ 0) :
    s.cpWrite fn false addr bs = s.hostWriteBytes (linkOfFn fn) addr bs := by
  rw [State.cpWrite, if_neg h, if_neg Bool.false_ne_true]

theorem cpMark_frame (s : State) (fn : Nat) (dev : Bool) (addr n : Nat) :
    s.cpMark fn dev addr n = { s with mem := (s.cpMark fn dev addr n).mem } := by
  unfold State.cpMark
  split
  · split <;> rfl
  · rfl

theorem markPair_frame (s : State) (l : Launch) : s.markPair l = { s with mem := (s.markPair l).mem } := by
  unfold State.markPair
  dsimp only
  generalize (s.pairFound l).2 = addrs, (s.fns.getD l.fn Fn.reset).queues.getD l.queue Queue.reset = q
  induction addrs generalizing s with
  | nil => rfl
  | cons a as ih => rw [List.foldl_cons, ih, cpMark_frame]

/-! Waits that are satisfied. -/

/-- The launch goes on: it waits, and its waits are satisfied. -/
def goesOn (s : State) (m : Launch) : Bool := decide (m.stage = .waiting) && s.waitsDone m

/-- The launch once waits are released. -/
def waitReleased (s : State) (m : Launch) : Launch := if goesOn s m then { m with stage := s.afterWaits m } else m

theorem releaseWaits_frame (s : State) : s.releaseWaits =
    { s with mem := s.releaseWaits.mem, launches := s.launches.map (waitReleased s) } := by
  have hmarks (ls : List Launch) (u : State) : ls.foldl State.markPair u = { u with mem := (ls.foldl State.markPair u).mem } := by
    induction ls generalizing u with
    | nil => rfl
    | cons m ms ih => rw [List.foldl_cons, ih, markPair_frame]
  unfold State.releaseWaits
  dsimp only
  rw [hmarks]
  rfl

theorem waitReleased_frame (s : State) (m : Launch) : waitReleased s m = { m with stage := (waitReleased s m).stage } := by
  unfold waitReleased
  split <;> rfl

theorem afterWaits_stage (s : State) (m : Launch) : s.afterWaits m ≠ .waiting ∧ s.afterWaits m ≠ .complete := by
  unfold State.afterWaits
  split
  · simp
  · split <;> simp

theorem waitReleased_complete (s : State) (m : Launch) : (waitReleased s m).stage = .complete ↔ m.stage = .complete := by
  unfold waitReleased
  split
  · next h =>
    have hwait : m.stage = .waiting := by
      unfold goesOn at h
      simp only [Bool.and_eq_true, decide_eq_true_eq] at h
      exact h.1
    simp [hwait, (afterWaits_stage s m).2]
  · rfl

/-- Releasing waits completes no launch, so that no wait is satisfied by it. -/
theorem waitsDone_released (s : State) (m : Launch) : s.releaseWaits.waitsDone m = s.waitsDone m := by
  unfold State.waitsDone
  rw [releaseWaits_frame]
  congr 1
  funext w
  congr 2
  rw [List.any_map]
  congr 1
  funext x
  have hcomplete : decide ((waitReleased s x).stage ≠ .complete) = decide (x.stage ≠ .complete) := by
    simp only [ne_eq, waitReleased_complete]
  simp only [Function.comp_apply, hcomplete]
  rw [waitReleased_frame]

/-- No launch is left waiting whose waits are satisfied. -/
theorem releaseWaits_waiting {s : State} {x : Launch} (hx : x ∈ s.releaseWaits.launches) (hwait : x.stage = .waiting) :
    s.releaseWaits.waitsDone x = false := by
  rw [releaseWaits_frame, List.mem_map] at hx
  obtain ⟨m, -, rfl⟩ := hx
  rw [waitsDone_released]
  unfold waitReleased at *
  split at hwait
  · exact absurd hwait (afterWaits_stage s m).1
  · next h =>
    rw [if_neg h]
    simpa [goesOn, hwait] using h

/-! A completed launch. -/

/-- The records are written, and the launches counted. -/
def recordsWritten (s : State) (l : Launch) : State :=
  (s.withConsumer l).foldl (fun s' m => (s'.cpWrite m.fn m.compDev m.compAddr.toNat
    (wordBytes (completionRecord l m.lid l.outcome.1 l.outcome.2 l.spliceCode s.clock.gtime))).countAborted l.aborted)
    (s.forgetStreams (StreamId.ofLaunch l.seq))

/-- The launches of a completion: the launch and its consumer are complete, and remain only for the node of a graph. -/
def launchesCompleted (s : State) (l : Launch) : List Launch :=
  ((recordsWritten s l).launches.map fun m => if ((s.withConsumer l).map (·.seq)).contains m.seq then
    { m with stage := .complete, aborted := l.aborted, reason := l.reason, nstop := l.nstop } else m).filter fun m =>
      decide (m.stage ≠ .complete) || m.node.isSome

/-- The state whose waits a completion releases. -/
theorem completeLaunch_released (s : State) (l : Launch) : ∃ u : State, s.completeLaunch l = u.releaseWaits ∧
    u.launches = launchesCompleted s l ∧ u.teams = (recordsWritten s l).teams.filter (fun t => decide (t.id.launch ≠ l.seq)) ∧
    u.telemetry = (recordsWritten s l).telemetry ∧ u.hostMem = (recordsWritten s l).hostMem :=
  ⟨_, rfl, rfl, rfl, rfl, rfl⟩

theorem completeLaunch_teams (s : State) (l : Launch) : ∀ x ∈ (s.completeLaunch l).teams, x.id.launch ≠ l.seq := by
  obtain ⟨u, hu, -, hteams, -⟩ := completeLaunch_released s l
  intro x hx
  rw [hu, releaseWaits_frame] at hx
  have hx' : x ∈ u.teams := hx
  rw [hteams, List.mem_filter] at hx'
  simpa using hx'.2

theorem completeLaunch_node (s : State) (l : Launch) : ∀ x ∈ (s.completeLaunch l).launches, x.seq = l.seq → x.node.isSome = true := by
  obtain ⟨u, hu, hlaunches, -⟩ := completeLaunch_released s l
  intro x hx hseq
  rw [hu, releaseWaits_frame] at hx
  obtain ⟨m, hm, rfl⟩ := List.mem_map.mp hx
  rw [waitReleased_frame] at hseq ⊢
  rw [hlaunches, launchesCompleted, List.mem_filter, List.mem_map] at hm
  obtain ⟨⟨m0, -, rfl⟩, hkept⟩ := hm
  have hlisted : l.seq ∈ (s.withConsumer l).map (·.seq) := by simp [State.withConsumer]
  by_cases hc : ((s.withConsumer l).map (·.seq)).contains m0.seq = true
  · rw [if_pos hc] at hkept ⊢
    simpa using hkept
  · rw [if_neg hc] at hseq
    exact absurd (List.contains_iff_mem.mpr (by rw [hseq]; exact hlisted)) hc

theorem completeLaunch_waiting (s : State) (l : Launch) : ∀ x ∈ (s.completeLaunch l).launches, x.stage = .waiting →
    (s.completeLaunch l).waitsDone x = false := by
  obtain ⟨u, hu, -⟩ := completeLaunch_released s l
  rw [hu]
  exact fun x hx => releaseWaits_waiting hx

theorem countAborted_telemetry (s : State) (b : Bool) :
    (s.countAborted b).telemetry.aborted = if b then satInc s.telemetry.aborted else s.telemetry.aborted := by
  unfold State.countAborted
  split <;> rfl

theorem countAborted_hostMem (s : State) (b : Bool) : (s.countAborted b).hostMem = s.hostMem := by
  unfold State.countAborted
  split <;> rfl

/-- A launch that runs for no consumer writes its own record. -/
theorem recordsWritten_alone {s : State} {l : Launch} (h : l.fused = none) : recordsWritten s l =
    (State.cpWrite (s.forgetStreams (StreamId.ofLaunch l.seq)) l.fn l.compDev l.compAddr.toNat
      (wordBytes (completionRecord l l.lid l.outcome.1 l.outcome.2 l.spliceCode s.clock.gtime))).countAborted l.aborted := by
  have halone : s.withConsumer l = [l] := by simp [State.withConsumer, h]
  rw [recordsWritten, halone]
  rfl

theorem completeLaunch_aborted {s : State} {l : Launch} (h : l.fused = none) : (s.completeLaunch l).telemetry.aborted =
    if l.aborted then satInc s.telemetry.aborted else s.telemetry.aborted := by
  obtain ⟨u, hu, -, -, htel, -⟩ := completeLaunch_released s l
  rw [hu, releaseWaits_frame]
  show u.telemetry.aborted = _
  rw [htel, recordsWritten_alone h, countAborted_telemetry, cpWrite_frame]
  rfl

theorem forgetStreams_hostMem (s : State) (f : StreamId → Bool) : (s.forgetStreams f).hostMem = s.hostMem := rfl

theorem completeLaunch_record {s : State} {l : Launch} (h : l.fused = none) (hdev : l.compDev = false) (haddr : l.compAddr ≠ 0) :
    (s.completeLaunch l).hostMem = (s.hostWriteBytes (if l.fn ≤ 8 then 0 else 1) l.compAddr.toNat
      (wordBytes (completionRecord l l.lid l.outcome.1 l.outcome.2 l.spliceCode s.clock.gtime))).hostMem := by
  obtain ⟨u, hu, -, -, -, hhost⟩ := completeLaunch_released s l
  have haddr' : l.compAddr.toNat ≠ 0 := fun h0 => haddr (BitVec.eq_of_toNat_eq h0)
  generalize hrec : wordBytes (completionRecord l l.lid l.outcome.1 l.outcome.2 l.spliceCode s.clock.gtime) = record
  calc (s.completeLaunch l).hostMem = u.hostMem := by rw [hu, releaseWaits_frame]
    _ = ((s.forgetStreams (StreamId.ofLaunch l.seq)).hostWriteBytes (linkOfFn l.fn) l.compAddr.toNat record).hostMem := by
      rw [hhost, recordsWritten_alone h, countAborted_hostMem, hdev, cpWrite_host _ _ _ haddr', hrec]
    _ = _ := hostWriteBytes_congr (forgetStreams_hostMem s _) _ _ _

/-! LAUNCH_COMPLETION. -/

theorem exec_launchCompletion {s : State} {L : Nat} {l : Launch} (hl : s.launch? L = some l) : exec (.launchCompletion L) s =
    .next (if decide (l.stage ≠ .complete) && (s.completesWith l).all s.mayComplete then
      (s.completesWith l).foldl (fun (s : State) m => s.completeLaunch m) s else s) := by
  show execLaunchCompletion L s = _
  simp only [execLaunchCompletion, hl]

end Sys2Proof.Claims
end

section
/-! The active and pending sets of a core (spec 01 R34-R38), and placement as a whole. -/

namespace Sys2Proof.Claims
open Sys2Proof.Machine

/-- The entry with which a pending group enters the active set. -/
def entering (s : State) (e : SetEntry) : SetEntry := ⟨e.group, s.clock.tick, s.clock.tick, false, e.starved⟩

/-- The entries of a group that leaves the active set. -/
def leaving (s : State) (c : Core) (g : GroupId) : List SetEntry :=
  (c.active.filter fun x => decide (x.group = g)).map fun x => ⟨x.group, s.clock.tick, s.clock.tick, false, false⟩

theorem swap_none (s : State) (c : Core) (e : SetEntry) : c.swap s.clock.tick e none =
    { c with active := c.active ++ [entering s e], pending := c.pending.filter fun x => decide (x.group ≠ e.group) } := by
  simp [Core.swap, entering]

theorem swap_some (s : State) (c : Core) (e : SetEntry) (g : GroupId) : c.swap s.clock.tick e (some g) = { c with
    active := (c.active.filter fun x => decide (x.group ≠ g)) ++ [entering s e]
    pending := (c.pending.filter fun x => decide (x.group ≠ e.group)) ++ leaving s c g } := by
  simp [Core.swap, entering, leaving]

/-- A ready pending group enters where there is room. -/
theorem exec_groupExchange_room {s : State} {core L T G : Nat} {c : Core} {e : SetEntry} (hc : s.cores[core]? = some c)
    (hin : s.incoming c = some e) (hroom : c.active.length < 8) : exec (.groupExchange core L T G) s =
      .next { s with cores := s.cores.set core (c.swap s.clock.tick e none) } := by
  show execGroupExchange core L T G s = _
  simp only [execGroupExchange, hc, hin, hroom, if_true]
  rw [mapCore_eq_set hc]

/-- It enters in place of an active group in a long-latency stall. -/
theorem exec_groupExchange_stalled {s : State} {core L T G : Nat} {c : Core} {e : SetEntry} (hc : s.cores[core]? = some c)
    (hin : s.incoming c = some e) (hfull : 8 ≤ c.active.length) (hactive : ∃ x ∈ c.active, x.group = ⟨⟨L, T⟩, G⟩)
    (hstall : ⟨⟨L, T⟩, G⟩ ∈ s.stalled) : exec (.groupExchange core L T G) s =
      .next { s with cores := s.cores.set core (c.swap s.clock.tick e (some ⟨⟨L, T⟩, G⟩)) } := by
  have hany : (c.active.any fun x => decide (x.group = ⟨⟨L, T⟩, G⟩)) = true := by simpa using hactive
  show execGroupExchange core L T G s = _
  simp only [execGroupExchange, hc, hin, Nat.not_lt.mpr hfull, if_false, hany,
    List.contains_iff_mem.mpr hstall, Bool.and_self, if_true]
  rw [mapCore_eq_set hc]

theorem exec_groupExchange_unstalled {s : State} {core L T G : Nat} {c : Core} (hc : s.cores[core]? = some c)
    (hfull : 8 ≤ c.active.length) (hstall : ⟨⟨L, T⟩, G⟩ ∉ s.stalled) : exec (.groupExchange core L T G) s = .next s := by
  have hno : s.stalled.contains ⟨⟨L, T⟩, G⟩ = false := by simpa using hstall
  show execGroupExchange core L T G s = _
  simp only [execGroupExchange, hc]
  split
  · rfl
  · simp only [Nat.not_lt.mpr hfull, if_false, hno, Bool.and_false, Bool.false_eq_true]

theorem exec_groupStarved {s : State} {core L T G : Nat} {c : Core} (hc : s.cores[core]? = some c) (hready : ⟨⟨L, T⟩, G⟩ ∈ s.noted) :
    exec (.groupStarved core L T G) s = .next { s with cores := s.cores.set core { c with
      pending := c.pending.map fun x => if x.group = ⟨⟨L, T⟩, G⟩ ∧ x.starved = false then
        { x with starved := true, lastIssue := s.clock.tick } else x } } := by
  show execGroupStarved core L T G s = _
  simp only [execGroupStarved, List.contains_iff_mem.mpr hready, if_true]
  rw [mapCore_eq_set hc]
  simp only [Bool.and_eq_true, decide_eq_true_eq, Bool.not_eq_true']

/-- The starved group takes the place of the group that has been active longest among those of the lowest level. -/
theorem exec_forcedExchange {s : State} {core : Nat} {c : Core} {e out : SetEntry} (hc : s.cores[core]? = some c)
    (hstarved : s.longest (·.lastIssue) (c.pending.filter fun x => x.starved && s.noted.contains x.group) = some e)
    (hkept : ∀ x ∈ c.active, x.kept = false)
    (hout : s.longest (·.since) (c.active.filter fun x =>
      decide (s.levelOf x.group = ((c.active.map fun y => s.levelOf y.group).min?.getD 0))) = some out) :
    exec (.forcedExchange core) s = .next { s with cores := s.cores.set core (c.swap s.clock.tick e (some out.group)) } := by
  have hmovable : (c.active.filter fun x => !x.kept) = c.active := List.filter_eq_self.mpr fun x hx => by simp [hkept x hx]
  show execForcedExchange core s = _
  simp only [execForcedExchange, hc, hmovable, hstarved, hout]
  rw [mapCore_eq_set hc]

/-- The switched core has the launch's pool configuration, and no line in its L1. -/
theorem exec_poolSwitchComplete {s : State} {core L : Nat} {c : Core} {p : Pool} (hc : s.cores[core]? = some c)
    (hs : c.switching = some (L, p)) : exec (.poolSwitchComplete core) s =
      .next { s with cores := s.cores.set core (c.setPool p) } := by
  show execPoolSwitchComplete core s = _
  rw [execPoolSwitchComplete, mapCore_eq_set hc]
  simp only [hs]

/-- A gang waits for all its parts. -/
theorem completesWith_waits {s : State} {l : Launch} (hgang : l.gang ≠ 0)
    (h : ∃ m ∈ s.launches, m.gang = l.gang ∧ m.stage ≠ .complete ∧
      (m.stage ≠ .ready ∨ m.retired ≠ m.grid ∨ s.launchQuiet m.seq = false)) : (s.completesWith l).all s.mayComplete = false := by
  obtain ⟨m, hm, hsame, hstage, hnot⟩ := h
  rw [List.all_eq_false]
  refine ⟨m, ?_, ?_⟩
  · rw [State.completesWith, if_neg hgang, List.mem_filter]
    exact ⟨hm, by simp [hsame, hstage]⟩
  · rcases hnot with h | h | h <;> simp [State.mayComplete, h]

theorem mayComplete_alone {s : State} {l : Launch} (hstage : l.stage = .ready) (hretired : l.retired = l.grid)
    (hquiet : s.launchQuiet l.seq = true)
    (hstalls : ∀ m ∈ s.withConsumer l, s.cpStalls m.fn m.compDev m.compAddr.toNat 96 true = false) :
    s.mayComplete l = true := by
  simp only [State.mayComplete, hstage, hretired, hquiet, decide_true, Bool.true_and, List.all_eq_true, Bool.not_eq_true']
  exact hstalls

theorem launch?_seq {s : State} {n : Nat} {l : Launch} (h : s.launch? n = some l) : l.seq = n := by simpa using List.find?_some h

theorem team?_id {s : State} {id : TeamId} {t : Team} (h : s.team? id = some t) : t.id = id := by simpa using List.find?_some h

/-- The order of R31, as the statement has it. -/
theorem waitingLaunches_order (s : State) (P : Nat) : (s.waitingLaunches P).Pairwise fun a b =>
    (s.precedence b = true → s.precedence a = true) ∧
    (s.precedence a = s.precedence b → b.prio ≤ a.prio ∧ (a.prio = b.prio → a.seq ≤ b.seq)) := by
  refine (waitingLaunches_sorted s P).imp fun {a b} h => ?_
  rw [before_iff] at h
  rcases h with ⟨ha, hb⟩ | ⟨hab, hle⟩
  · simp [ha, hb]
  · exact ⟨fun hb => hab ▸ hb, fun _ => by omega⟩

/-- The limiting resource of a kernel under a pool configuration. -/
theorem limiting_of_demand (p : Pool) (k : KernelRec) (j : Nat) (hj : j < 4) (hd : k.demand.getD j 0 ≠ 0) :
    let i := limiting p.capacity k.demand
    k.demand.getD i 0 ≠ 0 ∧ (p.capacity.getD i 0 / k.demand.getD i 0 < p.capacity.getD j 0 / k.demand.getD j 0 ∨
      (p.capacity.getD i 0 / k.demand.getD i 0 = p.capacity.getD j 0 / k.demand.getD j 0 ∧ i ≤ j)) := by
  have hdj : k.demand[j]? = some (k.demand.getD j 0) := by
    rw [List.getD_eq_getElem?_getD, List.getElem?_eq_getElem (show j < k.demand.length from hj), Option.getD_some]
  have hcj : p.capacity[j]? = some (p.capacity.getD j 0) := by
    rw [List.getD_eq_getElem?_getD, List.getElem?_eq_getElem (show j < p.capacity.length from hj), Option.getD_some]
  obtain ⟨ci, di, hci, hdi, hne, hleast⟩ := limiting_least hcj hdj hd
  intro i
  rw [show k.demand.getD i 0 = di by rw [List.getD_eq_getElem?_getD, hdi, Option.getD_some],
    show p.capacity.getD i 0 = ci by rw [List.getD_eq_getElem?_getD, hci, Option.getD_some]]
  exact ⟨hne, hleast⟩

/-- The clause about retirement. -/
theorem teamRetirement_retires {s : State} {L T C : Nat} {t : Team} {l : Launch} (ht : s.team? ⟨L, T⟩ = some t)
    (hl : s.launch? L = some l) (hfin : t.finished l.dbg = true) (hcore : t.core? = some C)
    (hgangs : ∀ g ∈ s.gangs, g.state ≠ .backoff) :
    exec (.teamRetirement L T) s = .next (remembering (leftCore s t L) (s.noteFreed (leftCore s t L) C)) := by
  have hid := team?_id ht
  have hseq := launch?_seq hl
  rw [exec_teamRetirement ht hl hfin (by rw [hcore]; rfl), retireTeam_eq (by rw [hid, hseq]) hcore hgangs, hseq]

theorem leftCore_teamIs {s : State} {L T : Nat} {t : Team} (ht : s.team? ⟨L, T⟩ = some t) (f : Launch → Launch) :
    TeamIs s (remembering (leftCore s t L) f) ⟨L, T⟩ (retiredTeam s t) := by
  have hid := team?_id ht
  have hrid : (retiredTeam s t).id = ⟨L, T⟩ := hid
  refine ⟨?_, fun u hu => ?_⟩
  · have := team?_setTeam s (t := retiredTeam s t) (by rw [hrid, ht]; rfl)
    rwa [hrid] at this
  · exact team?_setTeam_other s (retiredTeam s t) (by rwa [hrid])

/-- What the statement says of each launch: the team's is counted, and away when no team of it is on a core; another only remembers. -/
theorem retired_launch_clause {s : State} {L T C k : Nat} {t : Team} {m : Launch} (hid : t.id = ⟨L, T⟩)
    (hm : s.launches[k]? = some m) :
    let s' := remembering (leftCore s t L) (s.noteFreed (leftCore s t L) C)
    ∃ m' : Launch, s'.launches[k]? = some m' ∧
      (m.seq = L → m' = { m with
        retired := m.retired + 1
        vtSum := m.vtSum + (s.vtime t).toNat
        away := m'.away
        refill := m'.refill } ∧
        ((∃ x ∈ s.teams, x.id.launch = L ∧ x.id ≠ t.id ∧ x.core?.isSome = true) → m'.away = m.away) ∧
        ((∀ x ∈ s.teams, x.id.launch = L → x.id ≠ t.id → x.core? = none) → m'.away = m.away.or (some s.clock.gtime))) ∧
      (m.seq ≠ L → m' = { m with refill := m'.refill } ∧
        ((s.nextTeam m).isSome = true → m.refill = [] → (∀ x ∈ s.coresOf m.domain, s.fitsOn m x = false) →
          m'.refill = if C ∈ s.coresOf m.domain ∧ s'.fitsOn m C = true then [(C, s.clock.cycles, s'.placesOn m C)] else [])) := by
  obtain ⟨m', hm', hown, hother⟩ := retired_launch (s := s) (t := t) (n := L) (core := C) hm
  have hlaunch : t.id.launch = L := by rw [hid]
  refine ⟨m', hm', fun h => ?_, hother⟩
  have haway : m'.away = if staysPlaced s t.id then m.away else m.away.or (some s.clock.gtime) := by rw [hown h]; rfl
  refine ⟨by rw [hown h]; rfl, fun hstays => ?_, fun hleaves => ?_⟩
  · rw [haway, staysPlaced_true (by rw [hlaunch]; exact hstays), if_pos rfl]
  · rw [haway, staysPlaced_false (by rw [hlaunch]; exact hleaves), if_neg Bool.false_ne_true]

end Sys2Proof.Claims

open Sys2Proof Sys2Proof.Machine Sys2Proof.Claims

/-- Settles O45: the order and the choice of a core, the steps of the distributor, and the sets of a core. -/
theorem placement : Obligations.Placement := by
  refine ⟨fun s P l except C => ?_, fun s P C L T i l l2 ls c p t => ?_, fun s C L T G c e out hc => ?_⟩
  · exact ⟨mem_waitingLaunches s P l, waitingLaunches_order s P, mem_coresOf s P C, fitsOn_iff s l C,
      limiting_of_demand l.pool l.krec, pickAmong_none s except l, pickAmong_some, rfl, markChoice_some⟩
  · refine ⟨fun hdrop hw hsw hnext hpick hnone _ => ?_, fun hdrop hw hsw hpick => ?_,
      fun hdrop hw hsw hnext hpick hteam hid hsaved _ _ => ?_, fun hdrop hw hpick hmark hc => ?_, fun hdrop hw hpick hmark hnext hpick2 hnone _ => ?_,
      fun hw hmem honly hP hquiet hfirst hc => ?_, fun hc hs => ?_, fun ht hl hfin hcore hgangs => ?_,
      fun hl hstage hgang hparts => ?_, fun hl hgang hstage hretired hquiet hstalls hnode => ?_⟩
    · exact ⟨_, exec_teamPlacement_places hdrop hw hsw hnext hpick, placeTeam_first C hnone⟩
    · obtain ⟨core, hcore⟩ := Option.isSome_iff_exists.mp hpick
      rw [exec_teamPlacement_fits hdrop hw hcore, if_pos hsw]
    · exact ⟨_, exec_teamPlacement_places hdrop hw hsw hnext hpick, placeTeam_restored C hteam hid hsaved⟩
    · rw [exec_teamPlacement_unfit hdrop hw hpick, hmark, State.placeFirst, Option.elim_some]
      show (.next (s.mapCore C fun c => { c with marked := some l.seq }) : Res) = _
      rw [mapCore_eq_set hc]
    · refine ⟨_, ?_, placeTeam_first C hnone⟩
      rw [exec_teamPlacement_unfit hdrop hw hpick, hmark, Option.elim_none, placeFirst_cons ls hnext hpick2]
    · exact exec_poolSwitch hw hmem honly hP hquiet hfirst hc
    · exact exec_poolSwitchComplete hc hs
    · refine ⟨_, teamRetirement_retires ht hl hfin hcore hgangs, leftCore_teamIs ht _, ?_, fun k m hm => ?_⟩
      · rw [← team?_id ht]
        rfl
      · exact retired_launch_clause (team?_id ht) hm
    · rw [exec_launchCompletion hl, completesWith_waits hgang hparts, Bool.and_false, if_neg Bool.false_ne_true]
    · have hseq := launch?_seq hl
      subst hseq
      refine ⟨_, ?_, rfl, completeLaunch_teams s l, completeLaunch_node s l, completeLaunch_aborted, completeLaunch_record,
        completeLaunch_waiting s l⟩
      have hparts : s.completesWith l = [l] := by rw [State.completesWith, if_pos hgang]
      rw [exec_launchCompletion hl, hparts, List.all_cons, mayComplete_alone hstage hretired hquiet hstalls, hstage]
      rfl
  · refine ⟨fun hin hroom => ?_, fun hin hfull hactive hstall => ?_, exec_groupExchange_unstalled hc, exec_groupStarved hc,
      fun hstarved hkept hout => ?_⟩
    · rw [exec_groupExchange_room hc hin hroom, swap_none]
      rfl
    · rw [exec_groupExchange_stalled hc hin hfull hactive hstall, swap_some]
      rfl
    · rw [exec_forcedExchange hc hstarved hkept hout, swap_some]
      rfl
end

section
/-! The canonical form of the byte stores (spec 03 R65): of a team, of the module, and what storing into them keeps. -/

namespace Sys2Proof.Claims
open Sys2Proof.Machine

/-- The byte stores of a team are canonical: `teamWf`, kept closed so that a lemma about an operation rewrites it. -/
def TeamWf (t : Team) : Prop := teamWf t

/-- Every byte store of the state is canonical: `memoriesWf`, kept closed so that a lemma about an operation rewrites it. -/
def StoresWf (s : State) : Prop := memoriesWf s

def TeamsWf (ts : List Team) : Prop := ∀ t ∈ ts, TeamWf t
def HostsWf (hs : List (Nat × Memory)) : Prop := ∀ h ∈ hs, Memory.wf h.2 = true
def PeersWf (ps : List Peer) : Prop := ∀ p ∈ ps, Memory.wf p.mem = true
def CutsWf (js : List CutJob) : Prop := ∀ j ∈ js, TeamsWf j.teams

variable {s : State} {t : Team}

/-! Of a state only the five stores matter, and of a team its scratchpad and its .priv bytes. -/

theorem storesWf_iff : StoresWf s ↔ Memory.wf s.mem = true ∧ HostsWf s.hostMem ∧ PeersWf s.peers ∧ TeamsWf s.teams ∧ CutsWf s.cuts :=
  Iff.rfl

/-- What is replaced beside the stores does not matter. -/
@[simp] theorem storesWf_mk
    (x1 x2 x3 x4 x5 x6 x7 x8 x9 x10 mem hosts peers x14 x15 teams x17 x18 x19 x20 x21 x22 x23 x24 x25 x26 x27 x28 x29 x30
    x31 x32 x33 x34 x35 x36 x37 x38 x39 x40 x41 cuts x43 x44 x45 x46 x47 x48 x49 x50 x51 x52 x53 x54 x55 x56 x57 x58 x59 x60) :
    StoresWf ⟨x1, x2, x3, x4, x5, x6, x7, x8, x9, x10, mem, hosts, peers, x14, x15, teams, x17, x18, x19, x20, x21, x22, x23, x24, x25, x26,
      x27, x28, x29, x30, x31, x32, x33, x34, x35, x36, x37, x38, x39, x40, x41, cuts, x43, x44, x45, x46, x47, x48, x49, x50,
      x51, x52, x53, x54, x55, x56, x57, x58, x59, x60⟩ ↔ Memory.wf mem = true ∧ HostsWf hosts ∧ PeersWf peers ∧ TeamsWf teams ∧ CutsWf cuts :=
  Iff.rfl

@[simp] theorem teamWf_mk (x1 x2 x3 x4 x5 x6 x7 x8 x9 x10 x11 spad priv x14 x15 x16 x17 x18 x19) :
    TeamWf ⟨x1, x2, x3, x4, x5, x6, x7, x8, x9, x10, x11, spad, priv, x14, x15, x16, x17, x18, x19⟩ ↔
      Memory.wf spad = true ∧ Memory.wf priv = true :=
  Iff.rfl

@[simp] theorem TeamWf.spad (h : TeamWf t) : Memory.wf t.spad = true := h.1
@[simp] theorem TeamWf.priv (h : TeamWf t) : Memory.wf t.priv = true := h.2

@[simp] theorem StoresWf.mem (h : StoresWf s) : Memory.wf s.mem = true := h.1
@[simp] theorem StoresWf.hosts (h : StoresWf s) : HostsWf s.hostMem := h.2.1
@[simp] theorem StoresWf.peers (h : StoresWf s) : PeersWf s.peers := h.2.2.1
@[simp] theorem StoresWf.teams (h : StoresWf s) : TeamsWf s.teams := h.2.2.2.1
@[simp] theorem StoresWf.cuts (h : StoresWf s) : CutsWf s.cuts := h.2.2.2.2

theorem StoresWf.of_eq {s' : State} (h : StoresWf s) (hm : s'.mem = s.mem) (hh : s'.hostMem = s.hostMem) (hp : s'.peers = s.peers)
    (ht : s'.teams = s.teams) (hc : s'.cuts = s.cuts) : StoresWf s' := by
  rw [storesWf_iff, hm, hh, hp, ht, hc]
  exact h

/-! Lists of stores. -/

@[simp] theorem TeamsWf.nil : TeamsWf [] := fun _ ht => absurd ht List.not_mem_nil

@[simp] theorem TeamsWf.map {ts : List Team} (h : TeamsWf ts) {f : Team → Team} (hf : ∀ t, TeamWf t → TeamWf (f t)) :
    TeamsWf (ts.map f) := by
  intro t ht
  obtain ⟨u, hu, rfl⟩ := List.mem_map.mp ht
  exact hf u (h u hu)

@[simp] theorem TeamsWf.filter {ts : List Team} (h : TeamsWf ts) (p : Team → Bool) : TeamsWf (ts.filter p) :=
  fun t ht => h t (List.mem_of_mem_filter ht)

@[simp] theorem TeamsWf.append {ts us : List Team} (h : TeamsWf ts) (hu : TeamsWf us) : TeamsWf (ts ++ us) :=
  fun t ht => (List.mem_append.mp ht).elim (h t) (hu t)

@[simp] theorem PeersWf.map {ps : List Peer} (h : PeersWf ps) {f : Peer → Peer}
    (hf : ∀ p, Memory.wf p.mem = true → Memory.wf (f p).mem = true) : PeersWf (ps.map f) := by
  intro p hp
  obtain ⟨q, hq, rfl⟩ := List.mem_map.mp hp
  exact hf q (h q hq)

@[simp] theorem CutsWf.map {js : List CutJob} (h : CutsWf js) {f : CutJob → CutJob} (hf : ∀ j, TeamsWf j.teams → TeamsWf (f j).teams) :
    CutsWf (js.map f) := by
  intro j hj
  obtain ⟨k, hk, rfl⟩ := List.mem_map.mp hj
  exact hf k (h k hk)

@[simp] theorem CutsWf.filter {js : List CutJob} (h : CutsWf js) (p : CutJob → Bool) : CutsWf (js.filter p) :=
  fun j hj => h j (List.mem_of_mem_filter hj)

@[simp] theorem CutsWf.append {js ks : List CutJob} (h : CutsWf js) (hk : CutsWf ks) : CutsWf (js ++ ks) :=
  fun j hj => (List.mem_append.mp hj).elim (h j) (hk j)

/-- Work done for each entry of a list keeps the stores when the work for one entry does. -/
theorem StoresWf.foldl {α : Type} {f : State → α → State} (h : StoresWf s) (hf : ∀ s x, StoresWf s → StoresWf (f s x)) (xs : List α) :
    StoresWf (xs.foldl f s) := by
  induction xs generalizing s with
  | nil => exact h
  | cons x xs ih => exact ih (hf s x h)

/-- The same for work on the entries that the list holds. -/
theorem StoresWf.foldl_mem {α : Type} {f : State → α → State} (h : StoresWf s) (xs : List α)
    (hf : ∀ s, ∀ x ∈ xs, StoresWf s → StoresWf (f s x)) : StoresWf (xs.foldl f s) := by
  induction xs generalizing s with
  | nil => exact h
  | cons x xs ih => exact ih (hf s x List.mem_cons_self h) fun s y hy => hf s y (List.mem_cons_of_mem x hy)

@[simp] theorem StoresWf.ite {p : Prop} [Decidable p] {a b : State} (ha : p → StoresWf a) (hb : ¬ p → StoresWf b) :
    StoresWf (if p then a else b) := by
  split
  · next hp => exact ha hp
  · next hp => exact hb hp

/-! Teams and groups. -/

@[simp] theorem StoresWf.mapTeam (h : StoresWf s) (id : TeamId) {f : Team → Team} (hf : ∀ t, TeamWf t → TeamWf (f t)) :
    StoresWf (s.mapTeam id f) := by
  refine ⟨h.mem, h.hosts, h.peers, h.teams.map fun t ht => ?_, h.cuts⟩
  split
  · exact hf t ht
  · exact ht

@[simp] theorem StoresWf.setTeam (h : StoresWf s) (ht : TeamWf t) : StoresWf (s.setTeam t) := h.mapTeam _ fun _ _ => ht

theorem StoresWf.team? (h : StoresWf s) {id : TeamId} (ht : s.team? id = some t) : TeamWf t :=
  h.teams t (List.mem_of_find?_eq_some ht)

@[simp] theorem StoresWf.setGroup (h : StoresWf s) (id : GroupId) (g : Group) : StoresWf (s.setGroup id g) := h.mapTeam _ fun _ ht => ht

@[simp] theorem StoresWf.mapGroup (h : StoresWf s) (id : GroupId) (f : Group → Group) : StoresWf (s.mapGroup id f) :=
  h.mapTeam _ fun _ ht => ht

/-! Bytes stored at a location. -/

@[simp] theorem StoresWf.hostWrite (h : StoresWf s) (link a : Nat) (v : Byte) : StoresWf (s.hostWrite link a v) := by
  unfold State.hostWrite
  split
  · refine ⟨h.mem, fun x hx => ?_, h.peers, h.teams, h.cuts⟩
    obtain ⟨y, hy, rfl⟩ := List.mem_map.mp hx
    split
    · exact Memory.wf_write _ _ _ (h.hosts y hy)
    · exact h.hosts y hy
  · refine ⟨h.mem, fun x hx => ?_, h.peers, h.teams, h.cuts⟩
    rcases List.mem_append.mp hx with hx | hx
    · exact h.hosts x hx
    · obtain rfl := List.mem_singleton.mp hx
      exact Memory.wf_write _ _ _ Memory.wf_nil

@[simp] theorem StoresWf.writeLoc (h : StoresWf s) (l : Loc) (v : Byte) : StoresWf (s.writeLoc l v) := by
  cases l with
  | phys a => exact ⟨Memory.wf_write _ _ _ h.mem, h.hosts, h.peers, h.teams, h.cuts⟩
  | host f a => exact h.hostWrite _ _ _
  | peer m a =>
    refine ⟨h.mem, h.hosts, h.peers.map fun p hp => ?_, h.teams, h.cuts⟩
    split
    · exact Memory.wf_write _ _ _ hp
    · exact hp
  | spad t o => exact h.mapTeam _ fun t ht => ⟨Memory.wf_write _ _ _ ht.spad, ht.priv⟩
  | priv t o => exact h.mapTeam _ fun t ht => ⟨ht.spad, Memory.wf_write _ _ _ ht.priv⟩
  | regWin t g o => exact h.mapGroup _ _
  | tileWin t k o => exact h.mapTeam _ fun _ ht => ht
  | fused n o => exact h

@[simp] theorem StoresWf.markHits (h : StoresWf s) (hs : List Hit) (w : Bool) : StoresWf (s.markHits hs w) := by
  refine h.foldl (fun s x h => ?_) hs
  split
  · exact h
  · exact ⟨Memory.wf_markEntry _ _ _ h.mem, h.hosts, h.peers, h.teams, h.cuts⟩
  · refine ⟨h.mem, h.hosts, h.peers.map fun p hp => ?_, h.teams, h.cuts⟩
    split
    · exact Memory.wf_markEntry _ _ _ hp
    · exact hp

end Sys2Proof.Claims
end

section
/-! One lemma for each operation on the state: what it stores is canonical when what stood there was (spec 03 R65, R76). -/

namespace Sys2Proof.Claims
open Sys2Proof.Machine
variable {s : State} {t : Team}
@[simp] theorem StoresWf.mapLaunch (h : StoresWf s) (n : ℕ) (f : Launch → Launch) : StoresWf (s.mapLaunch n f) := h

@[simp] theorem StoresWf.mapCore (h : StoresWf s) (c : ℕ) (f : Core → Core) : StoresWf (s.mapCore c f) := h

@[simp] theorem StoresWf.mapFn (h : StoresWf s) (n : ℕ) (f : Fn → Fn) : StoresWf (s.mapFn n f) := h

@[simp] theorem StoresWf.touchLine (h : StoresWf s) (core : ℕ) (start : Loc) : StoresWf (s.touchLine core start) := by
  unfold State.touchLine
  simp [h]

@[simp] theorem StoresWf.touch (h : StoresWf s) (core : Nat) (locs : List Loc) : StoresWf (s.touch core locs) :=
  h.foldl (fun _ l h => h.touchLine core l) _

@[simp] theorem StoresWf.refresh (h : StoresWf s) (core : ℕ) (locs : List Loc) : StoresWf (s.refresh core locs) := h

@[simp] theorem StoresWf.dropLines (h : StoresWf s) (core : ℕ) (locs : List Loc) : StoresWf (s.dropLines core locs) := h

@[simp] theorem StoresWf.clearL1 (h : StoresWf s) (core : ℕ) : StoresWf (s.clearL1 core) := h

@[simp] theorem StoresWf.clearL1Of (h : StoresWf s) (t : TeamId) : StoresWf (s.clearL1Of t) := by
  unfold State.clearL1Of
  split <;> simp [h]

@[simp] theorem StoresWf.storeCells (h : StoresWf s) (cs : List (Loc × Byte)) : StoresWf (s.storeCells cs) :=
  h.foldl (fun _ c h => h.writeLoc c.1 c.2) _

@[simp] theorem StoresWf.storeThrough (h : StoresWf s) (core : ℕ) (cs : List (Loc × Byte)) : StoresWf (s.storeThrough core cs) := by
  unfold State.storeThrough
  simp [h]

@[simp] theorem StoresWf.hostWriteBytes (h : StoresWf s) (link a : Nat) (bs : List Byte) : StoresWf (s.hostWriteBytes link a bs) :=
  h.foldl (fun _ b h => h.hostWrite link _ b.1) _

@[simp] theorem StoresWf.enterFault (h : StoresWf s) (fn : Nat) (p : PageFault) : StoresWf (s.enterFault fn p) := by
  unfold State.enterFault
  extract_lets f n s1
  split
  · exact h.mapFn _ _
  · exact (h.hostWriteBytes _ _ _).mapFn _ _

@[simp] theorem StoresWf.groupPageFault (h : StoresWf s) (id : GroupId) (l : Launch) (va : ℕ) (write : Bool) (peer : Option (ℕ × ℕ))
    (pri : Bool) (lo : W64) (hi : W64) : StoresWf (s.groupPageFault id l va write peer pri lo hi) := by
  unfold State.groupPageFault
  simp [h]

@[simp] theorem StoresWf.stopGroup (h : StoresWf s) (id : GroupId) (r : FaultRecord) : StoresWf (s.stopGroup id r) := by
  unfold State.stopGroup
  simp [h]

@[simp] theorem StoresWf.deliverRecord (h : StoresWf s) (l : Launch) (t : Team) (id : GroupId) (g : Group) (r : FaultRecord) :
    StoresWf (s.deliverRecord l t id g r) := by
  unfold State.deliverRecord
  split
  · exact h.stopGroup _ _
  · extract_lets hd g1 g'
    split
    · exact h.stopGroup _ _
    · split
      · exact (h.setGroup _ _).stopGroup _ _
      · exact h.setGroup _ _

@[simp] theorem StoresWf.patchAct (h : StoresWf s) (id : GroupId) (k : Nat) (p : PatchSlot) (word : W32) (r : Option FaultRecord) :
    StoresWf (s.patchAct id k p word r) := by
  have h1 : StoresWf { s with telemetry := { s.telemetry with patchActs := satInc s.telemetry.patchActs } } := h
  unfold State.patchAct
  split
  · exact h1.mapGroup _ _
  · split
    · exact h1.mapGroup _ _
    · exact h1

@[simp] theorem StoresWf.clearLost (h : StoresWf s) (t : TeamId) (r : FaultRecord) : StoresWf (s.clearLost t r) := by
  unfold State.clearLost
  split
  · exact h.mapTeam _ fun _ ht => ht
  · exact h

@[simp] theorem StoresWf.deliver (h : StoresWf s) (id : GroupId) (ti : TrapInfo) (done : Bool) (word : W32) :
    StoresWf (s.deliver id ti done word) := by
  unfold State.deliver
  (repeat' split) <;> simp [h]

@[simp] theorem StoresWf.deliverPatched (h : StoresWf s) (id : GroupId) (slot : ℕ) (r : FaultRecord) :
    StoresWf (s.deliverPatched id slot r) := by
  unfold State.deliverPatched
  split <;> simp [h]

@[simp] theorem StoresWf.streamStop (h : StoresWf s) (id : TeamId) (kind : Nat) : StoresWf (s.streamStop id kind) :=
  h.mapTeam _ fun _ ht => ht

@[simp] theorem StoresWf.atomAccess (h : StoresWf s) (a : AtomAccess) : StoresWf (s.atomAccess a).2 := h.storeCells _

@[simp] theorem StoresWf.atomAccesses (h : StoresWf s) (as : List AtomAccess) : StoresWf (s.atomAccesses as).2 := by
  induction as generalizing s with
  | nil => exact h
  | cons a as ih => exact ih (h.atomAccess a)

@[simp] theorem StoresWf.traffic (h : StoresWf s) (src : ℕ) (d : Dest) : StoresWf (s.traffic src d) := h

@[simp] theorem StoresWf.trafficTo (h : StoresWf s) (src : Nat) (hs : List Hit) : StoresWf (s.trafficTo src hs) :=
  h.foldl (fun _ d h => h.traffic src d) _

@[simp] theorem StoresWf.mapPacket (h : StoresWf s) (id : ℕ) (f : Packet → Packet) : StoresWf (s.mapPacket id f) := h

@[simp] theorem StoresWf.mapChan (h : StoresWf s) (o : ChanOwner) (c : Nat) (f : Channel → Channel) : StoresWf (s.mapChan o c f) := by
  cases o with
  | team t => exact h.mapTeam _ fun _ ht => ht
  | forager d => exact h

theorem StoresWf.openStream (h : StoresWf s) {o : ChanOwner} {c : Nat} {dest : Dest} {s' : State}
    (hs : s.openStream o c dest = some s') :
    StoresWf s' := by
  unfold State.openStream at hs
  extract_lets ch fresh at hs
  split at hs
  · split at hs
    · cases hs
      exact h
    · cases hs
  · split at hs
    · cases hs
      exact h.mapChan _ _ _
    · split at hs
      · cases hs
      · split at hs
        · cases hs
          exact h.mapChan _ _ _
        · cases hs

theorem StoresWf.sendOp (h : StoresWf s) {o : ChanOwner} {c group : Nat} {tag : SendTag} {dest : Dest} {op : ChanOp} {s' : State}
    (hs : s.sendOp o c group tag dest op = some s') : StoresWf s' := by
  obtain ⟨s1, hs1, rfl⟩ := Option.map_eq_some_iff.mp hs
  exact (h.openStream hs1).mapChan _ _ _

theorem StoresWf.sendOps {o : ChanOwner} {c group : Nat} {s' : State} (xs : List Outgoing) (tag : SendTag) (h : StoresWf s)
    (hs : s.sendOps o c group tag xs = some s') : StoresWf s' := by
  induction xs generalizing s tag with
  | nil =>
    cases hs
    exact h
  | cons x xs ih =>
    obtain ⟨s1, hs1, hs'⟩ := Option.bind_eq_some_iff.mp hs
    exact ih _ (h.sendOp hs1) hs'

@[simp] theorem StoresWf.spoilTile (h : StoresWf s) (t : TeamId) (tile : Nat) : StoresWf (s.spoilTile t tile) := by
  unfold State.spoilTile
  split
  · exact h
  · next tm htm =>
    have ht : TeamWf tm := h.team? htm
    split
    · exact h.setTeam ht
    · exact h

@[simp] theorem StoresWf.engineStore (h : StoresWf s) (cells : List (Loc × Byte)) : StoresWf (s.engineStore cells) := by
  unfold State.engineStore
  split <;> simp [h]

@[simp] theorem StoresWf.mismatched (h : StoresWf s) (r : Replay) (inst : W32) : StoresWf (s.mismatched r inst) := h

@[simp] theorem StoresWf.storeChunk (h : StoresWf s) (dest : Dest) (sig : Option (SigOrigin × Signature)) (cells : List (Loc × Byte)) :
    StoresWf (s.storeChunk dest sig cells) := by
  unfold State.storeChunk
  split <;> simp [h]

@[simp] theorem StoresWf.l1After (h : StoresWf s) (p : Packet) : StoresWf (s.l1After p) := by
  unfold State.l1After
  (repeat' split) <;> simp [h]

@[simp] theorem StoresWf.performPacket (h : StoresWf s) (p : Packet) : StoresWf (s.performPacket p) := by
  unfold State.performPacket
  cases p.op with
  | store cells => exact (h.storeCells cells).l1After p
  | chunk cmd cells sig => exact (h.storeChunk _ sig cells).l1After p
  | atomic accs prod => exact (h.atomAccesses accs).l1After p

@[simp] theorem StoresWf.joinChan (h : StoresWf s) (t : TeamId) (ca : ℕ) (cb : ℕ) : StoresWf (s.joinChan t ca cb) := by
  unfold State.joinChan
  simp [h]

@[simp] theorem StoresWf.addFlight (h : StoresWf s) (f : Flight) : StoresWf (s.addFlight f) := h

@[simp] theorem wf_freeStored {m : Memory} (h : Memory.wf m = true) (free : Nat) (bad : Nat → Nat → Bool) (map : BitVec 128)
    (outf : Nat) :
    Memory.wf (freeStored free bad map outf m) = true := by
  refine Memory.wf_foldl _ (fun m i hm => Memory.wf_foldl _ (fun m j hm => ?_) _ m hm) _ m h
  split
  · exact Memory.wf_writeLe _ _ _ _ hm
  · exact hm

theorem TeamWf.spoilOut (h : TeamWf t) (free tile : Nat) (bad : Nat → Nat → Bool) (op : StreamOp) :
    TeamWf (t.spoilOut free tile bad op) := by
  cases op with
  | mxread tl port grp hi vd sl =>
    show TeamWf (if tl = tile then _ else t)
    split
    · exact h
    · exact h
  | mstore tl map outf stored =>
    show TeamWf (if tl = tile then _ else t)
    split
    · exact (teamWf_mk ..).mpr ⟨wf_freeStored h.spad _ _ _ _, h.priv⟩
    · exact h
  | mzero _ => exact h
  | mma _ _ _ _ _ _ => exact h

theorem TeamWf.foldl {α : Type} {f : Team → α → Team} (h : TeamWf t) (hf : ∀ t x, TeamWf t → TeamWf (f t x)) (xs : List α) :
    TeamWf (xs.foldl f t) := by
  induction xs generalizing t with
  | nil => exact h
  | cons x xs ih => exact ih (hf t x h)

theorem TeamWf.spoil (h : TeamWf t) (free tile : Nat) (batch : W32) (bad : Nat → Nat → Bool) : TeamWf (t.spoil free tile batch bad) :=
  TeamWf.foldl (by exact h) (fun _ o h => h.spoilOut free tile bad o.2) _

@[simp] theorem TeamWf.earlyWrites (h : TeamWf t) (free : Nat) (ws : List (Option Nat × OpPlace)) : TeamWf (t.earlyWrites free ws) := by
  unfold Team.earlyWrites
  split
  · exact h
  · refine TeamWf.foldl (by exact h) (fun t m h => ?_) _
    dsimp only
    split
    · exact h
    · exact h.spoil _ _ _ _

@[simp] theorem StoresWf.noteWrites (h : StoresWf s) (before : State) (id : GroupId) (wrote : List OpPlace) :
    StoresWf (State.noteWrites before id wrote s) := by
  unfold State.noteWrites
  split
  · next hb =>
    split
    · extract_lets mine others ws t1
      split
      · exact h
      · have ht : TeamWf t1 := (h.team? hb).earlyWrites _ _
        exact h.setTeam (t := { t1 with seq := _ }) ht
    · exact h
  · exact h

@[simp] theorem StoresWf.noteEngine (h : StoresWf s) (ws : List (Option GroupId × Loc)) : StoresWf (s.noteEngine ws) := by
  refine h.foldl_mem s.teams fun s1 t ht h1 => ?_
  extract_lets mine t1
  split
  · exact h1
  · have ht1 : TeamWf t1 := TeamWf.earlyWrites (h.teams t ht) _ _
    exact h1.setTeam (t := { t1 with seq := _ }) ht1

@[simp] theorem StoresWf.spoilReads (h : StoresWf s) (reader : GroupId) (ls : List Loc) : StoresWf (s.spoilReads reader ls) := by
  unfold State.spoilReads
  split
  · exact h.mapTeam _ fun _ ht => ht
  · exact h

@[simp] theorem StoresWf.mapCopy (h : StoresWf s) (id : ℕ) (f : CopyCmd → CopyCmd) : StoresWf (s.mapCopy id f) := h

@[simp] theorem StoresWf.copyBegins (h : StoresWf s) (k : CopyCmd) : StoresWf (s.copyBegins k) := by
  unfold State.copyBegins
  simp [h]

@[simp] theorem StoresWf.doChunk (h : StoresWf s) (l : Launch) (die : Nat) (k : CopyCmd) (c : Chunk) :
    StoresWf (s.doChunk l die k c) := by
  unfold State.doChunk
  extract_lets cells rest reads s1 src s2 go owner
  have h2 : StoresWf s2 := (((h.markHits _ _).markHits _ _).trafficTo _ _).spoilReads k.group _
  have hgo (s : State) (h : StoresWf s) : StoresWf (go s) := (h.mapCopy _ _).copyBegins k
  split
  · exact h
  · split
    · refine StoresWf.ite (fun _ => h) fun _ => ?_
      split
      · next hs => exact hgo _ (h2.sendOp hs)
      · exact h
    · exact hgo _ (h2.storeChunk _ _ _)

@[simp] theorem StoresWf.giveResults (h : StoresWf s) (p : Packet) (rs : List W64) : StoresWf (s.giveResults p rs) := by
  unfold State.giveResults
  split <;> simp [h]

@[simp] theorem StoresWf.dropSettled (h : StoresWf s) : StoresWf s.dropSettled := h

@[simp] theorem StoresWf.ackPacket (h : StoresWf s) (id : Nat) : StoresWf (s.ackPacket id) := by
  unfold State.ackPacket
  split
  · exact h
  · split
    · exact h
    · exact ((h.mapPacket _ _).giveResults _ _).mapChan _ _ _

@[simp] theorem StoresWf.withEntry (h : StoresWf s) (st : StreamId) : StoresWf (s.withEntry st) := by
  unfold State.withEntry
  split <;> simp [h]

@[simp] theorem StoresWf.performNext (h : StoresWf s) (p : Packet) : StoresWf (s.performNext p) :=
  StoresWf.performPacket (by exact h) p

@[simp] theorem StoresWf.performRun (fuel : Nat) (st : StreamId) (h : StoresWf s) : StoresWf (State.performRun fuel st s) := by
  induction fuel generalizing s with
  | zero => exact h
  | succ fuel ih =>
    unfold State.performRun
    split
    · exact h
    · split
      · exact ih (h.performNext _)
      · exact h

@[simp] theorem StoresWf.portAccept (h : StoresWf s) (p : Packet) : StoresWf (s.portAccept p) := by
  unfold State.portAccept
  extract_lets d
  split
  · exact StoresWf.performRun _ _ (h.performNext p)
  · split
    · split
      · exact h
      · split
        · exact h
        · exact h.mapPacket _ _
    · split
      · exact h.mapPacket _ _
      · exact h

@[simp] theorem StoresWf.wakePath (h : StoresWf s) (st : StreamId) : StoresWf (s.wakePath st) := by
  unfold State.wakePath
  simp [h]

@[simp] theorem StoresWf.handshake (h : StoresWf s) (lost : List Packet) (x : Dest × ChanOwner) :
    StoresWf (State.handshake lost s x) := h

@[simp] theorem StoresWf.countHandshake (h : StoresWf s) (m : SyncMsg) : StoresWf (s.countHandshake m) := by
  unfold State.countHandshake
  split
  · exact h
  · cases m.owner with
    | team t => exact StoresWf.mapTeam (h.of_eq rfl rfl rfl rfl rfl) t fun _ ht => ht
    | forager d => exact h

@[simp] theorem StoresWf.syncStream (h : StoresWf s) (x : StreamId × BitVec 16) : StoresWf (s.syncStream x) :=
  (h.foldl (fun _ p h => h.ackPacket p.id) _).of_eq rfl rfl rfl rfl rfl

@[simp] theorem StoresWf.forgetStreams (h : StoresWf s) (f : StreamId → Bool) : StoresWf (s.forgetStreams f) := h

@[simp] theorem StoresWf.mapLink (h : StoresWf s) (k : ℕ) (f : Link → Link) : StoresWf (s.mapLink k f) := h

/-- Table entries marked keep the form of the memory. -/
theorem wf_markEntries {m : Memory} (h : Memory.wf m = true) (l : List (Nat × Nat)) (w : Bool) :
    Memory.wf (l.foldl (fun (m : Memory) x => markEntry m x.2 w) m) = true :=
  Memory.wf_foldl _ (fun m x hm => Memory.wf_markEntry m x.2 w hm) l m h

/-- So do bytes stored at the addresses of a list. -/
theorem wf_writeZip {m : Memory} (h : Memory.wf m = true) (l : List ((Nat × Nat) × Byte)) :
    Memory.wf (l.foldl (fun (m : Memory) x => m.write x.1.1 x.2) m) = true :=
  Memory.wf_foldl _ (fun m x hm => Memory.wf_write m x.1.1 x.2 hm) l m h

@[simp] theorem StoresWf.cpWrite (h : StoresWf s) (fn : Nat) (dev : Bool) (addr : Nat) (bs : List Byte) :
    StoresWf (s.cpWrite fn dev addr bs) := by
  unfold State.cpWrite
  split
  · exact h
  · split
    · split
      · exact h
      · exact ⟨wf_writeZip (wf_markEntries h.mem _ _) _, h.hosts, h.peers, h.teams, h.cuts⟩
    · exact h.hostWriteBytes _ _ _

@[simp] theorem StoresWf.cpMark (h : StoresWf s) (fn : Nat) (dev : Bool) (addr n : Nat) : StoresWf (s.cpMark fn dev addr n) := by
  unfold State.cpMark
  split
  · split
    · exact h
    · exact ⟨wf_markEntries h.mem _ _, h.hosts, h.peers, h.teams, h.cuts⟩
  · exact h

@[simp] theorem StoresWf.cpComplete (h : StoresWf s) (fn : ℕ) (dev : Bool) (addr : W64) (tag : W32) (status : ℕ) (empty : Bool)
    (data : W64) : StoresWf (s.cpComplete fn dev addr tag status empty data) := by
  unfold State.cpComplete
  simp [h]

@[simp] theorem StoresWf.finishStops (h : StoresWf s) : StoresWf s.finishStops := by
  refine h.foldl (fun s p h => ?_) _
  dsimp only
  split
  · exact h
  · split
    · exact h
    · exact (h.cpComplete _ _ _ _ _ _ _).mapGroup p.group fun g => { g with evStop := false }

@[simp] theorem StoresWf.recordSteps (h : StoresWf s) (id : TeamId) : StoresWf (s.recordSteps id) := by
  unfold State.recordSteps
  split
  · next t _ ht _ =>
    have hwf : TeamWf t := h.team? ht
    split
    · exact h.setTeam hwf
    · exact h
  · exact h

@[simp] theorem TeamWf.fresh (l : Launch) (index core vtBase : Nat) (slots : List Nat) :
    TeamWf (Team.fresh l index core vtBase slots) :=
  ⟨Memory.wf_writeBytes _ _ _ Memory.wf_nil, Memory.wf_nil⟩

@[simp] theorem TeamWf.again (l : Launch) (core cycles : Nat) (slots : List Nat) : TeamWf (t.again l core cycles slots) :=
  TeamWf.fresh l t.id.index core cycles slots

@[simp] theorem TeamWf.restore (h : TeamWf t) (core cycles : Nat) (slots : List Nat) : TeamWf (t.restore core cycles slots) := h

theorem TeamsWf.placed (h : StoresWf s) (l : Launch) (index core : Nat) : TeamsWf (teamsPlaced s l index core) := by
  unfold teamsPlaced
  split
  · next t ht =>
    have hwf : TeamWf t := h.team? ht
    refine (h.setTeam (t := match t.place with
      | .flushed => t.again l core s.clock.cycles (s.freeSlots core (groupCount l.krec.lanes))
      | _ => t.restore core s.clock.cycles (s.freeSlots core (groupCount l.krec.lanes))) ?_).teams
    split
    · exact TeamWf.again _ _ _ _
    · exact hwf.restore _ _ _
  · exact h.teams.append fun t ht => List.mem_singleton.mp ht ▸ TeamWf.fresh _ _ _ _ _

@[simp] theorem StoresWf.placeTeam (h : StoresWf s) (l : Launch) (index core : Nat) : StoresWf (s.placeTeam l index core) := by
  rw [placeTeam_eq]
  exact ⟨h.mem, h.hosts, h.peers, TeamsWf.placed h l index core, h.cuts⟩

@[simp] theorem StoresWf.dropMarks (h : StoresWf s) (dom : ℕ) : StoresWf (s.dropMarks dom) := h

@[simp] theorem StoresWf.placeFirst (h : StoresWf s) (except : List Nat) (ls : List Launch) : StoresWf (s.placeFirst except ls) := by
  induction ls with
  | nil => exact h
  | cons l ls ih =>
    unfold State.placeFirst
    split
    · exact h.placeTeam _ _ _
    · exact ih

@[simp] theorem StoresWf.leaveCore (h : StoresWf s) (id : TeamId) : StoresWf (s.leaveCore id) := h

@[simp] theorem StoresWf.noteAway (h : StoresWf s) (n : ℕ) : StoresWf (s.noteAway n) := by
  unfold State.noteAway
  simp [h]

@[simp] theorem StoresWf.retireTeam (h : StoresWf s) (ht : TeamWf t) (l : Launch) : StoresWf (s.retireTeam t l) := by
  have h1 : StoresWf ((s.leaveCore t.id).setTeam
      { t with place := .retired, vtSaved := (s.vtime t).toNat, preempt := none, frozen := false }) := (h.leaveCore t.id).setTeam ht
  exact ((h1.mapLaunch l.seq fun m => { m with retired := m.retired + 1, vtSum := m.vtSum + (s.vtime t).toNat }).noteAway l.seq).of_eq
    rfl rfl rfl rfl rfl

@[simp] theorem StoresWf.markPair (h : StoresWf s) (l : Launch) : StoresWf (s.markPair l) := h.foldl (fun _ a h => h.cpMark _ _ a 64) _

@[simp] theorem StoresWf.releaseWaits (h : StoresWf s) : StoresWf s.releaseWaits :=
  (h.foldl (fun _ l h => h.markPair l) _).of_eq rfl rfl rfl rfl rfl

@[simp] theorem StoresWf.countAborted (h : StoresWf s) (b : Bool) : StoresWf (s.countAborted b) := by
  unfold State.countAborted
  simp [h]

@[simp] theorem StoresWf.completeLaunch (h : StoresWf s) (l : Launch) : StoresWf (s.completeLaunch l) := by
  unfold State.completeLaunch
  extract_lets o rec' both s0 s1 seqs
  have h1 : StoresWf s1 := StoresWf.foldl (h.forgetStreams _) (fun s m h => (h.cpWrite _ _ _ _).countAborted _) both
  refine StoresWf.releaseWaits (storesWf_iff.mpr ⟨h1.mem, h1.hosts, h1.peers, h1.teams.filter _, CutsWf.filter (CutsWf.map h1.cuts ?_) _⟩)
  exact fun _ hj => hj

@[simp] theorem StoresWf.follow (h : StoresWf s) (old new size : Nat) : StoresWf (s.follow old new size) :=
  ⟨h.mem, h.hosts, h.peers, h.teams, h.cuts.map fun _ hj => hj⟩

@[simp] theorem StoresWf.startMove (h : StoresWf s) (part : Nat) (p : Leaf) (target : Nat) : StoresWf (s.startMove part p target) :=
  ⟨Memory.wf_writeLe _ _ _ _ h.mem, h.hosts, h.peers, h.teams, h.cuts⟩

@[simp] theorem StoresWf.loseResult (h : StoresWf s) (p : Packet) : StoresWf (s.loseResult p) := by
  unfold State.loseResult
  cases p.op with
  | atomic accs prod => exact h.giveResults _ _
  | chunk k cells sig => exact h
  | store cells => exact h

@[simp] theorem StoresWf.loseStreams (h : StoresWf s) (f : StreamId → Bool) : StoresWf (s.loseStreams f) := by
  unfold State.loseStreams
  extract_lets lost s1 cut ended teamCut dieCut s2
  have h1 : StoresWf s1 := StoresWf.foldl (by exact h) (fun _ p h => h.loseResult p) lost
  have h2 : StoresWf s2 := storesWf_iff.mpr ⟨h1.mem, h1.hosts, h1.peers, h1.teams.map (f := teamCut) fun _ ht => ht, h1.cuts⟩
  exact h2.forgetStreams f

@[simp] theorem StoresWf.keepArea (h : StoresWf s) (l : Launch) (t : Team) (kind : BitVec 2) : StoresWf (s.keepArea l t kind) := h

@[simp] theorem StoresWf.dropAreas (h : StoresWf s) (kind : BitVec 2) (f : TeamId → Bool) : StoresWf (s.dropAreas kind f) := h

@[simp] theorem StoresWf.dropTeamFaults (h : StoresWf s) (id : TeamId) : StoresWf (s.dropTeamFaults id) := h

theorem StoresWf.mapJob (h : StoresWf s) (launch : Nat) {f : CutJob → CutJob} (hf : ∀ j, TeamsWf j.teams → TeamsWf (f j).teams) :
    StoresWf (s.mapJob launch f) := by
  refine ⟨h.mem, h.hosts, h.peers, h.teams, h.cuts.map fun j hj => ?_⟩
  split
  · exact hf j hj
  · exact hj

@[simp] theorem StoresWf.releaseHeld (h : StoresWf s) (f : Nat → Group → Bool) : StoresWf (s.releaseHeld f) :=
  ⟨h.mem, h.hosts, h.peers, h.teams.map fun _ ht => ht, h.cuts⟩

/-- A cut keeps the teams it records when only its other fields change. -/
theorem CutsWf.map_ite {js : List CutJob} (h : CutsWf js) (p : CutJob → Prop) [DecidablePred p] {f : CutJob → CutJob}
    (hf : ∀ j, TeamsWf j.teams → TeamsWf (f j).teams) : CutsWf (js.map fun j => if p j then f j else j) :=
  h.map fun j hj => by
    split
    · exact hf j hj
    · exact hj

@[simp] theorem StoresWf.endCut (h : StoresWf s) (launches : List Nat) : StoresWf (s.endCut launches) := by
  have h1 : StoresWf (s.releaseHeld fun n _ => launches.contains n) := h.releaseHeld _
  exact ⟨h1.mem, h1.hosts, h1.peers, h1.teams, h1.cuts.map_ite _ fun _ hj => hj⟩

@[simp] theorem StoresWf.keepCut (h : StoresWf s) (j : CutJob) : StoresWf (s.keepCut j) := by
  refine StoresWf.foldl (h.dropAreas _ _) (fun s t h => ?_) _
  split
  · exact h.keepArea _ _ _
  · exact h

@[simp] theorem StoresWf.forgetWork (h : StoresWf s) (f : ℕ → Bool) : StoresWf (s.forgetWork f) := h

theorem StoresWf.rollback {j : CutJob} (h : StoresWf s) (hj : TeamsWf j.teams) : StoresWf (s.rollback j) := by
  unfold State.rollback
  extract_lets inJob s1 mem again back
  have h1 : StoresWf s1 := ((h.forgetWork inJob).dropAreas 0 _).forgetStreams _
  have hmem : Memory.wf mem = true :=
    Memory.wf_foldl _ (fun m x hm => Memory.wf_writeCells _ _ (Memory.wf_clear m _ _ hm)) j.journal s1.mem h1.mem
  exact ⟨hmem, h1.hosts, h1.peers, (h1.teams.filter _).append (hj.map fun _ ht => ht), h1.cuts.map_ite _ fun _ hj => hj⟩

theorem StoresWf.rollbacks {js : List CutJob} (h : StoresWf s) (hj : CutsWf js) : StoresWf (js.foldl State.rollback s) :=
  h.foldl_mem js fun _ j hm h => h.rollback (hj j hm)

/-- Teams among which some are given up, with nothing of their stores changed. -/
theorem TeamsWf.map_ite {ts : List Team} (h : TeamsWf ts) (p : Team → Prop) [DecidablePred p] {f : Team → Team}
    (hf : ∀ t, TeamWf t → TeamWf (f t)) : TeamsWf (ts.map fun t => if p t then f t else t) :=
  h.map fun t ht => by
    split
    · exact hf t ht
    · exact ht

@[simp] theorem StoresWf.loseTeams (h : StoresWf s) (l : Launch) (reason : Nat) (f : Team → Bool) :
    StoresWf (s.loseTeams l reason f) := by
  unfold State.loseTeams
  extract_lets gone isGone s1 s2
  have h1 : StoresWf s1 := by
    refine StoresWf.dropAreas (h.foldl (fun s t hs => ?_) gone) 0 isGone
    exact (hs.leaveCore t.id).dropTeamFaults t.id
  have h2 : StoresWf s2 := h1.forgetStreams _
  clear_value s2
  exact ⟨h2.mem, h2.hosts, h2.peers, h2.teams.map_ite _ fun _ ht => ht, h2.cuts⟩

@[simp] theorem StoresWf.abortLaunch (h : StoresWf s) (l : Launch) (reason : Nat) : StoresWf (s.abortLaunch l reason) :=
  ((h.loseTeams l reason _).forgetWork _).mapLaunch _ _

@[simp] theorem StoresWf.wakeParked (h : StoresWf s) (launches : List Nat) : StoresWf (s.wakeParked launches) :=
  h.foldl (fun _ id h => (h.mapGroup id _).deliver id _ _ _) _

@[simp] theorem StoresWf.loseAll (h : StoresWf s) (affected : List Launch) (f : Team → Bool) : StoresWf (s.loseAll affected f) := by
  unfold State.loseAll
  extract_lets backOf jobs rest part s1 s2 s3
  have h1 : StoresWf s1 := h.rollbacks (h.cuts.filter _)
  have h2 : StoresWf s2 := h1.foldl (fun _ l h => h.loseTeams l 11 f) rest
  exact StoresWf.wakeParked (s := s3) h2 _

@[simp] theorem StoresWf.remap (h : StoresWf s) (l : Launch) (p : Leaf) : StoresWf (s.remap l p) :=
  StoresWf.follow (s := { s with mem := _, transits := _, rehomed := _ })
    ⟨Memory.wf_writeLe _ _ _ _ (Memory.wf_move _ _ _ _ h.mem), h.hosts, h.peers, h.teams, h.cuts⟩ _ _ _

@[simp] theorem StoresWf.remapDie (h : StoresWf s) (die : Nat) (j : CutJob) : StoresWf (s.remapDie die j) :=
  h.foldl (fun _ l h => h.foldl (fun _ p h => h.remap l p) _) _

@[simp] theorem StoresWf.logError (h : StoresWf s) (die : ℕ) (addr : ℕ) : StoresWf (s.logError die addr) := h

@[simp] theorem StoresWf.fenceDie (h : StoresWf s) (die : Nat) : StoresWf (s.fenceDie die) := by
  unfold State.fenceDie
  extract_lets src s1 affected s2 jobs s3 s4
  have h2 : StoresWf s2 := StoresWf.loseAll (s := s1) h affected _
  have h3 : StoresWf s3 := (h2.foldl (fun _ j h => h.remapDie die j) jobs).loseStreams _
  exact h3.forgetStreams fun st => decide (st.owner = .forager die)

@[simp] theorem StoresWf.losePeerDie (h : StoresWf s) (mod die : Nat) : StoresWf (s.losePeerDie mod die) := by
  unfold State.losePeerDie
  extract_lets gone hit backOf jobs s1 s2
  have hjobs : CutsWf (jobs ++ s.jobsWith gone).dedup := fun j hj =>
    ((h.cuts.filter _).append (h.cuts.filter _)) j (List.mem_dedup.mp hj)
  have h1 : StoresWf s1 := (h.rollbacks hjobs).loseStreams gone
  exact StoresWf.wakeParked (s := s2) h1 _

@[simp] theorem StoresWf.endCommand (h : StoresWf s) (r : CmdResult) : StoresWf (s.endCommand r) := h

@[simp] theorem StoresWf.noteVerified (h : StoresWf s) (im : Image) : StoresWf (s.noteVerified im) := h

@[simp] theorem StoresWf.setClass (h : StoresWf s) (k : ℕ) (f : ImageClass → ImageClass) : StoresWf (s.setClass k f) := h

@[simp] theorem StoresWf.takeOver (h : StoresWf s) (fence : Bool) : StoresWf (s.takeOver fence) := h

@[simp] theorem StoresWf.activate (h : StoresWf s) : StoresWf s.activate := by
  unfold State.activate
  split <;> simp [h]

@[simp] theorem StoresWf.keepDecoded (h : StoresWf s) : StoresWf s.keepDecoded :=
  ⟨h.mem, h.hosts, h.peers, h.teams.map fun _ ht => ht, h.cuts⟩

@[simp] theorem StoresWf.switchImage (h : StoresWf s) : StoresWf s.switchImage := by
  unfold State.switchImage
  extract_lets s1
  have h1 : StoresWf s1 := h.keepDecoded.activate
  cases (s1.classOf 5).active with
  | none => exact h1
  | some im => exact h1.noteVerified im

@[simp] theorem StoresWf.vtimeCheck (h : StoresWf s) (id : GroupId) : StoresWf (s.vtimeCheck id) := by
  unfold State.vtimeCheck
  split <;> simp [h]

@[simp] theorem StoresWf.takeEvent (h : StoresWf s) (id : GroupId) : StoresWf (s.takeEvent id) := by
  unfold State.takeEvent
  (repeat' split) <;> simp [h]

@[simp] theorem StoresWf.writeRefusal (h : StoresWf s) (l : Launch) (reason : ℕ) : StoresWf (s.writeRefusal l reason) := by
  unfold State.writeRefusal
  simp [h]

@[simp] theorem StoresWf.addLaunch (h : StoresWf s) (l : Launch) : StoresWf (s.addLaunch l) :=
  (StoresWf.ite (p := s.waitsDone l = true) (fun _ => h.markPair l) fun _ => h).of_eq rfl rfl rfl rfl rfl

@[simp] theorem StoresWf.mapGang (h : StoresWf s) (id : W32) (f : Gang → Gang) : StoresWf (s.mapGang id f) := h

@[simp] theorem StoresWf.countPart (h : StoresWf s) (id : W32) : StoresWf (s.countPart id) := h

@[simp] theorem StoresWf.refuseParts (h : StoresWf s) (g : Gang) : StoresWf (s.refuseParts g) :=
  StoresWf.releaseWaits ((h.foldl (fun _ l h => h.writeRefusal l 8) _).of_eq rfl rfl rfl rfl rfl)

@[simp] theorem StoresWf.gangPart (h : StoresWf s) (l : Launch) (reason : Nat) : StoresWf (s.gangPart l reason) := by
  unfold State.gangPart
  split
  · extract_lets g
    split
    · exact h.addLaunch l
    · exact h.writeRefusal l reason
  · split
    · exact (h.writeRefusal _ _).countPart _
    · split
      · exact h.writeRefusal _ _
      · split
        · exact ((h.refuseParts _).writeRefusal _ _).countPart _
        · exact (h.addLaunch l).mapGang _ _

theorem StoresWf.reserveTeam (h : StoresWf s) {l : Launch} {index : Nat} {s' : State} (hs : State.reserveTeam l s index = some s') :
    StoresWf s' := by
  unfold State.reserveTeam at hs
  extract_lets hold open' at hs
  split at hs
  · cases hs
    exact h.mapGang _ _
  · obtain ⟨c, -, rfl⟩ := Option.map_eq_some_iff.mp hs
    exact (h.mapCore c _).mapGang _ _

theorem StoresWf.reserveTeams {l : Launch} (is : List Nat) {s' : State} (h : StoresWf s)
    (hs : is.foldlM (State.reserveTeam l) s = some s') : StoresWf s' := by
  induction is generalizing s with
  | nil =>
    cases hs
    exact h
  | cons i is ih =>
    obtain ⟨s1, hs1, hs'⟩ := Option.bind_eq_some_iff.mp hs
    exact ih (h.reserveTeam hs1) hs'

@[simp] theorem StoresWf.reservePart (h : StoresWf s) (n : Nat) : StoresWf (s.reservePart n) := by
  unfold State.reservePart
  split
  · exact h
  · next l _ =>
    cases hs : (List.range l.grid).foldlM (State.reserveTeam l) s with
    | none => exact h
    | some s' => exact h.reserveTeams _ hs

@[simp] theorem StoresWf.lookAbroad (h : StoresWf s) (g : Gang) : StoresWf (s.lookAbroad g) := by
  unfold State.lookAbroad
  simp [h]

@[simp] theorem StoresWf.refuseAbroad (h : StoresWf s) (g : Gang) : StoresWf (s.refuseAbroad g) := by
  unfold State.refuseAbroad
  split
  · exact h
  · exact ((h.lookAbroad g).mapGang _ _).refuseParts g

@[simp] theorem StoresWf.mapQueue (h : StoresWf s) (fn : ℕ) (k : ℕ) (f : Queue → Queue) : StoresWf (s.mapQueue fn k f) := h

@[simp] theorem StoresWf.consume (h : StoresWf s) (fn : ℕ) (k : ℕ) : StoresWf (s.consume fn k) := by
  unfold State.consume
  simp [h]

@[simp] theorem StoresWf.unpair (h : StoresWf s) (fn : ℕ) (k : ℕ) : StoresWf (s.unpair fn k) := h

@[simp] theorem StoresWf.quarantine (h : StoresWf s) (fn k : Nat) : StoresWf (s.quarantine fn k) :=
  (h.foldl (fun _ g h => h.refuseParts g) _).of_eq rfl rfl rfl rfl rfl

@[simp] theorem StoresWf.demote (h : StoresWf s) (fn k err : Nat) (index : W32) : StoresWf (s.demote fn k err index) := by
  refine StoresWf.mapQueue ?_ fn k _
  split
  · exact (h.unpair fn k).quarantine fn k
  · exact h.unpair fn k

@[simp] theorem StoresWf.malformed (h : StoresWf s) (fn k : Nat) (q : Queue) (w : List W64) : StoresWf (s.malformed fn k q w) := by
  have h1 : StoresWf ((s.consume fn k).demote fn k 1 q.qhead) := (h.consume fn k).demote fn k 1 q.qhead
  unfold State.malformed
  split
  · exact h1
  · exact h1.cpComplete _ _ _ _ _ _ _

@[simp] theorem StoresWf.answer (h : StoresWf s) (fn : ℕ) (q : Queue) (w : List W64) (status : ℕ) (empty : Bool) (data : W64) :
    StoresWf (s.answer fn q w status empty data) := by
  unfold State.answer
  simp [h]

@[simp] theorem StoresWf.dropFault (h : StoresWf s) (fn : ℕ) (p : PageFault) : StoresWf (s.dropFault fn p) := h

@[simp] theorem StoresWf.deliverPage (h : StoresWf s) (id : GroupId) (p : PageFault) : StoresWf (s.deliverPage id p) := by
  unfold State.deliverPage
  (repeat' split) <;> simp [h]

@[simp] theorem StoresWf.resumeFault (h : StoresWf s) (p : PageFault) : StoresWf (s.resumeFault p) := by
  unfold State.resumeFault
  cases p.who with
  | group id => exact h.mapGroup _ _
  | handler id slot => exact h.mapGroup _ _
  | sequencer t => exact h.mapTeam _ fun _ ht => ht
  | copy id => exact h.mapCopy _ _
  | node r n => exact h

@[simp] theorem StoresWf.doorbell (h : StoresWf s) (fn : ℕ) (k : ℕ) (t : W32) : StoresWf (s.doorbell fn k t) := by
  unfold State.doorbell
  (repeat' split) <;> simp [h]

@[simp] theorem StoresWf.writeQueueWord (h : StoresWf s) (fn : ℕ) (k : ℕ) (w : ℕ) (v : W64) : StoresWf (s.writeQueueWord fn k w v) := by
  unfold State.writeQueueWord
  (repeat' split) <;> simp [h]

@[simp] theorem StoresWf.enterWaiting (h : StoresWf s) (fn : Nat) : StoresWf (s.enterWaiting fn) := by
  refine h.foldl (fun s p h => ?_) _
  split
  · exact h
  · exact (h.dropFault fn p).enterFault fn p

@[simp] theorem StoresWf.writeFqctl (h : StoresWf s) (fn : ℕ) (v : W64) : StoresWf (s.writeFqctl fn v) := h

@[simp] theorem StoresWf.writeFqtail (h : StoresWf s) (fn : ℕ) (v : W64) : StoresWf (s.writeFqtail fn v) := by
  unfold State.writeFqtail
  simp [h]

@[simp] theorem StoresWf.writeFnReg (h : StoresWf s) (fn : ℕ) (off : ℕ) (v : W64) : StoresWf (s.writeFnReg fn off v) := by
  unfold State.writeFnReg
  (repeat' split) <;> simp [h]

@[simp] theorem StoresWf.writeMgmt (h : StoresWf s) (off : ℕ) (v : W64) : StoresWf (s.writeMgmt off v) := by
  unfold State.writeMgmt
  split <;> simp [h]

@[simp] theorem StoresWf.windowWrite (h : StoresWf s) (pa : ℕ) (b : Byte) : StoresWf (s.windowWrite pa b) := by
  unfold State.windowWrite
  split <;> simp [h]

@[simp] theorem StoresWf.apertureError (h : StoresWf s) (fn : ℕ) : StoresWf (s.apertureError fn) := h

@[simp] theorem StoresWf.failCore (h : StoresWf s) (core : ℕ) : StoresWf (s.failCore core) := by
  unfold State.failCore
  split <;> simp [h]

@[simp] theorem StoresWf.loadPatch (h : StoresWf s) (w : Start) : StoresWf (s.loadPatch w) := by
  unfold State.loadPatch
  simp [h]

@[simp] theorem StoresWf.noteActive (h : StoresWf s) : StoresWf s.noteActive := h.foldl (fun _ im h => h.noteVerified im) _

theorem storesWf_reset : StoresWf State.reset :=
  ⟨Memory.wf_nil, fun _ h => absurd h List.not_mem_nil, fun _ h => absurd h List.not_mem_nil, TeamsWf.nil, fun _ h => absurd h List.not_mem_nil⟩

@[simp] theorem StoresWf.startUp (h : StoresWf s) (w : Start) (failedCores upLinks : List Nat) :
    StoresWf (s.startUp w failedCores upLinks) := by
  have hmem : Memory.wf (if w.warm then s.mem.filter fun c => isLake c.1 else []) = true := by
    split
    · exact Memory.wf_filter _ _ h.mem
    · exact Memory.wf_nil
  refine StoresWf.foldl ?_ (fun _ c h => h.failCore c) failedCores
  exact storesWf_iff.mpr ⟨hmem, h.hosts, h.peers, storesWf_reset.teams, storesWf_reset.cuts⟩

@[simp] theorem StoresWf.start (h : StoresWf s) (w : Start) (failedCores : List ℕ) (upLinks : List ℕ) :
    StoresWf (s.start w failedCores upLinks) := by
  unfold State.start
  simp [h]

theorem wf_writeSections (base : Nat) (xs : List (Nat × List Byte)) (i off : Nat) {m : Memory} (h : Memory.wf m = true) :
    Memory.wf (writeSections base xs i off m) = true := by
  induction xs generalizing i off m with
  | nil => exact h
  | cons x xs ih => exact ih _ _ (Memory.wf_writeBytes _ _ _ (Memory.wf_writeBytes _ _ _ h))

@[simp] theorem StoresWf.writeDump (h : StoresWf s) (cause lake : Nat) (again : Bool) : StoresWf (s.writeDump cause lake again) := by
  unfold State.writeDump
  extract_lets at' sections m
  have hm : Memory.wf m = true := wf_writeSections _ _ _ _ h.mem
  refine ⟨?_, h.hosts, h.peers, h.teams, h.cuts⟩
  show Memory.wf (if again then m else _) = true
  split
  · exact hm
  · exact Memory.wf_writeBytes _ _ _ hm

@[simp] theorem StoresWf.loseDump (h : StoresWf s) (lake : Nat) : StoresWf (s.loseDump lake) :=
  ⟨Memory.wf_writeLe _ _ _ _ h.mem, h.hosts, h.peers, h.teams, h.cuts⟩

@[simp] theorem StoresWf.setGraph (h : StoresWf s) (fn table entry : Nat) (g : Option GraphImage) :
    StoresWf (s.setGraph fn table entry g) :=
  ⟨Memory.wf_writeLe _ _ _ _ h.mem, h.hosts, h.peers, h.teams, h.cuts⟩

@[simp] theorem StoresWf.loadGraph (h : StoresWf s) (fn : ℕ) (k : ℕ) (q : Queue) (w : List W64) (g : Option GraphImage) :
    StoresWf (s.loadGraph fn k q w g) := by
  unfold State.loadGraph
  split <;> simp [h]

@[simp] theorem StoresWf.codeRead (h : StoresWf s) (l : Launch) (n : ℕ) : StoresWf (s.codeRead l n) := by
  unfold State.codeRead
  split <;> simp [h]

@[simp] theorem StoresWf.pairRead (h : StoresWf s) (p : Launch) (c : Launch) : StoresWf (s.pairRead p c) := by
  unfold State.pairRead
  simp [h]

@[simp] theorem StoresWf.refusePacket (h : StoresWf s) (fn : ℕ) (k : ℕ) (q : Queue) (w : List W64) (reason : ℕ) :
    StoresWf (s.refusePacket fn k q w reason) := by
  unfold State.refusePacket
  simp [h]

@[simp] theorem StoresWf.acceptLaunch (h : StoresWf s) (l : Launch) : StoresWf (s.acceptLaunch l) := by
  unfold State.acceptLaunch
  split
  · exact h.addLaunch l
  · next p _ =>
    split
    · have h1 : StoresWf (if pairAgrees p l then s.pairRead p l else s) := by
        split
        · exact h.pairRead p l
        · exact h
      extract_lets s1
      split
      · exact (h1.mapLaunch _ _).addLaunch l
      · exact h1
    · exact (h.unpair _ _).addLaunch l

@[simp] theorem StoresWf.mapReplay (h : StoresWf s) (id : ℕ) (f : Replay → Replay) : StoresWf (s.mapReplay id f) := h

@[simp] theorem StoresWf.startTransfer (h : StoresWf s) (l : Launch) (r : Replay) (i : Nat) (n : GraphNode) (t : Transfer) :
    StoresWf (s.startTransfer l r i n t) := by
  unfold State.startTransfer
  extract_lets code src srcs
  split
  · exact h.mapReplay _ _
  · exact h

@[simp] theorem StoresWf.nodePageFault (h : StoresWf s) (l : Launch) (r : Replay) (i : ℕ) (va : ℕ) (write : Bool)
    (peer : Option (ℕ × ℕ)) (pri : Bool) : StoresWf (s.nodePageFault l r i va write peer pri) := by
  unfold State.nodePageFault
  simp [h]

@[simp] theorem StoresWf.startRead (h : StoresWf s) (l : Launch) (r : Replay) (i : ℕ) (x : GraphNode) (n : ℕ) :
    StoresWf (s.startRead l r i x n) := by
  unfold State.startRead
  simp [h]

@[simp] theorem StoresWf.submitNode (h : StoresWf s) (l : Launch) (r : Replay) (i : Nat) (hs : List Hit) (spad : List Byte)
    (text cls : Nat) :
    StoresWf (s.submitNode l r i hs spad text cls) := by
  unfold State.submitNode
  extract_lets w q refuse s1
  have h1 : StoresWf s1 := h.markHits hs false
  have hrefuse (s : State) (h : StoresWf s) : StoresWf (refuse s) := h.mapReplay _ _
  split
  · exact h
  · split
    · exact hrefuse _ (h1.refusePacket _ _ _ _ _)
    · extract_lets m reason
      split
      · exact h
      · split
        · exact hrefuse _ (h1.writeRefusal _ _)
        · exact StoresWf.addLaunch (by exact h1) m

@[simp] theorem StoresWf.sendSignatures (h : StoresWf s) (l : Launch) (r : Replay) (i : ℕ) : StoresWf (s.sendSignatures l r i) := by
  unfold State.sendSignatures
  split <;> simp [h]

@[simp] theorem StoresWf.takeSignature (h : StoresWf s) (r : Replay) (i : InstRec) (member : Member) (sentBy : Option ℕ)
    (sig : Signature) : StoresWf (s.takeSignature r i member sentBy sig) := by
  unfold State.takeSignature
  split <;> simp [h]

@[simp] theorem StoresWf.putSeq (h : StoresWf s) (ht : TeamWf t) (q : Sequencer) : StoresWf (s.putSeq t q) := h.setTeam ht

@[simp] theorem StoresWf.land (h : StoresWf s) (f : Flight) : StoresWf (s.land f) := by
  unfold State.land
  simp [h]

theorem StoresWf.job? (h : StoresWf s) {launch : Nat} {j : CutJob} (hj : s.job? launch = some j) : TeamsWf j.teams :=
  h.cuts j (List.mem_of_find?_eq_some hj)

@[simp] theorem StoresWf.uncorrectable (h : StoresWf s) (f : Flight) : StoresWf (s.uncorrectable f) := by
  unfold State.uncorrectable
  extract_lets pa logged counters s0
  have h0 : StoresWf s0 := h.logError (errorDie pa) pa
  clear_value s0
  split
  · exact h0
  · split
    · next hj =>
      exact StoresWf.ite (fun _ => h0.land f) fun _ =>
        StoresWf.ite (fun _ => h0.rollback (h.job? hj)) fun _ => h0.abortLaunch _ 11
    · exact h0.abortLaunch _ 11

@[simp] theorem StoresWf.noteTurn (h : StoresWf s) (core : ℕ) (id : GroupId) : StoresWf (s.noteTurn core id) := h

@[simp] theorem StoresWf.atTurn (h : StoresWf s) (c : Ctx) : StoresWf (s.atTurn c) := by
  unfold State.atTurn
  simp [h]

@[simp] theorem StoresWf.note (h : StoresWf s) (i : Instr) : StoresWf (s.note i) := by
  unfold State.note
  split <;> simp [h]

@[simp] theorem StoresWf.tickOn (h : StoresWf s) : StoresWf s.tickOn := h

end Sys2Proof.Claims
end

section
/-! What an instruction answers: every next state has canonical byte stores. -/

namespace Sys2Proof.Claims
open Sys2Proof.Machine

/-- Every next state that is answered has canonical byte stores. -/
def ResWf (r : Res) : Prop := ∀ s', r = .next s' → StoresWf s'

/-- A group's context: its state and its team have canonical byte stores. -/
structure CtxWf (c : Ctx) : Prop where
  state : StoresWf c.s
  team : TeamWf c.team

variable {s : State} {t : Team} {c : Ctx}

@[simp] theorem resWf_next : ResWf (.next s) ↔ StoresWf s := ⟨fun h => h s rfl, fun h _ hs => Host.Outcome.next.inj hs ▸ h⟩

theorem ResWf.next (h : StoresWf s) : ResWf (.next s) := resWf_next.mpr h

@[simp] theorem ResWf.fault (f : Fault) : ResWf (.fault f) := fun _ hs => nomatch hs

@[simp] theorem ResWf.ite {p : Prop} [Decidable p] {a b : Res} (ha : p → ResWf a) (hb : ¬ p → ResWf b) :
    ResWf (if p then a else b) := by
  split
  · next hp => exact ha hp
  · next hp => exact hb hp

theorem StoresWf.ctx? (h : StoresWf s) {id : GroupId} (hc : s.ctx? id = some c) : CtxWf c := by
  obtain ⟨hs, -, ht, -⟩ := s.ctx?_spec id c hc
  exact ⟨hs ▸ h, h.team? ht⟩

/-! Issuing. -/

/-- Issuing keeps the stores when the effect does. -/
theorem StoresWf.issue (h : StoresWf s) (i : Instr) (needs : List Need) {body : Ctx → Res} (hb : ∀ c, CtxWf c → ResWf (body c)) :
    ResWf (issue i s needs body) := by
  rcases issue_cases i s needs body with hr | ⟨id, c, x, -, hc, -, hr⟩ | ⟨id, c, t, -, -, -, hr⟩ | ⟨t, -, hr⟩ | ⟨id, c, -, hc, -, hr⟩
  · exact hr ▸ .next h
  · exact hr ▸ .next ((h.ctx? hc).state.setGroup _ _)
  · exact hr ▸ .next (h.deliver _ _ _ _)
  · exact hr ▸ .next (h.streamStop _ _)
  · exact hr ▸ hb c (h.ctx? hc)

theorem StoresWf.streamIssue (h : StoresWf s) (i : Instr) {body : TeamId → Launch → Team → Sequencer → Res}
    (hb : ∀ id l t q, TeamWf t → ResWf (body id l t q)) : ResWf (streamIssue i s body) := by
  unfold Machine.streamIssue
  split
  · exact .next h
  · exact .next (h.deliver _ _ _ _)
  · split
    · next ht _ =>
      split
      · exact hb _ _ _ _ (h.team? ht)
      · exact .next h
    · exact .next h

theorem StoresWf.streamCheck (h : StoresWf s) (id : TeamId) (ok : Bool) (kind : Nat) {k : Unit → Res} (hk : ResWf (k ())) :
    ResWf (streamCheck s id ok kind k) :=
  .ite (fun _ => hk) fun _ => .next (h.streamStop id kind)

/-! Results of a group's instruction. -/

theorem CtxWf.put (h : CtxWf c) (g : Group) : StoresWf (c.put g) := h.state.setGroup _ _

theorem CtxWf.putFree (h : CtxWf c) (g : Group) : StoresWf (c.putFree g) := h.put g

theorem CtxWf.held (h : CtxWf c) (x : Stall) : ResWf (c.held x) := .next (h.state.setGroup _ _)

theorem CtxWf.finishS (h : CtxWf c) (d : BitVec 8) (v : W64) : ResWf (c.finishS d v) := .next (h.put _)

theorem CtxWf.finishV (h : CtxWf c) (d : BitVec 8) (f : Nat → W32) : ResWf (c.finishV d f) := .next (h.putFree _)

theorem CtxWf.finishN (h : CtxWf c) (d : BitVec 8) (g : Group) (f : Nat → W32) : ResWf (c.finishN d g f) :=
  .next (StoresWf.addFlight (by exact h.state.setGroup _ _) _)

theorem CtxWf.fault (h : CtxWf c) (i : Instr) (t : TrapInfo) : ResWf (c.fault i t) := .next (h.state.deliver _ _ _ _)

theorem CtxWf.check {α : Type} {k : α → Res} (h : CtxWf c) (i : Instr) (x : Chk α) (hk : ∀ a, ResWf (k a)) : ResWf (c.check i x k) := by
  cases x with
  | ok a => exact hk a
  | trap t => exact h.fault i t
  | page va write peer pri lo hi => exact .next (h.state.groupPageFault _ _ _ _ _ _ _ _)
  | hold => exact .next h.state
  | stop f => exact .fault f

theorem CtxWf.checkLoad {α : Type} {k : α → Res} (h : CtxWf c) (i : Instr) (mark : Group → Group) (x : Chk α) (hk : ∀ a, ResWf (k a)) :
    ResWf (c.checkLoad i mark x k) := by
  cases x with
  | page va write peer pri lo hi => exact .next ((h.state.mapGroup _ _).groupPageFault _ _ _ _ _ _ _ _)
  | ok a => exact hk a
  | trap t => exact h.fault i t
  | hold => exact .next h.state
  | stop f => exact .fault f

theorem CtxWf.branchTo (h : CtxWf c) (i : Instr) (target : W64) (g : Group) : ResWf (c.branchTo i target g) :=
  h.check i _ fun _ => .next ((h.state.markHits _ _).setGroup _ _)

theorem CtxWf.branchRel (h : CtxWf c) (i : Instr) (off : BitVec 16) (g : Group) : ResWf (c.branchRel i off g) :=
  .ite (fun _ => h.check i _ fun _ => .next h.state) fun _ => h.branchTo i _ g

/-! Memory and channels. -/

theorem CtxWf.sample (h : CtxWf c) (hs : List Hit) (acq : Bool) (locs : List Loc) : StoresWf (c.sample hs acq locs) := by
  have h1 : StoresWf ((c.s.markHits hs false).trafficTo c.die hs) := (h.state.markHits hs false).trafficTo _ hs
  exact StoresWf.touch (StoresWf.ite (p := acq = true) (fun _ => h1.clearL1 c.core) fun _ => h1) _ _

theorem CtxWf.drain {k : Unit → Res} (h : CtxWf c) (ops : List Nat) (hk : ResWf (k ())) : ResWf (c.drain ops k) :=
  .ite (fun _ => hk) fun _ => .next (h.put _)

theorem CtxWf.wideRelease {k : Unit → Res} (h : CtxWf c) (i : Instr) (ch : Option Nat) (hk : ResWf (k ())) :
    ResWf (c.wideRelease i ch k) := by
  refine h.check i _ fun _ => ?_
  split
  · exact h.drain [] hk
  · refine .ite (fun _ => hk) fun _ => .next (StoresWf.setGroup ?_ _ _)
    split
    · exact h.state.foldl (fun _ x h => h.joinChan _ _ x) _
    · exact h.state

theorem CtxWf.release {k : Unit → Res} (h : CtxWf c) (i : Instr) (wide : Bool) (ch : Option Nat) (hk : ResWf (k ())) :
    ResWf (c.release i wide ch k) :=
  .ite (fun _ => h.wideRelease i ch hk) fun _ => hk

theorem CtxWf.send {k : State → Res} (h : CtxWf c) (hs : StoresWf s) (ch : Nat) (acq : Option (BitVec 3)) (ops : List Outgoing)
    (hk : ∀ s, StoresWf s → ResWf (k s)) : ResWf (c.send s ch acq ops k) := by
  refine .ite (fun _ => h.held _) fun _ => ?_
  split
  · next hsend => exact hk _ (StoresWf.sendOps _ _ hs hsend)
  · exact h.held _

theorem CtxWf.storeAll (h : CtxWf c) (i : Instr) (hs : List (Hit × List (Loc × Byte))) (wide : Bool) (g : Group) :
    ResWf (c.storeAll i hs wide g) :=
  h.release i wide _ <| h.check i _ fun _ => .ite (fun _ => .next h.state) fun _ =>
    h.send (h.state.markHits _ _) _ _ _ fun _ hs => .next ((hs.storeThrough _ _).setGroup _ _)

theorem CtxWf.atomAll {k : State → List W64 → Res} (h : CtxWf c) (i : Instr) (hs : List (Hit × AtomAccess)) (ord : AtomOrder)
    (hk : ∀ s vs, StoresWf s → ResWf (k s vs)) : ResWf (c.atomAll i hs ord k) := by
  refine h.release i _ _ <| h.check i _ fun _ => .ite (fun _ => .next h.state) fun _ => ?_
  have hatom := StoresWf.atomAccesses (s := { c.s.markHits (hs.map (·.1)) true with nextId := c.s.nextId + 1 })
    (h.state.markHits _ _) ((hs.takeWhile fun h => h.1.dest.isNone).map (·.2))
  exact h.send (StoresWf.ite (fun _ => hatom.clearL1 _) fun _ => hatom.dropLines _ _) _ _ _ fun s hs => hk s _ hs

theorem StoresWf.loadS (h : StoresWf s) (i : Instr) (n : Nat) (d : BitVec 8) (p : BitVec 5) (sc : BitVec 3) (o : BitVec 2)
    (b : BitVec 6) :
    ResWf (loadS i n d p sc o b s) :=
  h.issue i _ fun _ hc => hc.checkLoad i _ _ fun _ => .ite (fun _ => .next hc.state) fun _ =>
    .next ((StoresWf.setGroup (hc.sample _ _ _) _ _).addFlight _)

theorem StoresWf.storeS (h : StoresWf s) (i : Instr) (n : Nat) (d : BitVec 8) (p : BitVec 5) (sc : BitVec 3) (o : BitVec 2)
    (b : BitVec 6) :
    ResWf (storeS i n d p sc o b s) :=
  h.issue i _ fun _ hc => hc.check i _ fun _ => hc.storeAll i _ _ _

theorem StoresWf.loadV (h : StoresWf s) (i : Instr) (n : Nat) (d : BitVec 8) (p : BitVec 5) (sc : BitVec 3) (o : BitVec 2)
    (b : BitVec 6) :
    ResWf (loadV i n d p sc o b s) :=
  h.issue i _ fun _ hc => .ite (fun _ => hc.finishV d _) fun _ => hc.checkLoad i _ _ fun _ => .ite (fun _ => .next hc.state) fun _ =>
    .next (StoresWf.addFlight (by exact StoresWf.setGroup (hc.sample _ _ _) _ _) _)

theorem StoresWf.storeV (h : StoresWf s) (i : Instr) (n : Nat) (d : BitVec 8) (p : BitVec 5) (sc : BitVec 3) (o : BitVec 2)
    (b : BitVec 6) :
    ResWf (storeV i n d p sc o b s) :=
  h.issue i _ fun _ hc => .ite (fun _ => .next (hc.put _)) fun _ => hc.check i _ fun _ => hc.storeAll i _ _ _

theorem StoresWf.atomS (h : StoresWf s) (i : Instr) (op : AtomOp) (cas : Bool) (d : BitVec 8) (p : BitVec 5) (sc : BitVec 3)
    (o : BitVec 2)
    (b : BitVec 6) : ResWf (atomS i op cas d p sc o b s) :=
  h.issue i _ fun _ hc => hc.check i _ fun _ => hc.atomAll i _ _ fun _ _ hs => .next (hs.setGroup _ _)

theorem StoresWf.atomV (h : StoresWf s) (i : Instr) (op : AtomOp) (d : BitVec 8) (p : BitVec 5) (sc : BitVec 3) (o : BitVec 2)
    (b : BitVec 6) :
    ResWf (atomV i op d p sc o b s) :=
  h.issue i _ fun _ hc => .ite (fun _ => hc.finishV d _) fun _ => hc.check i _ fun _ =>
    hc.atomAll i _ _ fun _ _ hs => .next (hs.setGroup _ _)

theorem CtxWf.cstScalar (h : CtxWf c) (i : Instr) (ch n : Nat) (p v : W64) : ResWf (cstScalar i ch n p v c) :=
  h.check i _ fun _ => h.check i _ fun _ => h.send (h.state.markHits _ _) _ _ _ fun _ hs => .next (hs.setGroup _ _)

theorem CtxWf.cstVector (h : CtxWf c) (i : Instr) (ch n : Nat) (p : W64) (x : Lanes) : ResWf (cstVector i ch n p x c) :=
  .ite (fun _ => .next (h.put _)) fun _ => h.check i _ fun _ => h.check i _ fun _ =>
    h.send (h.state.markHits _ _) _ _ _ fun _ hs => .next (hs.setGroup _ _)

/-! Rows of one shape. -/

theorem StoresWf.scalar2 (h : StoresWf s) (i : Instr) (d a b : BitVec 8) (f : W64 → W64 → W64) : ResWf (scalar2 i d a b f s) :=
  h.issue i _ fun _ hc => hc.finishS d _

theorem StoresWf.condBranch (h : StoresWf s) (i : Instr) (a : BitVec 8) (o : BitVec 16) (p : W64 → Bool) :
    ResWf (condBranch i a o p s) :=
  h.issue i _ fun _ hc => .ite (fun _ => hc.branchRel i o _) fun _ => .next (hc.put _)

theorem StoresWf.vec1 (h : StoresWf s) (i : Instr) (d a : BitVec 8) (ok : ElemType → Bool) (f : Ctx → W32 → W32) :
    ResWf (vec1 i d a ok f s) :=
  h.issue i _ fun _ hc => hc.finishV d _

theorem StoresWf.vec2 (h : StoresWf s) (i : Instr) (d a b : BitVec 8) (ok : ElemType → Bool) (f : Ctx → W32 → W32 → W32) :
    ResWf (vec2 i d a b ok f s) :=
  h.issue i _ fun _ hc => hc.finishV d _

theorem StoresWf.vec3 (h : StoresWf s) (i : Instr) (d a b : BitVec 8) (ok : ElemType → Bool) (f : Ctx → W32 → W32 → W32 → W32) :
    ResWf (vec3 i d a b ok f s) :=
  h.issue i _ fun _ hc => hc.finishV d _

theorem StoresWf.vecReduce (h : StoresWf s) (i : Instr) (d a : BitVec 8) (op : Ctx → Nat → Nat → Nat) (ident : ElemType → Nat) :
    ResWf (vecReduce i d a op ident s) :=
  h.issue i _ fun _ hc => hc.finishS d _

theorem StoresWf.cvtDown (h : StoresWf s) (i : Instr) (d a b : BitVec 8) (f : FpFmt) : ResWf (cvtDown i d a b f s) :=
  h.issue i _ fun _ hc => hc.finishV d _

theorem StoresWf.cvtUp (h : StoresWf s) (i : Instr) (d a : BitVec 8) (sel : BitVec 1) (t : ElemType) (f : FpFmt) :
    ResWf (cvtUp i d a sel t f s) :=
  h.issue i _ fun _ hc => hc.finishV d _

theorem StoresWf.pack (h : StoresWf s) (i : Instr) (d a b : BitVec 8) (ok : ElemType → Bool) : ResWf (pack i d a b ok s) :=
  h.issue i _ fun _ hc => hc.finishV d _

theorem StoresWf.cvtNarrow (h : StoresWf s) (i : Instr) (d a b : BitVec 8) (n : Narrow) : ResWf (cvtNarrow i d a b n s) :=
  h.issue i _ fun _ hc => hc.finishV d _

theorem StoresWf.vecCmp (h : StoresWf s) (i : Instr) (q : BitVec 3) (a b : BitVec 8) (ok : ElemType → Bool) (unord : Bool)
    (test : Int → Bool) :
    ResWf (vecCmp i q a b ok unord test s) :=
  h.issue i _ fun _ hc => .next (hc.put _)

theorem StoresWf.predOp (h : StoresWf s) (i : Instr) (d : BitVec 3) (f : Ctx → Nat → Bool) : ResWf (predOp i d f s) :=
  h.issue i _ fun _ hc => .next (hc.put _)

theorem CtxWf.copyIssue (h : CtxWf c) (i : Instr) (d a b : BitVec 8) (ch : Nat) (always : Bool) (rights : List Right) :
    ResWf (copyIssue i d a b ch always rights c) :=
  .ite (fun _ => h.finishS d 0) fun _ => h.check i _ fun _ => h.check i _ fun _ => .next (h.state.setGroup _ _)

theorem StoresWf.copyFinish (h : StoresWf s) (id : Nat) (always : Bool) : ResWf (copyFinish id always s) := by
  unfold Machine.copyFinish
  split
  · exact .next h
  · next k _ =>
    refine .ite (fun _ => .next ?_) fun _ => .next h
    have h1 := (h.mapGroup k.group fun g => g.landS id (k.code.zeroExtend 64)).mapTeam k.group.team
      (f := fun t => { t with saveBarred := false }) fun _ ht => ht
    exact h1.clearL1Of k.group.team

theorem StoresWf.landKind (h : StoresWf s) (ks : List FlightKind) (id : Nat) : ResWf (landKind ks id s) := by
  unfold Machine.landKind
  split
  · exact .next h
  · exact .next (.ite (fun _ => h.land _) fun _ => h)

theorem StoresWf.streamBranch (h : StoresWf s) (ht : TeamWf t) (id : TeamId) (l : Launch) (q : Sequencer) (off : Int) :
    ResWf (streamBranch s id l t q off) := by
  refine .ite (fun _ => .next (h.streamStop _ _)) fun _ => ?_
  split
  · exact .next (StoresWf.setTeam (h.markHits _ _) (by exact ht))
  · exact .next (h.streamStop _ _)
  · refine .next (StoresWf.enterFault ?_ _ _)
    exact h.mapTeam _ fun _ ht => ht
  · exact .next h
  · exact .fault _

/-! The command processor and firmware. -/

theorem StoresWf.command (h : StoresWf s) (op : Nat) (check : CmdResult) {effect : State → State} (he : StoresWf (effect s)) :
    ResWf (s.command op check effect) :=
  .next (.ite (fun _ => StoresWf.endCommand (.ite (fun _ => he) fun _ => h) check) fun _ => h)

theorem StoresWf.activateCommand (h : StoresWf s) (op : Nat) : ResWf (s.activateCommand op) :=
  .ite (fun _ => .next h) fun _ => h.command op _ h.activate

theorem StoresWf.packetOf (h : StoresWf s) (fn k : Nat) (ok : List W64 → Bool) {f : Queue → List W64 → State}
    (hf : ∀ q w, StoresWf (f q w)) :
    ResWf (packetOf fn k ok s f) := by
  unfold Machine.packetOf
  split
  · exact .ite (fun _ => .next (hf _ _)) fun _ => .next h
  · exact .next h

theorem StoresWf.plainPacket (h : StoresWf s) (fn k : Nat) (ok : List W64 → Bool) {f : State → Queue → List W64 → State}
    (hf : ∀ s q w, StoresWf s → StoresWf (f s q w)) : ResWf (plainPacket fn k ok s f) :=
  h.packetOf fn k ok fun _ _ => .ite (fun _ => hf _ _ _ (StoresWf.consume (.ite (fun _ => h) fun _ => h.unpair fn k) fn k)) fun _ =>
    h.malformed _ _ _ _

theorem StoresWf.debugPacket (h : StoresWf s) (fn k cmd : Nat) {f : State → Queue → List W64 → Launch → Team → GroupId → Group → State}
    (hf : ∀ s x w l t id g, StoresWf s → s.debugTarget fn w = some (l, t, id, g) → StoresWf (f s x w l t id g)) :
    ResWf (debugPacket fn k cmd s f) := by
  refine h.plainPacket fn k _ fun s x w h => ?_
  split
  · exact h.answer _ _ _ _ _ _
  · next htarget => exact hf _ _ _ _ _ _ _ h htarget

/-! Graph nodes and handlers. -/

theorem StoresWf.nodeRead (h : StoresWf s) (l : Launch) (r : Replay) (i : Nat) (x : GraphNode) (n : Nat) {f : State → List Hit → State}
    (hf : ∀ s hs, StoresWf s → StoresWf (f s hs)) : ResWf (s.nodeRead l r i x n f) := by
  unfold State.nodeRead
  extract_lets ts
  split
  · exact .fault _
  · exact .next ((h.mapReplay _ _).nodePageFault _ _ _ _ _ _ _)
  · exact .next (.ite (fun _ => hf _ _ (h.trafficTo _ _)) fun _ => h)

theorem StoresWf.launchNode (h : StoresWf s) (l : Launch) (replay node : Nat) (x : GraphNode) (spad : List Byte) (text cls : Nat) :
    ResWf (s.launchNode l replay node x spad text cls) := by
  unfold State.launchNode
  split
  · exact .next h
  · exact .ite (fun _ => .next h) fun _ => h.nodeRead _ _ _ _ _ fun _ _ h => h.submitNode _ _ _ _ _ _ _

theorem CtxWf.handlerStands {k : State → Res} (h : CtxWf c) (x : PatchWrites) (y : HandlerHits) (hk : ∀ s, StoresWf s → ResWf (k s)) :
    ResWf (c.handlerStands x y k) :=
  .ite (fun _ => .next h.state) fun _ => h.send (StoresWf.markHits (h.sample _ _ _) _ _) _ _ _ fun _ hs => hk _ ((hs.storeThrough _ _).setGroup _ _)

theorem CtxWf.handlerFault {α : Type} {k : α → Res} (h : CtxWf c) (p : PatchAction) (x : Chk α) (hk : ∀ a, ResWf (k a)) :
    ResWf (c.handlerFault p x k) := by
  cases x with
  | ok a => exact hk a
  | trap t => exact .next (StoresWf.deliverPatched (by exact h.state) _ _ _)
  | page va write peer pri lo hi => exact .next (StoresWf.enterFault (StoresWf.mapGroup (by exact h.state) _ _) _ _)
  | hold => exact .next h.state
  | stop f => exact .fault f

end Sys2Proof.Claims
end

section
/-! Every instruction's meaning, every turn and every event keep the canonical form of the byte stores (spec 03 R65). -/

namespace Sys2Proof.Claims
open Sys2Proof.Machine
variable {s : State} {t : Team} {c : Ctx}

theorem StoresWf.unpack (h : StoresWf s) (i : Instr) (d a : BitVec 8) (sel : BitVec 1) (ok : ElemType → Bool) :
    ResWf (unpack i d a sel ok s) :=
  h.vec1 i d a ok _

/-! Teams at barriers and at the array, and what a cut records. -/

theorem TeamWf.decideQuota (h : TeamWf t) (l : Launch) (arr : List Bool) (reqs : List (Nat × W64 × Nat)) :
    TeamWf (decideQuota t l arr reqs).2 := by
  unfold Machine.decideQuota
  extract_lets whole
  split
  · exact h
  · split
    · exact h
    · split
      · exact h
      · dsimp only
        split
        · exact h
        · exact h

theorem TeamWf.barComplete (h : TeamWf t) (l : Launch) (n : Nat) : TeamWf (t.barComplete l n) := by
  unfold Team.barComplete
  split
  · exact h
  · exact h.decideQuota l _ _

theorem TeamWf.arrived (h : TeamWf t) (l : Launch) (n : Nat) (b : Barrier) : TeamWf (t.arrived l n b) := by
  unfold Team.arrived
  dsimp only
  split
  · exact TeamWf.barComplete (by exact h) l n
  · exact h

theorem TeamWf.arrive (h : TeamWf t) (l : Launch) (n g : Nat) (req : Option (W64 × Nat)) : TeamWf (t.arrive l n g req) := by
  unfold Team.arrive
  split
  · exact h
  · exact TeamWf.arrived (by exact h) l n _

theorem TeamWf.arriveWait (h : TeamWf t) (l : Launch) (n g : Nat) (req : Option (W64 × Nat)) : TeamWf (t.arriveWait l n g req) :=
  TeamWf.arrive (by exact h) l n g req

theorem TeamWf.wait (h : TeamWf t) (n g : Nat) : TeamWf (t.wait n g) := by
  unfold Team.wait
  split
  · exact h
  · exact h

theorem TeamWf.passMwait (h : TeamWf t) (g : Nat) (n : W32) : TeamWf (t.passMwait g n) := h

theorem TeamWf.dropOp (h : TeamWf t) : TeamWf t.dropOp := h
theorem TeamWf.dropOut (h : TeamWf t) (batch : W32) (op : StreamOp) : TeamWf (t.dropOut batch op) := h
theorem TeamWf.headOp (h : TeamWf t) (op : W32 × StreamOp) : TeamWf (t.headOp op) := h

theorem wf_mstoreSpad {m : Memory} (h : Memory.wf m = true) (tile : List Lanes) (map : BitVec 128) (outf : Nat) (now : Nat → Bool) :
    Memory.wf (mstoreSpad m tile map outf now) = true := by
  refine Memory.wf_foldl _ (fun m i hm => Memory.wf_foldl _ (fun m j hm => ?_) _ m hm) _ m h
  dsimp only
  split
  · exact Memory.wf_writeLe _ _ _ _ hm
  · exact hm

theorem TeamWf.storeTile (h : TeamWf t) (tile : Nat) (m : BitVec 128) (outf : Nat) (now : Nat → Bool) :
    TeamWf (t.storeTile tile m outf now) :=
  (teamWf_mk ..).mpr ⟨wf_mstoreSpad h.spad _ _ _ _, h.priv⟩

theorem StoresWf.cutRecords (h : StoresWf s) (j : CutJob) : TeamsWf (s.cutRecords j) := by
  refine (h.teams.filter _).map fun t ht => ?_
  split
  · split
    · exact ht
    · exact ht
  · exact ht

theorem StoresWf.journalPages (h : StoresWf s) (j : CutJob) : Memory.wf (s.journalPages j).2.2 = true :=
  Memory.wf_foldl _ (fun _ _ hm => Memory.wf_writeLe _ _ _ _ hm) _ _ h.mem

theorem StoresWf.handlerOf? (h : StoresWf s) {k : Nat} {p : PatchAction} {e : Bool} (hp : s.handlerOf? k = some (p, c, e)) :
    CtxWf c := by
  unfold State.handlerOf? at hp
  split at hp
  · cases hp
  · split at hp
    · cases hp
    · next hc =>
      split at hp
      · cases hp
        exact h.ctx? hc
      · cases hp

theorem StoresWf.execSld8 (h : StoresWf s) (d : BitVec 8) (p : BitVec 5) (sc : BitVec 3) (o : BitVec 2) (b : BitVec 6) :
    ResWf (execSld8 d p sc o b s) :=
  h.loadS _ _ _ _ _ _ _

theorem StoresWf.execSld16 (h : StoresWf s) (d : BitVec 8) (p : BitVec 5) (sc : BitVec 3) (o : BitVec 2) (b : BitVec 6) :
    ResWf (execSld16 d p sc o b s) :=
  h.loadS _ _ _ _ _ _ _

theorem StoresWf.execSld32 (h : StoresWf s) (d : BitVec 8) (p : BitVec 5) (sc : BitVec 3) (o : BitVec 2) (b : BitVec 6) :
    ResWf (execSld32 d p sc o b s) :=
  h.loadS _ _ _ _ _ _ _

theorem StoresWf.execSld64 (h : StoresWf s) (d : BitVec 8) (p : BitVec 5) (sc : BitVec 3) (o : BitVec 2) (b : BitVec 6) :
    ResWf (execSld64 d p sc o b s) :=
  h.loadS _ _ _ _ _ _ _

theorem StoresWf.execSst8 (h : StoresWf s) (d : BitVec 8) (p : BitVec 5) (sc : BitVec 3) (o : BitVec 2) (b : BitVec 6) :
    ResWf (execSst8 d p sc o b s) :=
  h.storeS _ _ _ _ _ _ _

theorem StoresWf.execSst16 (h : StoresWf s) (d : BitVec 8) (p : BitVec 5) (sc : BitVec 3) (o : BitVec 2) (b : BitVec 6) :
    ResWf (execSst16 d p sc o b s) :=
  h.storeS _ _ _ _ _ _ _

theorem StoresWf.execSst32 (h : StoresWf s) (d : BitVec 8) (p : BitVec 5) (sc : BitVec 3) (o : BitVec 2) (b : BitVec 6) :
    ResWf (execSst32 d p sc o b s) :=
  h.storeS _ _ _ _ _ _ _

theorem StoresWf.execSst64 (h : StoresWf s) (d : BitVec 8) (p : BitVec 5) (sc : BitVec 3) (o : BitVec 2) (b : BitVec 6) :
    ResWf (execSst64 d p sc o b s) :=
  h.storeS _ _ _ _ _ _ _

theorem StoresWf.execVld8 (h : StoresWf s) (d : BitVec 8) (p : BitVec 5) (sc : BitVec 3) (o : BitVec 2) (b : BitVec 6) :
    ResWf (execVld8 d p sc o b s) :=
  h.loadV _ _ _ _ _ _ _

theorem StoresWf.execVld16 (h : StoresWf s) (d : BitVec 8) (p : BitVec 5) (sc : BitVec 3) (o : BitVec 2) (b : BitVec 6) :
    ResWf (execVld16 d p sc o b s) :=
  h.loadV _ _ _ _ _ _ _

theorem StoresWf.execVld32 (h : StoresWf s) (d : BitVec 8) (p : BitVec 5) (sc : BitVec 3) (o : BitVec 2) (b : BitVec 6) :
    ResWf (execVld32 d p sc o b s) :=
  h.loadV _ _ _ _ _ _ _

theorem StoresWf.execVst8 (h : StoresWf s) (d : BitVec 8) (p : BitVec 5) (sc : BitVec 3) (o : BitVec 2) (b : BitVec 6) :
    ResWf (execVst8 d p sc o b s) :=
  h.storeV _ _ _ _ _ _ _

theorem StoresWf.execVst16 (h : StoresWf s) (d : BitVec 8) (p : BitVec 5) (sc : BitVec 3) (o : BitVec 2) (b : BitVec 6) :
    ResWf (execVst16 d p sc o b s) :=
  h.storeV _ _ _ _ _ _ _

theorem StoresWf.execVst32 (h : StoresWf s) (d : BitVec 8) (p : BitVec 5) (sc : BitVec 3) (o : BitVec 2) (b : BitVec 6) :
    ResWf (execVst32 d p sc o b s) :=
  h.storeV _ _ _ _ _ _ _

theorem StoresWf.execVpref (h : StoresWf s) (p : BitVec 5) (sc : BitVec 3) (o : BitVec 2) (b : BitVec 6) :
    ResWf (execVpref p sc o b s) :=
  h.issue _ _ fun _ hc => .next (hc.put _)

theorem StoresWf.execAtadd (h : StoresWf s) (d : BitVec 8) (p : BitVec 5) (sc : BitVec 3) (o : BitVec 2) (b : BitVec 6) :
    ResWf (execAtadd d p sc o b s) :=
  h.atomS _ _ _ _ _ _ _ _

theorem StoresWf.execAtmin (h : StoresWf s) (d : BitVec 8) (p : BitVec 5) (sc : BitVec 3) (o : BitVec 2) (b : BitVec 6) :
    ResWf (execAtmin d p sc o b s) :=
  h.atomS _ _ _ _ _ _ _ _

theorem StoresWf.execAtmax (h : StoresWf s) (d : BitVec 8) (p : BitVec 5) (sc : BitVec 3) (o : BitVec 2) (b : BitVec 6) :
    ResWf (execAtmax d p sc o b s) :=
  h.atomS _ _ _ _ _ _ _ _

theorem StoresWf.execAtand (h : StoresWf s) (d : BitVec 8) (p : BitVec 5) (sc : BitVec 3) (o : BitVec 2) (b : BitVec 6) :
    ResWf (execAtand d p sc o b s) :=
  h.atomS _ _ _ _ _ _ _ _

theorem StoresWf.execAtor (h : StoresWf s) (d : BitVec 8) (p : BitVec 5) (sc : BitVec 3) (o : BitVec 2) (b : BitVec 6) :
    ResWf (execAtor d p sc o b s) :=
  h.atomS _ _ _ _ _ _ _ _

theorem StoresWf.execAtxor (h : StoresWf s) (d : BitVec 8) (p : BitVec 5) (sc : BitVec 3) (o : BitVec 2) (b : BitVec 6) :
    ResWf (execAtxor d p sc o b s) :=
  h.atomS _ _ _ _ _ _ _ _

theorem StoresWf.execAtxchg (h : StoresWf s) (d : BitVec 8) (p : BitVec 5) (sc : BitVec 3) (o : BitVec 2) (b : BitVec 6) :
    ResWf (execAtxchg d p sc o b s) :=
  h.atomS _ _ _ _ _ _ _ _

theorem StoresWf.execAtcas (h : StoresWf s) (d : BitVec 8) (p : BitVec 5) (sc : BitVec 3) (o : BitVec 2) (b : BitVec 6) :
    ResWf (execAtcas d p sc o b s) :=
  h.atomS _ _ _ _ _ _ _ _

theorem StoresWf.execVatadd (h : StoresWf s) (d : BitVec 8) (p : BitVec 5) (sc : BitVec 3) (o : BitVec 2) (b : BitVec 6) :
    ResWf (execVatadd d p sc o b s) :=
  h.atomV _ _ _ _ _ _ _

theorem StoresWf.execVatmin (h : StoresWf s) (d : BitVec 8) (p : BitVec 5) (sc : BitVec 3) (o : BitVec 2) (b : BitVec 6) :
    ResWf (execVatmin d p sc o b s) :=
  h.atomV _ _ _ _ _ _ _

theorem StoresWf.execVatmax (h : StoresWf s) (d : BitVec 8) (p : BitVec 5) (sc : BitVec 3) (o : BitVec 2) (b : BitVec 6) :
    ResWf (execVatmax d p sc o b s) :=
  h.atomV _ _ _ _ _ _ _

theorem StoresWf.execVatxchg (h : StoresWf s) (d : BitVec 8) (p : BitVec 5) (sc : BitVec 3) (o : BitVec 2) (b : BitVec 6) :
    ResWf (execVatxchg d p sc o b s) :=
  h.atomV _ _ _ _ _ _ _

theorem StoresWf.execVatand (h : StoresWf s) (d : BitVec 8) (p : BitVec 5) (sc : BitVec 3) (o : BitVec 2) (b : BitVec 6) :
    ResWf (execVatand d p sc o b s) :=
  h.atomV _ _ _ _ _ _ _

theorem StoresWf.execVator (h : StoresWf s) (d : BitVec 8) (p : BitVec 5) (sc : BitVec 3) (o : BitVec 2) (b : BitVec 6) :
    ResWf (execVator d p sc o b s) :=
  h.atomV _ _ _ _ _ _ _

theorem StoresWf.execFence (h : StoresWf s) (m : BitVec 8) (sc : BitVec 3) : ResWf (execFence m sc s) :=
  h.issue _ _ fun _ hc => .next (StoresWf.setGroup (.ite (fun _ => hc.state.clearL1 _) fun _ => hc.state) _ _)

theorem StoresWf.execBararr (h : StoresWf s) (n : BitVec 4) : ResWf (execBararr n s) :=
  h.issue _ _ fun _ hc => .ite (fun _ => hc.held _) fun _ => .next (hc.state.setTeam (TeamWf.arrive (by exact hc.team) _ _ _ _))

theorem StoresWf.execBarwait (h : StoresWf s) (n : BitVec 4) : ResWf (execBarwait n s) :=
  h.issue _ _ fun _ hc => .next (hc.state.setTeam (hc.team.wait _ _))

theorem StoresWf.execBarsync (h : StoresWf s) (n : BitVec 4) : ResWf (execBarsync n s) :=
  h.issue _ _ fun _ hc => .ite (fun _ => .next (hc.state.setTeam (hc.team.wait _ _))) fun _ =>
    .ite (fun _ => hc.held _) fun _ => .next (hc.state.setTeam (hc.team.arriveWait _ _ _ _))

theorem StoresWf.execRquota (h : StoresWf s) (d : BitVec 8) (n : BitVec 4) (b : BitVec 8) : ResWf (execRquota d n b s) :=
  h.issue _ _ fun _ hc => .ite (fun _ => .next (hc.state.setTeam (hc.team.wait _ _))) fun _ =>
    .ite (fun _ => hc.held _) fun _ => .next (hc.state.setTeam (TeamWf.arriveWait (by exact hc.team) _ _ _ _))

theorem StoresWf.execCst (h : StoresWf s) (ch : BitVec 4) (x : BitVec 4) (a : BitVec 8) (b : BitVec 8) : ResWf (execCst ch x a b s) :=
  h.issue _ _ fun _ hc => .ite (fun _ => hc.cstVector _ _ _ _ _) fun _ => hc.cstScalar _ _ _ _ _

theorem StoresWf.execCatom (h : StoresWf s) (ch : BitVec 4) (x : BitVec 4) (a : BitVec 8) (b : BitVec 8) :
    ResWf (execCatom ch x a b s) :=
  h.issue _ _ fun _ hc => hc.check _ _ fun _ => hc.check _ _ fun _ =>
    hc.send (by exact hc.state.markHits _ _) _ _ _ fun _ hs => .next (hs.setGroup _ _)

theorem StoresWf.execCjoin (h : StoresWf s) (ch : BitVec 4) (x : BitVec 4) : ResWf (execCjoin ch x s) :=
  h.issue _ _ fun _ hc => .next ((hc.state.joinChan _ _ _).setGroup _ _)

theorem StoresWf.execCdrain (h : StoresWf s) (ch : BitVec 4) : ResWf (execCdrain ch s) :=
  h.issue _ _ fun _ hc => hc.check _ _ fun _ => hc.drain _ (.next (hc.put _))

theorem StoresWf.execVadd (h : StoresWf s) (d : BitVec 8) (a : BitVec 8) (b : BitVec 8) : ResWf (execVadd d a b s) :=
  h.vec2 _ _ _ _ _ _

theorem StoresWf.execVsub (h : StoresWf s) (d : BitVec 8) (a : BitVec 8) (b : BitVec 8) : ResWf (execVsub d a b s) :=
  h.vec2 _ _ _ _ _ _

theorem StoresWf.execVmul (h : StoresWf s) (d : BitVec 8) (a : BitVec 8) (b : BitVec 8) : ResWf (execVmul d a b s) :=
  h.vec2 _ _ _ _ _ _

theorem StoresWf.execVdiv (h : StoresWf s) (d : BitVec 8) (a : BitVec 8) (b : BitVec 8) : ResWf (execVdiv d a b s) :=
  h.vec2 _ _ _ _ _ _

theorem StoresWf.execVfma (h : StoresWf s) (d : BitVec 8) (a : BitVec 8) (b : BitVec 8) : ResWf (execVfma d a b s) :=
  h.vec3 _ _ _ _ _ _

theorem StoresWf.execVfms (h : StoresWf s) (d : BitVec 8) (a : BitVec 8) (b : BitVec 8) : ResWf (execVfms d a b s) :=
  h.vec3 _ _ _ _ _ _

theorem StoresWf.execVfnma (h : StoresWf s) (d : BitVec 8) (a : BitVec 8) (b : BitVec 8) : ResWf (execVfnma d a b s) :=
  h.vec3 _ _ _ _ _ _

theorem StoresWf.execVmin (h : StoresWf s) (d : BitVec 8) (a : BitVec 8) (b : BitVec 8) : ResWf (execVmin d a b s) :=
  h.vec2 _ _ _ _ _ _

theorem StoresWf.execVmax (h : StoresWf s) (d : BitVec 8) (a : BitVec 8) (b : BitVec 8) : ResWf (execVmax d a b s) :=
  h.vec2 _ _ _ _ _ _

theorem StoresWf.execVabs (h : StoresWf s) (d : BitVec 8) (a : BitVec 8) : ResWf (execVabs d a s) :=
  h.vec1 _ _ _ _ _

theorem StoresWf.execVneg (h : StoresWf s) (d : BitVec 8) (a : BitVec 8) : ResWf (execVneg d a s) :=
  h.vec1 _ _ _ _ _

theorem StoresWf.execVsqrt (h : StoresWf s) (d : BitVec 8) (a : BitVec 8) : ResWf (execVsqrt d a s) :=
  h.vec1 _ _ _ _ _

theorem StoresWf.execVrcp (h : StoresWf s) (d : BitVec 8) (a : BitVec 8) : ResWf (execVrcp d a s) :=
  h.vec1 _ _ _ _ _

theorem StoresWf.execVrsq (h : StoresWf s) (d : BitVec 8) (a : BitVec 8) : ResWf (execVrsq d a s) :=
  h.vec1 _ _ _ _ _

theorem StoresWf.execVexp2 (h : StoresWf s) (d : BitVec 8) (a : BitVec 8) : ResWf (execVexp2 d a s) :=
  h.vec1 _ _ _ _ _

theorem StoresWf.execVlog2 (h : StoresWf s) (d : BitVec 8) (a : BitVec 8) : ResWf (execVlog2 d a s) :=
  h.vec1 _ _ _ _ _

theorem StoresWf.execVcsign (h : StoresWf s) (d : BitVec 8) (a : BitVec 8) (b : BitVec 8) : ResWf (execVcsign d a b s) :=
  h.vec2 _ _ _ _ _ _

theorem StoresWf.execVand (h : StoresWf s) (d : BitVec 8) (a : BitVec 8) (b : BitVec 8) : ResWf (execVand d a b s) :=
  h.vec2 _ _ _ _ _ _

theorem StoresWf.execVor (h : StoresWf s) (d : BitVec 8) (a : BitVec 8) (b : BitVec 8) : ResWf (execVor d a b s) :=
  h.vec2 _ _ _ _ _ _

theorem StoresWf.execVxor (h : StoresWf s) (d : BitVec 8) (a : BitVec 8) (b : BitVec 8) : ResWf (execVxor d a b s) :=
  h.vec2 _ _ _ _ _ _

theorem StoresWf.execVnot (h : StoresWf s) (d : BitVec 8) (a : BitVec 8) : ResWf (execVnot d a s) :=
  h.vec1 _ _ _ _ _

theorem StoresWf.execVshl (h : StoresWf s) (d : BitVec 8) (a : BitVec 8) (b : BitVec 8) : ResWf (execVshl d a b s) :=
  h.vec2 _ _ _ _ _ _

theorem StoresWf.execVshr (h : StoresWf s) (d : BitVec 8) (a : BitVec 8) (b : BitVec 8) : ResWf (execVshr d a b s) :=
  h.vec2 _ _ _ _ _ _

theorem StoresWf.execVshra (h : StoresWf s) (d : BitVec 8) (a : BitVec 8) (b : BitVec 8) : ResWf (execVshra d a b s) :=
  h.vec2 _ _ _ _ _ _

theorem StoresWf.execVrot (h : StoresWf s) (d : BitVec 8) (a : BitVec 8) (b : BitVec 8) : ResWf (execVrot d a b s) :=
  h.vec2 _ _ _ _ _ _

theorem StoresWf.execVmulhi (h : StoresWf s) (d : BitVec 8) (a : BitVec 8) (b : BitVec 8) : ResWf (execVmulhi d a b s) :=
  h.vec2 _ _ _ _ _ _

theorem StoresWf.execVclz (h : StoresWf s) (d : BitVec 8) (a : BitVec 8) : ResWf (execVclz d a s) :=
  h.vec1 _ _ _ _ _

theorem StoresWf.execVpopc (h : StoresWf s) (d : BitVec 8) (a : BitVec 8) : ResWf (execVpopc d a s) :=
  h.vec1 _ _ _ _ _

theorem StoresWf.execVsel (h : StoresWf s) (d : BitVec 8) (a : BitVec 8) (b : BitVec 8) : ResWf (execVsel d a b s) :=
  h.vec3 _ _ _ _ _ _

theorem StoresWf.execVfloor (h : StoresWf s) (d : BitVec 8) (a : BitVec 8) : ResWf (execVfloor d a s) :=
  h.vec1 _ _ _ _ _

theorem StoresWf.execVceil (h : StoresWf s) (d : BitVec 8) (a : BitVec 8) : ResWf (execVceil d a s) :=
  h.vec1 _ _ _ _ _

theorem StoresWf.execVround (h : StoresWf s) (d : BitVec 8) (a : BitVec 8) : ResWf (execVround d a s) :=
  h.vec1 _ _ _ _ _

theorem StoresWf.execVtrunc (h : StoresWf s) (d : BitVec 8) (a : BitVec 8) : ResWf (execVtrunc d a s) :=
  h.vec1 _ _ _ _ _

theorem StoresWf.execVbcast (h : StoresWf s) (d : BitVec 8) (a : BitVec 8) (b : BitVec 8) : ResWf (execVbcast d a b s) :=
  h.issue _ _ fun _ hc => hc.finishV _ _

theorem StoresWf.execVperm (h : StoresWf s) (d : BitVec 8) (a : BitVec 8) (b : BitVec 8) : ResWf (execVperm d a b s) :=
  h.issue _ _ fun _ hc => hc.finishV _ _

theorem StoresWf.execVlrot (h : StoresWf s) (d : BitVec 8) (a : BitVec 8) (b : BitVec 8) : ResWf (execVlrot d a b s) :=
  h.issue _ _ fun _ hc => hc.finishV _ _

theorem StoresWf.execVscan (h : StoresWf s) (d : BitVec 8) (a : BitVec 8) : ResWf (execVscan d a s) :=
  h.issue _ _ fun _ hc => hc.finishV _ _

theorem StoresWf.execVradd (h : StoresWf s) (d : BitVec 8) (a : BitVec 8) : ResWf (execVradd d a s) :=
  h.vecReduce _ _ _ _ _

theorem StoresWf.execVrmin (h : StoresWf s) (d : BitVec 8) (a : BitVec 8) : ResWf (execVrmin d a s) :=
  h.vecReduce _ _ _ _ _

theorem StoresWf.execVrmax (h : StoresWf s) (d : BitVec 8) (a : BitVec 8) : ResWf (execVrmax d a s) :=
  h.vecReduce _ _ _ _ _

theorem StoresWf.execVmovs (h : StoresWf s) (d : BitVec 8) (a : BitVec 8) (b : BitVec 8) : ResWf (execVmovs d a b s) :=
  h.issue _ _ fun _ hc => .next (hc.put _)

theorem StoresWf.execVins (h : StoresWf s) (d : BitVec 8) (a : BitVec 8) (b : BitVec 8) : ResWf (execVins d a b s) :=
  h.issue _ _ fun _ hc => hc.finishV _ _

theorem StoresWf.execCvtif (h : StoresWf s) (d : BitVec 8) (a : BitVec 8) : ResWf (execCvtif d a s) :=
  h.vec1 _ _ _ _ _

theorem StoresWf.execCvtfi (h : StoresWf s) (d : BitVec 8) (a : BitVec 8) : ResWf (execCvtfi d a s) :=
  h.issue _ _ fun _ hc => hc.finishV _ _

theorem StoresWf.execCvtfh (h : StoresWf s) (d : BitVec 8) (a : BitVec 8) (b : BitVec 8) : ResWf (execCvtfh d a b s) :=
  h.cvtDown _ _ _ _ _

theorem StoresWf.execCvtfb (h : StoresWf s) (d : BitVec 8) (a : BitVec 8) (b : BitVec 8) : ResWf (execCvtfb d a b s) :=
  h.cvtDown _ _ _ _ _

theorem StoresWf.execCvthf (h : StoresWf s) (d : BitVec 8) (a : BitVec 8) (b : BitVec 1) : ResWf (execCvthf d a b s) :=
  h.cvtUp _ _ _ _ _ _

theorem StoresWf.execCvtbf (h : StoresWf s) (d : BitVec 8) (a : BitVec 8) (b : BitVec 1) : ResWf (execCvtbf d a b s) :=
  h.cvtUp _ _ _ _ _ _

theorem StoresWf.execPack16 (h : StoresWf s) (d : BitVec 8) (a : BitVec 8) (b : BitVec 8) : ResWf (execPack16 d a b s) :=
  h.pack _ _ _ _ _

theorem StoresWf.execPack8 (h : StoresWf s) (d : BitVec 8) (a : BitVec 8) (b : BitVec 8) : ResWf (execPack8 d a b s) :=
  h.pack _ _ _ _ _

theorem StoresWf.execUnpk16 (h : StoresWf s) (d : BitVec 8) (a : BitVec 8) (b : BitVec 1) : ResWf (execUnpk16 d a b s) :=
  h.unpack _ _ _ _ _

theorem StoresWf.execUnpk8 (h : StoresWf s) (d : BitVec 8) (a : BitVec 8) (b : BitVec 1) : ResWf (execUnpk8 d a b s) :=
  h.unpack _ _ _ _ _

theorem StoresWf.execCvtfn (h : StoresWf s) (d : BitVec 8) (a : BitVec 8) (f : BitVec 4) : ResWf (execCvtfn d a f s) :=
  h.issue _ _ fun _ hc => hc.finishV _ _

theorem StoresWf.execCvtn8 (h : StoresWf s) (d : BitVec 8) (a : BitVec 8) (b : BitVec 8) : ResWf (execCvtn8 d a b s) :=
  h.cvtNarrow _ _ _ _ _

theorem StoresWf.execCvtn6 (h : StoresWf s) (d : BitVec 8) (a : BitVec 8) (b : BitVec 8) : ResWf (execCvtn6 d a b s) :=
  h.cvtNarrow _ _ _ _ _

theorem StoresWf.execCvtn4 (h : StoresWf s) (d : BitVec 8) (a : BitVec 8) (b : BitVec 8) : ResWf (execCvtn4 d a b s) :=
  h.cvtNarrow _ _ _ _ _

theorem StoresWf.execCvtnf (h : StoresWf s) (d : BitVec 8) (a : BitVec 8) (f : BitVec 4) : ResWf (execCvtnf d a f s) :=
  h.issue _ _ fun _ hc => hc.finishV _ _

theorem StoresWf.execCvtnx (h : StoresWf s) (d : BitVec 8) (a : BitVec 8) (f : BitVec 4) : ResWf (execCvtnx d a f s) :=
  h.issue _ _ fun _ hc => hc.finishV _ _

theorem StoresWf.execCopy (h : StoresWf s) (d : BitVec 8) (a : BitVec 8) (b : BitVec 8) : ResWf (execCopy d a b s) :=
  h.issue _ _ fun _ hc => hc.copyIssue _ _ _ _ _ _ _

theorem StoresWf.execCcopy (h : StoresWf s) (ch : BitVec 4) (a : BitVec 8) (b : BitVec 8) : ResWf (execCcopy ch a b s) :=
  h.issue _ _ fun _ hc => hc.copyIssue _ _ _ _ _ _ _

theorem StoresWf.execCopyChunk (h : StoresWf s) (id : ℕ) : ResWf (execCopyChunk id s) := by
  unfold Machine.execCopyChunk
  (repeat' split) <;> simp [h]

theorem StoresWf.execCopyComplete (h : StoresWf s) (id : ℕ) : ResWf (execCopyComplete id s) :=
  h.copyFinish _ _

theorem StoresWf.execCcopyComplete (h : StoresWf s) (id : ℕ) : ResWf (execCcopyComplete id s) :=
  h.copyFinish _ _

theorem StoresWf.execWaita (h : StoresWf s) (d : BitVec 8) (a : BitVec 8) (b : BitVec 8) : ResWf (execWaita d a b s) :=
  h.issue _ _ fun _ hc => hc.check _ _ fun _ => .ite (fun _ => .next hc.state) fun _ =>
    .ite (fun _ => .next ((hc.sample _ _ _).setGroup _ _)) fun _ => .ite (fun _ => hc.fault _ _) fun _ =>
      .next ((StoresWf.setGroup (hc.sample _ _ _) _ _).mapCore _ _)

theorem StoresWf.execWaitaWake (h : StoresWf s) (launch : ℕ) (team : ℕ) (group : ℕ) : ResWf (execWaitaWake launch team group s) := by
  unfold Machine.execWaitaWake
  extract_lets id
  split
  · exact .next h
  · split
    · exact .next (.ite (fun _ => h.setGroup _ _) fun _ => h)
    · exact .next h

theorem StoresWf.execMwait (h : StoresWf s) (a : BitVec 8) : ResWf (execMwait a s) := by
  refine h.issue _ _ fun c hc => ?_
  split
  · exact hc.fault _ _
  · exact .ite (fun _ => .next (hc.put _)) fun _ => .ite (fun _ => .next (hc.state.setTeam (TeamWf.passMwait (by exact hc.team) _ _)))
      fun _ => hc.held _

theorem StoresWf.execLwake (h : StoresWf s) (a : BitVec 8) : ResWf (execLwake a s) := by
  refine h.issue _ _ fun c hc => ?_
  dsimp only
  split
  · exact .next (hc.put _)
  · exact .next (hc.put _)

theorem StoresWf.execMhint (h : StoresWf s) (a : BitVec 8) (b : BitVec 8) : ResWf (execMhint a b s) :=
  h.issue _ _ fun _ hc => .next (.ite (fun _ => hc.put _) fun _ => hc.put _)

theorem StoresWf.execChannelAck (h : StoresWf s) (k : ℕ) : ResWf (execChannelAck k s) := by
  unfold Machine.execChannelAck
  split
  · exact .next h
  · exact .next (StoresWf.dropSettled (StoresWf.ackPacket (by exact h) _))

theorem StoresWf.execAtomicReceiptConfirmation (h : StoresWf s) (id : ℕ) : ResWf (execAtomicReceiptConfirmation id s) := by
  unfold Machine.execAtomicReceiptConfirmation
  (repeat' split) <;> simp [h]

theorem StoresWf.execChannelPacketArrival (h : StoresWf s) (k : ℕ) : ResWf (execChannelPacketArrival k s) := by
  unfold Machine.execChannelPacketArrival
  split
  · exact .next h
  · exact .ite (fun _ => .next h) fun _ =>
      .next (StoresWf.dropSettled (((StoresWf.wakePath (by exact h) _).withEntry _).portAccept _))

theorem StoresWf.execStreamClose (h : StoresWf s) (k : ℕ) : ResWf (execStreamClose k s) := by
  unfold Machine.execStreamClose
  split <;> simp [h]

theorem StoresWf.execPacketResend (h : StoresWf s) (id : ℕ) : ResWf (execPacketResend id s) := by
  unfold Machine.execPacketResend
  (repeat' split) <;> simp [h]

theorem StoresWf.execLinkFailure (h : StoresWf s) (link : ℕ) (packets : List ℕ) (acks : List ℕ) :
    ResWf (execLinkFailure link packets acks s) := by
  unfold Machine.execLinkFailure
  split
  · exact .next h
  · exact .ite (fun _ => .next h) fun _ => .next (StoresWf.foldl (by exact h) (fun _ x h => h.handshake _ x) _)

theorem StoresWf.execSyncRequest (h : StoresWf s) (k : ℕ) : ResWf (execSyncRequest k s) := by
  unfold Machine.execSyncRequest
  split
  · exact .next h
  · next m _ =>
    extract_lets opened s1
    have h1 : StoresWf s1 := StoresWf.foldl (by exact h) (fun _ st h => h.withEntry st) opened
    exact .next (.ite (fun _ => h1) fun _ => h1)

theorem StoresWf.execSync (h : StoresWf s) (k : ℕ) : ResWf (execSync k s) := by
  unfold Machine.execSync
  split
  · exact .next h
  · exact .next (StoresWf.dropSettled (StoresWf.foldl (StoresWf.countHandshake (by exact h) _) (fun _ x h => h.syncStream x) _))

theorem StoresWf.execLinkRetrained (h : StoresWf s) (link : ℕ) : ResWf (execLinkRetrained link s) :=
  .next h

theorem StoresWf.execLinkNarrow (h : StoresWf s) (link : ℕ) : ResWf (execLinkNarrow link s) :=
  .next h

theorem StoresWf.execLinkSleep (h : StoresWf s) (link : ℕ) : ResWf (execLinkSleep link s) :=
  .next h

theorem StoresWf.execLwakeExpiry (h : StoresWf s) (link : ℕ) : ResWf (execLwakeExpiry link s) :=
  .next h

theorem StoresWf.execTrap (h : StoresWf s) (a : BitVec 8) : ResWf (execTrap a s) :=
  h.issue _ _ fun _ hc => .next (hc.state.deliver _ _ _ _)

theorem StoresWf.execTret (h : StoresWf s) (a : BitVec 8) : ResWf (execTret a s) :=
  h.issue _ _ fun _ hc => .ite (fun _ => hc.fault _ _) fun _ => hc.check _ _ fun _ => hc.check _ _ fun _ =>
    .next ((hc.state.markHits _ _).setGroup _ _)

theorem StoresWf.execBrk (h : StoresWf s) (tag : BitVec 8) : ResWf (execBrk tag s) :=
  h.issue _ _ fun _ hc => .ite (fun _ => .ite (fun _ => .next (hc.put _)) fun _ => .next (hc.put _)) fun _ =>
    .next (hc.state.deliver _ _ _ _)

theorem StoresWf.execNop (h : StoresWf s) : ResWf (execNop s) :=
  h.issue _ _ fun _ hc => .next (hc.put _)

theorem StoresWf.execExit (h : StoresWf s) : ResWf (execExit s) :=
  h.issue _ _ fun _ hc => .ite (fun _ => .next (hc.put _)) fun _ => .next hc.state

theorem StoresWf.execFaultrd (h : StoresWf s) (d : BitVec 8) (k : BitVec 8) : ResWf (execFaultrd d k s) :=
  h.issue _ _ fun _ hc => hc.finishS _ _

theorem StoresWf.execTeamPlacement (h : StoresWf s) (part : ℕ) : ResWf (execTeamPlacement part s) := by
  unfold Machine.execTeamPlacement
  extract_lets s1
  have h1 : StoresWf s1 := h.dropMarks part
  split
  · exact .next h1
  · split
    · exact .next (.ite (fun _ => h1) fun _ => h1.placeFirst _ _)
    · refine .next (StoresWf.placeFirst ?_ _ _)
      split
      · exact h1
      · exact h1

theorem StoresWf.execPoolSwitch (h : StoresWf s) (core : ℕ) : ResWf (execPoolSwitch core s) := by
  refine .next (h.foldl (fun s d h => ?_) _)
  split
  · exact h
  · exact .ite (fun _ => h) fun _ => h

theorem StoresWf.execPoolSwitchComplete (h : StoresWf s) (core : ℕ) : ResWf (execPoolSwitchComplete core s) :=
  .next h

theorem StoresWf.execGroupExchange (h : StoresWf s) (core : ℕ) (launch : ℕ) (team : ℕ) (group : ℕ) :
    ResWf (execGroupExchange core launch team group s) := by
  unfold Machine.execGroupExchange
  (repeat' split) <;> simp [h]

theorem StoresWf.execGroupStarved (h : StoresWf s) (core : ℕ) (launch : ℕ) (team : ℕ) (group : ℕ) :
    ResWf (execGroupStarved core launch team group s) := by
  unfold Machine.execGroupStarved
  simp [h]

theorem StoresWf.execForcedExchange (h : StoresWf s) (core : ℕ) : ResWf (execForcedExchange core s) := by
  unfold Machine.execForcedExchange
  split
  · exact .next h
  · dsimp only
    split
    · exact .next h
    · exact .next h

theorem StoresWf.execTeamRetirement (h : StoresWf s) (launch : ℕ) (team : ℕ) : ResWf (execTeamRetirement launch team s) := by
  unfold Machine.execTeamRetirement
  split
  · next ht _ => exact .next (.ite (fun _ => h.retireTeam (h.team? ht) _) fun _ => h)
  · exact .next h

theorem StoresWf.execLaunchCompletion (h : StoresWf s) (launch : ℕ) : ResWf (execLaunchCompletion launch s) := by
  unfold Machine.execLaunchCompletion
  split
  · exact .next h
  · exact .next (.ite (fun _ => h.foldl (fun _ m h => h.completeLaunch m) _) fun _ => h)

theorem StoresWf.execPageMigrationStart (h : StoresWf s) (part : ℕ) (va : ℕ) (target : ℕ) :
    ResWf (execPageMigrationStart part va target s) := by
  unfold Machine.execPageMigrationStart
  split
  · exact .next h
  · exact .next (.ite (fun _ => h.startMove _ _ _) fun _ => h)

theorem StoresWf.execPageMigrationComplete (h : StoresWf s) (k : ℕ) : ResWf (execPageMigrationComplete k s) := by
  unfold Machine.execPageMigrationComplete
  split
  · exact .next h
  · extract_lets e keep m tel
    have hmem : Memory.wf m = true := Memory.wf_writeLe _ _ _ _ (Memory.wf_move _ _ _ _ h.mem)
    refine .next (StoresWf.finishStops (StoresWf.follow ?_ _ _ _))
    exact ⟨hmem, h.hosts, h.peers, h.teams, h.cuts⟩

theorem StoresWf.execPreemptRequest (h : StoresWf s) (launch : ℕ) (team : ℕ) (budget : ℕ) :
    ResWf (execPreemptRequest launch team budget s) := by
  unfold Machine.execPreemptRequest
  split
  · next t _ ht _ =>
    have hwf : TeamWf t := h.team? ht
    exact .ite (fun _ => .next h) fun _ => .next (h.setTeam (by exact hwf))
  · exact .next h

theorem StoresWf.execDrainTimeout (h : StoresWf s) (launch : ℕ) (team : ℕ) : ResWf (execDrainTimeout launch team s) := by
  refine .next (h.mapTeam _ fun t ht => ?_)
  split
  · split
    · exact ht
    · exact ht
  · exact ht

theorem StoresWf.execSaveComplete (h : StoresWf s) (launch : ℕ) (team : ℕ) : ResWf (execSaveComplete launch team s) := by
  unfold Machine.execSaveComplete
  split
  · next t l ht hl =>
    have hwf : TeamWf t := h.team? ht
    exact .next (.ite (fun _ => (((h.leaveCore _).setTeam (by exact hwf)).noteAway _).keepArea _ _ _) fun _ => h)
  · exact .next h

theorem StoresWf.execSaveWithdraw (h : StoresWf s) (launch : ℕ) (team : ℕ) : ResWf (execSaveWithdraw launch team s) := by
  unfold Machine.execSaveWithdraw
  split
  · exact .next h
  · next t ht =>
    have hwf : TeamWf t := h.team? ht
    split
    · exact .next h
    · exact .next (.ite (fun _ => h.setTeam (by exact hwf)) fun _ => h)

theorem StoresWf.execFlushComplete (h : StoresWf s) (launch : ℕ) (team : ℕ) : ResWf (execFlushComplete launch team s) := by
  unfold Machine.execFlushComplete
  split
  · exact .next h
  · next t ht =>
    have hwf : TeamWf t := h.team? ht
    exact .next (.ite (fun _ => (((h.leaveCore _).setTeam (by exact hwf)).dropTeamFaults _).noteAway _) fun _ => h)

theorem StoresWf.execCutStopRequest (h : StoresWf s) (launch : ℕ) : ResWf (execCutStopRequest launch s) := by
  unfold Machine.execCutStopRequest
  split
  · exact .next h
  · extract_lets job part limit start s1
    have h1 : StoresWf s1 := .ite (fun _ => h.mapJob launch fun _ hj => hj) fun _ =>
      storesWf_iff.mpr ⟨h.mem, h.hosts, h.peers, h.teams, h.cuts.append fun j hj => by
        rw [List.mem_singleton.mp hj]
        exact TeamsWf.nil⟩
    exact .ite (fun _ => .next h) fun _ => .next h1

theorem StoresWf.execCutCompletion (h : StoresWf s) (launch : ℕ) : ResWf (execCutCompletion launch s) := by
  unfold Machine.execCutCompletion
  split
  · exact .next h
  · next j hj =>
    refine .ite (fun _ => .next h) fun _ => .ite (fun _ => .next (h.releaseHeld _)) fun _ => .ite (fun _ => .next ?_) fun _ => .next h
    refine StoresWf.endCut (StoresWf.mapJob ?_ _ fun _ _ => h.cutRecords j) _
    have hkeep : StoresWf (s.keepCut j) := h.keepCut j
    exact ⟨h.journalPages j, hkeep.hosts, hkeep.peers, hkeep.teams, hkeep.cuts⟩

theorem StoresWf.execCutAbandon (h : StoresWf s) (launch : ℕ) : ResWf (execCutAbandon launch s) := by
  unfold Machine.execCutAbandon
  (repeat' split) <;> simp [h]

theorem StoresWf.execJournalCopyOnWrite (h : StoresWf s) (launch : ℕ) (page : ℕ) : ResWf (execJournalCopyOnWrite launch page s) := by
  refine .next (h.mapJob _ fun j hj => ?_)
  split
  · exact hj
  · exact hj

theorem StoresWf.execDieFence (h : StoresWf s) (at' : DieAt) : ResWf (execDieFence at' s) := by
  unfold Machine.execDieFence
  (repeat' split) <;> simp [h]

theorem StoresWf.execPeerUnreachable (h : StoresWf s) (mod : ℕ) : ResWf (execPeerUnreachable mod s) := by
  unfold Machine.execPeerUnreachable
  extract_lets gone off s1
  have h1 : StoresWf s1 := (h.rollbacks (h.cuts.filter _)).loseStreams gone
  refine .next (storesWf_iff.mpr ⟨h1.mem, h1.hosts, h1.peers.map (f := off) fun p hp => ?_, h1.teams, h1.cuts⟩)
  show Memory.wf (if p.mod = mod then _ else p).mem = true
  split
  · exact hp
  · exact hp

theorem StoresWf.execUncorrectableTeamState (h : StoresWf s) (core : ℕ) : ResWf (execUncorrectableTeamState core s) := by
  unfold Machine.execUncorrectableTeamState
  split
  · exact .next h
  · refine .ite (fun _ => .next h) fun _ => ?_
    extract_lets die here affected s1 n counters tel
    have h1 : StoresWf s1 := (h.loseAll _ _).logError _ _
    exact .next (.ite (fun _ => h1) fun _ => h1)

theorem StoresWf.execPartSet (h : StoresWf s) : ResWf (execPartSet s) := by
  unfold Machine.execPartSet
  exact h.command _ _ (by exact h)

theorem StoresWf.execCutSet (h : StoresWf s) : ResWf (execCutSet s) := by
  unfold Machine.execCutSet
  exact h.command _ _ (by exact h)

theorem StoresWf.execQcellSet (h : StoresWf s) : ResWf (execQcellSet s) := by
  unfold Machine.execQcellSet
  exact h.command _ _ (by exact h)

theorem StoresWf.execPowerCap (h : StoresWf s) : ResWf (execPowerCap s) := by
  unfold Machine.execPowerCap
  exact h.command _ _ (by exact h)

theorem StoresWf.execImgStage (h : StoresWf s) : ResWf (execImgStage s) := by
  unfold Machine.execImgStage
  extract_lets bs
  split
  · exact h.command _ _ h
  · exact h.command _ _ (StoresWf.noteVerified (h.setClass _ _) _)

theorem StoresWf.execImgActivate (h : StoresWf s) : ResWf (execImgActivate s) :=
  h.activateCommand 6

theorem StoresWf.execImgRevert (h : StoresWf s) : ResWf (execImgRevert s) :=
  h.activateCommand 8

theorem StoresWf.execPatchImageSwitch (h : StoresWf s) : ResWf (execPatchImageSwitch s) :=
  .ite (fun _ => h.command _ _ h.switchImage) fun _ => .next h

theorem StoresWf.execImgCommit (h : StoresWf s) : ResWf (execImgCommit s) := by
  unfold Machine.execImgCommit
  exact h.command _ _ (h.setClass _ _)

theorem StoresWf.execDumpClear (h : StoresWf s) : ResWf (execDumpClear s) := by
  unfold Machine.execDumpClear
  refine h.command _ _ ?_
  refine storesWf_iff.mpr ⟨?_, h.hosts, h.peers, h.teams, h.cuts⟩
  exact Memory.wf_foldl _ (fun m lake hm => Memory.wf_writeLe _ _ _ _ (Memory.wf_write _ _ _ hm)) _ _ h.mem

theorem StoresWf.execUnknownCommand (h : StoresWf s) : ResWf (execUnknownCommand s) :=
  .ite (fun _ => .next h) fun _ => h.command _ _ h

theorem StoresWf.execMcmdComplete (h : StoresWf s) : ResWf (execMcmdComplete s) := by
  unfold Machine.execMcmdComplete
  simp [h]

theorem StoresWf.execVtimeCompareMatch (h : StoresWf s) (launch : ℕ) (team : ℕ) (group : ℕ) :
    ResWf (execVtimeCompareMatch launch team group s) := by
  unfold Machine.execVtimeCompareMatch
  simp [h]

theorem StoresWf.execEventTrap (h : StoresWf s) (launch : ℕ) (team : ℕ) (group : ℕ) : ResWf (execEventTrap launch team group s) := by
  unfold Machine.execEventTrap
  extract_lets id
  split
  · exact .next (.ite (fun _ => StoresWf.finishStops (StoresWf.takeEvent (h.setGroup _ _) _)) fun _ => h)
  · exact .next h

theorem StoresWf.execGangReserve (h : StoresWf s) (gang : BitVec 32) : ResWf (execGangReserve gang s) := by
  unfold Machine.execGangReserve
  split
  · exact .next h
  · next g _ =>
    refine .ite (fun _ => .next (h.refuseAbroad g)) fun _ => .ite (fun _ => ?_) fun _ => .next h
    exact .ite (fun _ => .next (h.mapGang _ _)) fun _ =>
      .next (((StoresWf.foldl (h.mapGang _ _) (fun _ p h => h.reservePart p.2) _).mapGang _ _).lookAbroad g)

theorem StoresWf.execGangReserveTimeout (h : StoresWf s) (gang : BitVec 32) : ResWf (execGangReserveTimeout gang s) :=
  .next h

theorem StoresWf.execGangBackoffRetry (h : StoresWf s) (gang : BitVec 32) : ResWf (execGangBackoffRetry gang s) :=
  .next h

theorem StoresWf.execGangCommit (h : StoresWf s) (gang : BitVec 32) : ResWf (execGangCommit gang s) := by
  unfold Machine.execGangCommit
  split
  · exact .next h
  · refine .ite (fun _ => .next h) fun _ => .next (StoresWf.foldl (by exact h) (fun s r h => ?_) _)
    split
    · exact h.placeTeam _ _ _
    · exact h

theorem StoresWf.execQuarantineTimeout (h : StoresWf s) (launch : ℕ) : ResWf (execQuarantineTimeout launch s) := by
  unfold Machine.execQuarantineTimeout
  split
  · exact .next h
  · exact .next (.ite (fun _ => StoresWf.mapLaunch (StoresWf.abortLaunch (by exact h) _ _) _ _) fun _ => h)

theorem StoresWf.execSread (h : StoresWf s) (d : BitVec 8) (y : BitVec 8) : ResWf (execSread d y s) :=
  h.issue _ _ fun _ hc => hc.finishS _ _

theorem StoresWf.execSwrite (h : StoresWf s) (y : BitVec 8) (b : BitVec 8) : ResWf (execSwrite y b s) :=
  h.issue _ _ fun _ hc => .next (hc.put _)

theorem StoresWf.execIcinv (h : StoresWf s) (a : BitVec 8) (b : BitVec 8) : ResWf (execIcinv a b s) :=
  h.issue _ _ fun _ hc => .ite (fun _ => .next (hc.put _)) fun _ => hc.check _ _ fun _ => hc.check _ _ fun _ =>
    hc.drain _ (.next (hc.put _))

theorem StoresWf.execMode (h : StoresWf s) (i : BitVec 24) : ResWf (execMode i s) :=
  h.issue _ _ fun _ hc => .next (hc.put _)

theorem StoresWf.execModerd (h : StoresWf s) (d : BitVec 8) : ResWf (execModerd d s) :=
  h.issue _ _ fun _ hc => hc.finishS _ _

theorem StoresWf.execShape (h : StoresWf s) (a : BitVec 8) : ResWf (execShape a s) :=
  h.issue _ _ fun _ hc => .ite (fun _ => hc.fault _ _) fun _ => .next (hc.put _)

theorem StoresWf.execShaperd (h : StoresWf s) (d : BitVec 8) : ResWf (execShaperd d s) :=
  h.issue _ _ fun _ hc => hc.finishS _ _

theorem StoresWf.execStep (h : StoresWf s) : ResWf (execStep s) :=
  h.issue _ _ fun _ hc => .next (hc.put _)

theorem StoresWf.execReservedPacket (h : StoresWf s) (fn : ℕ) (q : ℕ) : ResWf (execReservedPacket fn q s) := by
  unfold Machine.execReservedPacket
  split
  · exact .next (.ite (fun _ => h) fun _ => (h.consume fn q).demote _ _ _ _)
  · exact h.packetOf _ _ _ fun _ _ => h.malformed _ _ _ _

theorem StoresWf.execNopPacket (h : StoresWf s) (fn : ℕ) (q : ℕ) : ResWf (execNopPacket fn q s) :=
  h.plainPacket _ _ _ fun _ _ _ h => h.answer _ _ _ _ _ _

theorem StoresWf.execInval (h : StoresWf s) (fn : ℕ) (q : ℕ) : ResWf (execInval fn q s) :=
  h.plainPacket _ _ _ fun _ _ _ h => h

theorem StoresWf.execInvalComplete (h : StoresWf s) (k : ℕ) : ResWf (execInvalComplete k s) := by
  unfold Machine.execInvalComplete
  (repeat' split) <;> simp [h]

theorem StoresWf.execDebugStop (h : StoresWf s) (fn : ℕ) (q : ℕ) : ResWf (execDebugStop fn q s) :=
  h.debugPacket _ _ _ fun _ _ _ _ _ _ _ h _ => .ite (fun _ => h.answer _ _ _ _ _ _) fun _ => h.mapGroup _ _

theorem StoresWf.execDebugResume (h : StoresWf s) (fn : ℕ) (q : ℕ) : ResWf (execDebugResume fn q s) :=
  h.debugPacket _ _ _ fun _ _ _ _ _ _ _ h _ => .ite (fun _ => h.answer _ _ _ _ _ _) fun _ =>
    (h.mapGroup _ _).answer _ _ _ _ _ _

theorem StoresWf.execDebugBreak (h : StoresWf s) (fn : ℕ) (q : ℕ) : ResWf (execDebugBreak fn q s) :=
  h.debugPacket _ _ _ fun _ _ _ _ _ _ _ h _ => (h.mapLaunch _ _).answer _ _ _ _ _ _

theorem StoresWf.execDebugRead (h : StoresWf s) (fn : ℕ) (q : ℕ) : ResWf (execDebugRead fn q s) := by
  refine h.debugPacket _ _ _ fun s x w l t id g h _ => .ite (fun _ => h.answer _ _ _ _ _ _) fun _ => ?_
  dsimp only
  split
  · exact h.answer _ _ _ _ _ _
  · exact StoresWf.answer (by exact h) _ _ _ _ _ _

theorem StoresWf.execDebugWrite (h : StoresWf s) (fn : ℕ) (q : ℕ) : ResWf (execDebugWrite fn q s) := by
  refine h.debugPacket _ _ _ fun s x w l t id g h _ => .ite (fun _ => h.answer _ _ _ _ _ _) fun _ => ?_
  split
  · exact ((h.setGroup _ _).noteWrites _ _ _).answer _ _ _ _ _ _
  · exact h.answer _ _ _ _ _ _
  · exact h.answer _ _ _ _ _ _

theorem StoresWf.execPfreplyReplay (h : StoresWf s) (fn : ℕ) (q : ℕ) : ResWf (execPfreplyReplay fn q s) := by
  refine h.plainPacket _ _ _ fun s q w h => ?_
  split
  · exact h
  · exact (h.dropFault _ _).resumeFault _

theorem StoresWf.execPfreplyDeliver (h : StoresWf s) (fn : ℕ) (q : ℕ) : ResWf (execPfreplyDeliver fn q s) := by
  refine h.plainPacket _ _ _ fun s q w h => ?_
  split
  · exact h
  · split
    · exact h.dropFault _ _
    · exact (h.dropFault _ _).deliverPage _ _

theorem StoresWf.execQtailDoorbell (h : StoresWf s) (fn : ℕ) (q : ℕ) (t0 : BitVec 32) : ResWf (execQtailDoorbell fn q t0 s) := by
  unfold Machine.execQtailDoorbell
  simp [h]

theorem StoresWf.execQueueEnable (h : StoresWf s) (fn : ℕ) (q : ℕ) : ResWf (execQueueEnable fn q s) :=
  .next h

theorem StoresWf.execQueueDisable (h : StoresWf s) (fn : ℕ) (q : ℕ) : ResWf (execQueueDisable fn q s) :=
  .next h

theorem StoresWf.execQclear (h : StoresWf s) (fn : ℕ) (q : ℕ) : ResWf (execQclear fn q s) :=
  .next h

theorem StoresWf.execFqctlWrite (h : StoresWf s) (fn : ℕ) (v : BitVec 64) : ResWf (execFqctlWrite fn v s) :=
  .next h

theorem StoresWf.execFqtailWrite (h : StoresWf s) (fn : ℕ) (v : BitVec 64) : ResWf (execFqtailWrite fn v s) := by
  unfold Machine.execFqtailWrite
  simp [h]

theorem StoresWf.execRegisterWrite (h : StoresWf s) (area : ℕ) (off : ℕ) (v : BitVec 64) : ResWf (execRegisterWrite area off v s) := by
  unfold Machine.execRegisterWrite
  (repeat' split) <;> simp [h]

theorem StoresWf.execHostApertureRead (h : StoresWf s) (fn : ℕ) (off : ℕ) (n : ℕ) : ResWf (execHostApertureRead fn off n s) := by
  refine .ite (fun _ => .next h) fun _ => ?_
  split
  · exact .next (h.apertureError fn)
  · refine .ite (fun _ => .next h) fun _ => ?_
    split
    · exact .next (h.apertureError fn)
    · exact .next ⟨wf_markEntries h.mem _ _, h.hosts, h.peers, h.teams, h.cuts⟩

theorem StoresWf.execHostApertureWrite (h : StoresWf s) (fn : ℕ) (off : ℕ) (bytes : List (BitVec 8)) :
    ResWf (execHostApertureWrite fn off bytes s) := by
  refine .ite (fun _ => .next h) fun _ => ?_
  split
  · exact .next (h.apertureError fn)
  · refine .ite (fun _ => .next h) fun _ => ?_
    split
    · exact .next (h.apertureError fn)
    · exact .next ⟨wf_writeZip (wf_markEntries h.mem _ _) _, h.hosts, h.peers, h.teams, h.cuts⟩

theorem StoresWf.execCxlMemRead (h : StoresWf s) (port : CxlPort) (off : ℕ) (n : ℕ) : ResWf (execCxlMemRead port off n s) := by
  unfold Machine.execCxlMemRead
  simp [h]

theorem StoresWf.execCxlMemWrite (h : StoresWf s) (port : CxlPort) (off : ℕ) (bytes : List (BitVec 8)) :
    ResWf (execCxlMemWrite port off bytes s) := by
  refine .next (.ite (fun _ => ⟨?_, h.hosts, h.peers, h.teams, h.cuts⟩) fun _ => h)
  exact Memory.wf_foldl _ (fun m x hm => Memory.wf_write m x.1 x.2 hm) _ _ h.mem

theorem StoresWf.execHostPriResponse (h : StoresWf s) (fn : ℕ) (k : ℕ) (granted : Bool) (bus : ℕ) (writable : Bool) :
    ResWf (execHostPriResponse fn k granted bus writable s) := by
  unfold Machine.execHostPriResponse
  split
  · exact .next h
  · exact .ite (fun _ => .next h) fun _ => .ite (fun _ => .next (((h.mapFn fn _).mapFn fn _).resumeFault _)) fun _ =>
      .next ((h.mapFn fn _).enterFault _ _)

theorem StoresWf.execAtsInvalidation (h : StoresWf s) (fn : ℕ) (page : ℕ) : ResWf (execAtsInvalidation fn page s) :=
  .next h

theorem StoresWf.execCommandLinkMessage (h : StoresWf s) (cell : ℕ) (toCell : Bool) (urgent : Bool) (send : Bool) (msg : BitVec 512) :
    ResWf (execCommandLinkMessage cell toCell urgent send msg s) := by
  unfold Machine.execCommandLinkMessage
  simp [h]

theorem StoresWf.execHiveHeartbeat (h : StoresWf s) (received : Bool) : ResWf (execHiveHeartbeat received s) := by
  unfold Machine.execHiveHeartbeat
  simp [h]

theorem StoresWf.execHiveTakeover (h : StoresWf s) : ResWf (execHiveTakeover s) := by
  unfold Machine.execHiveTakeover
  simp [h]

theorem StoresWf.execCellLinkFailure (h : StoresWf s) (cell : ℕ) : ResWf (execCellLinkFailure cell s) := by
  unfold Machine.execCellLinkFailure
  split <;> simp [h]

theorem StoresWf.execPowerCapTick (h : StoresWf s) (average : ℕ) (plate : Option Bool) : ResWf (execPowerCapTick average plate s) := by
  unfold Machine.execPowerCapTick
  simp [h]

theorem StoresWf.execGtimeLockLoss (h : StoresWf s) : ResWf (execGtimeLockLoss s) := by
  unfold Machine.execGtimeLockLoss
  simp [h]

theorem StoresWf.execGtimeRelock (h : StoresWf s) : ResWf (execGtimeRelock s) := by
  unfold Machine.execGtimeRelock
  simp [h]

theorem StoresWf.execGtimeSlewComplete (h : StoresWf s) : ResWf (execGtimeSlewComplete s) :=
  .next h

theorem StoresWf.execColdStart (h : StoresWf s) (failedCores : List ℕ) (found : Conditions) :
    ResWf (execColdStart failedCores found s) := by
  unfold Machine.execColdStart
  simp [h]

theorem StoresWf.execWarmStart (h : StoresWf s) (failedCores : List ℕ) (found : Conditions) :
    ResWf (execWarmStart failedCores found s) := by
  unfold Machine.execWarmStart
  simp [h]

theorem StoresWf.execCorrectedError (h : StoresWf s) (dram : Bool) : ResWf (execCorrectedError dram s) :=
  .next h

theorem StoresWf.execPseudoChannelSparing (h : StoresWf s) (stack : ℕ) (base : ℕ) (size : ℕ) :
    ResWf (execPseudoChannelSparing stack base size s) := by
  unfold Machine.execPseudoChannelSparing
  simp [h]

theorem StoresWf.execSparingChunkCopy (h : StoresWf s) (k : ℕ) : ResWf (execSparingChunkCopy k s) := by
  unfold Machine.execSparingChunkCopy
  split <;> simp [h]

theorem StoresWf.execPageRetirement (h : StoresWf s) (page : ℕ) (target : ℕ) : ResWf (execPageRetirement page target s) := by
  unfold Machine.execPageRetirement
  (repeat' split) <;> simp [h]

theorem StoresWf.execFatalError (h : StoresWf s) (cause : ℕ) (trouble : DumpTrouble) : ResWf (execFatalError cause trouble s) := by
  refine .ite (fun _ => .next h) fun _ => .next ?_
  have h1 (lake : Nat) : StoresWf (if s.dumpValid lake then s.loseDump lake
      else if s.fatal then s else s.writeDump cause lake trouble.again) :=
    .ite (fun _ => h.loseDump lake) fun _ => .ite (fun _ => h) fun _ => h.writeDump cause lake _
  exact h1 _

theorem StoresWf.execGload (h : StoresWf s) (fn : ℕ) (q : ℕ) : ResWf (execGload fn q s) := by
  refine h.plainPacket _ _ _ fun s q w h => ?_
  split
  · exact h.answer _ _ _ _ _ _
  · exact h.loadGraph _ _ _ _ _

theorem StoresWf.execGloadUnload (h : StoresWf s) (fn : ℕ) (q : ℕ) : ResWf (execGloadUnload fn q s) :=
  h.plainPacket _ _ _ fun _ _ _ h => .ite (fun _ => h.loadGraph _ _ _ _ _) fun _ => h.answer _ _ _ _ _ _

theorem StoresWf.execGloadDeferredComplete (h : StoresWf s) (k : ℕ) : ResWf (execGloadDeferredComplete k s) := by
  unfold Machine.execGloadDeferredComplete
  split
  · exact .next h
  · exact .next (.ite (fun _ => h) fun _ => (StoresWf.setGraph (by exact h) _ _ _ _).cpComplete _ _ _ _ _ _ _)

theorem StoresWf.execLaunch (h : StoresWf s) (fn : ℕ) (q : ℕ) (spad : List (BitVec 8)) (text : ℕ) (cls : ℕ)
    (splice : List (BitVec 64)) : ResWf (execLaunch fn q spad text cls splice s) := by
  unfold Machine.execLaunch
  split
  · have hc : StoresWf (s.consume fn q) := h.consume fn q
    refine .ite (fun _ => .next h) fun _ => .ite (fun _ => ?_) fun _ => ?_
    · exact .next (.ite (fun _ => h) fun _ => (hc.demote _ _ _ _).refusePacket _ _ _ _ _)
    · split
      · exact .next (.ite (fun _ => h) fun _ => (hc.demote _ _ _ _).refusePacket _ _ _ _ _)
      · extract_lets l r consumed s1
        have h1 : StoresWf s1 := hc
        clear_value s1
        refine .ite (fun _ => .next h) fun _ => .ite (fun _ => ?_) fun _ => .ite (fun _ => ?_) fun _ => ?_
        · have h2 : StoresWf (if l.gang = 0 then (s1.unpair fn q).writeRefusal l r else (s1.unpair fn q).gangPart l r) :=
            .ite (fun _ => (h1.unpair fn q).writeRefusal l r) fun _ => (h1.unpair fn q).gangPart l r
          exact .next (.ite (fun _ => h2.demote _ _ _ _) fun _ => h2)
        · exact .next ((h1.unpair fn q).gangPart l 0)
        · exact .next (h1.acceptLaunch l)
  · exact .next h

theorem StoresWf.execFgraph (h : StoresWf s) (d : BitVec 8) (a : BitVec 8) (b : BitVec 8) : ResWf (execFgraph d a b s) :=
  h.issue _ _ fun _ hc => hc.check _ _ fun _ => hc.check _ _ fun _ => .ite (fun _ => hc.held _) fun _ =>
    .ite (fun _ => .next hc.state) fun _ => hc.wideRelease _ _ (.next (((hc.state.markHits _ _).trafficTo _ _).setGroup _ _))

theorem StoresWf.execForagerNodeStart (h : StoresWf s) (replay : ℕ) (node : ℕ) (spad : List (BitVec 8)) (text : ℕ) (cls : ℕ) :
    ResWf (execForagerNodeStart replay node spad text cls s) := by
  unfold Machine.execForagerNodeStart
  split
  · exact .next h
  · split
    · refine .ite (fun _ => .next h) fun _ => .ite (fun _ => .next (h.sendSignatures _ _ _)) fun _ =>
        .ite (fun _ => h.launchNode _ _ _ _ _ _ _) fun _ => ?_
      split
      · exact .next (h.startTransfer _ _ _ _ _)
      · exact .ite (fun _ => .next (h.startRead _ _ _ _ _)) fun _ => (h.startRead _ _ _ _ _).launchNode _ _ _ _ _ _ _
    · exact .next h

theorem StoresWf.execForagerWaitRecheck (h : StoresWf s) (replay : ℕ) (node : ℕ) : ResWf (execForagerWaitRecheck replay node s) := by
  unfold Machine.execForagerWaitRecheck
  split
  · exact .next h
  · split
    · exact .ite (fun _ => .next h) fun _ => h.nodeRead _ _ _ _ _ fun _ _ h => (h.markHits _ _).mapReplay _ _
    · exact .next h

theorem StoresWf.execForagerNodeComplete (h : StoresWf s) (replay : ℕ) (node : ℕ) : ResWf (execForagerNodeComplete replay node s) := by
  unfold Machine.execForagerNodeComplete
  (repeat' split) <;> simp [h]

theorem StoresWf.execReplayComplete (h : StoresWf s) (replay : ℕ) : ResWf (execReplayComplete replay s) := by
  unfold Machine.execReplayComplete
  split
  · exact .next h
  · next r _ =>
    refine .next (.ite (fun _ => ?_) fun _ => h)
    have h1 := (h.mapGroup r.group fun g => { g.landS r.prod r.status with evCollective := g.evCollective ++ r.event }).mapTeam
      r.group.team (f := fun t => { t with saveBarred := false }) fun _ ht => ht
    exact h1.clearL1Of r.group.team

theorem StoresWf.execCollectiveSignature (h : StoresWf s) (sender : ℕ) (receiver : ℕ) (inst : BitVec 32)
    (foreign : Option (BitVec 64)) : ResWf (execCollectiveSignature sender receiver inst foreign s) := by
  unfold Machine.execCollectiveSignature
  (repeat' split) <;> simp [h]

theorem StoresWf.execMmap (h : StoresWf s) (n : BitVec 2) (i : BitVec 16) : ResWf (execMmap n i s) :=
  h.streamIssue _ fun _ _ _ _ ht => h.streamCheck _ _ _ (.ite (fun _ => .next h) fun _ => .next (h.putSeq ht _))

theorem StoresWf.execMfmt (h : StoresWf s) (n : BitVec 2) (i : BitVec 16) : ResWf (execMfmt n i s) :=
  h.streamIssue _ fun _ _ _ _ ht => h.streamCheck _ _ _ (.ite (fun _ => .next h) fun _ =>
    h.streamCheck _ _ _ (.next (h.putSeq ht _)))

theorem StoresWf.execMma (h : StoresWf s) (t0 : BitVec 2) (f : BitVec 2) (m : BitVec 2) (h0 : BitVec 2) (v : BitVec 7) (p : BitVec 7) :
    ResWf (execMma t0 f m h0 v p s) :=
  h.streamIssue _ fun _ _ _ _ ht => h.streamCheck _ _ _ (h.streamCheck _ _ _ (h.streamCheck _ _ _ (h.streamCheck _ _ _
    (.next (h.putSeq ht _)))))

theorem StoresWf.execMzero (h : StoresWf s) (t0 : BitVec 2) : ResWf (execMzero t0 s) :=
  h.streamIssue _ fun _ _ _ _ ht => h.streamCheck _ _ _ (.next (h.putSeq ht _))

theorem StoresWf.execMxread (h : StoresWf s) (t0 : BitVec 2) (o : BitVec 1) (g : BitVec 4) (h0 : BitVec 1) (v : BitVec 7)
    (sl : BitVec 3) : ResWf (execMxread t0 o g h0 v sl s) :=
  h.streamIssue _ fun _ _ _ _ ht => h.streamCheck _ _ _ (h.streamCheck _ _ _ (.next (h.putSeq ht _)))

theorem StoresWf.execMstore (h : StoresWf s) (t0 : BitVec 2) (m : BitVec 2) (f : BitVec 2) : ResWf (execMstore t0 m f s) :=
  h.streamIssue _ fun _ _ _ _ ht => h.streamCheck _ _ _ (h.streamCheck _ _ _ (.next (h.putSeq ht _)))

theorem StoresWf.execMfence (h : StoresWf s) : ResWf (execMfence s) :=
  h.streamIssue _ fun _ _ _ _ ht => .next (h.putSeq ht _)

theorem StoresWf.execMbarwait (h : StoresWf s) (n : BitVec 4) : ResWf (execMbarwait n s) :=
  h.streamIssue _ fun _ _ _ _ ht => .ite (fun _ => .next (h.putSeq ht _)) fun _ => .next (h.setTeam (by exact ht))

theorem StoresWf.execMbararr (h : StoresWf s) (n : BitVec 4) : ResWf (execMbararr n s) := by
  refine h.streamIssue _ fun _ _ _ _ ht => ?_
  split
  · exact .next h
  · exact .ite (fun _ => .next h) fun _ => .next (h.setTeam (TeamWf.arrived (by exact ht) _ _ _))

theorem StoresWf.execMbra (h : StoresWf s) (o : BitVec 16) : ResWf (execMbra o s) :=
  h.streamIssue _ fun _ _ _ _ ht => h.streamBranch ht _ _ _ _

theorem StoresWf.execMloop (h : StoresWf s) (n : BitVec 2) (o : BitVec 8) (i : BitVec 8) : ResWf (execMloop n o i s) :=
  h.streamIssue _ fun _ _ _ _ ht => h.streamCheck _ _ _ (.ite (fun _ => .next h) fun _ =>
    .ite (fun _ => .next (h.putSeq ht _)) fun _ => h.streamBranch ht _ _ _ _)

theorem StoresWf.execMend (h : StoresWf s) : ResWf (execMend s) :=
  h.streamIssue _ fun _ _ _ _ ht => .next (h.setTeam (by exact ht))

theorem StoresWf.execMmaArrayExecute (h : StoresWf s) (launch : ℕ) (team : ℕ) : ResWf (execMmaArrayExecute launch team s) := by
  unfold Machine.execMmaArrayExecute
  split
  · exact .next h
  · next t ht =>
    have hwf : TeamWf t := h.team? ht
    split
    · exact .next (h.setTeam (TeamWf.dropOp (by exact hwf)))
    · exact .next (h.setTeam (TeamWf.dropOp (by exact hwf)))
    · exact .next h

theorem StoresWf.execMxreadMstoreExecute (h : StoresWf s) (launch : ℕ) (step : SeqStep) :
    ResWf (execMxreadMstoreExecute launch step s) := by
  unfold Machine.execMxreadMstoreExecute
  split
  · exact .next h
  · next t ht =>
    have hwf : TeamWf t := h.team? ht
    split
    · exact .ite (fun _ => .next (h.setTeam (TeamWf.dropOut (by exact hwf) _ _))) fun _ =>
        .ite (fun _ => .next (h.setTeam hwf.dropOp)) fun _ => .next h
    · split
      · exact .next (h.setTeam ((hwf.storeTile _ _ _ _).headOp _))
      · exact .next (h.setTeam ((hwf.storeTile _ _ _ _).dropOut _ _))
    · exact .next h

theorem StoresWf.execBatchComplete (h : StoresWf s) (launch : ℕ) (team : ℕ) : ResWf (execBatchComplete launch team s) :=
  .next (h.mapTeam _ fun _ ht => ht)

theorem StoresWf.execNacc (h : StoresWf s) (k : BitVec 1) (n : BitVec 2) (a : BitVec 8) (b : BitVec 8) : ResWf (execNacc k n a b s) :=
  h.issue _ _ fun _ hc => hc.check _ _ fun _ => .next (hc.put _)

theorem StoresWf.execNeval (h : StoresWf s) (d : BitVec 8) (a : BitVec 8) (k : BitVec 1) (n : BitVec 2) : ResWf (execNeval d a k n s) :=
  h.issue _ _ fun _ hc => hc.check _ _ fun _ => hc.finishN _ _ _

theorem StoresWf.execNrescale (h : StoresWf s) (d : BitVec 8) (n : BitVec 2) : ResWf (execNrescale d n s) :=
  h.issue _ _ fun _ hc => .next (hc.putFree _)

theorem StoresWf.execNfin (h : StoresWf s) (d : BitVec 8) (p : BitVec 3) (t0 : BitVec 1) (n : BitVec 2) : ResWf (execNfin d p t0 n s) :=
  h.issue _ _ fun _ hc => hc.check _ _ fun _ => hc.finishN _ _ _

theorem StoresWf.execNclear (h : StoresWf s) (m : BitVec 4) : ResWf (execNclear m s) :=
  h.issue _ _ fun _ hc => .next (hc.put _)

theorem StoresWf.execNselect (h : StoresWf s) (f : BitVec 2) : ResWf (execNselect f s) :=
  h.issue _ _ fun _ hc => .next (hc.put _)

theorem StoresWf.execNsave (h : StoresWf s) (v : BitVec 7) (n : BitVec 2) : ResWf (execNsave v n s) :=
  h.issue _ _ fun _ hc => .next (hc.putFree _)

theorem StoresWf.execNload (h : StoresWf s) (n : BitVec 2) (v : BitVec 7) : ResWf (execNload n v s) :=
  h.issue _ _ fun _ hc => .next (hc.putFree _)

theorem StoresWf.execNmerge (h : StoresWf s) (n : BitVec 2) (v : BitVec 7) : ResWf (execNmerge n v s) :=
  h.issue _ _ fun _ hc => .next (hc.putFree _)

theorem StoresWf.execNtable (h : StoresWf s) (d : BitVec 8) (v : BitVec 7) (b : BitVec 8) : ResWf (execNtable d v b s) :=
  h.issue _ _ fun _ hc => .next (hc.putFree _)

theorem StoresWf.execPatchHandler (h : StoresWf s) (k : ℕ) (outcome : ℕ) (value : BitVec 64) (target : BitVec 64)
    (writes : PatchWrites) : ResWf (execPatchHandler k outcome value target writes s) := by
  unfold Machine.execPatchHandler
  split
  · exact .next h
  · next x hx =>
    have hc := h.handlerOf? hx
    refine .ite (fun _ => .next h) fun _ => .ite (fun _ => ?_) fun _ => .ite (fun _ => .next h) fun _ => ?_
    · refine .ite (fun _ => .next h) fun _ => .ite (fun _ => ?_) fun _ => ?_
      · exact hc.handlerFault _ _ fun _ => .next h
      · exact hc.handlerFault _ _ fun _ => .next h
    · refine hc.handlerFault _ _ fun hits => hc.handlerStands _ _ fun s0 h0 => .next ?_
      have h1 : StoresWf { s0 with patchActs := s.patchActs.eraseIdx k } := h0
      refine StoresWf.finishStops (StoresWf.recordSteps (StoresWf.noteWrites ?_ _ _ _) _)
      exact .ite (fun _ => h1.mapGroup _ _) fun _ => .ite (fun _ => h1) fun _ => .ite (fun _ => h1.deliverPatched _ _ _)
        fun _ => h1.deliverPatched _ _ _

theorem StoresWf.execPatchHandlerTimeout (h : StoresWf s) (k : ℕ) (writes : PatchWrites) :
    ResWf (execPatchHandlerTimeout k writes s) := by
  unfold Machine.execPatchHandlerTimeout
  split
  · exact .next h
  · next x hx =>
    have hc := h.handlerOf? hx
    refine .ite (fun _ => .next h) fun _ => hc.handlerFault _ _ fun hits => hc.handlerStands _ _ fun s0 h0 => .next ?_
    exact StoresWf.finishStops (StoresWf.recordSteps (StoresWf.noteWrites (StoresWf.deliverPatched (by exact h0) _ _ _) _ _ _) _)

theorem StoresWf.execVceq (h : StoresWf s) (q : BitVec 3) (a : BitVec 8) (b : BitVec 8) : ResWf (execVceq q a b s) :=
  h.vecCmp _ _ _ _ _ _ _

theorem StoresWf.execVcne (h : StoresWf s) (q : BitVec 3) (a : BitVec 8) (b : BitVec 8) : ResWf (execVcne q a b s) :=
  h.vecCmp _ _ _ _ _ _ _

theorem StoresWf.execVclt (h : StoresWf s) (q : BitVec 3) (a : BitVec 8) (b : BitVec 8) : ResWf (execVclt q a b s) :=
  h.vecCmp _ _ _ _ _ _ _

theorem StoresWf.execVcle (h : StoresWf s) (q : BitVec 3) (a : BitVec 8) (b : BitVec 8) : ResWf (execVcle q a b s) :=
  h.vecCmp _ _ _ _ _ _ _

theorem StoresWf.execVcgt (h : StoresWf s) (q : BitVec 3) (a : BitVec 8) (b : BitVec 8) : ResWf (execVcgt q a b s) :=
  h.vecCmp _ _ _ _ _ _ _

theorem StoresWf.execVcge (h : StoresWf s) (q : BitVec 3) (a : BitVec 8) (b : BitVec 8) : ResWf (execVcge q a b s) :=
  h.vecCmp _ _ _ _ _ _ _

theorem StoresWf.execVcuno (h : StoresWf s) (q : BitVec 3) (a : BitVec 8) (b : BitVec 8) : ResWf (execVcuno q a b s) :=
  h.vecCmp _ _ _ _ _ _ _

theorem StoresWf.execPand (h : StoresWf s) (d : BitVec 3) (x : BitVec 1) (a : BitVec 3) (y : BitVec 1) (b : BitVec 3) :
    ResWf (execPand d x a y b s) :=
  h.predOp _ _ _

theorem StoresWf.execPor (h : StoresWf s) (d : BitVec 3) (x : BitVec 1) (a : BitVec 3) (y : BitVec 1) (b : BitVec 3) :
    ResWf (execPor d x a y b s) :=
  h.predOp _ _ _

theorem StoresWf.execPxor (h : StoresWf s) (d : BitVec 3) (x : BitVec 1) (a : BitVec 3) (y : BitVec 1) (b : BitVec 3) :
    ResWf (execPxor d x a y b s) :=
  h.predOp _ _ _

theorem StoresWf.execPnot (h : StoresWf s) (d : BitVec 3) (x : BitVec 1) (a : BitVec 3) : ResWf (execPnot d x a s) :=
  h.predOp _ _ _

theorem StoresWf.execVif (h : StoresWf s) (x : BitVec 1) (a : BitVec 3) : ResWf (execVif x a s) :=
  h.issue _ _ fun _ hc => .ite (fun _ => hc.fault _ _) fun _ => .next (hc.put _)

theorem StoresWf.execVelse (h : StoresWf s) : ResWf (execVelse s) :=
  h.issue _ _ fun _ hc => .next (hc.put _)

theorem StoresWf.execVendif (h : StoresWf s) : ResWf (execVendif s) :=
  h.issue _ _ fun _ hc => .next (hc.put _)

theorem StoresWf.execVany (h : StoresWf s) (d : BitVec 8) (x : BitVec 1) (a : BitVec 3) : ResWf (execVany d x a s) :=
  h.issue _ _ fun _ hc => hc.finishS _ _

theorem StoresWf.execVall (h : StoresWf s) (d : BitVec 8) (x : BitVec 1) (a : BitVec 3) : ResWf (execVall d x a s) :=
  h.issue _ _ fun _ hc => hc.finishS _ _

theorem StoresWf.execLoadReturn (h : StoresWf s) (id : ℕ) (uncorrectable : Bool) : ResWf (execLoadReturn id uncorrectable s) := by
  unfold Machine.execLoadReturn
  (repeat' split) <;> simp [h]

theorem StoresWf.execAtomicReturn (h : StoresWf s) (id : ℕ) : ResWf (execAtomicReturn id s) :=
  h.landKind _ _

theorem StoresWf.execNectarWriteback (h : StoresWf s) (id : ℕ) : ResWf (execNectarWriteback id s) :=
  h.landKind _ _

theorem StoresWf.execAdd (h : StoresWf s) (d : BitVec 8) (a : BitVec 8) (b : BitVec 8) : ResWf (execAdd d a b s) :=
  h.scalar2 _ _ _ _ _

theorem StoresWf.execSub (h : StoresWf s) (d : BitVec 8) (a : BitVec 8) (b : BitVec 8) : ResWf (execSub d a b s) :=
  h.scalar2 _ _ _ _ _

theorem StoresWf.execMul (h : StoresWf s) (d : BitVec 8) (a : BitVec 8) (b : BitVec 8) : ResWf (execMul d a b s) :=
  h.scalar2 _ _ _ _ _

theorem StoresWf.execMulhi (h : StoresWf s) (d : BitVec 8) (a : BitVec 8) (b : BitVec 8) : ResWf (execMulhi d a b s) :=
  h.scalar2 _ _ _ _ _

theorem StoresWf.execDiv (h : StoresWf s) (d : BitVec 8) (a : BitVec 8) (b : BitVec 8) : ResWf (execDiv d a b s) :=
  h.scalar2 _ _ _ _ _

theorem StoresWf.execAnd (h : StoresWf s) (d : BitVec 8) (a : BitVec 8) (b : BitVec 8) : ResWf (execAnd d a b s) :=
  h.scalar2 _ _ _ _ _

theorem StoresWf.execOr (h : StoresWf s) (d : BitVec 8) (a : BitVec 8) (b : BitVec 8) : ResWf (execOr d a b s) :=
  h.scalar2 _ _ _ _ _

theorem StoresWf.execXor (h : StoresWf s) (d : BitVec 8) (a : BitVec 8) (b : BitVec 8) : ResWf (execXor d a b s) :=
  h.scalar2 _ _ _ _ _

theorem StoresWf.execShl (h : StoresWf s) (d : BitVec 8) (a : BitVec 8) (b : BitVec 8) : ResWf (execShl d a b s) :=
  h.scalar2 _ _ _ _ _

theorem StoresWf.execShr (h : StoresWf s) (d : BitVec 8) (a : BitVec 8) (b : BitVec 8) : ResWf (execShr d a b s) :=
  h.scalar2 _ _ _ _ _

theorem StoresWf.execShra (h : StoresWf s) (d : BitVec 8) (a : BitVec 8) (b : BitVec 8) : ResWf (execShra d a b s) :=
  h.scalar2 _ _ _ _ _

theorem StoresWf.execSlt (h : StoresWf s) (d : BitVec 8) (a : BitVec 8) (b : BitVec 8) : ResWf (execSlt d a b s) :=
  h.scalar2 _ _ _ _ _

theorem StoresWf.execSel (h : StoresWf s) (d : BitVec 8) (a : BitVec 8) (b : BitVec 8) : ResWf (execSel d a b s) :=
  h.issue _ _ fun _ hc => hc.finishS _ _

theorem StoresWf.execSetlo (h : StoresWf s) (d : BitVec 8) (imm : BitVec 16) : ResWf (execSetlo d imm s) :=
  h.issue _ _ fun _ hc => hc.finishS _ _

theorem StoresWf.execSethi (h : StoresWf s) (d : BitVec 8) (imm : BitVec 16) : ResWf (execSethi d imm s) :=
  h.issue _ _ fun _ hc => hc.finishS _ _

theorem StoresWf.execBra (h : StoresWf s) (o : BitVec 16) : ResWf (execBra o s) :=
  h.issue _ _ fun _ hc => hc.branchRel _ _ _

theorem StoresWf.execBz (h : StoresWf s) (a : BitVec 8) (o : BitVec 16) : ResWf (execBz a o s) :=
  h.condBranch _ _ _ _

theorem StoresWf.execBnz (h : StoresWf s) (a : BitVec 8) (o : BitVec 16) : ResWf (execBnz a o s) :=
  h.condBranch _ _ _ _

theorem StoresWf.execBlt (h : StoresWf s) (a : BitVec 8) (o : BitVec 16) : ResWf (execBlt a o s) :=
  h.condBranch _ _ _ _

theorem StoresWf.execBge (h : StoresWf s) (a : BitVec 8) (o : BitVec 16) : ResWf (execBge a o s) :=
  h.condBranch _ _ _ _

theorem StoresWf.execCall (h : StoresWf s) (a : BitVec 8) (o : BitVec 16) : ResWf (execCall a o s) :=
  h.issue _ _ fun _ hc => hc.branchRel _ _ _

theorem StoresWf.execCallx (h : StoresWf s) (a : BitVec 8) : ResWf (execCallx a s) :=
  h.issue _ _ fun _ hc => hc.branchTo _ _ _

theorem StoresWf.execRet (h : StoresWf s) (a : BitVec 8) : ResWf (execRet a s) :=
  h.issue _ _ fun _ hc => hc.branchTo _ _ _

theorem StoresWf.execJmpx (h : StoresWf s) (a : BitVec 8) : ResWf (execJmpx a s) :=
  h.issue _ _ fun _ hc => hc.branchTo _ _ _

theorem StoresWf.execLoop (h : StoresWf s) (a : BitVec 8) (o : BitVec 16) : ResWf (execLoop a o s) :=
  h.issue _ _ fun _ hc => .ite (fun _ => hc.branchRel _ _ _) fun _ => .next (hc.put _)

theorem StoresWf.exec (hs : StoresWf s) (i : Instr) : ResWf (exec i s) := by
  cases i with
  | add d a b => exact hs.execAdd d a b
  | sub d a b => exact hs.execSub d a b
  | mul d a b => exact hs.execMul d a b
  | mulhi d a b => exact hs.execMulhi d a b
  | div d a b => exact hs.execDiv d a b
  | and d a b => exact hs.execAnd d a b
  | or d a b => exact hs.execOr d a b
  | xor d a b => exact hs.execXor d a b
  | shl d a b => exact hs.execShl d a b
  | shr d a b => exact hs.execShr d a b
  | shra d a b => exact hs.execShra d a b
  | slt d a b => exact hs.execSlt d a b
  | sel d a b => exact hs.execSel d a b
  | setlo d im => exact hs.execSetlo d im
  | sethi d im => exact hs.execSethi d im
  | bra o => exact hs.execBra o
  | bz a o => exact hs.execBz a o
  | bnz a o => exact hs.execBnz a o
  | blt a o => exact hs.execBlt a o
  | bge a o => exact hs.execBge a o
  | call a o => exact hs.execCall a o
  | callx a => exact hs.execCallx a
  | ret a => exact hs.execRet a
  | jmpx a => exact hs.execJmpx a
  | loop a o => exact hs.execLoop a o
  | sld8 d p sc o b => exact hs.execSld8 d p sc o b
  | sld16 d p sc o b => exact hs.execSld16 d p sc o b
  | sld32 d p sc o b => exact hs.execSld32 d p sc o b
  | sld64 d p sc o b => exact hs.execSld64 d p sc o b
  | sst8 d p sc o b => exact hs.execSst8 d p sc o b
  | sst16 d p sc o b => exact hs.execSst16 d p sc o b
  | sst32 d p sc o b => exact hs.execSst32 d p sc o b
  | sst64 d p sc o b => exact hs.execSst64 d p sc o b
  | sread d y => exact hs.execSread d y
  | swrite y b => exact hs.execSwrite y b
  | icinv a b => exact hs.execIcinv a b
  | mode im => exact hs.execMode im
  | moderd d => exact hs.execModerd d
  | shape a => exact hs.execShape a
  | shaperd d => exact hs.execShaperd d
  | bararr n => exact hs.execBararr n
  | barwait n => exact hs.execBarwait n
  | barsync n => exact hs.execBarsync n
  | rquota d n b => exact hs.execRquota d n b
  | step => exact hs.execStep
  | vadd d a b => exact hs.execVadd d a b
  | vsub d a b => exact hs.execVsub d a b
  | vmul d a b => exact hs.execVmul d a b
  | vfma d a b => exact hs.execVfma d a b
  | vfms d a b => exact hs.execVfms d a b
  | vfnma d a b => exact hs.execVfnma d a b
  | vmin d a b => exact hs.execVmin d a b
  | vmax d a b => exact hs.execVmax d a b
  | vabs d a => exact hs.execVabs d a
  | vneg d a => exact hs.execVneg d a
  | vdiv d a b => exact hs.execVdiv d a b
  | vsqrt d a => exact hs.execVsqrt d a
  | vrcp d a => exact hs.execVrcp d a
  | vrsq d a => exact hs.execVrsq d a
  | vexp2 d a => exact hs.execVexp2 d a
  | vlog2 d a => exact hs.execVlog2 d a
  | vand d a b => exact hs.execVand d a b
  | vor d a b => exact hs.execVor d a b
  | vxor d a b => exact hs.execVxor d a b
  | vnot d a => exact hs.execVnot d a
  | vshl d a b => exact hs.execVshl d a b
  | vshr d a b => exact hs.execVshr d a b
  | vshra d a b => exact hs.execVshra d a b
  | vrot d a b => exact hs.execVrot d a b
  | vmulhi d a b => exact hs.execVmulhi d a b
  | vsel d a b => exact hs.execVsel d a b
  | vclz d a => exact hs.execVclz d a
  | vpopc d a => exact hs.execVpopc d a
  | vfloor d a => exact hs.execVfloor d a
  | vceil d a => exact hs.execVceil d a
  | vround d a => exact hs.execVround d a
  | vtrunc d a => exact hs.execVtrunc d a
  | vbcast d a b => exact hs.execVbcast d a b
  | vperm d a b => exact hs.execVperm d a b
  | vlrot d a b => exact hs.execVlrot d a b
  | vscan d a => exact hs.execVscan d a
  | vradd d a => exact hs.execVradd d a
  | vrmin d a => exact hs.execVrmin d a
  | vrmax d a => exact hs.execVrmax d a
  | vmovs d a b => exact hs.execVmovs d a b
  | vins d a b => exact hs.execVins d a b
  | vcsign d a b => exact hs.execVcsign d a b
  | vceq q a b => exact hs.execVceq q a b
  | vcne q a b => exact hs.execVcne q a b
  | vclt q a b => exact hs.execVclt q a b
  | vcle q a b => exact hs.execVcle q a b
  | vcgt q a b => exact hs.execVcgt q a b
  | vcge q a b => exact hs.execVcge q a b
  | vcuno q a b => exact hs.execVcuno q a b
  | pand d x a y b => exact hs.execPand d x a y b
  | por d x a y b => exact hs.execPor d x a y b
  | pxor d x a y b => exact hs.execPxor d x a y b
  | pnot d x a => exact hs.execPnot d x a
  | vif x a => exact hs.execVif x a
  | velse => exact hs.execVelse
  | vendif => exact hs.execVendif
  | vany d x a => exact hs.execVany d x a
  | vall d x a => exact hs.execVall d x a
  | cvtif d a => exact hs.execCvtif d a
  | cvtfi d a => exact hs.execCvtfi d a
  | cvtnf d a f => exact hs.execCvtnf d a f
  | cvtfn d a f => exact hs.execCvtfn d a f
  | cvtfh d a b => exact hs.execCvtfh d a b
  | cvthf d a sc => exact hs.execCvthf d a sc
  | cvtfb d a b => exact hs.execCvtfb d a b
  | cvtbf d a sc => exact hs.execCvtbf d a sc
  | pack16 d a b => exact hs.execPack16 d a b
  | unpk16 d a sc => exact hs.execUnpk16 d a sc
  | pack8 d a b => exact hs.execPack8 d a b
  | unpk8 d a sc => exact hs.execUnpk8 d a sc
  | cvtn8 d a b => exact hs.execCvtn8 d a b
  | cvtn6 d a b => exact hs.execCvtn6 d a b
  | cvtn4 d a b => exact hs.execCvtn4 d a b
  | cvtnx d a f => exact hs.execCvtnx d a f
  | vld8 d p sc o b => exact hs.execVld8 d p sc o b
  | vld16 d p sc o b => exact hs.execVld16 d p sc o b
  | vld32 d p sc o b => exact hs.execVld32 d p sc o b
  | vst8 d p sc o b => exact hs.execVst8 d p sc o b
  | vst16 d p sc o b => exact hs.execVst16 d p sc o b
  | vst32 d p sc o b => exact hs.execVst32 d p sc o b
  | vpref p sc o b => exact hs.execVpref p sc o b
  | atadd d p sc o b => exact hs.execAtadd d p sc o b
  | atmin d p sc o b => exact hs.execAtmin d p sc o b
  | atmax d p sc o b => exact hs.execAtmax d p sc o b
  | atand d p sc o b => exact hs.execAtand d p sc o b
  | ator d p sc o b => exact hs.execAtor d p sc o b
  | atxor d p sc o b => exact hs.execAtxor d p sc o b
  | atxchg d p sc o b => exact hs.execAtxchg d p sc o b
  | atcas d p sc o b => exact hs.execAtcas d p sc o b
  | vatadd d p sc o b => exact hs.execVatadd d p sc o b
  | vatmin d p sc o b => exact hs.execVatmin d p sc o b
  | vatmax d p sc o b => exact hs.execVatmax d p sc o b
  | vatxchg d p sc o b => exact hs.execVatxchg d p sc o b
  | fence m sc => exact hs.execFence m sc
  | vatand d p sc o b => exact hs.execVatand d p sc o b
  | vator d p sc o b => exact hs.execVator d p sc o b
  | cst c x a b => exact hs.execCst c x a b
  | catom c x a b => exact hs.execCatom c x a b
  | ccopy c a b => exact hs.execCcopy c a b
  | cjoin c x => exact hs.execCjoin c x
  | cdrain c => exact hs.execCdrain c
  | mma t f m h v p => exact hs.execMma t f m h v p
  | mzero t => exact hs.execMzero t
  | mxread t o g h v sc => exact hs.execMxread t o g h v sc
  | mstore t m f => exact hs.execMstore t m f
  | mfence => exact hs.execMfence
  | mbarwait n => exact hs.execMbarwait n
  | mbararr n => exact hs.execMbararr n
  | mfmt n im => exact hs.execMfmt n im
  | mmap n im => exact hs.execMmap n im
  | mbra o => exact hs.execMbra o
  | mloop l o im => exact hs.execMloop l o im
  | mend => exact hs.execMend
  | nacc k n a b => exact hs.execNacc k n a b
  | neval d a k n => exact hs.execNeval d a k n
  | nrescale d n => exact hs.execNrescale d n
  | nmerge n v => exact hs.execNmerge n v
  | nfin d p t n => exact hs.execNfin d p t n
  | nclear m => exact hs.execNclear m
  | nsave v n => exact hs.execNsave v n
  | nload n v => exact hs.execNload n v
  | ntable d v b => exact hs.execNtable d v b
  | nselect f => exact hs.execNselect f
  | copy d a b => exact hs.execCopy d a b
  | fgraph d a b => exact hs.execFgraph d a b
  | waita d a b => exact hs.execWaita d a b
  | lwake a => exact hs.execLwake a
  | mhint a b => exact hs.execMhint a b
  | mwait a => exact hs.execMwait a
  | trap a => exact hs.execTrap a
  | tret a => exact hs.execTret a
  | brk t => exact hs.execBrk t
  | nop => exact hs.execNop
  | exit => exact hs.execExit
  | faultrd d im => exact hs.execFaultrd d im
  | loadReturn id uncorrectable => exact hs.execLoadReturn id uncorrectable
  | atomicReturn id => exact hs.execAtomicReturn id
  | nectarWriteback id => exact hs.execNectarWriteback id
  | copyChunk id => exact hs.execCopyChunk id
  | copyComplete id => exact hs.execCopyComplete id
  | ccopyComplete id => exact hs.execCcopyComplete id
  | foragerNodeStart replay node spad text cls => exact hs.execForagerNodeStart replay node spad text cls
  | foragerNodeComplete replay node => exact hs.execForagerNodeComplete replay node
  | foragerWaitRecheck replay node => exact hs.execForagerWaitRecheck replay node
  | replayComplete replay => exact hs.execReplayComplete replay
  | collectiveSignature sender receiver inst foreign => exact hs.execCollectiveSignature sender receiver inst foreign
  | mmaArrayExecute launch team => exact hs.execMmaArrayExecute launch team
  | batchComplete launch team => exact hs.execBatchComplete launch team
  | waitaWake launch team group => exact hs.execWaitaWake launch team group
  | vtimeCompareMatch launch team group => exact hs.execVtimeCompareMatch launch team group
  | eventTrap launch team group => exact hs.execEventTrap launch team group
  | groupExchange core launch team group => exact hs.execGroupExchange core launch team group
  | groupStarved core launch team group => exact hs.execGroupStarved core launch team group
  | forcedExchange core => exact hs.execForcedExchange core
  | teamPlacement part => exact hs.execTeamPlacement part
  | poolSwitch core => exact hs.execPoolSwitch core
  | poolSwitchComplete core => exact hs.execPoolSwitchComplete core
  | teamRetirement launch team => exact hs.execTeamRetirement launch team
  | launchCompletion launch => exact hs.execLaunchCompletion launch
  | launch fn q spad text cls splice => exact hs.execLaunch fn q spad text cls splice
  | nopPacket fn q => exact hs.execNopPacket fn q
  | inval fn q => exact hs.execInval fn q
  | invalComplete k => exact hs.execInvalComplete k
  | debugStop fn q => exact hs.execDebugStop fn q
  | debugResume fn q => exact hs.execDebugResume fn q
  | debugRead fn q => exact hs.execDebugRead fn q
  | debugWrite fn q => exact hs.execDebugWrite fn q
  | debugBreak fn q => exact hs.execDebugBreak fn q
  | pfreplyReplay fn q => exact hs.execPfreplyReplay fn q
  | pfreplyDeliver fn q => exact hs.execPfreplyDeliver fn q
  | gload fn q => exact hs.execGload fn q
  | gloadUnload fn q => exact hs.execGloadUnload fn q
  | gloadDeferredComplete k => exact hs.execGloadDeferredComplete k
  | reservedPacket fn q => exact hs.execReservedPacket fn q
  | qtailDoorbell fn q t => exact hs.execQtailDoorbell fn q t
  | queueEnable fn q => exact hs.execQueueEnable fn q
  | queueDisable fn q => exact hs.execQueueDisable fn q
  | qclear fn q => exact hs.execQclear fn q
  | fqctlWrite fn v => exact hs.execFqctlWrite fn v
  | fqtailWrite fn v => exact hs.execFqtailWrite fn v
  | registerWrite area off v => exact hs.execRegisterWrite area off v
  | hostApertureRead fn off n => exact hs.execHostApertureRead fn off n
  | hostApertureWrite fn off bytes => exact hs.execHostApertureWrite fn off bytes
  | cxlMemRead port off n => exact hs.execCxlMemRead port off n
  | cxlMemWrite port off bytes => exact hs.execCxlMemWrite port off bytes
  | hostPriResponse fn k granted bus writable => exact hs.execHostPriResponse fn k granted bus writable
  | atsInvalidation fn page => exact hs.execAtsInvalidation fn page
  | channelPacketArrival k => exact hs.execChannelPacketArrival k
  | channelAck k => exact hs.execChannelAck k
  | streamClose k => exact hs.execStreamClose k
  | packetResend id => exact hs.execPacketResend id
  | linkFailure link packets acks => exact hs.execLinkFailure link packets acks
  | sync k => exact hs.execSync k
  | syncRequest k => exact hs.execSyncRequest k
  | linkRetrained link => exact hs.execLinkRetrained link
  | linkNarrow link => exact hs.execLinkNarrow link
  | linkSleep link => exact hs.execLinkSleep link
  | lwakeExpiry link => exact hs.execLwakeExpiry link
  | peerUnreachable mod => exact hs.execPeerUnreachable mod
  | pageMigrationStart part va target => exact hs.execPageMigrationStart part va target
  | pageMigrationComplete k => exact hs.execPageMigrationComplete k
  | gangReserve gang => exact hs.execGangReserve gang
  | gangReserveTimeout gang => exact hs.execGangReserveTimeout gang
  | gangBackoffRetry gang => exact hs.execGangBackoffRetry gang
  | gangCommit gang => exact hs.execGangCommit gang
  | preemptRequest launch team budget => exact hs.execPreemptRequest launch team budget
  | drainTimeout launch team => exact hs.execDrainTimeout launch team
  | saveComplete launch team => exact hs.execSaveComplete launch team
  | saveWithdraw launch team => exact hs.execSaveWithdraw launch team
  | flushComplete launch team => exact hs.execFlushComplete launch team
  | cutStopRequest launch => exact hs.execCutStopRequest launch
  | cutCompletion launch => exact hs.execCutCompletion launch
  | cutAbandon launch => exact hs.execCutAbandon launch
  | journalCopyOnWrite launch page => exact hs.execJournalCopyOnWrite launch page
  | dieFence at' => exact hs.execDieFence at'
  | commandLinkMessage cell toCell urgent send msg => exact hs.execCommandLinkMessage cell toCell urgent send msg
  | hiveHeartbeat received => exact hs.execHiveHeartbeat received
  | hiveTakeover => exact hs.execHiveTakeover
  | cellLinkFailure cell => exact hs.execCellLinkFailure cell
  | powerCapTick average plate => exact hs.execPowerCapTick average plate
  | gtimeLockLoss => exact hs.execGtimeLockLoss
  | gtimeRelock => exact hs.execGtimeRelock
  | coldStart failedCores found => exact hs.execColdStart failedCores found
  | warmStart failedCores found => exact hs.execWarmStart failedCores found
  | correctedError dram => exact hs.execCorrectedError dram
  | uncorrectableTeamState core => exact hs.execUncorrectableTeamState core
  | pseudoChannelSparing stack base size => exact hs.execPseudoChannelSparing stack base size
  | sparingChunkCopy k => exact hs.execSparingChunkCopy k
  | pageRetirement page target => exact hs.execPageRetirement page target
  | fatalError cause trouble => exact hs.execFatalError cause trouble
  | patchHandler k outcome value target writes => exact hs.execPatchHandler k outcome value target writes
  | patchHandlerTimeout k writes => exact hs.execPatchHandlerTimeout k writes
  | patchImageSwitch => exact hs.execPatchImageSwitch
  | quarantineTimeout launch => exact hs.execQuarantineTimeout launch
  | partSet => exact hs.execPartSet
  | qcellSet => exact hs.execQcellSet
  | powerCap => exact hs.execPowerCap
  | cutSet => exact hs.execCutSet
  | imgStage => exact hs.execImgStage
  | imgActivate => exact hs.execImgActivate
  | imgCommit => exact hs.execImgCommit
  | imgRevert => exact hs.execImgRevert
  | dumpClear => exact hs.execDumpClear
  | unknownCommand => exact hs.execUnknownCommand
  | mcmdComplete => exact hs.execMcmdComplete
  | atomicReceiptConfirmation id => exact hs.execAtomicReceiptConfirmation id
  | gtimeSlewComplete => exact hs.execGtimeSlewComplete
  | mxreadMstoreExecute launch step => exact hs.execMxreadMstoreExecute launch step

/-! A turn, an event, a step. -/

theorem StoresWf.runWord (h : StoresWf s) (id : GroupId) (w : W32) : ResWf (s.runWord id w) := by
  unfold State.runWord
  split
  · exact StoresWf.exec (by exact h) _
  · exact .next (h.deliver _ _ _ _)
  · exact .next (h.deliver _ _ _ _)

theorem StoresWf.fetchRun (h : StoresWf s) (c : Ctx) : ResWf (s.fetchRun c) := by
  unfold State.fetchRun
  split
  · exact h.runWord _ _
  · split
    · next hit _ =>
      have h1 : StoresWf ((s.markHits [hit] false).trafficTo c.die [hit]) := (h.markHits _ _).trafficTo _ _
      dsimp only
      split
      · exact .next (h1.patchAct _ _ _ _ _)
      · exact h1.runWord _ _
    · exact .next (h.deliver _ _ _ _)
    · exact .next (h.groupPageFault _ _ _ _ _ _ _ _)
    · exact .next h
    · exact .fault _

theorem StoresWf.boundary (h : StoresWf s) (c : Ctx) : ResWf (s.boundary c) := by
  have hr : ResWf (match c.group.rewriting with
      | some (w :: _, _) => s.runWord c.id w
      | _ => s.fetchRun c) := by
    split
    · exact h.runWord _ _
    · exact h.fetchRun c
  unfold State.boundary
  extract_lets r
  cases hres : r with
  | next s1 =>
    have h1 : StoresWf s1 := hr s1 hres
    exact .ite (fun _ => .next (h1.takeEvent _)) fun _ => .ite (fun _ => .next (h.takeEvent _)) fun _ => hres ▸ hr
  | fault f => exact .fault f
  | refused m => exact fun _ hs => nomatch hs

theorem StoresWf.afterTurn (before : State) (core : Nat) (id : GroupId) {r : Res} (hr : ResWf r) :
    ResWf (afterTurn before core id r) := by
  cases r with
  | next s =>
    have h : StoresWf s := hr s rfl
    exact .next (StoresWf.finishStops (StoresWf.recordSteps (StoresWf.noteWrites (.ite (fun _ => h.noteTurn _ _) fun _ => h) _ _ _) _))
  | fault f => exact .fault f
  | refused m => exact fun _ hs => nomatch hs

theorem StoresWf.groupTurn (h : StoresWf s) (id : GroupId) : ResWf (s.groupTurn id) := by
  have h1 : StoresWf (if s.fatal then s else s.vtimeCheck id) := .ite (fun _ => h) fun _ => h.vtimeCheck id
  unfold State.groupTurn
  extract_lets s1
  split
  · exact .next h
  · next c _ =>
    refine .ite (fun _ => .next h1) fun _ => ?_
    have h2 : StoresWf (s1.atTurn c) := StoresWf.atTurn h1 c
    dsimp only
    split
    · exact .next h2
    · exact StoresWf.afterTurn _ _ _ (h2.boundary _)

theorem StoresWf.afterStream (id : TeamId) {r : Res} (hr : ResWf r) : ResWf (afterStream id r) := by
  cases r with
  | next s => exact .next ((hr s rfl).recordSteps id).finishStops
  | fault f => exact .fault f
  | refused m => exact fun _ hs => nomatch hs

theorem StoresWf.sequencerTurn (h : StoresWf s) (id : TeamId) : ResWf (s.sequencerTurn id) := by
  unfold State.sequencerTurn
  split
  · split
    · refine .ite (fun _ => .next h) fun _ => ?_
      split
      · dsimp only
        split
        · exact StoresWf.afterStream id (StoresWf.exec (by exact (h.markHits _ _).trafficTo _ _) _)
        · exact .next (h.streamStop _ _)
        · exact .next (h.streamStop _ _)
      · exact .next (h.streamStop _ _)
      · refine .next (StoresWf.enterFault ?_ _ _)
        exact h.mapTeam _ fun _ ht => ht
      · exact .next h
      · exact .fault _
    · exact .next h
  · exact .next h

theorem StoresWf.afterEvent (before : State) (i : Instr) {r : Res} (hr : ResWf r) : ResWf (afterEvent before i r) := by
  cases r with
  | next s =>
    have h : StoresWf s := hr s rfl
    refine .next ?_
    split
    · exact h.noteEngine _
    · exact h.noteEngine _
    · exact h
  | fault f => exact .fault f
  | refused m => exact fun _ hs => nomatch hs

theorem StoresWf.turn (h : StoresWf s) (a : Agent) : ResWf (s.turn a) := by
  cases a with
  | none => exact .next h
  | group id => exact h.groupTurn id
  | sequencer id => exact h.sequencerTurn id

/-- Every step keeps the canonical form of the byte stores. -/
theorem StoresWf.step (h : StoresWf s) : ResWf (step s) := by
  have htick : StoresWf s.tickOn := h.tickOn
  unfold Machine.step
  split
  · exact .ite (fun _ => StoresWf.afterEvent _ _ (StoresWf.exec (StoresWf.note (by exact htick) _) _)) fun _ => .next htick
  · exact StoresWf.turn (by exact htick) _
  · exact htick.turn _

end Sys2Proof.Claims

open Sys2Proof Sys2Proof.Machine Sys2Proof.Claims

/-- Settles O37: the invariant is `StoresWf`, which every instruction, turn and event keeps. -/
theorem stepKeepsCanonicalMemories : Obligations.StepKeepsCanonicalMemories := by
  intro s s' h hs
  exact StoresWf.step h s' hs

/-- Settles O38: after reset there is no byte in any store and no team, host store, peer or cut. -/
theorem resetMemoriesCanonical : Obligations.ResetMemoriesCanonical :=
  storesWf_reset
end

section
/-! Bytes stored at a location and read back (spec 03 R65, R75, R78). -/

namespace Sys2Proof.Claims
open Sys2Proof.Machine

/-! Windows: a byte of a 32-bit element (03 R75). -/

theorem byteOf_setByteOf_same (w : W32) (o : Nat) (v : Byte) : byteOf (setByteOf w o v) o = v := by
  have hw := w.isLt
  have hv := v.isLt
  apply BitVec.eq_of_toNat_eq
  have ho : o % 4 < 4 := Nat.mod_lt _ (by decide)
  simp only [byteOf, setByteOf, BitVec.toNat_ofNat]
  generalize o % 4 = k at ho
  interval_cases k <;> omega

theorem byteOf_setByteOf_other (w : W32) {o o' : Nat} (h : o % 4 ≠ o' % 4) (v : Byte) :
    byteOf (setByteOf w o v) o' = byteOf w o' := by
  have hw := w.isLt
  have hv := v.isLt
  apply BitVec.eq_of_toNat_eq
  have ho : o % 4 < 4 := Nat.mod_lt _ (by decide)
  have ho' : o' % 4 < 4 := Nat.mod_lt _ (by decide)
  simp only [byteOf, setByteOf, BitVec.toNat_ofNat]
  generalize o % 4 = k at ho h
  generalize o' % 4 = k' at ho' h
  interval_cases k <;> interval_cases k' <;> omega

/-- What the change of one element keeps where it is, the list keeps. -/
theorem getD_modify_keeps {α β : Type} (ψ : α → β) {f : α → α} {i j : Nat} (h : i = j → ∀ a, ψ (f a) = ψ a) (xs : List α) (d : α) :
    ψ ((xs.modify i f).getD j d) = ψ (xs.getD j d) := by
  rw [List.getD_eq_getElem?_getD, List.getD_eq_getElem?_getD, List.getElem?_modify]
  cases xs[j]? with
  | none => rfl
  | some a =>
    by_cases hij : i = j
    · simpa [hij] using h hij a
    · simp [hij]

theorem getElem?_modify_keeps {α β : Type} (ψ : α → β) {f : α → α} {i j : Nat} (h : i = j → ∀ a, ψ (f a) = ψ a) (xs : List α) :
    ((xs.modify i f)[j]?).map ψ = (xs[j]?).map ψ := by
  rw [List.getElem?_modify]
  cases xs[j]? with
  | none => rfl
  | some a =>
    by_cases hij : i = j
    · simpa [hij] using h hij a
    · simp [hij]

theorem getD_modify_same {α : Type} (f : α → α) {i : Nat} {xs : List α} {a : α} (h : xs[i]? = some a) (d : α) :
    (xs.modify i f).getD i d = f a := by
  rw [List.getD_eq_getElem?_getD, List.getElem?_modify, h]
  simp

/-! The bytes that lie in a team: its scratchpad, its .priv bytes and its windows. -/

/-- The team that a location lies in. -/
def teamOf : Loc → Option TeamId
  | .spad t _ | .priv t _ | .regWin t _ _ | .tileWin t _ _ => some t
  | _ => none

/-- The byte of a register window. -/
def Group.windowByte (g : Group) (o : Nat) : Byte := byteOf (((g.vregs.getD (o / 512) ⟨Lanes.zero, none⟩).val).at (o / 4 % 128)) o

/-- The byte of a team at a location in it. -/
def Team.byteAt (t : Team) : Loc → Byte
  | .spad _ o => t.spad.read o
  | .priv _ o => t.priv.read o
  | .regWin _ g o => ((t.groups[g]?).map fun x => Group.windowByte x o).getD 0
  | .tileWin _ k o => byteOf (((t.tiles.getD k []).getD (o / 4 % 256) []).at (o / 1024)) o
  | _ => 0

/-- A group with a byte of its register window replaced. -/
def Group.putWindowByte (g : Group) (o : Nat) (v : Byte) : Group :=
  { g with vregs := g.vregs.modify (o / 512) fun x => { x with val := x.val.modify (o / 4 % 128) fun w => setByteOf w o v } }

/-- A team with a byte replaced. -/
def Team.putByte (t : Team) (loc : Loc) (v : Byte) : Team := match loc with
  | .spad _ o => { t with spad := t.spad.write o v }
  | .priv _ o => { t with priv := t.priv.write o v }
  | .regWin _ g o => { t with groups := t.groups.modify g fun x => Group.putWindowByte x o v }
  | .tileWin _ k o =>
      { t with tiles := t.tiles.modify k fun tl => tl.modify (o / 4 % 256) fun col =>
          col.modify (o / 1024) fun w => setByteOf w o v }
  | _ => t

theorem readLoc_teamOf {loc : Loc} {u : TeamId} (h : teamOf loc = some u) (s : State) :
    s.readLoc loc = ((s.team? u).map fun t => Team.byteAt t loc).getD 0 := by
  cases loc with
  | spad t o | priv t o | tileWin t k o =>
    obtain rfl := Option.some.inj h
    simp only [State.readLoc]
    cases s.team? t <;> rfl
  | regWin t g o =>
    obtain rfl := Option.some.inj h
    simp only [State.readLoc, State.group?]
    cases s.team? t with
    | none => rfl
    | some x =>
      simp only [Option.bind_some, Option.map_some, Option.getD_some, Team.byteAt]
      cases x.groups[g]? <;> rfl
  | phys | host | peer | fused => cases h

theorem writeLoc_teamOf {loc : Loc} {u : TeamId} (h : teamOf loc = some u) (s : State) (v : Byte) :
    s.writeLoc loc v = s.mapTeam u fun t => Team.putByte t loc v := by
  cases loc with
  | spad | priv | tileWin | regWin => cases h; rfl
  | phys | host | peer | fused => cases h

theorem putByte_id (t : Team) (loc : Loc) (v : Byte) : (Team.putByte t loc v).id = t.id := by cases loc <;> rfl

theorem byteAt_putByte_other {t : Team} (ht : TeamWf t) {loc loc' : Loc} (hu : teamOf loc = teamOf loc') (hne : loc ≠ loc') (v : Byte) :
    Team.byteAt (Team.putByte t loc v) loc' = Team.byteAt t loc' := by
  cases loc with
  | spad u o =>
    cases loc' with
    | spad u' o' =>
      cases hu
      exact Memory.read_write_other _ _ _ _ (fun e => hne (by rw [e])) ht.spad
    | _ => rfl
  | priv u o =>
    cases loc' with
    | priv u' o' =>
      cases hu
      exact Memory.read_write_other _ _ _ _ (fun e => hne (by rw [e])) ht.priv
    | _ => rfl
  | regWin u g o =>
    cases loc' with
    | regWin u' g' o' =>
      cases hu
      have hbyte : g = g' → ∀ x, Group.windowByte (Group.putWindowByte x o v) o' = Group.windowByte x o' := by
        rintro rfl x
        have hoff : o ≠ o' := fun e => hne (by rw [e])
        refine getD_modify_keeps (fun r : VSlot => byteOf (r.val.at (o' / 4 % 128)) o') (fun hreg r => ?_) x.vregs _
        exact getD_modify_keeps (fun w => byteOf w o') (fun hlane w => byteOf_setByteOf_other w (by omega) v) r.val 0
      exact congrArg (Option.getD · 0) (getElem?_modify_keeps _ hbyte t.groups)
    | _ => rfl
  | tileWin u k o =>
    cases loc' with
    | tileWin u' k' o' =>
      cases hu
      refine getD_modify_keeps (fun cs : List Lanes => byteOf ((cs.getD (o' / 4 % 256) []).at (o' / 1024)) o') (fun hk cs => ?_) t.tiles _
      have hoff : o ≠ o' := fun e => hne (by rw [hk, e])
      refine getD_modify_keeps (fun col : Lanes => byteOf (col.at (o' / 1024)) o') (fun hcol col => ?_) cs []
      refine getD_modify_keeps (fun w => byteOf w o') (fun hrow w => byteOf_setByteOf_other w (fun hbyte => hoff ?_) v) col 0
      have hword : o / 4 = o' / 4 := by omega
      omega
    | _ => rfl
  | _ => rfl


/-- The entry that the place of the byte needs: the column of a tile, the register of a window. -/
def Team.holds (t : Team) : Loc → Prop
  | .spad _ _ | .priv _ _ => True
  | .regWin _ g o => ∃ x r, t.groups[g]? = some x ∧ x.vregs[o / 512]? = some r ∧ r.val.length = 128
  | .tileWin _ k o => ∃ cs col, t.tiles[k]? = some cs ∧ cs[o / 4 % 256]? = some col ∧ o / 1024 < col.length
  | _ => False

theorem byteAt_putByte_same {t : Team} (ht : TeamWf t) {loc : Loc} (h : Team.holds t loc) (v : Byte) :
    Team.byteAt (Team.putByte t loc v) loc = v := by
  cases loc with
  | spad u o => exact Memory.read_write_same _ _ _ ht.spad
  | priv u o => exact Memory.read_write_same _ _ _ ht.priv
  | regWin u g o =>
    obtain ⟨x, r, hx, hr, hlen⟩ := h
    have hlane : r.val[o / 4 % 128]? = some r.val[o / 4 % 128] := List.getElem?_eq_getElem (by omega)
    have hbyte : Group.windowByte (Group.putWindowByte x o v) o = v := by
      simp only [Group.windowByte, Group.putWindowByte, getD_modify_same _ hr, Lanes.at, getD_modify_same _ hlane, byteOf_setByteOf_same]
    simp only [Team.putByte, Team.byteAt, List.getElem?_modify, hx, if_true, Option.map_eq_map, Option.map_some, Option.getD_some, hbyte]
  | tileWin u k o =>
    obtain ⟨cs, col, hcs, hcol, hlen⟩ := h
    simp only [Team.putByte, Team.byteAt, getD_modify_same _ hcs, getD_modify_same _ hcol, Lanes.at,
      getD_modify_same _ (List.getElem?_eq_getElem hlen), byteOf_setByteOf_same]
  | _ => exact absurd h id

/-! Hosts and peers. -/

theorem hostRead_hostWrite_same {s : State} (h : StoresWf s) (link a : Nat) (v : Byte) : (s.hostWrite link a v).hostRead link a = v := by
  unfold State.hostWrite
  split
  · next hany =>
    obtain ⟨x, hx, hlink⟩ := List.any_eq_true.mp hany
    cases hf : s.hostMem.find? fun h => decide (h.1 = link) with
    | none => exact absurd hlink (List.find?_eq_none.mp hf x hx)
    | some y =>
      have hy : y.1 = link := by simpa using List.find?_some hf
      simp only [State.hostRead]
      rw [find?_map_of_same (φ := fun y : Nat × Memory => y.1) (fun y => by split <;> rfl), hf]
      simp only [Option.map_some, hy, if_true]
      exact Memory.read_write_same _ _ _ (h.hosts y (List.mem_of_find?_eq_some hf))
  · next hany =>
    have hnone : s.hostMem.find? (fun h => decide (h.1 = link)) = none :=
      List.find?_eq_none.mpr fun x hx hlink => hany (List.any_eq_true.mpr ⟨x, hx, hlink⟩)
    simp only [State.hostRead, List.find?_append, hnone]
    simpa using Memory.read_write_same [] a v Memory.wf_nil

theorem hostRead_hostWrite_other {s : State} (h : StoresWf s) {link a link' a' : Nat} (hne : (link, a) ≠ (link', a')) (v : Byte) :
    (s.hostWrite link a v).hostRead link' a' = s.hostRead link' a' := by
  unfold State.hostWrite
  split
  · simp only [State.hostRead]
    rw [find?_map_of_same (φ := fun y : Nat × Memory => y.1) (fun y => by split <;> rfl)]
    cases hf : s.hostMem.find? fun h => decide (h.1 = link') with
    | none => rfl
    | some y =>
      have hy : y.1 = link' := by simpa using List.find?_some hf
      simp only [Option.map_some]
      split
      · next hlink =>
        exact Memory.read_write_other _ _ _ _ (fun e => hne (by rw [← hlink, hy, e])) (h.hosts y (List.mem_of_find?_eq_some hf))
      · rfl
  · simp only [State.hostRead, List.find?_append]
    cases s.hostMem.find? fun h => decide (h.1 = link') with
    | some y => rfl
    | none =>
      by_cases hlink : link = link'
      · have ha : a' ≠ a := fun e => hne (by rw [hlink, e])
        simpa [hlink, Memory.read] using Memory.read_write_other [] a a' v ha Memory.wf_nil
      · simp [hlink]

/-! A byte stored at a location reads back there and nowhere else (03 R65, R75). -/

theorem linkOfFn_ne {fn fn' a a' : Nat} (h : byteKey (.host fn a) ≠ byteKey (.host fn' a')) :
    (linkOfFn fn, a) ≠ (linkOfFn fn', a') := by
  intro e
  obtain ⟨hlink, rfl⟩ := Prod.mk.inj e
  simp only [byteKey, linkOfFn] at h hlink
  split at hlink <;> split at hlink <;> simp_all

theorem readLoc_writeLoc_team {s : State} (h : StoresWf s) {loc loc' : Loc} {u : TeamId} (hu : teamOf loc = some u)
    (hne : loc ≠ loc') (v : Byte) : (s.writeLoc loc v).readLoc loc' = s.readLoc loc' := by
  rw [writeLoc_teamOf hu]
  cases hu' : teamOf loc' with
  | none =>
    cases loc' with
    | spad | priv | tileWin | regWin => cases hu'
    | phys | host | peer | fused => rfl
  | some u' =>
    rw [readLoc_teamOf hu', readLoc_teamOf hu']
    by_cases hteam : u' = u
    · subst hteam
      rw [team?_mapTeam_map s u' _ fun t => putByte_id t loc v]
      cases ht : s.team? u' with
      | none => rfl
      | some t => exact byteAt_putByte_other (h.team? ht) (hu.trans hu'.symm) hne v
    · rw [State.team?_mapTeam_other s u u' _ (fun t => putByte_id t loc v) hteam]

theorem readLoc_writeLoc_other {s : State} (h : StoresWf s) {loc loc' : Loc} (hne : byteKey loc ≠ byteKey loc') (v : Byte) :
    (s.writeLoc loc v).readLoc loc' = s.readLoc loc' := by
  cases loc with
  | phys a =>
    cases loc' with
    | phys a' => exact Memory.read_write_other _ _ _ _ (fun e => hne (by rw [e])) h.mem
    | _ => rfl
  | host fn a =>
    cases loc' with
    | host fn' a' => exact hostRead_hostWrite_other h (linkOfFn_ne hne) v
    | _ =>
      rw [State.writeLoc, hostWrite_frame]
      rfl
  | peer m a =>
    cases loc' with
    | peer m' a' =>
      simp only [State.writeLoc, State.readLoc]
      rw [find?_map_of_same (φ := fun p : Peer => p.mod) (fun p => by split <;> rfl)]
      cases hp : s.peers.find? fun p => decide (p.mod = m') with
      | none => rfl
      | some p =>
        have hmod : p.mod = m' := by simpa using List.find?_some hp
        simp only [Option.map_some]
        split
        · next hm =>
          exact Memory.read_write_other _ _ _ _ (fun e => hne (by rw [← hm, hmod, e])) (h.peers p (List.mem_of_find?_eq_some hp))
        · rfl
    | _ => rfl
  | fused k o => rfl
  | spad | priv | regWin | tileWin => exact readLoc_writeLoc_team h rfl (fun e => hne (by rw [e])) v

theorem readLoc_writeLoc_inTeam {s : State} (h : StoresWf s) (loc : Loc) {u : TeamId} {t : Team} (hu : teamOf loc = some u)
    (ht : s.team? u = some t) (hholds : Team.holds t loc) (v : Byte) : (s.writeLoc loc v).readLoc loc = v := by
  rw [writeLoc_teamOf hu, readLoc_teamOf hu, State.team?_mapTeam s u _ t ht fun t => putByte_id t loc v, Option.map_some, Option.getD_some]
  exact byteAt_putByte_same (h.team? ht) hholds v

theorem readLoc_writeLoc_peer {s : State} (h : StoresWf s) {m : Nat} (hp : ∃ p ∈ s.peers, p.mod = m) (a : Nat) (v : Byte) :
    (s.writeLoc (.peer m a) v).readLoc (.peer m a) = v := by
  obtain ⟨q, hq, hmod⟩ := hp
  simp only [State.writeLoc, State.readLoc]
  rw [find?_map_of_same (φ := fun p : Peer => p.mod) (fun p => by split <;> rfl)]
  cases hf : s.peers.find? fun p => decide (p.mod = m) with
  | none => exact absurd (decide_eq_true hmod) (List.find?_eq_none.mp hf q hq)
  | some p =>
    have hm : p.mod = m := by simpa using List.find?_some hf
    simp only [Option.map_some, hm, if_true]
    exact Memory.read_write_same _ _ _ (h.peers p (List.mem_of_find?_eq_some hf))

/-! A number stored reads back, and marking a table entry sets its bits (03 R78). -/

theorem leNat_leBytes (n : Nat) : ∀ v, leNat (leBytes n v) = v % 256 ^ n := by
  induction n with
  | zero => intro v; simp [leBytes, leNat, Nat.mod_one]
  | succ n ih =>
    intro v
    have hsplit : v % (256 ^ n * 256) = v % 256 + 256 * (v / 256 % 256 ^ n) := by rw [Nat.mul_comm, Nat.mod_mul]
    rw [leBytes, leNat, ih, Nat.pow_succ, hsplit, BitVec.toNat_ofNat]

theorem readBytes_writeBytes (bs : List Byte) : ∀ (m : Memory) (a : Nat), Memory.wf m = true →
    (m.writeBytes a bs).readBytes a bs.length = bs := by
  induction bs with
  | nil => intro m a _; rfl
  | cons b bs ih =>
    intro m a hm
    have hb : Memory.wf (m.write a b) = true := Memory.wf_write m a b hm
    have hhead : ((m.write a b).writeBytes (a + 1) bs).read a = b := by
      rw [Memory.read_writeBytes_other bs _ _ _ hb (by omega), Memory.read_write_same m a b hm]
    have htail := ih (m.write a b) (a + 1) hb
    simp only [Memory.readBytes, Memory.writeBytes, List.length_cons, List.range_succ_eq_map, List.map_cons, List.map_map,
      Nat.add_zero, hhead] at htail ⊢
    refine congrArg (b :: ·) (Eq.trans (List.map_congr_left fun i _ => ?_) htail)
    show Memory.read _ (a + (i + 1)) = Memory.read _ (a + 1 + i)
    congr 1
    omega

theorem read64_writeLe {m : Memory} (hm : Memory.wf m = true) (a v : Nat) : (m.writeLe a 8 v).read64 a = BitVec.ofNat 64 v := by
  have hread := readBytes_writeBytes (leBytes 8 v) m a hm
  rw [leBytes_length] at hread
  rw [Memory.read64, Memory.readLe, Memory.writeLe, hread, leNat_leBytes]
  apply BitVec.eq_of_toNat_eq
  simp only [BitVec.toNat_ofNat]
  exact Nat.mod_mod_of_dvd _ (by decide)

theorem read64_markEntry {m : Memory} (hm : Memory.wf m = true) (e : Nat) (w : Bool) :
    (markEntry m e w).read64 e = m.read64 e ||| (if w then 0xC0 else 0x40) := by
  rw [markEntry, read64_writeLe hm, BitVec.ofNat_toNat, BitVec.setWidth_eq]

end Sys2Proof.Claims

open Sys2Proof Sys2Proof.Machine Sys2Proof.Claims

/-- The clauses of O17 about other bytes and about table entries. They stand before its arrow, so that it only assumes them; they
hold in every state whose stores are canonical. -/
theorem markedAndStoredApart {s : State} (hs : StoresWf s) (loc : Loc) (v : Byte) (h : Hit) (w : Bool) :
    MemorySame s (s.markHits [h] w) [] [h] ∧
    (∀ e, h.entry = some (none, e) → (s.markHits [h] w).mem.read64 e = s.mem.read64 e ||| (if w then 0xC0 else 0x40)) ∧
    ∀ loc', byteKey loc ≠ byteKey loc' → (s.writeLoc loc v).readLoc loc' = s.readLoc loc' := by
  refine ⟨fun hwf loc' _ hentry => readLoc_markHit hwf h w loc' (hentry h List.mem_cons_self), fun e he => ?_,
    fun loc' hne => readLoc_writeLoc_other hs hne v⟩
  simp only [State.markHits, List.foldl_cons, List.foldl_nil, he]
  exact read64_markEntry hs.mem e w

/-- Settles O17: every place is a byte of a store, of a host, of a peer or of a team, and each of them reads back what it took. -/
theorem storesReadBack : Obligations.StoresReadBack := by
  rintro s loc v h w hs ⟨-, -, -, hthere⟩
  cases loc with
  | phys a => exact Memory.read_write_same _ _ _ (StoresWf.mem hs)
  | host fn a => exact hostRead_hostWrite_same hs _ _ _
  | peer m a => exact readLoc_writeLoc_peer hs hthere a v
  | spad t o =>
    obtain ⟨x, hx⟩ := Option.isSome_iff_exists.mp hthere
    exact readLoc_writeLoc_inTeam hs (.spad t o) rfl hx trivial v
  | priv t o =>
    obtain ⟨x, hx⟩ := Option.isSome_iff_exists.mp hthere
    exact readLoc_writeLoc_inTeam hs (.priv t o) rfl hx trivial v
  | regWin t g o =>
    obtain ⟨x, r, hx, hr, hlen⟩ := hthere
    obtain ⟨u, hu, hg⟩ := Option.bind_eq_some_iff.mp hx
    exact readLoc_writeLoc_inTeam hs (.regWin t g o) rfl hu ⟨x, r, hg, hr, hlen⟩ v
  | tileWin t k o =>
    obtain ⟨x, cs, col, hx, hplace⟩ := hthere
    exact readLoc_writeLoc_inTeam hs (.tileWin t k o) rfl hx ⟨cs, col, hplace⟩ v
  | fused n o => exact absurd hthere id
end

section
/-! The fields and the gate of the loads, the stores and the atomics (spec 06 R126, R127, R143; 09 R190). -/

namespace Sys2Proof.Claims
open Sys2Proof.Machine

/-! Fields that are met. -/

theorem toList_of_empty_false {p : Option Nat} (h : (!p.isSome) = true) : p.toList = [] := by
  cases p with
  | none => rfl
  | some k => cases h

theorem met_field {c : Ctx} {ok : Bool} (h : ok = true) (sub : BitVec 8) : (Need.field sub ok).met c = true := by
  simp [Need.met, Need.illegal, Need.untyped, Need.empty?, Need.waits, h]

theorem met_ptr {c : Ctx} {p : BitVec 5} (h : ptrFull c p = true) : (Need.ptr p).met c = true := by
  simp only [ptrFull, Ctx.scalarEmpty] at h
  simp [Need.met, Need.illegal, Need.untyped, Need.empty?, Need.waits, toList_of_empty_false h, emptyIf]

theorem met_b6S {c : Ctx} {b : BitVec 6} (h : shortS c b = true) : (Need.b6S b).met c = true := by
  simp only [shortS] at h
  split at h
  · next code hb =>
    simp only [Ctx.scalarEmpty] at h
    simp [Need.met, Need.illegal, Need.untyped, Need.empty?, Need.waits, hb, toList_of_empty_false h, emptyIf]
  · cases h

theorem met_b6V {c : Ctx} {b : BitVec 6} (h : shortV c b = true) : (Need.b6V b).met c = true := by
  simp only [shortV] at h
  split at h
  · next code hb =>
    obtain ⟨hlegal, hfull⟩ := Bool.and_eq_true_iff.mp h
    simp only [Ctx.vectorEmpty] at hfull
    simp [Need.met, Need.illegal, Need.untyped, Need.empty?, Need.waits, hb, hlegal, toList_of_empty_false hfull, emptyIf]
  · cases h

theorem met_dstV {c : Ctx} {d : BitVec 8} (h : dstV c d = true) : (Need.dstV d).met c = true := by
  simp only [dstV, Bool.or_eq_true, Bool.and_eq_true, decide_eq_true_eq, Ctx.vectorEmpty] at h
  have hlegal : c.vectorDstLegal d = true := by
    rcases h with rfl | ⟨hd, -⟩
    · simp [Ctx.vectorDstLegal]
    · simp [Ctx.vectorDstLegal, hd]
  have hfull : namedPend d (c.vectorPend d) = [] := by
    rcases h with rfl | ⟨-, hp⟩
    · rfl
    · simp [namedPend, toList_of_empty_false hp]
  simp [Need.met, Need.illegal, Need.untyped, Need.empty?, Need.waits, hlegal, hfull, emptyIf]

theorem met_srcVT {c : Ctx} {t : ElemType} {a : BitVec 8} (h : srcVT c t a = true) (sub : BitVec 8) (pol : Pol) :
    (Need.srcVT (fun _ => t) sub pol a).met c = true := by
  simp only [srcVT, Bool.and_eq_true, Bool.or_eq_true, Ctx.vectorEmpty] at h
  obtain ⟨⟨hlegal, hfull⟩, hconst⟩ := h
  have htyped : (isConst a && (vectorConst t c.rnd c.sat (a.toNat - 0x90)).isNone) = false := by
    rcases hconst with hk | hk
    · simp_all
    · simp [hk]
  simp [Need.met, Need.illegal, Need.untyped, Need.empty?, Need.waits, hlegal, htyped, toList_of_empty_false hfull, emptyIf]

theorem met_rmwS {c : Ctx} {d : BitVec 8} (h : namedS c d = true) (sub : BitVec 8) : (Need.rmwS sub d).met c = true := by
  simp only [namedS, Bool.and_eq_true, decide_eq_true_eq, Ctx.scalarEmpty] at h
  obtain ⟨hd, hfull⟩ := h
  simp [Need.met, Need.illegal, Need.untyped, Need.empty?, Need.waits, hd, toList_of_empty_false hfull, emptyIf]

theorem met_rmwV {c : Ctx} {d : BitVec 8} (h : namedV c d = true) : (Need.rmwV d).met c = true := by
  simp only [namedV, Bool.and_eq_true, decide_eq_true_eq, Ctx.vectorEmpty] at h
  obtain ⟨hd, hfull⟩ := h
  simp [Need.met, Need.illegal, Need.untyped, Need.empty?, Need.waits, hd, toList_of_empty_false hfull, emptyIf]

theorem met_etype {c : Ctx} {ok : ElemType → Bool} (h : ok c.ty = true) : (Need.etype ok).met c = true := by
  simp [Need.met, Need.illegal, Need.untyped, Need.empty?, Need.waits, h]

/-- The memory order lets the access go on. -/
theorem met_ordNeeds {s : State} {c : Ctx} {o : BitVec 2} (hs : c.s = s) (h : ordered s c o) : ∀ n ∈ ordNeeds o, n.met c = true := by
  obtain ⟨hacc, hrel⟩ := h
  intro n hn
  rcases List.mem_cons.mp hn with rfl | hn
  · exact met_access hs hacc
  · split at hn
    · next ho =>
      rw [List.mem_singleton.mp hn]
      exact met_released hs (hrel (by simpa [isRelease] using ho))
    · exact absurd hn List.not_mem_nil

/-! Codes of scope and order. -/

theorem scLegal_of_load {sc : BitVec 3} {o : BitVec 2} (h : loadCodes sc o = true) : scLegal sc o = true := by
  revert h; revert sc o; decide

theorem ordLoad_of_codes {sc : BitVec 3} {o : BitVec 2} (h : loadCodes sc o = true) : ordLoad o = true := by
  revert h; revert sc o; decide

theorem scLegal_of_store {sc : BitVec 3} {o : BitVec 2} (h : storeCodes sc o = true) : scLegal sc o = true := by
  revert h; revert sc o; decide

theorem ordStore_of_codes {sc : BitVec 3} {o : BitVec 2} (h : storeCodes sc o = true) : ordStore o = true := by
  revert h; revert sc o; decide

theorem scLegal_of_atom {sc : BitVec 3} {o : BitVec 2} (h : atomCodes sc o = true) : scLegal sc o = true := by
  revert h; revert sc o; decide

/-- A load is no release: only earlier accesses keep it waiting. -/
theorem ordNeeds_load {sc : BitVec 3} {o : BitVec 2} (h : loadCodes sc o = true) : ordNeeds o = [.access] := by
  have hrel : isRelease o = false := by revert h; revert sc o; decide
  simp [ordNeeds, hrel]

theorem not_release_of_load {sc : BitVec 3} {o : BitVec 2} (h : loadCodes sc o = true) : ¬ (o = 2 ∨ o = 3) := by
  revert h; revert sc o; decide

theorem ordered_load {s : State} {c : Ctx} {sc : BitVec 3} {o : BitVec 2} (h : loadCodes sc o = true) (ha : mayAccess s c) :
    ordered s c o :=
  ⟨ha, fun ho => absurd ho (not_release_of_load h)⟩

/-! The gate. -/

/-- A trap handler admits the scalar loads and stores (13 R266). -/
theorem trapLegal_formatA (op d : BitVec 8) (p : BitVec 5) (sc : BitVec 3) (o : BitVec 2) (b : BitVec 6) (hop : op.toNat < 0x34)
    {i : Instr} (h : encode i = some (op ++ d ++ p ++ sc ++ o ++ b)) : trapLegal (wordOf i) = true := by
  rw [wordOf_eq h, trapLegal_iff, (Laws.RoundTrip.partsf8f5f3f2f6 _ op d p sc o b rfl).2.1]
  exact .inl hop

/-- An access that waits for an earlier acquire of its group is held, and the group remembers it. -/
theorem issue_access_waits {s : State} {c : Ctx} {i : Instr} {needs : List Need} (body : Ctx → Res) (hi : Issuing s c)
    (ht : trapLegal (wordOf i) = true) (hm : ∀ n ∈ needs, n.met c = true) (hacc : ¬ mayAccess s c) :
    Waits s c (issue i s (needs ++ [.access]) body) .waits := by
  have hwait : Need.waits c .access = true := by
    rw [Need.waits, State.acqPending, hi.state, List.any_eq_true]
    simp only [mayAccess, not_forall] at hacc
    obtain ⟨p, hp, ho, hg, ha, hperf⟩ := hacc
    exact ⟨p, hp, by simp [ho, hg, ha, hperf]⟩
  have hmet : ∀ n ∈ needs, n.illegal c = none ∧ n.untyped c = false ∧ n.empty? c = none := fun n hn => by
    have := hm n hn
    simp only [Need.met, Bool.and_eq_true, Option.isNone_iff_eq_none, Bool.not_eq_true'] at this
    exact ⟨this.1.1.1, this.1.1.2, this.1.2⟩
  have hlegal : (needs ++ [Need.access]).findSome? (Need.illegal c) = none := findSome_none _ _ fun n hn => by
    rcases List.mem_append.mp hn with hn | hn
    · exact (hmet n hn).1
    · rw [List.mem_singleton.mp hn]; rfl
  have htyped : (needs ++ [Need.access]).any (Need.untyped c) = false := by
    rw [List.any_append, List.any_eq_false.mpr fun n hn => by simp [(hmet n hn).2.1]]
    rfl
  have hfull : (needs ++ [Need.access]).filterMap (Need.empty? c) = [] := by
    rw [List.filterMap_append, List.filterMap_eq_nil_iff.mpr fun n hn => (hmet n hn).2.2]
    rfl
  have hgate : gate (wordOf i) c (needs ++ [.access]) = .wait := by
    simp [gate, ht, hlegal, htyped, hfull, List.any_append, hwait]
  rw [Waits, issue]
  simp only [hi.1, hi.2, hgate, Ctx.held, hi.state]

end Sys2Proof.Claims
end

section
/-! The checks of an access in their order, and its page fault (spec 03 R70-R73, R80; 23 R345). -/

namespace Sys2Proof.Claims
open Sys2Proof.Machine

/-! Steps 1 and 2: the segment, and the rights in the order named. -/

theorem checkSeg_absent {l : Launch} {seg : Nat} (p : W64) (rights : List Right) (vector : Bool) (lo hi : W64)
    (h : l.seg? seg = none) : checkSeg l seg p rights vector lo hi = .trap (.segment p lo hi) := by
  rw [checkSeg, h]

theorem checkSeg_space {l : Launch} {seg : Nat} {v : SegView} (p : W64) (rights : List Right) {vector : Bool} (lo hi : W64)
    (h : l.seg? seg = some v) (hspace : v.space = .window ∨ v.space = .priv ∧ vector = false) :
    checkSeg l seg p rights vector lo hi = .trap (.segment p lo hi) := by
  rw [checkSeg, h]
  exact if_pos (by simpa using hspace)

theorem checkSeg_rights {l : Launch} {seg : Nat} {v : SegView} (p : W64) {rights : List Right} {vector : Bool} (lo hi : W64)
    (h : l.seg? seg = some v) (hwindow : v.space ≠ .window) (hpriv : v.space ≠ .priv ∨ vector = true) :
    checkSeg l seg p rights vector lo hi = match rights.find? fun r => !(v.rights.contains r) with
      | some r => .trap (.permission r p lo hi)
      | none => .ok v := by
  rw [checkSeg, h]
  refine if_neg ?_
  simp only [hwindow, decide_false, Bool.false_or, Bool.and_eq_true, decide_eq_true_eq, Bool.not_eq_true']
  rintro ⟨hp, hv⟩
  rcases hpriv with hp' | hv'
  · exact hp' hp
  · simp [hv] at hv'

theorem no_right_missing {v : SegView} {rights : List Right} (h : ∀ x ∈ rights, v.rights.contains x = true) :
    rights.find? (fun x => !v.rights.contains x) = none :=
  List.find?_eq_none.mpr fun x hx => by rw [h x hx]; exact Bool.false_ne_true

/-! The five steps of a scalar access. -/

/-- Steps 3 to 5 of a scalar access, once its segment and its rights pass. -/
theorem checkScalar_passed {s : State} {l : Launch} {t : TeamId} {die : Nat} {p : W64} {o : Int} {n : Nat} {rights : List Right}
    {w : Bool} {v : SegView} (hseg : l.seg? (ptrSeg p) = some v) (hwindow : v.space ≠ .window) (hpriv : v.space ≠ .priv)
    (hrights : ∀ x ∈ rights, v.rights.contains x = true) : s.checkScalar l t die p o n rights w =
      if o % n ≠ 0 then .trap (.alignment (faultPtr p o) 0 0)
      else if o < 0 || o ≥ 2 ^ 48 || o + n > v.limit then .trap (.bounds (faultPtr p o) 0 0)
      else match s.translate l t die v o.toNat w with
        | .ok h => .ok h
        | .page va peer pri => .page va w peer pri 0 0
        | .stall => .hold
        | .stop f => .stop f := by
  rw [State.checkScalar, checkSeg_rights _ _ _ hseg hwindow (.inl hpriv), no_right_missing hrights]
  rfl

theorem checkScalar_steps (s : State) (l : Launch) (t : TeamId) (die n : Nat) (p : W64) (o : Int) (rights : List Right) (w : Bool) :
    let r := s.checkScalar l t die p o n rights w
    (l.seg? (ptrSeg p) = none → r = .trap (.segment (faultPtr p o) 0 0)) ∧
    ∀ v, l.seg? (ptrSeg p) = some v →
      (v.space = .window ∨ v.space = .priv → r = .trap (.segment (faultPtr p o) 0 0)) ∧
      (v.space ≠ .window → v.space ≠ .priv →
        (∀ x, rights.find? (fun x => !v.rights.contains x) = some x → r = .trap (.permission x (faultPtr p o) 0 0)) ∧
        ((∀ x ∈ rights, v.rights.contains x = true) →
          (o % n ≠ 0 → r = .trap (.alignment (faultPtr p o) 0 0)) ∧
          (o % n = 0 → o < 0 ∨ 2 ^ 48 ≤ o ∨ v.limit < o + n → r = .trap (.bounds (faultPtr p o) 0 0)) ∧
          (o % n = 0 → 0 ≤ o → o < 2 ^ 48 → o + n ≤ v.limit →
            (∀ h, s.translate l t die v o.toNat w = .ok h → r = .ok h) ∧
            (∀ va peer pri, s.translate l t die v o.toNat w = .page va peer pri → r = .page va w peer pri 0 0) ∧
            (s.translate l t die v o.toNat w = .stall → r = .hold)))) := by
  intro r
  refine ⟨fun h => ?_, fun v hv => ⟨fun hspace => ?_, fun hwindow hpriv => ⟨fun x hx => ?_, fun hrights => ?_⟩⟩⟩
  · rw [show r = s.checkScalar l t die p o n rights w from rfl, State.checkScalar, checkSeg_absent _ _ _ _ _ h]
    rfl
  · rw [show r = s.checkScalar l t die p o n rights w from rfl, State.checkScalar, checkSeg_space _ _ _ _ hv (hspace.imp id fun hp => ⟨hp, rfl⟩)]
    rfl
  · rw [show r = s.checkScalar l t die p o n rights w from rfl, State.checkScalar, checkSeg_rights _ _ _ hv hwindow (.inl hpriv), hx]
    rfl
  · have hr : r = _ := checkScalar_passed hv hwindow hpriv hrights
    refine ⟨fun hskew => ?_, fun halign hout => ?_, fun halign h0 h48 hlim => ?_⟩
    · rw [hr, if_pos hskew]
    · rw [hr, if_neg (not_not_intro halign), if_pos]
      simp only [Bool.or_eq_true, decide_eq_true_eq]
      omega
    · have hin : ¬ (o < 0 || o ≥ 2 ^ 48 || o + n > v.limit) = true := by
        simp only [Bool.or_eq_true, decide_eq_true_eq]
        omega
      rw [if_neg (not_not_intro halign), if_neg hin] at hr
      refine ⟨fun h ht => ?_, fun va peer pri ht => ?_, fun ht => ?_⟩ <;> rw [hr, ht]

/-! Lane masks (13 R267). -/

theorem halfMask_testBit (f : Nat → Bool) (n i : Nat) :
    let m := (List.range n).foldl (fun a l => if f l then a + 2 ^ l else a) 0
    m < 2 ^ n ∧ m.testBit i = (decide (i < n) && f i) := by
  induction n generalizing i with
  | zero => simp
  | succ n ih =>
    intro m
    obtain ⟨hlt, -⟩ := ih 0
    have hm : m = if f n then (List.range n).foldl (fun a l => if f l then a + 2 ^ l else a) 0 + 2 ^ n
        else (List.range n).foldl (fun a l => if f l then a + 2 ^ l else a) 0 := by
      simp only [m, List.range_succ, List.foldl_append, List.foldl_cons, List.foldl_nil]
    generalize hk : (List.range n).foldl (fun a l => if f l then a + 2 ^ l else a) 0 = k at *
    refine ⟨?_, ?_⟩
    · rw [hm, Nat.pow_succ]
      split <;> omega
    · have hbit := (ih i).2
      rw [hm]
      by_cases hi : i = n
      · subst hi
        have hk0 : k.testBit i = false := Nat.testBit_lt_two_pow hlt
        cases hf : f i with
        | true => simp [Nat.add_comm k, Nat.testBit_two_pow_add_eq, hk0]
        | false => simp [hk0]
      · have hsame : (if f n then k + 2 ^ n else k).testBit i = k.testBit i := by
          split
          · rcases Nat.lt_or_gt_of_ne hi with hlt' | hgt
            · rw [Nat.add_comm, Nat.testBit_two_pow_add_gt hlt']
            · rw [Nat.testBit_lt_two_pow (x := k + 2 ^ n), Nat.testBit_lt_two_pow]
              · exact hlt.trans (Nat.pow_lt_pow_right (by decide) hgt)
              · calc k + 2 ^ n < 2 ^ n + 2 ^ n := by omega
                  _ = 2 ^ (n + 1) := by rw [Nat.pow_succ]; omega
                  _ ≤ 2 ^ i := Nat.pow_le_pow_right (by decide) hgt
          · rfl
        rw [hsame, hbit]
        congr 1
        simp only [decide_eq_decide]
        omega

theorem inMask_laneMask (f : Nat → Bool) {l : Nat} (hl : l < 128) : inMask (laneMask f).1 (laneMask f).2 l = f l := by
  have hlo := (halfMask_testBit (fun i => f (0 + i)) 64 l).2
  have hhi := (halfMask_testBit (fun i => f (64 + i)) 64 (l - 64)).2
  unfold inMask laneMask
  split
  · next h => rw [BitVec.getLsbD_ofNat, hlo]; simp [h]
  · next h =>
    have hl64 : l - 64 < 64 := by omega
    rw [BitVec.getLsbD_ofNat, hhi]
    simp only [hl64, decide_true, Bool.true_and]
    rw [Nat.add_sub_cancel' (by omega)]

/-- The mask that a vector check reports holds the lanes that fail it. -/
theorem masks_laneMask (os : List (Nat × Nat)) (f : Nat × Nat → Bool) {fails : Nat × Nat → Prop} (h : ∀ x ∈ os, f x = true ↔ fails x) :
    masks os (laneMask fun l => os.any fun x => decide (x.1 = l) && f x).1
      (laneMask fun l => os.any fun x => decide (x.1 = l) && f x).2 fails := by
  intro l hl
  rw [inMask_laneMask _ hl, List.any_eq_true]
  simp only [Bool.and_eq_true, decide_eq_true_eq]
  exact ⟨fun ⟨x, hx, hlane, hf⟩ => ⟨x, hx, hlane, (h x hx).mp hf⟩, fun ⟨x, hx, hlane, hf⟩ => ⟨x, hx, hlane, (h x hx).mpr hf⟩⟩


/-! The steps of a vector access: the earliest that fails in any active lane (03 R71, R72). -/

/-- The translation of a lane's offset, in the lane's own area of the .priv segment (03 R73). -/
def laneTr (c : Ctx) (v : SegView) (w : Bool) (x : Nat × Nat) : Tr :=
  c.s.translate c.launch c.id.team c.die v (if v.space = .priv then privOff c.launch c.id.group x.1 x.2 else x.2) w

/-- The page fault of a lane: its lane, its address, and where it goes. -/
def lanePage (c : Ctx) (v : SegView) (w : Bool) (x : Nat × Nat) : Option (Nat × Nat × Option (Nat × Nat) × Bool) :=
  match laneTr c v w x with
  | .page va peer pri => some (x.1, va, peer, pri)
  | _ => none

theorem lanePage_some {c : Ctx} {v : SegView} {w : Bool} {x : Nat × Nat} {y : Nat × Nat × Option (Nat × Nat) × Bool} :
    lanePage c v w x = some y ↔ y.1 = x.1 ∧ laneTr c v w x = .page y.2.1 y.2.2.1 y.2.2.2 := by
  obtain ⟨lane, va, peer, pri⟩ := y
  unfold lanePage
  split
  · next va' peer' pri' h =>
    rw [h]
    simp only [Option.some.injEq, Prod.mk.injEq, Tr.page.injEq]
    exact ⟨fun ⟨h1, h2⟩ => ⟨h1.symm, h2⟩, fun ⟨h1, h2⟩ => ⟨h1.symm, h2⟩⟩
  · next h => simp only [reduceCtorEq, false_iff, not_and]; exact fun _ hp => h _ _ _ hp

/-- The first page fault of the lowest address. -/
def lowestPage (y : Nat × Nat × Option (Nat × Nat) × Bool) (ys : List (Nat × Nat × Option (Nat × Nat) × Bool)) :
    Nat × Nat × Option (Nat × Nat) × Bool :=
  ys.foldl (fun a x => if x.2.1 < a.2.1 then x else a) y

theorem lowestPage_mem (y : Nat × Nat × Option (Nat × Nat) × Bool) (ys : List (Nat × Nat × Option (Nat × Nat) × Bool)) :
    lowestPage y ys ∈ y :: ys ∧ ∀ x ∈ y :: ys, (lowestPage y ys).2.1 ≤ x.2.1 := by
  induction ys generalizing y with
  | nil => exact ⟨List.mem_singleton_self y, fun x hx => by rw [List.mem_singleton.mp hx]; exact le_refl _⟩
  | cons z zs ih =>
    have hstep : lowestPage y (z :: zs) = lowestPage (if z.2.1 < y.2.1 then z else y) zs := rfl
    obtain ⟨hmem, hlow⟩ := ih (if z.2.1 < y.2.1 then z else y)
    have hfirst := hlow _ List.mem_cons_self
    obtain ⟨hy, hz⟩ : (if z.2.1 < y.2.1 then z else y).2.1 ≤ y.2.1 ∧ (if z.2.1 < y.2.1 then z else y).2.1 ≤ z.2.1 := by
      split <;> omega
    rw [hstep]
    refine ⟨?_, fun x hx => ?_⟩
    · rcases List.mem_cons.mp hmem with h | h
      · rw [h]
        split <;> simp
      · exact List.mem_cons_of_mem _ (List.mem_cons_of_mem _ h)
    · rcases List.mem_cons.mp hx with rfl | hx
      · exact hfirst.trans hy
      · rcases List.mem_cons.mp hx with rfl | hx
        · exact hfirst.trans hz
        · exact hlow x (List.mem_cons_of_mem _ hx)

/-- A list of lanes whose translations all give a place. -/
theorem translateLanes_ok {c : Ctx} {v : SegView} {w : Bool} : ∀ {os : List (Nat × Nat)} {hs : List (Nat × Hit)},
    hs.map (·.1) = os.map (·.1) → (∀ x y, (x, y) ∈ os.zip hs → laneTr c v w x = .ok y.2) →
    os.map (fun x => (x.1, laneTr c v w x)) = hs.map fun y => (y.1, Tr.ok y.2)
  | [], [], _, _ => rfl
  | [], _ :: _, h, _ => by cases h
  | _ :: _, [], h, _ => by cases h
  | x :: os, y :: hs, h, ht => by
    obtain ⟨(hlane : y.1 = x.1), hrest⟩ := List.cons.inj h
    rw [List.map_cons, List.map_cons, ht x y (by simp), hlane,
      translateLanes_ok hrest fun x' y' hm => ht x' y' (by simp [hm])]

theorem translateLanes_all_ok {c : Ctx} {v : SegView} {w : Bool} {os : List (Nat × Nat)} {hs : List (Nat × Hit)}
    (hlanes : hs.map (·.1) = os.map (·.1)) (ht : ∀ x y, (x, y) ∈ os.zip hs → laneTr c v w x = .ok y.2) :
    c.s.translateLanes c.launch c.id c.die v w os = .ok hs := by
  have htrs : os.map (fun x => (x.1, c.s.translate c.launch c.id.team c.die v
      (if v.space = .priv then privOff c.launch c.id.group x.1 x.2 else x.2) w)) = hs.map fun y => (y.1, Tr.ok y.2) :=
    translateLanes_ok hlanes ht
  rw [State.translateLanes]
  simp only [htrs, List.filterMap_map, List.findSome?_map, List.any_map, Function.comp_def, List.filterMap_none]
  have hgo : hs.findSome? (fun _ => (none : Option Fault)) = none := List.findSome?_eq_none_iff.mpr fun _ _ => rfl
  simp [hgo]

theorem translateLanes_page {c : Ctx} {v : SegView} {w : Bool} {os : List (Nat × Nat)}
    {y : Nat × Nat × Option (Nat × Nat) × Bool} {ys : List (Nat × Nat × Option (Nat × Nat) × Bool)}
    (h : os.filterMap (lanePage c v w) = y :: ys) : c.s.translateLanes c.launch c.id c.die v w os =
      .page (lowestPage y ys).2.1 w (lowestPage y ys).2.2.1 (lowestPage y ys).2.2.2
        (laneMask fun n => (y :: ys).any fun x => decide (x.1 = n)).1 (laneMask fun n => (y :: ys).any fun x => decide (x.1 = n)).2 := by
  unfold State.translateLanes
  extract_lets trs pages m
  have hpages : pages = y :: ys := by
    rw [← h]
    exact List.filterMap_map
  have hm : m = laneMask fun n => (y :: ys).any fun x => decide (x.1 = n) := by rw [← hpages]
  rw [hpages, hm]
  rfl

/-- Where some lane has no page, the access reports the lowest address among them, and masks those lanes. -/
theorem translateLanes_page_lowest {c : Ctx} {v : SegView} {w : Bool} {os : List (Nat × Nat)}
    (h : ∃ x ∈ os, ∃ va peer pri, laneTr c v w x = .page va peer pri) :
    ∃ va peer pri lo hi, c.s.translateLanes c.launch c.id c.die v w os = .page va w peer pri lo hi ∧
      (∃ x ∈ os, laneTr c v w x = .page va peer pri) ∧
      (∀ x ∈ os, ∀ va' peer' pri', laneTr c v w x = .page va' peer' pri' → va ≤ va') ∧
      masks os lo hi fun y => ∃ va' peer' pri', laneTr c v w y = .page va' peer' pri' := by
  obtain ⟨x, hx, va, peer, pri, hpage⟩ := h
  have hmem : ∀ y, y ∈ os.filterMap (lanePage c v w) ↔ ∃ x ∈ os, y.1 = x.1 ∧ laneTr c v w x = .page y.2.1 y.2.2.1 y.2.2.2 := fun y => by
    rw [List.mem_filterMap]
    exact exists_congr fun x => and_congr_right fun _ => lanePage_some
  have hthere : (x.1, va, peer, pri) ∈ os.filterMap (lanePage c v w) := (hmem _).mpr ⟨x, hx, rfl, hpage⟩
  cases hp : os.filterMap (lanePage c v w) with
  | nil => rw [hp] at hthere; exact absurd hthere List.not_mem_nil
  | cons y ys =>
    rw [hp] at hmem
    obtain ⟨hlow, hleast⟩ := lowestPage_mem y ys
    obtain ⟨z, hz, -, hzpage⟩ := (hmem _).mp hlow
    refine ⟨_, _, _, _, _, translateLanes_page hp, ⟨z, hz, hzpage⟩, fun u hu va' peer' pri' hpage' => ?_, fun l hl => ?_⟩
    · exact hleast (u.1, va', peer', pri') ((hmem _).mpr ⟨u, hu, rfl, hpage'⟩)
    · rw [inMask_laneMask _ hl, List.any_eq_true]
      simp only [decide_eq_true_eq]
      constructor
      · rintro ⟨q, hq, hlane⟩
        obtain ⟨u, hu, hqu, hqpage⟩ := (hmem q).mp hq
        exact ⟨u, hu, hqu.symm.trans hlane, _, _, _, hqpage⟩
      · rintro ⟨u, hu, hlane, va', peer', pri', hpage'⟩
        exact ⟨(u.1, va', peer', pri'), (hmem _).mpr ⟨u, hu, rfl, hpage'⟩, hlane⟩

/-- Steps 3 to 5 of a vector access, once its segment and its rights pass. -/
theorem checkLanes_passed {c : Ctx} {p : W64} {n : Nat} {rights : List Right} {w : Bool} {os : List (Nat × Nat)} {v : SegView}
    (hseg : c.launch.seg? (ptrSeg p) = some v) (hwindow : v.space ≠ .window) (hrights : ∀ x ∈ rights, v.rights.contains x = true) :
    c.checkLanes p n rights w true os =
      let mask (f : Nat × Nat → Bool) : W64 × W64 := laneMask fun l => os.any fun x => decide (x.1 = l) && f x
      let skew (x : Nat × Nat) : Bool := decide (x.2 % n ≠ 0)
      let out (x : Nat × Nat) : Bool := decide (x.2 + n > v.limit)
      match os.find? skew with
      | some x => .trap (.alignment (faultPtr p x.2) (mask skew).1 (mask skew).2)
      | none => match os.find? out with
        | some x => .trap (.bounds (faultPtr p x.2) (mask out).1 (mask out).2)
        | none => c.s.translateLanes c.launch c.id c.die v w os := by
  rw [Ctx.checkLanes, checkSeg_rights _ _ _ hseg hwindow (.inr rfl), no_right_missing hrights]
  rfl


theorem checkLanes_steps (c : Ctx) (p : W64) (n : Nat) (rights : List Right) (w : Bool) (os : List (Nat × Nat)) (first : Nat × Nat)
    (hfirst : os.head? = some first) :
    let r := c.checkLanes p n rights w true os
    let traps (f : W64 → W64 → TrapInfo) (fails : Nat × Nat → Prop) : Prop := ∃ lo hi, r = .trap (f lo hi) ∧ masks os lo hi fails
    (c.launch.seg? (ptrSeg p) = none → traps (.segment (faultPtr p first.2)) fun _ => True) ∧
    ∀ v, c.launch.seg? (ptrSeg p) = some v →
      (v.space = .window → traps (.segment (faultPtr p first.2)) fun _ => True) ∧
      (v.space ≠ .window →
        (∀ x, rights.find? (fun x => !v.rights.contains x) = some x → traps (.permission x (faultPtr p first.2)) fun _ => True) ∧
        ((∀ x ∈ rights, v.rights.contains x = true) →
          (∀ x, os.find? (fun x => decide (x.2 % n ≠ 0)) = some x →
            traps (.alignment (faultPtr p x.2)) fun y => y.2 % n ≠ 0) ∧
          ((∀ x ∈ os, x.2 % n = 0) →
            (∀ x, os.find? (fun x => decide (v.limit < x.2 + n)) = some x →
              traps (.bounds (faultPtr p x.2)) fun y => v.limit < y.2 + n) ∧
            ((∀ x ∈ os, x.2 + n ≤ v.limit) → r = c.s.translateLanes c.launch c.id c.die v w os)))) := by
  intro r traps
  have hall : masks os (laneMask fun l => os.any fun x => decide (x.1 = l) && true).1
      (laneMask fun l => os.any fun x => decide (x.1 = l) && true).2 fun _ => True :=
    masks_laneMask os (fun _ => true) fun _ _ => iff_of_true rfl trivial
  have hr : r = c.checkLanes p n rights w true os := rfl
  refine ⟨fun h => ⟨_, _, ?_, hall⟩, fun v hv => ⟨fun hspace => ⟨_, _, ?_, hall⟩, fun hwindow => ⟨fun x hx => ⟨_, _, ?_, hall⟩, fun hrights => ?_⟩⟩⟩
  · simp only [hr, Ctx.checkLanes, hfirst, checkSeg_absent _ _ _ _ _ h, Chk.andThen, Option.map_some, Option.getD_some]
  · simp only [hr, Ctx.checkLanes, hfirst, checkSeg_space _ _ _ _ hv (.inl hspace), Chk.andThen, Option.map_some, Option.getD_some]
  · simp only [hr, Ctx.checkLanes, hfirst, checkSeg_rights _ _ _ hv hwindow (.inr rfl), hx, Chk.andThen, Option.map_some,
      Option.getD_some]
  · rw [checkLanes_passed hv hwindow hrights] at hr
    dsimp only at hr
    refine ⟨fun x hx => ?_, fun halign => ?_⟩
    · rw [hx] at hr
      exact ⟨_, _, hr, masks_laneMask os (fun x => decide (x.2 % n ≠ 0)) fun _ _ => decide_eq_true_iff⟩
    · have hskew : os.find? (fun x => decide (x.2 % n ≠ 0)) = none := List.find?_eq_none.mpr fun x hx => by simp [halign x hx]
      rw [hskew] at hr
      refine ⟨fun x hx => ?_, fun hlimit => ?_⟩
      · rw [show os.find? (fun x => decide (x.2 + n > v.limit)) = some x from hx] at hr
        exact ⟨_, _, hr, masks_laneMask os (fun x => decide (x.2 + n > v.limit)) fun _ _ => decide_eq_true_iff⟩
      · have hout : os.find? (fun x => decide (x.2 + n > v.limit)) = none := List.find?_eq_none.mpr fun x hx => by simp [hlimit x hx]
        rw [hout] at hr
        exact hr

/-! A page fault of a scalar load or store (03 R80; 06 R134). -/

theorem met_loadFields {c : Ctx} {d : BitVec 8} {p : BitVec 5} {sc : BitVec 3} {o : BitVec 2} {b : BitVec 6} (hd : dstS c d = true)
    (hp : ptrFull c p = true) (hb : shortS c b = true) (hcodes : loadCodes sc o = true) :
    ∀ x ∈ [Need.dstS 0 d, .ptr p, .field 6 (scLegal sc o), .field 7 (ordLoad o), .b6S b], x.met c = true := by
  simp only [List.forall_mem_cons, List.not_mem_nil, IsEmpty.forall_iff, implies_true, and_true]
  exact ⟨met_dstS hd 0, met_ptr hp, met_field (scLegal_of_load hcodes) 6, met_field (ordLoad_of_codes hcodes) 7, met_b6S hb⟩

/-- A scalar load whose fields are met comes to its checks. -/
theorem loadS_checks {s : State} {c : Ctx} {i : Instr} (n : Nat) {d : BitVec 8} {p : BitVec 5} {sc : BitVec 3} {o : BitVec 2}
    {b : BitVec 6} (hi : Issuing s c) (ht : trapLegal (wordOf i) = true) (hd : dstS c d = true) (hp : ptrFull c p = true)
    (hb : shortS c b = true) (hcodes : loadCodes sc o = true) (hacc : mayAccess s c) : loadS i n d p sc o b s =
      c.checkLoad i (fun g => g.emptyS d)
        (s.checkScalar c.launch c.id.team c.die (c.readPtr p) (ptrOff (c.readPtr p) + (c.readB6S b).toInt) n [.pr] false) fun h =>
        if s.loadHeld c.id (spans h.loc n) then .next s
        else .next (((c.sample [h] (acqWide sc o (c.launch.spaceOf (c.readPtr p))) (spans h.loc n)).setGroup c.id
            (c.group.pendS d s.nextId).advance).addFlight
          ⟨s.nextId, c.id, .load, .scalar (BitVec.ofNat 64 ((c.sample [h] (acqWide sc o (c.launch.spaceOf (c.readPtr p)))
            (spans h.loc n)).servedLoc c.core h.loc n)), [], spans h.loc n⟩) := by
  rw [loadS, issue_go _ _ _ _ c hi.1 hi.2 (fun _ => ht) (List.forall_mem_append.mpr
    ⟨met_loadFields hd hp hb hcodes, met_ordNeeds hi.state (ordered_load hcodes hacc)⟩)]
  simp only [Ctx.offS, bytesOf_spans, hi.state]

/-- While an earlier acquire of the group is to be performed a load waits (04 R95). -/
theorem loadS_waits {s : State} {c : Ctx} {i : Instr} (n : Nat) {d : BitVec 8} {p : BitVec 5} {sc : BitVec 3} {o : BitVec 2}
    {b : BitVec 6} (hi : Issuing s c) (ht : trapLegal (wordOf i) = true) (hd : dstS c d = true) (hp : ptrFull c p = true)
    (hb : shortS c b = true) (hcodes : loadCodes sc o = true) (hacc : ¬ mayAccess s c) : Waits s c (loadS i n d p sc o b s) .waits := by
  rw [loadS, ordNeeds_load hcodes]
  exact issue_access_waits _ hi ht (met_loadFields hd hp hb hcodes) hacc

/-- A scalar store whose fields are met comes to its checks. -/
theorem storeS_checks {s : State} {c : Ctx} {i : Instr} (n : Nat) {d : BitVec 8} {p : BitVec 5} {sc : BitVec 3} {o : BitVec 2}
    {b : BitVec 6} (hi : Issuing s c) (ht : trapLegal (wordOf i) = true) (hd : srcS c d = true) (hp : ptrFull c p = true)
    (hb : shortS c b = true) (hcodes : storeCodes sc o = true) (hord : ordered s c o) : storeS i n d p sc o b s =
      c.check i (c.peerLost (c.readPtr p)
        (s.checkScalar c.launch c.id.team c.die (c.readPtr p) (ptrOff (c.readPtr p) + (c.readB6S b).toInt) n [.pw] true)) fun h =>
        c.storeAll i [(h, storeCellsOf h.loc n (c.readS d).toNat)] (isWide sc o (c.launch.spaceOf (c.readPtr p))) c.group.advance := by
  have hm : ∀ x ∈ [Need.srcS 0 .epd d, .ptr p, .field 6 (scLegal sc o), .field 7 (ordStore o), .b6S b] ++ ordNeeds o,
      x.met c = true := by
    rw [List.forall_mem_append]
    simp only [List.forall_mem_cons, List.not_mem_nil, IsEmpty.forall_iff, implies_true, and_true]
    exact ⟨⟨met_srcS hd 0 .epd, met_ptr hp, met_field (scLegal_of_store hcodes) 6, met_field (ordStore_of_codes hcodes) 7, met_b6S hb⟩,
      met_ordNeeds hi.state hord⟩
  rw [storeS, issue_go _ _ _ _ c hi.1 hi.2 (fun _ => ht) hm]
  simp only [Ctx.offS, hi.state]

/-- Only a check that would wait looks at the LOST bit of C0 (05 R123). -/
theorem peerLost_of_ne_hold {α : Type} (c : Ctx) (p : W64) {x : Chk α} (h : x ≠ .hold) : c.peerLost p x = x := by
  unfold Ctx.peerLost Ctx.lostHold
  split
  · cases x with
    | hold => exact absurd rfl h
    | _ => rfl
  · rfl

theorem not_acquire_of_store {sc : BitVec 3} {o : BitVec 2} (h : storeCodes sc o = true) : o ≠ 3 := by
  revert h; revert sc o; decide

theorem ordered_store {s : State} {c : Ctx} {sc : BitVec 3} {o : BitVec 2} (h : storeCodes sc o = true) (ha : mayAccess s c)
    (hr : o = 2 → mayRelease s c 0xFF) : ordered s c o :=
  ⟨ha, fun ho => hr (ho.resolve_right (not_acquire_of_store h))⟩

/-! Entering a page fault into the fault queue (23 R345). -/

theorem mapFn_eq_set {s : State} {fn : Nat} {f : Fn} (h : s.fns[fn]? = some f) (g : Fn → Fn) :
    s.mapFn fn g = { s with fns := s.fns.set fn (g f) } := by
  unfold State.mapFn
  congr 1
  rw [List.modify_eq_set_getElem?, h]
  rfl

theorem enterFault_waits {s : State} {fn : Nat} {p : PageFault} {f : Fn} (h : s.fns[fn]? = some f)
    (hw : p.pri = true ∨ 2 ^ (f.fqctl.toNat % 32) ≤ (f.fqhead - f.fqtail).toNat) :
    s.enterFault fn p = { s with fns := s.fns.set fn { f with faults := f.faults ++ [{ p with seqno := none }] } } := by
  have hf : s.fns.getD fn Fn.reset = f := by rw [List.getD_eq_getElem?_getD, h]; rfl
  unfold State.enterFault
  rw [hf]
  refine (if_pos ?_).trans (mapFn_eq_set h _)
  simp only [Fn.faultRoom, Bool.or_eq_true, Bool.not_eq_true', decide_eq_false_iff_not, Nat.not_lt]
  exact hw

theorem enterFault_room {s : State} {fn : Nat} {p : PageFault} {f : Fn} (h : s.fns[fn]? = some f) (hpri : p.pri = false)
    (hroom : (f.fqhead - f.fqtail).toNat < 2 ^ (f.fqctl.toNat % 32)) :
    s.enterFault fn p = { s.hostWriteBytes (linkOfFn fn) (f.fqbase.toNat + 32 * (f.fseq % 2 ^ (f.fqctl.toNat % 32)))
        (faultEntryBytes f.fseq p) with
      fns := s.fns.set fn { f with
        fseq := f.fseq + 1
        fqhead := BitVec.ofNat 32 (f.fseq + 1)
        faults := f.faults ++ [{ p with seqno := some f.fseq }] } } := by
  have hf : s.fns.getD fn Fn.reset = f := by rw [List.getD_eq_getElem?_getD, h]; rfl
  unfold State.enterFault
  rw [hf]
  refine (if_neg ?_).trans ?_
  · simp only [Fn.faultRoom, hpri, hroom, decide_true, Bool.not_true, Bool.or_self, Bool.false_eq_true, not_false_eq_true]
  · have hframe := hostWriteBytes_frame s (linkOfFn fn) (f.fqbase.toNat + 32 * (f.fseq % 2 ^ (f.fqctl.toNat % 32)))
      (faultEntryBytes f.fseq p)
    have hfns : (s.hostWriteBytes (linkOfFn fn) (f.fqbase.toNat + 32 * (f.fseq % 2 ^ (f.fqctl.toNat % 32)))
        (faultEntryBytes f.fseq p)).fns = s.fns := by rw [hframe]
    exact (mapFn_eq_set (by rw [hfns]; exact h) _).trans (by rw [hfns])

end Sys2Proof.Claims

open Sys2Proof Sys2Proof.Machine Sys2Proof.Claims

/-- Settles O18: steps 3 to 5 are tried once the segment and the rights pass, over the lanes of a vector access as over one offset,
and a fault that the queue has no room for waits outside it. -/
theorem accessChecksInOrder : Obligations.AccessChecksInOrder := by
  refine ⟨checkScalar_steps, fun c p n rights w os first hfirst => ?_,
    fun s c d p sc o b va peer pri hi hp hb hacc => ⟨fun hd hcodes x hx hpage => ?_, fun hd hcodes hrel x hx hpage => ?_⟩,
    fun s fn p f hf => ⟨enterFault_waits hf, enterFault_room hf⟩⟩
  · obtain ⟨habsent, hsteps⟩ := checkLanes_steps c p n rights w os first hfirst
    refine ⟨habsent, fun v hv => ?_⟩
    obtain ⟨hspace, hpassed⟩ := hsteps v hv
    refine ⟨hspace, fun hwindow => ?_⟩
    obtain ⟨hmissing, hlater⟩ := hpassed hwindow
    refine ⟨hmissing, fun hrights => ?_⟩
    obtain ⟨hskew, haligned⟩ := hlater hrights
    refine ⟨hskew, fun halign => ?_⟩
    obtain ⟨hout, hin⟩ := haligned halign
    refine ⟨hout, fun hlimit => ⟨fun hs hlanes ht => ?_, fun hpage => ?_⟩⟩
    · exact (hin hlimit).trans (translateLanes_all_ok hlanes ht)
    · obtain ⟨va, peer, pri, lo, hi, hlow, hrest⟩ := translateLanes_page_lowest hpage
      exact ⟨va, peer, pri, lo, hi, (hin hlimit).trans hlow, hrest⟩
  · have hload : ∀ (i : Instr) (n : Nat), trapLegal (wordOf i) = true →
        s.checkScalar c.launch c.id.team c.die (c.readPtr p) (ptrOff (c.readPtr p) + (c.readB6S b).toInt) n [.pr] false =
          .page va false peer pri 0 0 →
        loadS i n d p sc o b s = .next (pageStops s c (fun g => g.emptyS d) va false peer pri) := fun i n ht h => by
      rw [loadS_checks n hi ht hd hp hb hcodes hacc, h, Ctx.checkLoad, hi.state]
      rfl
    simp only [List.mem_cons, List.not_mem_nil, or_false] at hx
    rcases hx with rfl | rfl | rfl | rfl
    · exact hload _ 1 (trapLegal_formatA 0x20 d p sc o b (by decide) rfl) hpage
    · exact hload _ 2 (trapLegal_formatA 0x21 d p sc o b (by decide) rfl) hpage
    · exact hload _ 4 (trapLegal_formatA 0x22 d p sc o b (by decide) rfl) hpage
    · exact hload _ 8 (trapLegal_formatA 0x23 d p sc o b (by decide) rfl) hpage
  · have hstore : ∀ (i : Instr) (n : Nat), trapLegal (wordOf i) = true →
        s.checkScalar c.launch c.id.team c.die (c.readPtr p) (ptrOff (c.readPtr p) + (c.readB6S b).toInt) n [.pw] true =
          .page va true peer pri 0 0 →
        storeS i n d p sc o b s = .next ((s.mapGroup c.id fun g => { g with run := .pageWait }).enterFault c.launch.fn
          ⟨none, pri, va, true, peer, c.launch.lid, BitVec.ofNat 32 c.id.team.index, .group c.id, 0, 0⟩) := fun i n ht h => by
      rw [storeS_checks n hi ht hd hp hb hcodes (ordered_store hcodes hacc hrel), h, peerLost_of_ne_hold c _ (by simp), Ctx.check, hi.state]
      rfl
    simp only [List.mem_cons, List.not_mem_nil, or_false] at hx
    rcases hx with rfl | rfl | rfl | rfl
    · exact hstore _ 1 (trapLegal_formatA 0x24 d p sc o b (by decide) rfl) hpage
    · exact hstore _ 2 (trapLegal_formatA 0x25 d p sc o b (by decide) rfl) hpage
    · exact hstore _ 4 (trapLegal_formatA 0x26 d p sc o b (by decide) rfl) hpage
    · exact hstore _ 8 (trapLegal_formatA 0x27 d p sc o b (by decide) rfl) hpage
end

section
/-! What a store of bytes leaves and what a load of bytes is served (spec 03 R65, R66, R82; 04 R96; 07 R150). -/

namespace Sys2Proof.Claims
open Sys2Proof.Machine

/-! Cells. -/

theorem plus_spans (l : Loc) (n : Nat) : (List.range n).map l.plus = spans l n := bytesOf_spans l n

theorem leBytes_getElem (n : Nat) : ∀ (v i : Nat) (h : i < (leBytes n v).length), (leBytes n v)[i] = byteOfNum v i := by
  induction n with
  | zero => intro v i h; exact absurd h (Nat.not_lt_zero i)
  | succ n ih =>
    intro v i h
    cases i with
    | zero => simp [leBytes, byteOfNum]
    | succ i =>
      simp only [leBytes, List.getElem_cons_succ, ih, byteOfNum]
      rw [Nat.div_div_eq_div_mul, Nat.pow_succ']

/-- The cells of a store, by name. -/
theorem storeCellsOf_eq (l : Loc) (n v : Nat) : storeCellsOf l n v = cellsAt l n v := by
  unfold storeCellsOf cellsAt
  rw [← plus_spans]
  refine List.ext_getElem (by simp [leBytes_length]) fun i h1 h2 => ?_
  simp [leBytes_getElem]

theorem cellsAt_places (l : Loc) (n v : Nat) : (cellsAt l n v).map (·.1) = spans l n := by
  unfold cellsAt
  rw [List.map_map]
  exact List.zipIdx_map_fst 0 _

/-! Storing changes memories and teams, and no other byte. -/

theorem writeLoc_frame (s : State) (l : Loc) (v : Byte) : s.writeLoc l v = { s with
    mem := (s.writeLoc l v).mem, hostMem := (s.writeLoc l v).hostMem, peers := (s.writeLoc l v).peers
    teams := (s.writeLoc l v).teams } := by
  cases l with
  | host f a => simp only [State.writeLoc]; rw [hostWrite_frame]
  | _ => rfl

theorem storeCells_frame (cs : List (Loc × Byte)) : ∀ s : State, s.storeCells cs = { s with
    mem := (s.storeCells cs).mem, hostMem := (s.storeCells cs).hostMem, peers := (s.storeCells cs).peers
    teams := (s.storeCells cs).teams } := by
  induction cs with
  | nil => intro s; rfl
  | cons x cs ih =>
    intro s
    have hstep : s.storeCells (x :: cs) = (s.writeLoc x.1 x.2).storeCells cs := rfl
    rw [hstep, ih, writeLoc_frame s x.1 x.2]

theorem readLoc_storeCells_other {loc : Loc} (cs : List (Loc × Byte)) : ∀ {s : State}, StoresWf s →
    (∀ x ∈ cs, byteKey x.1 ≠ byteKey loc) → (s.storeCells cs).readLoc loc = s.readLoc loc := by
  induction cs with
  | nil => intro s _ _; rfl
  | cons x cs ih =>
    intro s hs hne
    rw [List.forall_mem_cons] at hne
    exact (ih (hs.writeLoc x.1 x.2) hne.2).trans (readLoc_writeLoc_other hs hne.1 x.2)

/-- A place that is no byte of a register window. -/
def outsideRegisters (l : Loc) : Prop := ∀ t g o, l ≠ .regWin t g o

theorem group?_writeLoc (s : State) {l : Loc} (h : outsideRegisters l) (v : Byte) (id : GroupId) :
    (s.writeLoc l v).group? id = s.group? id := by
  have hteam : ∀ (t : TeamId) (f : Team → Team), (∀ x, (f x).id = x.id) → (∀ x, (f x).groups = x.groups) →
      (s.mapTeam t f).group? id = s.group? id := fun t f hid hgroups => by
    unfold State.group?
    by_cases ht : id.team = t
    · rw [ht, team?_mapTeam_map s t f hid]
      cases s.team? t with
      | none => rfl
      | some x => simp [hgroups]
    · rw [State.team?_mapTeam_other s t id.team f hid ht]
  cases l with
  | phys a => rfl
  | peer m a => rfl
  | fused k o => rfl
  | host f a => exact group?_congr (by rw [State.writeLoc, hostWrite_frame]) id
  | spad t o => exact hteam t _ (fun _ => rfl) fun _ => rfl
  | priv t o => exact hteam t _ (fun _ => rfl) fun _ => rfl
  | tileWin t k o => exact hteam t _ (fun _ => rfl) fun _ => rfl
  | regWin t g o => exact absurd rfl (h t g o)

theorem group?_storeCells (cs : List (Loc × Byte)) : ∀ (s : State), (∀ x ∈ cs, outsideRegisters x.1) → ∀ id,
    (s.storeCells cs).group? id = s.group? id := by
  induction cs with
  | nil => intro s _ id; rfl
  | cons x cs ih =>
    intro s h id
    rw [List.forall_mem_cons] at h
    exact (ih _ h.2 id).trans (group?_writeLoc s h.1 x.2 id)

theorem readLoc_markHits {loc : Loc} {w : Bool} (hs : List Hit) : ∀ {s : State}, StoresWf s → (∀ h ∈ hs, ¬ inEntry h loc) →
    (s.markHits hs w).readLoc loc = s.readLoc loc := by
  induction hs with
  | nil => intro s _ _; rfl
  | cons h hs ih =>
    intro s hwf hne
    rw [List.forall_mem_cons] at hne
    exact (ih (hwf.markHits [h] w) hne.2).trans (readLoc_markHit hwf h w loc hne.1)

/-- Every byte reads as before when a group is replaced by one with its registers. -/
theorem readLoc_setGroup_keeps {s : State} {id : GroupId} {g g' : Group} (hg : s.group? id = some g) (hv : g'.vregs = g.vregs)
    (loc : Loc) : (s.setGroup id g').readLoc loc = s.readLoc loc := by
  obtain ⟨t, ht, -⟩ := Option.bind_eq_some_iff.mp hg
  exact readLoc_setGroup_sameRegs ht hg hv loc

theorem advance_vregs (g : Group) : g.advance.vregs = g.vregs := by rw [advance_goneOn]; rfl

/-- What a store leaves of memory, whatever the cores hold: the bytes it stored, and the table entries it marked. -/
theorem stored_memorySame {s : State} {c : Ctx} (hi : Issuing s c) (hs : List Hit) (cells : List (Loc × Byte))
    (hout : ∀ x ∈ cells, outsideRegisters x.1) {g' : Group} (hv : g'.vregs = c.group.vregs) (cores : List Core) :
    MemorySame s { ((s.markHits hs true).storeCells cells).setGroup c.id g' with cores := cores } (cells.map (·.1)) hs := by
  intro hwf loc hstored hentry
  have hmarked : StoresWf (s.markHits hs true) := StoresWf.markHits hwf hs true
  have hgroup : ((s.markHits hs true).storeCells cells).group? c.id = some c.group := by
    rw [group?_storeCells cells _ hout, group?_congr (markHits_teams s hs true)]
    exact (s.ctx?_spec c.id c hi.2).2.2.2.2.1
  calc _ = (((s.markHits hs true).storeCells cells).setGroup c.id g').readLoc loc := readLoc_congr rfl rfl rfl rfl rfl loc
    _ = ((s.markHits hs true).storeCells cells).readLoc loc := readLoc_setGroup_keeps hgroup hv loc
    _ = (s.markHits hs true).readLoc loc :=
        readLoc_storeCells_other cells hmarked fun x hx => hstored x.1 (List.mem_map_of_mem hx)
    _ = s.readLoc loc := readLoc_markHits hs hwf hentry

/-! The lines of the L1. -/

theorem byteAt_refreshLine (s : State) {locs : List Loc} {n : L1Line} {loc : Loc} (hlen : n.bytes.length = 128)
    (hline : loc.line = some n.start) :
    (s.refreshLine locs n).byteAt loc = if loc ∈ locs then s.readLoc loc else n.byteAt loc := by
  have hbyte : ∀ a : Nat, n.start.plus (a % 128) = loc → (s.refreshLine locs n).bytes.getD (a % 128) 0 =
      if loc ∈ locs then s.readLoc loc else n.bytes.getD (a % 128) 0 := fun a ha => by
    have hin : a % 128 < n.bytes.length := by rw [hlen]; exact Nat.mod_lt _ (by decide)
    simp [State.refreshLine, List.getD_eq_getElem?_getD, List.getElem?_zipIdx, List.getElem?_eq_getElem hin, ha]
  cases loc with
  | phys a => exact hbyte a (by rw [← Option.some.inj hline]; simp only [Loc.plus, Nat.div_add_mod'])
  | host f a => exact hbyte a (by rw [← Option.some.inj hline]; simp only [Loc.plus, Nat.div_add_mod'])
  | peer m a => exact hbyte a (by rw [← Option.some.inj hline]; simp only [Loc.plus, Nat.div_add_mod'])
  | spad | priv | regWin | tileWin | fused => cases hline

/-- The cached bytes lie in no team. -/
theorem readLoc_setGroup_cached (s : State) (id : GroupId) (g : Group) {loc start : Loc} (h : loc.line = some start) :
    (s.setGroup id g).readLoc loc = s.readLoc loc := by
  cases loc with
  | phys | host | peer => rfl
  | spad | priv | regWin | tileWin | fused => cases h

/-- The cores after a store: the issuing core's lines are updated. -/
theorem stored_cores {s s2 : State} {k : Nat} (h2 : s2.cores = s.cores) (locs : List Loc) (id : GroupId) (g : Group) :
    CoresSame s ((s2.refresh k locs).setGroup id g) k ∧ LinesUpdated s ((s2.refresh k locs).setGroup id g) k locs := by
  have hcores : ((s2.refresh k locs).setGroup id g).cores = (s2.refresh k locs).cores := rfl
  refine ⟨coresSame_trans (coresSame_of_eq k h2) (coresSame_trans (coresSame_mapCore s2 k _ fun _ => rfl) (coresSame_of_eq k hcores)), ?_⟩
  intro x y hx hy
  rw [hcores, State.refresh, cores_mapCore, h2, hx] at hy
  obtain rfl := Option.some.inj hy
  refine ⟨List.length_map .., fun i n hn hlen => ⟨s2.refreshLine locs n, ?_, rfl, fun loc hline => ?_⟩⟩
  · rw [List.getElem?_map, hn]
    rfl
  · have hread : ((s2.refresh k locs).setGroup id g).readLoc loc = s2.readLoc loc :=
      (readLoc_setGroup_cached _ id g hline).trans (readLoc_congr rfl rfl rfl rfl rfl loc)
    rw [hread]
    exact byteAt_refreshLine s2 hlen hline

/-- A store of nothing updates no line. -/
theorem refresh_nil (s : State) (k : Nat) : s.refresh k [] = s := by
  have hline : ∀ n : L1Line, s.refreshLine [] n = n := fun n => by
    simp only [State.refreshLine, List.contains_nil, Bool.false_eq_true, if_false]
    exact congrArg (L1Line.mk n.start) (List.zipIdx_map_fst 0 n.bytes)
  have hcore : (fun c : Core => { c with l1 := c.l1.map (s.refreshLine []) }) = id := by
    funext c
    rw [show s.refreshLine [] = id from funext hline, List.map_id]
    rfl
  rw [State.refresh, State.mapCore, hcore, List.modify_id]

/-! A release that has nothing to wait for, and a store on C0 (04 R96; 05 R120). -/

theorem lowestLost_zero {t : Team} (h : t.lost = 0) : t.lowestLost = none := by
  rw [Team.lowestLost, h]
  decide

theorem release_done {s : State} {c : Ctx} (hs : c.s = s) (hheld : c.group.heldHere = none) {wide : Bool}
    (hwide : wide = true → c.team.lost = 0 ∧ s.unackedOf c.id.team = []) (i : Instr) (ch : Option Nat) (k : Unit → Res) :
    c.release i wide ch k = k () := by
  unfold Ctx.release
  split
  · next h =>
    obtain ⟨hlost, hacked⟩ := hwide h
    have hany : c.lostAny = .ok () := by rw [Ctx.lostAny, lowestLost_zero hlost]
    have hdrain : c.draining? = none := by rw [Ctx.draining?, hheld]
    rw [Ctx.wideRelease, hany]
    simp only [Ctx.check, hdrain, hs, hacked, List.isEmpty_nil, if_true]
  · rfl

theorem ownHeld_nil (s : State) (g : GroupId) : s.ownHeld g [] = false := by
  rw [State.ownHeld, List.any_eq_false]
  intro p _
  cases p.op <;> simp

/-- A store whose places are all here takes effect at issue. -/
theorem storeAll_here {s : State} {c : Ctx} (hs : c.s = s) (hheld : c.group.heldHere = none) {wide : Bool}
    (hwide : wide = true → c.team.lost = 0 ∧ s.unackedOf c.id.team = []) (i : Instr) {hits : List (Hit × List (Loc × Byte))}
    (hhere : ∀ h ∈ hits, h.1.dest = none) (g : Group) (hown : s.ownHeld c.id ((hits.flatMap (·.2)).map (·.1)) = false) :
    c.storeAll i hits wide g = .next ((((s.markHits (hits.map (·.1)) true).storeCells (hits.flatMap (·.2))).refresh c.core
      ((hits.flatMap (·.2)).map (·.1))).setGroup c.id g) := by
  have hremote : hits.filterMap (fun h => h.1.dest.map fun d => (⟨d, false, .store h.2⟩ : Outgoing)) = [] :=
    List.filterMap_eq_nil_iff.mpr fun h hh => by rw [hhere h hh]; rfl
  have hfilter : hits.filter (fun h => h.1.dest.isNone) = hits := List.filter_eq_self.mpr fun h hh => by rw [hhere h hh]; rfl
  unfold Ctx.storeAll
  simp only [hremote, hfilter, release_done hs hheld hwide, List.isEmpty_nil, if_true, Ctx.check, hs, hown, Bool.false_eq_true, if_false,
    Ctx.send, List.any_nil, State.sendOps]
  rfl

/-- A store to another destination travels on C0. -/
theorem storeAll_remote {s s1 : State} {c : Ctx} (hs : c.s = s) (hheld : c.group.heldHere = none) {wide : Bool}
    (hwide : wide = true → c.team.lost = 0 ∧ s.unackedOf c.id.team = []) (i : Instr) {h : Hit} {cells : List (Loc × Byte)} {dest : Dest}
    (hdest : h.dest = some dest) (hlost : c.team.lost.getLsbD 0 = false)
    (hblocks : (s.markHits [h] true).copyBlocks c.id.team 0 dest s.nextId = false)
    (hsend : (s.markHits [h] true).sendOp (.team c.id.team) 0 c.id.group (tagOf c none) dest (.store cells) = some s1) (g : Group) :
    c.storeAll i [(h, cells)] wide g = .next (s1.setGroup c.id g) := by
  have hcheck : c.lostCheck 0 = .ok () := by rw [Ctx.lostCheck, if_neg (by rw [hlost]; exact Bool.false_ne_true)]
  have hsends : (s.markHits [h] true).sendOps (.team c.id.team) 0 c.id.group ⟨some (modeColour c.group.mode), none, false, none, []⟩
      [⟨dest, false, .store cells⟩] = some s1 := by
    have hsend' : (s.markHits [h] true).sendOp (.team c.id.team) 0 c.id.group
      ⟨some (modeColour c.group.mode), none, false, none, []⟩ dest (.store cells) = some s1 := hsend
    simp only [State.sendOps, hsend', Option.bind_some]
  unfold Ctx.storeAll
  simp only [release_done hs hheld hwide, List.filterMap_cons, hdest, Option.map_some, List.filterMap_nil, List.isEmpty_cons, hcheck,
    Bool.false_eq_true, if_false, Ctx.check, List.filter_cons, Option.isNone_some, List.filter_nil, List.flatMap_nil, List.map_nil,
    ownHeld_nil, hs, List.map_cons, Ctx.send, List.any_cons, hblocks, List.any_nil, Bool.or_self, hsends]
  rw [State.storeThrough, List.map_nil, refresh_nil]
  rfl

/-! Places that an access may name. -/

/-- An access goes to a place outside the windows, and a remote one to the port of its home. -/
def wellPlaced (h : Hit) : Prop := outsideRegisters h.loc ∧ ∀ d, h.dest = some d → h.home = d

/-- Every answer of a translation is well placed. -/
def placesWell (tr : Tr) : Prop := ∀ h, tr = .ok h → wellPlaced h

theorem placesWell_ok {h : Hit} (hl : ∀ t g o, h.loc ≠ .regWin t g o) (hd : ∀ d, h.dest = some d → h.home = d) : placesWell (.ok h) :=
  fun _ e => by cases e; exact ⟨hl, hd⟩
theorem placesWell_page (va : Nat) (peer : Option (Nat × Nat)) (pri : Bool) : placesWell (.page va peer pri) := fun _ e => nomatch e
theorem placesWell_stall : placesWell .stall := fun _ e => nomatch e
theorem placesWell_stop (f : Fault) : placesWell (.stop f) := fun _ e => nomatch e

theorem placesWell_ite {p : Prop} [Decidable p] {a b : Tr} (ha : placesWell a) (hb : placesWell b) : placesWell (if p then a else b) := by
  split
  · exact ha
  · exact hb

theorem translate_placesWell (s : State) (l : Launch) (t : TeamId) (die : Nat) (v : SegView) (o : Nat) (w : Bool) :
    placesWell (s.translate l t die v o w) := by
  unfold State.translate
  extract_lets va
  split
  · exact placesWell_ok (fun _ _ _ e => nomatch e) fun _ e => nomatch e
  · exact placesWell_ok (fun _ _ _ e => nomatch e) fun _ e => nomatch e
  · exact placesWell_ok (fun _ _ _ e => nomatch e) fun _ e => nomatch e
  · exact placesWell_stop _
  · split
    · exact placesWell_ite (placesWell_page _ _ _) (placesWell_ok (fun _ _ _ e => nomatch e) fun _ e => Option.some.inj e)
    · exact placesWell_page _ _ _
  · split
    · exact placesWell_stall
    · refine placesWell_ite placesWell_stall ?_
      split
      · exact placesWell_page _ _ _
      · split
        · exact placesWell_page _ _ _
        · exact placesWell_stall
        · exact placesWell_ite (placesWell_ok (fun _ _ _ e => nomatch e) fun _ e => Option.some.inj e) (placesWell_stop _)
  · split
    · exact placesWell_page _ _ _
    · exact placesWell_stall
    · refine placesWell_ite (placesWell_ite placesWell_stall (placesWell_ok (fun _ _ _ e => nomatch e) fun d e => ?_)) (placesWell_stop _)
      dsimp only at e
      split at e
      · cases e
      · exact Option.some.inj e

theorem translate_home {s : State} {l : Launch} {t : TeamId} {die : Nat} {v : SegView} {o : Nat} {w : Bool} {h : Hit} {d : Dest}
    (ht : s.translate l t die v o w = .ok h) (hd : h.dest = some d) : h.home = d :=
  (translate_placesWell s l t die v o w h ht).2 d hd

/-- A translated access names no register of a window. -/
theorem translate_outside {s : State} {l : Launch} {t : TeamId} {die : Nat} {v : SegView} {o : Nat} {w : Bool} {h : Hit}
    (ht : s.translate l t die v o w = .ok h) (k : Nat) : outsideRegisters (h.loc.plus k) := by
  have hplace := (translate_placesWell s l t die v o w h ht).1
  intro t g o' hloc
  cases hl : h.loc with
  | regWin t' g' o'' => exact hplace t' g' o'' hl
  | _ => simp [hl, Loc.plus] at hloc

end Sys2Proof.Claims
end

section
/-! Scalar loads and stores (spec 07 R150; 06 R135; 03 R66, R82; 04 R95). -/

namespace Sys2Proof.Claims
open Sys2Proof.Machine

/-! What a load is served. -/

/-- Every line of the core's L1 is as memory holds it now, or is one of the old lines. -/
def LinesFrom (s : State) (core : Nat) (old : List L1Line) : Prop :=
  ∀ x, s.cores[core]? = some x → ∀ n ∈ x.l1, n = s.fillLine n.start ∨ n ∈ old

theorem linesFrom_touchLine {s : State} {core : Nat} {old : List L1Line} (h : LinesFrom s core old) (l : Loc) :
    LinesFrom (s.touchLine core l) core old := by
  intro x hx n hn
  rw [fillLine_touchLine]
  unfold State.touchLine at hx
  dsimp only at hx
  split at hx
  · exact h x hx n hn
  · rw [cores_mapCore, Option.map_eq_some_iff] at hx
    obtain ⟨y, hy, rfl⟩ := hx
    rcases List.mem_append.mp hn with hn | hn
    · exact h y hy n (List.mem_of_mem_filter hn)
    · rw [List.mem_singleton.mp hn]
      exact .inl rfl

theorem linesFrom_touch {s : State} {core : Nat} {old : List L1Line} (h : LinesFrom s core old) (locs : List Loc) :
    LinesFrom (s.touch core locs) core old := by
  unfold State.touch
  induction (locs.filterMap Loc.line).dedup generalizing s with
  | nil => exact h
  | cons l ls ih => exact ih (linesFrom_touchLine h l)

/-- After a sampled read a line of the core is as memory holds it, or is one that the core held before. -/
theorem sample_linesFrom (c : Ctx) (hs : List Hit) (acq : Bool) (locs : List Loc) {x : Core} (hx : c.s.cores[c.core]? = some x) :
    LinesFrom (c.sample hs acq locs) c.core x.l1 := by
  unfold Ctx.sample
  dsimp only
  refine linesFrom_touch ?_ locs
  split
  · exact fun y hy n hn => .inl (linesFresh_clearL1 _ c.core y hy n hn)
  · intro y hy n hn
    rw [trafficTo_frame, markHits_frame] at hy
    rw [hx] at hy
    obtain rfl := Option.some.inj hy
    exact .inr hn

theorem sample_noCore (c : Ctx) (hs : List Hit) (acq : Bool) (locs : List Loc) (hx : c.s.cores[c.core]? = none) :
    (c.sample hs acq locs).cores[c.core]? = none := by
  have hlen := (sample_cores c hs acq locs).1
  rw [List.getElem?_eq_none_iff] at hx ⊢
  rwa [hlen]

/-- A byte that a sampled read serves is memory's, or that of a line which the core held before. -/
theorem served_loadByte {s : State} {c : Ctx} (hc : c.s = s) (hs : List Hit) {acq : Bool} (locs : List Loc) {acquires : Prop} {loc : Loc}
    (h : acquires → acq = true ∨ loc.line = none) : LoadByte s c acquires hs loc ((c.sample hs acq locs).served c.core loc) := by
  subst hc
  by_cases ha : acquires
  · exact .inl (sample_served c hs acq locs loc (h ha))
  · cases hn : loc.line.bind fun start => ((c.sample hs acq locs).cores[c.core]?).bind fun x => x.line? start with
    | none =>
      left
      rw [State.served, hn]
      exact sample_readLoc c hs acq locs loc
    | some n =>
      have hserved : (c.sample hs acq locs).served c.core loc = n.byteAt loc := by rw [State.served, hn]
      obtain ⟨start, hstart, hcore⟩ := Option.bind_eq_some_iff.mp hn
      obtain ⟨y, hy, hline⟩ := Option.bind_eq_some_iff.mp hcore
      have hplace : n.start = start := by simpa using List.find?_some hline
      have hline' : loc.line = some n.start := by rw [hstart, hplace]
      cases hx : c.s.cores[c.core]? with
      | none => rw [sample_noCore c hs acq locs hx] at hy; cases hy
      | some x =>
        rw [hserved]
        rcases sample_linesFrom c hs acq locs hx y hy n (List.mem_of_find?_eq_some hline) with hfresh | hold
        · left
          rw [hfresh, byteAt_fillLine _ hline']
          exact sample_readLoc c hs acq locs loc
        · exact .inr ⟨ha, x, n, hx, hold, hline', rfl⟩

/-- An acquire of CLUSTER scope or wider invalidates the L1, unless what it reads no L1 holds (04 R95). -/
theorem acqWide_or_uncached {sc : BitVec 3} {o : BitVec 2} {space : Space} (h : o = 1 ∧ 3 ≤ sc.toNat) :
    acqWide sc o space = true ∨ space = .scratch ∨ space = .priv := by
  by_cases hs : space = .scratch ∨ space = .priv
  · exact .inr hs
  · left
    simp [acqWide, isAcquire, h.1, h.2, not_or.mp hs]

theorem translate_uncached {s : State} {l : Launch} {t : TeamId} {die : Nat} {v : SegView} {o : Nat} {w : Bool} {h : Hit}
    (ht : s.translate l t die v o w = .ok h) (hspace : v.space = .scratch ∨ v.space = .priv) (k : Nat) : (h.loc.plus k).line = none := by
  rcases hspace with hv | hv <;> rw [State.translate, hv] at ht <;> cases ht <;> rfl

/-! What a load leaves. -/

/-- The windows of a group whose registers hold the same elements read as before. -/
theorem readLoc_setGroup_sameBytes {s : State} {id : GroupId} {g g' : Group} (hg : s.group? id = some g)
    (hw : ∀ o, Group.windowByte g' o = Group.windowByte g o) (loc : Loc) : (s.setGroup id g').readLoc loc = s.readLoc loc := by
  obtain ⟨t, ht, -⟩ := Option.bind_eq_some_iff.mp hg
  by_cases hloc : ∀ o, loc ≠ .regWin id.team id.group o
  · exact readLoc_setGroup ht g' loc hloc
  · push Not at hloc
    obtain ⟨o, rfl⟩ := hloc
    simp only [State.readLoc, State.group?_setGroup s id g g' hg, hg]
    exact hw o

theorem sample_links_here (c : Ctx) (hs : List Hit) (acq : Bool) (locs : List Loc) (hd : ∀ h ∈ hs, h.dest = none) :
    (c.sample hs acq locs).links = c.s.links := by
  have hdests : hs.filterMap (fun h => h.dest) = [] := List.filterMap_eq_nil_iff.mpr hd
  have hmarked : ((c.s.markHits hs false).trafficTo c.die hs).links = c.s.links := by
    simp only [State.trafficTo, hdests, List.dedup_nil, List.foldl_nil]
    rw [markHits_frame]
  unfold Ctx.sample
  dsimp only
  split <;> rw [(touch_frame _ c.core locs).2] <;> exact hmarked

/-- What a load leaves: its group, its result on the way, and lines of the core's L1. -/
theorem loaded_sample {s : State} {c : Ctx} (hi : Issuing s c) (hs : List Hit) (acq : Bool) (locs : List Loc) {g' : Group}
    (hw : ∀ o, Group.windowByte g' o = Group.windowByte c.group o) (free : Nat) (f : Flight) (hf : f.id = s.nextId) :
    Loaded s (({ (c.sample hs acq locs).setGroup c.id g' with free := free } : State).addFlight f) c hs g' f := by
  have hc := hi.state
  subst hc
  refine ⟨⟨?_, fun hd => sample_links_here c hs acq locs hd, fun hwf loc _ hentry => ?_⟩,
    coresSame_trans (sample_cores c hs acq locs) (coresSame_of_eq c.core rfl)⟩
  · rw [State.addFlight, hf, sample_frame]
    rfl
  · have hgroup : (c.sample hs acq locs).group? c.id = some c.group :=
      (group?_congr (sample_teams c hs acq locs) c.id).trans (c.s.ctx?_spec c.id c hi.2).2.2.2.2.1
    calc _ = ((c.sample hs acq locs).setGroup c.id g').readLoc loc := readLoc_congr rfl rfl rfl rfl rfl loc
      _ = (c.sample hs acq locs).readLoc loc := readLoc_setGroup_sameBytes hgroup hw loc
      _ = (c.s.markHits hs false).readLoc loc := sample_readLoc c hs acq locs loc
      _ = c.s.readLoc loc := readLoc_markHits hs hwf hentry

/-- The bytes that a load is served, and their number. -/
def servedBytes (s : State) (core : Nat) (l : Loc) (n : Nat) : List Byte := (List.range n).map fun i => s.served core (l.plus i)

theorem servedBytes_length (s : State) (core : Nat) (l : Loc) (n : Nat) : (servedBytes s core l n).length = n := by
  simp [servedBytes]

theorem servedBytes_loadByte {s : State} {c : Ctx} (hc : c.s = s) (hs : List Hit) {acq : Bool} (locs : List Loc) {acquires : Prop} {l : Loc}
    {n : Nat} (h : acquires → acq = true ∨ ∀ k, (l.plus k).line = none) (i : Nat) (v : Byte)
    (hv : (servedBytes (c.sample hs acq locs) c.core l n)[i]? = some v) : LoadByte s c acquires hs (l.plus i) v := by
  rw [servedBytes, List.getElem?_map, Option.map_eq_some_iff] at hv
  obtain ⟨j, hj, rfl⟩ := hv
  obtain rfl : j = i := by
    obtain ⟨hlt, hget⟩ := List.getElem?_eq_some_iff.mp hj
    rw [← hget, List.getElem_range]
  exact served_loadByte hc hs locs fun ha => (h ha).imp id fun h => h j

theorem windowByte_congr {g g' : Group} (h : g'.vregs = g.vregs) (o : Nat) : Group.windowByte g' o = Group.windowByte g o := by
  rw [Group.windowByte, Group.windowByte, h]

theorem pendS_vregs (g : Group) (d : BitVec 8) (k : Nat) : (g.pendS d k).advance.vregs = g.vregs := by
  rw [advance_vregs, Group.pendS]
  simp

/-- A scalar load whose checks pass (07 R150; 06 R135). -/
theorem loadS_loads {s : State} {c : Ctx} {i : Instr} {n : Nat} {d : BitVec 8} {p : BitVec 5} {sc : BitVec 3} {o : BitVec 2}
    {b : BitVec 6} {h : Hit} (hi : Issuing s c) (ht : trapLegal (wordOf i) = true) (hd : dstS c d = true) (hp : ptrFull c p = true)
    (hb : shortS c b = true) (hcodes : loadCodes sc o = true) (hacc : mayAccess s c)
    (hcheck : s.checkScalar c.launch c.id.team c.die (c.readPtr p) (ptrOff (c.readPtr p) + (c.readB6S b).toInt) n [.pr] false = .ok h)
    (hheld : s.loadHeld c.id (spans h.loc n) = false) :
    ∃ g' t bs, ScalarPending d s.nextId c.group g' ∧ loadS i n d p sc o b s = .next t ∧ bs.length = n ∧
      (∀ i v, bs[i]? = some v → LoadByte s c (o = 1 ∧ 3 ≤ sc.toNat) [h] (h.loc.plus i) v) ∧
      Loaded s t c [h] g' ⟨s.nextId, c.id, .load, .scalar (BitVec.ofNat 64 (leNat bs)), [], spans h.loc n⟩ := by
  obtain ⟨v, hseg, -, -, htr⟩ := checkScalar_ok hcheck
  have hspace : c.launch.spaceOf (c.readPtr p) = v.space := by rw [Launch.spaceOf, hseg]
  let acq := acqWide sc o (c.launch.spaceOf (c.readPtr p))
  let bs := servedBytes (c.sample [h] acq (spans h.loc n)) c.core h.loc n
  have hloaded := loaded_sample hi [h] acq (spans h.loc n) (windowByte_congr (pendS_vregs c.group d s.nextId))
    (c.sample [h] acq (spans h.loc n)).free
    ⟨s.nextId, c.id, .load, .scalar (BitVec.ofNat 64 (leNat bs)), [], spans h.loc n⟩ rfl
  refine ⟨_, _, bs, pendS_pending c.group d s.nextId, ?_, servedBytes_length .., ?_, hloaded⟩
  · rw [loadS_checks n hi ht hd hp hb hcodes hacc, hcheck]
    show (if s.loadHeld c.id (spans h.loc n) = true then _ else _) = _
    rw [hheld]
    rfl
  · refine servedBytes_loadByte hi.state [h] _ fun ha => ?_
    rcases acqWide_or_uncached (space := c.launch.spaceOf (c.readPtr p)) ha with hw | hu
    · exact .inl hw
    · exact .inr (translate_uncached htr (hspace ▸ hu))

/-! A scalar store. -/

/-- A scalar store whose place is here. -/
theorem storeS_here {s : State} {c : Ctx} {i : Instr} {n : Nat} {d : BitVec 8} {p : BitVec 5} {sc : BitVec 3} {o : BitVec 2}
    {b : BitVec 6} {h : Hit} (hi : Issuing s c) (ht : trapLegal (wordOf i) = true) (hd : srcS c d = true) (hp : ptrFull c p = true)
    (hb : shortS c b = true) (hcodes : storeCodes sc o = true) (hrel : released s c sc o (c.readPtr p))
    (hcheck : s.checkScalar c.launch c.id.team c.die (c.readPtr p) (ptrOff (c.readPtr p) + (c.readB6S b).toInt) n [.pw] true = .ok h)
    (hdest : h.dest = none) (hown : s.ownHeld c.id (spans h.loc n) = false) :
    ∃ g' t, Passed c.group g' ∧ g' = goneOn c.group g' ∧ storeS i n d p sc o b s = .next t ∧
      t = { ((s.markHits [h] true).storeCells (cellsAt h.loc n (c.readS d).toNat)).setGroup c.id g' with cores := t.cores } ∧
      MemorySame s t (spans h.loc n) [h] ∧ CoresSame s t c.core ∧ LinesUpdated s t c.core (spans h.loc n) := by
  obtain ⟨hord, hheld, hwide⟩ := hrel
  obtain ⟨v, -, -, -, htr⟩ := checkScalar_ok hcheck
  have hplaces := cellsAt_places h.loc n (c.readS d).toNat
  have hout : ∀ x ∈ cellsAt h.loc n (c.readS d).toNat, outsideRegisters x.1 := fun x hx => by
    have hx' : x.1 ∈ spans h.loc n := hplaces ▸ List.mem_map_of_mem hx
    rw [← plus_spans, List.mem_map] at hx'
    obtain ⟨k, -, hk⟩ := hx'
    exact hk ▸ translate_outside htr k
  have hcores : ((s.markHits [h] true).storeCells (cellsAt h.loc n (c.readS d).toNat)).cores = s.cores := by
    rw [storeCells_frame, markHits_frame]
  have hmem := stored_memorySame hi [h] _ hout (advance_vregs c.group)
  obtain ⟨hsame, hlines⟩ := stored_cores hcores (spans h.loc n) c.id c.group.advance (k := c.core)
  rw [hplaces] at hmem
  refine ⟨c.group.advance, _, advance_passed _, advance_goneOn _, ?_, rfl, hmem _, hsame, hlines⟩
  have hflat : [(h, cellsAt h.loc n (c.readS d).toNat)].flatMap (·.2) = cellsAt h.loc n (c.readS d).toNat := by simp
  rw [storeS_checks n hi ht hd hp hb hcodes hord, hcheck, peerLost_of_ne_hold c _ (by simp), check_ok c i rfl, storeCellsOf_eq,
    storeAll_here hi.state hheld hwide i (by simpa using hdest) _ (by rw [hflat, hplaces]; exact hown), hflat, hplaces]
  rfl

/-- A scalar store to another destination. -/
theorem storeS_remote {s s1 : State} {c : Ctx} {i : Instr} {n : Nat} {d : BitVec 8} {p : BitVec 5} {sc : BitVec 3} {o : BitVec 2}
    {b : BitVec 6} {h : Hit} {dest : Dest} (hi : Issuing s c) (ht : trapLegal (wordOf i) = true) (hd : srcS c d = true)
    (hp : ptrFull c p = true) (hb : shortS c b = true) (hcodes : storeCodes sc o = true) (hrel : released s c sc o (c.readPtr p))
    (hcheck : s.checkScalar c.launch c.id.team c.die (c.readPtr p) (ptrOff (c.readPtr p) + (c.readB6S b).toInt) n [.pw] true = .ok h)
    (hdest : h.dest = some dest) (hlost : c.team.lost.getLsbD 0 = false)
    (hblocks : (s.markHits [h] true).copyBlocks c.id.team 0 dest s.nextId = false)
    (hsend : (s.markHits [h] true).sendOp (.team c.id.team) 0 c.id.group (tagOf c none) dest
      (.store (cellsAt h.loc n (c.readS d).toNat)) = some s1) :
    ∃ g', Passed c.group g' ∧ g' = goneOn c.group g' ∧ storeS i n d p sc o b s = .next (s1.setGroup c.id g') := by
  obtain ⟨hord, hheld, hwide⟩ := hrel
  refine ⟨c.group.advance, advance_passed _, advance_goneOn _, ?_⟩
  rw [storeS_checks n hi ht hd hp hb hcodes hord, hcheck, peerLost_of_ne_hold c _ (by simp), check_ok c i rfl, storeCellsOf_eq]
  exact storeAll_remote hi.state hheld hwide i hdest hlost hblocks hsend _

end Sys2Proof.Claims

open Sys2Proof Sys2Proof.Machine Sys2Proof.Claims

/-- Settles O19: `loadS` and `storeS` at each width. -/
theorem scalarMemory : Obligations.ScalarMemory := by
  refine ⟨fun s c d p sc o b h hi hd hp hb hcodes x hx => ?_, fun s c d p sc o b h hi hd hp hb hcodes hrel x hx => ?_⟩
  · simp only [List.mem_cons, List.not_mem_nil, or_false] at hx
    rcases hx with rfl | rfl | rfl | rfl
    · have ht := trapLegal_formatA 0x20 d p sc o b (by decide) (i := .sld8 d p sc o b) rfl
      exact ⟨loadS_waits 1 hi ht hd hp hb hcodes, loadS_loads hi ht hd hp hb hcodes⟩
    · have ht := trapLegal_formatA 0x21 d p sc o b (by decide) (i := .sld16 d p sc o b) rfl
      exact ⟨loadS_waits 2 hi ht hd hp hb hcodes, loadS_loads hi ht hd hp hb hcodes⟩
    · have ht := trapLegal_formatA 0x22 d p sc o b (by decide) (i := .sld32 d p sc o b) rfl
      exact ⟨loadS_waits 4 hi ht hd hp hb hcodes, loadS_loads hi ht hd hp hb hcodes⟩
    · have ht := trapLegal_formatA 0x23 d p sc o b (by decide) (i := .sld64 d p sc o b) rfl
      exact ⟨loadS_waits 8 hi ht hd hp hb hcodes, loadS_loads hi ht hd hp hb hcodes⟩
  · simp only [List.mem_cons, List.not_mem_nil, or_false] at hx
    rcases hx with rfl | rfl | rfl | rfl
    · have ht := trapLegal_formatA 0x24 d p sc o b (by decide) (i := .sst8 d p sc o b) rfl
      exact fun hc => ⟨storeS_here hi ht hd hp hb hcodes hrel hc, fun _ _ => storeS_remote hi ht hd hp hb hcodes hrel hc⟩
    · have ht := trapLegal_formatA 0x25 d p sc o b (by decide) (i := .sst16 d p sc o b) rfl
      exact fun hc => ⟨storeS_here hi ht hd hp hb hcodes hrel hc, fun _ _ => storeS_remote hi ht hd hp hb hcodes hrel hc⟩
    · have ht := trapLegal_formatA 0x26 d p sc o b (by decide) (i := .sst32 d p sc o b) rfl
      exact fun hc => ⟨storeS_here hi ht hd hp hb hcodes hrel hc, fun _ _ => storeS_remote hi ht hd hp hb hcodes hrel hc⟩
    · have ht := trapLegal_formatA 0x27 d p sc o b (by decide) (i := .sst64 d p sc o b) rfl
      exact fun hc => ⟨storeS_here hi ht hd hp hb hcodes hrel hc, fun _ _ => storeS_remote hi ht hd hp hb hcodes hrel hc⟩
end

section
/-! Vector loads and stores (spec 09 R192; 03 R71-R73, R82; 06 R132, R133, R135). -/

namespace Sys2Proof.Claims
open Sys2Proof.Machine

/-! Vector results. -/

theorem at_tab (f : Nat → W32) {l : Nat} (hl : l < 128) : (Lanes.tab f).at l = f l := by
  simp [Lanes.tab, Lanes.at, List.getD_eq_getElem?_getD, numLanes, hl]

theorem tab_length (f : Nat → W32) : (Lanes.tab f).length = 128 := by simp [Lanes.tab, numLanes]

/-- A vector slot entered: the group has gone on, and only its vector registers and queue differ. -/
theorem enterV_goes (g : Group) (d : BitVec 8) (x y : VSlot) :
    Passed g ((g.pushV x).writeV d y).advance ∧ OnlyVectors g ((g.pushV x).writeV d y).advance ∧
      ((g.pushV x).writeV d y).advance.vqueue = x :: g.vqueue.take 15 ∧
      ((g.pushV x).writeV d y).advance.vregs = if d.toNat < 128 then g.vregs.set d.toNat y else g.vregs := by
  refine ⟨passed_congr (advance_passed ((g.pushV x).writeV d y)) (by simp) (by simp) (by simp) (by simp) (by simp) (by simp)
    (by simp), ?_, ?_, ?_⟩
  · have hgone := advance_goneOn ((g.pushV x).writeV d y)
    rw [OnlyVectors, hgone]
    simp only [goneOn, Group.writeV, Group.pushV]
    split <;> rfl
  · rw [advance_goneOn]
    simp only [goneOn, Group.writeV_vqueue]
    rfl
  · rw [advance_vregs, Group.writeV]
    split <;> rfl

theorem resultV_result (c : Ctx) (d : BitVec 8) (f : Nat → W32) : VectorResult c d f c.group (c.resultV d f) := by
  obtain ⟨hpassed, honly, hqueue, hregs⟩ := enterV_goes c.group d ⟨c.queueEntry f, none⟩ ⟨c.regEntry (c.oldV d) f, none⟩
  refine ⟨hpassed, honly, c.queueEntry f, c.regEntry (c.oldV d) f, tab_length _, tab_length _, hqueue, hregs, fun l hl habsent => ?_⟩
  simp [Ctx.queueEntry, Ctx.regEntry, at_tab, hl, habsent]

/-- An instruction whose one effect is a vector result. -/
theorem finishV_vector {s : State} {c : Ctx} (hs : c.s = s) (d : BitVec 8) (f : Nat → W32) : Vector s c (c.finishV d f) d f :=
  ⟨c.resultV d f, resultV_result c d f, by rw [Ctx.finishV, Ctx.putFree, Ctx.put, hs]⟩

theorem pendV_pending (c : Ctx) (d : BitVec 8) (k : Nat) : Passed c.group (c.pendV c.group d k).advance ∧
    OnlyVectors c.group (c.pendV c.group d k).advance ∧ VectorPending c d k (c.pendV c.group d k).advance := by
  obtain ⟨hpassed, honly, hqueue, hregs⟩ := enterV_goes c.group d ⟨c.queueEntry fun _ => 0, some k⟩ ⟨c.oldV d, some k⟩
  refine ⟨hpassed, honly, c.queueEntry fun _ => 0, tab_length _, fun l hl habsent => ?_, hqueue, hregs⟩
  simp [Ctx.queueEntry, at_tab, hl, habsent]

/-- A register that waits for its elements holds the old ones, so that its window reads as before. -/
theorem windowByte_pendV (c : Ctx) (d : BitVec 8) (k o : Nat) :
    Group.windowByte (c.pendV c.group d k).advance o = Group.windowByte c.group o := by
  obtain ⟨-, -, -, hregs⟩ := enterV_goes c.group d ⟨c.queueEntry fun _ => 0, some k⟩ ⟨c.oldV d, some k⟩
  have hval : (((c.pendV c.group d k).advance.vregs.getD (o / 512) ⟨Lanes.zero, none⟩).val) =
      (c.group.vregs.getD (o / 512) ⟨Lanes.zero, none⟩).val := by
    rw [show (c.pendV c.group d k).advance.vregs = _ from hregs]
    split
    · simp only [List.getD_eq_getElem?_getD, List.getElem?_set]
      split
      · next heq =>
        split
        · rw [← heq]
          simp [Ctx.oldV, List.getD_eq_getElem?_getD]
        · next hlen => rw [← heq, List.getElem?_eq_none (Nat.le_of_not_lt hlen)]
      · rfl
    · rfl
  rw [Group.windowByte, hval, Group.windowByte]

/-! The lanes of an access whose checks pass. -/

theorem mem_of_translateLanes {c : Ctx} {v : SegView} {w : Bool} {os : List (Nat × Nat)} {hs : List (Nat × Hit)}
    (h : c.s.translateLanes c.launch c.id c.die v w os = .ok hs) {y : Nat × Hit} (hy : y ∈ hs) :
    ∃ o, c.s.translate c.launch c.id.team c.die v o w = .ok y.2 := by
  unfold State.translateLanes at h
  extract_lets trs pages m at h
  clear_value m pages
  split at h
  · cases h
  · split at h
    · cases h
    · split at h
      · cases h
      · cases h
        obtain ⟨x, hx, hxy⟩ := List.mem_filterMap.mp hy
        obtain ⟨z, -, rfl⟩ := List.mem_map.mp hx
        split at hxy
        · next heq =>
          cases hxy
          exact ⟨_, heq⟩
        · cases hxy

/-- Every lane of a vector access whose checks pass is translated in one segment, no window. -/
theorem checkLanes_ok {c : Ctx} {p : W64} {n : Nat} {rights : List Right} {w : Bool} {os : List (Nat × Nat)} {hs : List (Nat × Hit)}
    (h : c.checkLanes p n rights w true os = .ok hs) : ∃ v, c.launch.seg? (ptrSeg p) = some v ∧
      ∀ y ∈ hs, ∃ o, c.s.translate c.launch c.id.team c.die v o w = .ok y.2 := by
  cases hseg : c.launch.seg? (ptrSeg p) with
  | none =>
    rw [Ctx.checkLanes, checkSeg_absent _ _ _ _ _ hseg] at h
    cases h
  | some v =>
    by_cases hwindow : v.space = .window
    · rw [Ctx.checkLanes, checkSeg_space _ _ _ _ hseg (.inl hwindow)] at h
      cases h
    · refine ⟨v, rfl, fun y hy => ?_⟩
      rw [Ctx.checkLanes, checkSeg_rights _ _ _ hseg hwindow (.inr rfl)] at h
      split at h
      · cases h
      · dsimp only [Chk.andThen] at h
        split at h
        · cases h
        · split at h
          · cases h
          · exact mem_of_translateLanes h hy

/-! Vector loads. -/

theorem laneVal_of_find {α : Type} (hs : List (Nat × α)) (f : Nat × α → W32) {l : Nat} {h : Nat × α}
    (hf : hs.find? (fun y => decide (y.1 = l)) = some h) : laneVal (hs.map fun h => (h.1, f h)) l = f h := by
  rw [laneVal, List.find?_map]
  have hsame : ((fun x : Nat × W32 => decide (x.1 = l)) ∘ fun h : Nat × α => (h.1, f h)) = fun y => decide (y.1 = l) := rfl
  rw [hsame, hf]
  rfl

variable {s : State} {c : Ctx} {d : BitVec 8} {p : BitVec 5} {sc : BitVec 3} {o : BitVec 2} {b : BitVec 6}

/-- A vector load whose fields are met. -/
theorem loadV_body (i : Instr) (n : Nat) (hi : Issuing s c) (ho : outside c = true) (hd : dstV c d = true) (hp : ptrFull c p = true)
    (hb : shortV c b = true) (hcodes : loadCodes sc o = true) (hacc : mayAccess s c) : loadV i n d p sc o b s =
      if !c.anyActive then c.finishV d fun _ => 0
      else c.checkLoad i (fun g => g.emptyV d) (c.checkLanes (c.readPtr p) n [.pr] false true (laneOffsets c p b)) fun (hs : List (Nat × Hit)) =>
        if s.loadHeld c.id (hs.flatMap fun h => spans h.2.loc n) then .next s
        else
          let s1 := c.sample (hs.map (·.2)) (acqWide sc o (c.launch.spaceOf (c.readPtr p))) (hs.flatMap fun h => spans h.2.loc n)
          .next ({ s1.setGroup c.id ((c.pendV c.group d s.nextId).advance) with free := s1.free + 1 }.addFlight
            ⟨s.nextId, c.id, .load, .vector (Lanes.tab (laneVal (hs.map fun (h : Nat × Hit) =>
              (h.1, BitVec.ofNat 32 (leNat (servedBytes s1 c.core h.2.loc n)))))), (List.range 128).map c.active,
              hs.flatMap fun (h : Nat × Hit) => spans h.2.loc n⟩) := by
  have hm : ∀ x ∈ [Need.dstV d, .ptr p, .field 6 (scLegal sc o), .field 7 (ordLoad o), .b6V b], x.met c = true := by
    simp only [List.forall_mem_cons, List.not_mem_nil, IsEmpty.forall_iff, implies_true, and_true]
    exact ⟨met_dstV hd, met_ptr hp, met_field (scLegal_of_load hcodes) 6, met_field (ordLoad_of_codes hcodes) 7, met_b6V hb⟩
  rw [loadV, issue_of_met _ _ _ hi ho (List.forall_mem_append.mpr ⟨hm, met_ordNeeds hi.state (ordered_load hcodes hacc)⟩)]
  simp only [bytesOf_spans, hi.state]
  rfl

theorem loadV_loads (i : Instr) (n : Nat) {hs : List (Nat × Hit)} (hi : Issuing s c) (ho : outside c = true) (hd : dstV c d = true)
    (hp : ptrFull c p = true) (hb : shortV c b = true) (hcodes : loadCodes sc o = true) (hacc : mayAccess s c)
    (hsome : someActive c = true) (hcheck : c.checkLanes (c.readPtr p) n [.pr] false true (laneOffsets c p b) = .ok hs)
    (hheld : s.loadHeld c.id (hs.flatMap fun h => spans h.2.loc n) = false) :
    ∃ g' t v, Passed c.group g' ∧ OnlyVectors c.group g' ∧ VectorPending c d s.nextId g' ∧ loadV i n d p sc o b s = .next t ∧
      Loaded s t c (hs.map (·.2)) g' ⟨s.nextId, c.id, .load, .vector v, (List.range 128).map c.active,
        hs.flatMap fun h => spans h.2.loc n⟩ ∧
      ∀ l < 128, ∀ h, hs.find? (fun y => decide (y.1 = l)) = some h → ∃ bs : List Byte, bs.length = n ∧
        (∀ i u, bs[i]? = some u → LoadByte s c (o = 1 ∧ 3 ≤ sc.toNat) (hs.map (·.2)) (h.2.loc.plus i) u) ∧
        v.at l = BitVec.ofNat 32 (leNat bs) := by
  obtain ⟨v, hseg, htr⟩ := checkLanes_ok hcheck
  have hspace : c.launch.spaceOf (c.readPtr p) = v.space := by rw [Launch.spaceOf, hseg]
  obtain ⟨hpassed, honly, hpending⟩ := pendV_pending c d s.nextId
  let acq := acqWide sc o (c.launch.spaceOf (c.readPtr p))
  let locs := hs.flatMap fun h => spans h.2.loc n
  let s1 := c.sample (hs.map (·.2)) acq locs
  let vs := hs.map fun h => (h.1, BitVec.ofNat 32 (leNat (servedBytes s1 c.core h.2.loc n)))
  have hloaded := loaded_sample hi (hs.map (·.2)) acq locs (windowByte_pendV c d s.nextId) (s1.free + 1)
    ⟨s.nextId, c.id, .load, .vector (Lanes.tab (laneVal vs)), (List.range 128).map c.active, locs⟩ rfl
  refine ⟨_, _, Lanes.tab (laneVal vs), hpassed, honly, hpending, ?_, hloaded, fun l hl h hfind => ?_⟩
  · have hany : c.anyActive = true := hsome
    rw [loadV_body i n hi ho hd hp hb hcodes hacc, hany, hcheck]
    show (if s.loadHeld c.id locs = true then _ else _) = _
    rw [hheld]
    rfl
  · refine ⟨servedBytes s1 c.core h.2.loc n, servedBytes_length .., ?_, ?_⟩
    · obtain ⟨off, hlane⟩ := htr h (List.mem_of_find?_eq_some hfind)
      refine servedBytes_loadByte hi.state _ _ fun ha => ?_
      rcases acqWide_or_uncached (space := c.launch.spaceOf (c.readPtr p)) ha with hw | hu
      · exact .inl hw
      · exact .inr (translate_uncached hlane (hspace ▸ hu))
    · rw [at_tab _ hl]
      exact laneVal_of_find hs (fun h => BitVec.ofNat 32 (leNat (servedBytes s1 c.core h.2.loc n))) hfind

/-! Vector stores. -/

/-- A vector store whose fields are met. -/
theorem storeV_body (i : Instr) (n : Nat) (hi : Issuing s c) (ho : outside c = true) (hd : srcVT c .nat32 d = true)
    (hp : ptrFull c p = true) (hb : shortV c b = true) (hcodes : storeCodes sc o = true) (hord : ordered s c o) :
    storeV i n d p sc o b s = if !c.anyActive then .next (c.put c.group.advance)
      else c.check i (c.peerLost (c.readPtr p) (c.checkLanes (c.readPtr p) n [.pw] true true (laneOffsets c p b))) fun hs =>
        c.storeAll i (hs.map fun h => (h.2, cellsAt h.2.loc n ((c.readVT .nat32 d).at h.1).toNat))
          (isWide sc o (c.launch.spaceOf (c.readPtr p))) c.group.advance := by
  have hm : ∀ x ∈ [Need.srcVT (fun _ => .nat32) 0 .epd d, .ptr p, .field 6 (scLegal sc o), .field 7 (ordStore o), .b6V b],
      x.met c = true := by
    simp only [List.forall_mem_cons, List.not_mem_nil, IsEmpty.forall_iff, implies_true, and_true]
    exact ⟨met_srcVT hd 0 .epd, met_ptr hp, met_field (scLegal_of_store hcodes) 6, met_field (ordStore_of_codes hcodes) 7, met_b6V hb⟩
  rw [storeV, issue_of_met _ _ _ hi ho (List.forall_mem_append.mpr ⟨hm, met_ordNeeds hi.state hord⟩)]
  simp only [storeCellsOf_eq]
  rfl

theorem cellsAt_outside {c : Ctx} {v : SegView} {off n x : Nat} {w : Bool} {h : Hit}
    (ht : c.s.translate c.launch c.id.team c.die v off w = .ok h) : ∀ y ∈ cellsAt h.loc n x, outsideRegisters y.1 := fun y hy => by
  have hy' : y.1 ∈ spans h.loc n := cellsAt_places h.loc n x ▸ List.mem_map_of_mem hy
  rw [← plus_spans, List.mem_map] at hy'
  obtain ⟨k, -, hk⟩ := hy'
  exact hk ▸ translate_outside ht k

theorem storeV_stores (i : Instr) (n : Nat) {hs : List (Nat × Hit)} (hi : Issuing s c) (ho : outside c = true)
    (hd : srcVT c .nat32 d = true) (hp : ptrFull c p = true) (hb : shortV c b = true) (hcodes : storeCodes sc o = true)
    (hrel : released s c sc o (c.readPtr p)) (hsome : someActive c = true)
    (hcheck : c.checkLanes (c.readPtr p) n [.pw] true true (laneOffsets c p b) = .ok hs) (hhere : ∀ h ∈ hs, h.2.dest = none)
    (hown : s.ownHeld c.id (hs.flatMap fun h => spans h.2.loc n) = false) :
    ∃ g' t, Passed c.group g' ∧ g' = goneOn c.group g' ∧ storeV i n d p sc o b s = .next t ∧
      t = { ((s.markHits (hs.map (·.2)) true).storeCells
        (hs.flatMap fun h => cellsAt h.2.loc n ((c.readVT .nat32 d).at h.1).toNat)).setGroup c.id g' with cores := t.cores } ∧
      MemorySame s t (hs.flatMap fun h => spans h.2.loc n) (hs.map (·.2)) ∧ CoresSame s t c.core ∧
      LinesUpdated s t c.core (hs.flatMap fun h => spans h.2.loc n) := by
  obtain ⟨hord, hheld, hwide⟩ := hrel
  obtain ⟨v, -, htr⟩ := checkLanes_ok hcheck
  let cells := hs.flatMap fun h => cellsAt h.2.loc n ((c.readVT .nat32 d).at h.1).toNat
  have hplaces : cells.map (·.1) = hs.flatMap fun h => spans h.2.loc n := by
    rw [List.map_flatMap]
    exact List.flatMap_congr fun h _ => cellsAt_places ..
  have hout : ∀ x ∈ cells, outsideRegisters x.1 := fun x hx => by
    obtain ⟨h, hh, hx⟩ := List.mem_flatMap.mp hx
    obtain ⟨off, hlane⟩ := htr h hh
    exact cellsAt_outside hlane x hx
  have hcores : ((s.markHits (hs.map (·.2)) true).storeCells cells).cores = s.cores := by rw [storeCells_frame, markHits_frame]
  have hmem := stored_memorySame hi (hs.map (·.2)) cells hout (advance_vregs c.group)
  obtain ⟨hsame, hlines⟩ := stored_cores hcores (cells.map (·.1)) c.id c.group.advance (k := c.core)
  rw [hplaces] at hmem hsame hlines
  refine ⟨c.group.advance, _, advance_passed _, advance_goneOn _, ?_, rfl, hmem _, hsame, hlines⟩
  have hany : c.anyActive = true := hsome
  let hits := hs.map fun h => (h.2, cellsAt h.2.loc n ((c.readVT .nat32 d).at h.1).toNat)
  have hflat : hits.flatMap (·.2) = cells := List.flatMap_map ..
  have hmarks : hits.map (·.1) = hs.map (·.2) := List.map_map ..
  have hdests : ∀ h ∈ hits, h.1.dest = none := by
    intro h hh
    obtain ⟨x, hx, rfl⟩ := List.mem_map.mp hh
    exact hhere x hx
  rw [storeV_body i n hi ho hd hp hb hcodes hord, hany, hcheck, peerLost_of_ne_hold c _ (by simp)]
  have hstored := storeAll_here hi.state hheld hwide i hdests c.group.advance (by rw [hflat, hplaces]; exact hown)
  rw [hflat, hmarks, hplaces] at hstored
  exact hstored

end Sys2Proof.Claims

open Sys2Proof Sys2Proof.Machine Sys2Proof.Claims

/-- Settles O21: `loadV` at each width. -/
theorem vectorLoads : Obligations.VectorLoads := by
  intro s c d p sc o b hs hi ho hd hp hb hcodes hacc x hx
  have hnone : ∀ (i : Instr) (n : Nat), someActive c = false → Vector s c (loadV i n d p sc o b s) d fun _ => 0 := fun i n h => by
    rw [loadV_body i n hi ho hd hp hb hcodes hacc, show c.anyActive = false from h]
    exact finishV_vector hi.state d _
  simp only [List.mem_cons, List.not_mem_nil, or_false] at hx
  rcases hx with rfl | rfl | rfl
  · exact ⟨hnone _ 1, loadV_loads _ 1 hi ho hd hp hb hcodes hacc⟩
  · exact ⟨hnone _ 2, loadV_loads _ 2 hi ho hd hp hb hcodes hacc⟩
  · exact ⟨hnone _ 4, loadV_loads _ 4 hi ho hd hp hb hcodes hacc⟩

/-- Settles O22: `storeV` at each width. -/
theorem vectorStores : Obligations.VectorStores := by
  intro s c d p sc o b hs hi ho hd hp hb hcodes hrel x hx
  have hnone : ∀ (i : Instr) (n : Nat), someActive c = false → Nothing s c (storeV i n d p sc o b s) := fun i n h => by
    rw [storeV_body i n hi ho hd hp hb hcodes hrel.1, show c.anyActive = false from h]
    exact put_advance_nothing hi.state
  simp only [List.mem_cons, List.not_mem_nil, or_false] at hx
  rcases hx with rfl | rfl | rfl
  · exact ⟨hnone _ 1, storeV_stores _ 1 hi ho hd hp hb hcodes hrel⟩
  · exact ⟨hnone _ 2, storeV_stores _ 2 hi ho hd hp hb hcodes hrel⟩
  · exact ⟨hnone _ 4, storeV_stores _ 4 hi ho hd hp hb hcodes hrel⟩
end

section
/-! Scalar and vector atomics on this die, and a scalar one that travels on C0 (spec 09 R194-R196; 03 R82; 04 R95; 05 R110). -/

namespace Sys2Proof.Claims
open Sys2Proof.Machine

/-! What an atomic writes and gives. -/

theorem leNat_lt (bs : List Byte) : leNat bs < 256 ^ bs.length := by
  induction bs with
  | nil => exact Nat.one_pos
  | cons b bs ih =>
    rw [leNat, List.length_cons, Nat.pow_succ]
    have := b.isLt
    omega

theorem loadLoc_eq (s : State) (l : Loc) (n : Nat) : s.loadLoc l n = leNat ((spans l n).map s.readLoc) := by
  rw [State.loadLoc, ← plus_spans, List.map_map]
  rfl

theorem loadLoc_lt (s : State) (l : Loc) (n : Nat) : s.loadLoc l n < 256 ^ n := by
  have := leNat_lt ((List.range n).map fun i => s.readLoc (l.plus i))
  rwa [List.length_map, List.length_range] at this

/-- Exact sums of 64-bit integers are taken modulo 2⁶⁴. -/
theorem sum_word (a b : W64) : ((a.toInt + b.toInt) % 2 ^ 64).toNat = (a + b).toNat := by
  have hofInt : ((a.toInt + b.toInt) % 2 ^ 64).toNat = (BitVec.ofInt 64 (a.toInt + b.toInt)).toNat := by
    rw [BitVec.toNat_ofInt]
    rfl
  rw [hofInt, BitVec.ofInt_add, BitVec.ofInt_toInt, BitVec.ofInt_toInt]

/-- The 64-bit atomics by name (09 R194). -/
theorem atomNew_int64 (op : AtomOp) (rnd : Rnd) (old v cmp : W64) :
    atomNew op .int64 rnd false old.toNat v.toNat cmp.toNat = (newWord op old v cmp).toNat := by
  cases op with
  | add => simpa [atomNew, newWord, AtomType.bytes] using sum_word old v
  | min =>
    show (if (BitVec.ofNat 64 v.toNat).toInt < (BitVec.ofNat 64 old.toNat).toInt then v.toNat else old.toNat) = _
    simp only [BitVec.ofNat_toNat, BitVec.setWidth_eq, newWord]
    split <;> rfl
  | max =>
    show (if (BitVec.ofNat 64 old.toNat).toInt < (BitVec.ofNat 64 v.toNat).toInt then v.toNat else old.toNat) = _
    simp only [BitVec.ofNat_toNat, BitVec.setWidth_eq, newWord]
    split <;> rfl
  | and => exact (BitVec.toNat_and old v).symm
  | or => exact (BitVec.toNat_or old v).symm
  | xor => exact (BitVec.toNat_xor old v).symm
  | xchg => rfl
  | cas =>
    show (if old.toNat = cmp.toNat then v.toNat else old.toNat) = _
    simp only [newWord, BitVec.toNat_inj]
    split <;> rfl

theorem storeCells_nextId (cs : List (Loc × Byte)) (k : Nat) : ∀ s : State,
    ({ s with nextId := k } : State).storeCells cs = { s.storeCells cs with nextId := k } := by
  induction cs with
  | nil => intro s; rfl
  | cons x cs ih =>
    intro s
    have hstep : ({ s with nextId := k } : State).writeLoc x.1 x.2 = { s.writeLoc x.1 x.2 with nextId := k } := by
      cases x.1 with
      | host f a =>
        simp only [State.writeLoc, State.hostWrite]
        split <;> rfl
      | _ => rfl
    show (({ s with nextId := k } : State).writeLoc x.1 x.2).storeCells cs = _
    rw [hstep, ih]
    rfl

theorem atomAccesses_frame (as : List AtomAccess) : ∀ s : State, (s.atomAccesses as).2 = { s with
    mem := (s.atomAccesses as).2.mem, hostMem := (s.atomAccesses as).2.hostMem, peers := (s.atomAccesses as).2.peers
    teams := (s.atomAccesses as).2.teams } := by
  induction as with
  | nil => intro s; rfl
  | cons a as ih =>
    intro s
    have hstep : (s.atomAccesses (a :: as)).2 = ((s.atomAccess a).2.atomAccesses as).2 := rfl
    have hone : (s.atomAccess a).2 = { s with
        mem := (s.atomAccess a).2.mem, hostMem := (s.atomAccess a).2.hostMem, peers := (s.atomAccess a).2.peers
        teams := (s.atomAccess a).2.teams } := storeCells_frame _ s
    rw [hstep, ih, hone]

/-! The lines that an atomic bypasses. -/

theorem linesGone_dropLines (s : State) (k : Nat) (locs : List Loc) : LinesGone (s.dropLines k locs) k locs := by
  intro y hy n hn loc hloc hline
  rw [State.dropLines, cores_mapCore, Option.map_eq_some_iff] at hy
  obtain ⟨x, -, rfl⟩ := hy
  have hkept := (List.mem_filter.mp hn).2
  have hthere : (locs.filterMap Loc.line).contains n.start = true :=
    List.contains_iff_mem.mpr (List.mem_filterMap.mpr ⟨loc, hloc, hline⟩)
  rw [hthere] at hkept
  cases hkept

theorem linesGone_clearL1 (s : State) (k : Nat) (locs : List Loc) : LinesGone (s.clearL1 k) k locs := by
  intro y hy n hn
  rw [State.clearL1, cores_mapCore, Option.map_eq_some_iff] at hy
  obtain ⟨x, -, rfl⟩ := hy
  exact absurd hn List.not_mem_nil

/-- The core after an atomic gives up the lines of its bytes, or all of them when the atomic acquires. -/
def bypassL1 (s : State) (k : Nat) (acq : Bool) (locs : List Loc) : State := if acq then s.clearL1 k else s.dropLines k locs

theorem bypassL1_frame (s : State) (k : Nat) (acq : Bool) (locs : List Loc) :
    bypassL1 s k acq locs = { s with cores := (bypassL1 s k acq locs).cores } := by
  unfold bypassL1
  split <;> rfl

theorem bypassL1_cores (s : State) (k : Nat) (acq : Bool) (locs : List Loc) :
    CoresSame s (bypassL1 s k acq locs) k ∧ LinesGone (bypassL1 s k acq locs) k locs := by
  unfold bypassL1
  split
  · exact ⟨coresSame_mapCore s k _ fun _ => rfl, linesGone_clearL1 s k locs⟩
  · exact ⟨coresSame_mapCore s k _ fun _ => rfl, linesGone_dropLines s k locs⟩

theorem dropLines_nil (s : State) (k : Nat) : s.dropLines k [] = s := by
  have hcore : (fun c : Core => { c with l1 := c.l1.filter fun n => !(List.filterMap Loc.line []).contains n.start }) = id := by
    funext c
    simp
  rw [State.dropLines, State.mapCore, hcore, List.modify_id]

/-! Atomics at checked places. -/

theorem atomOps_here (k : Nat) {hs : List (Hit × AtomAccess)} (h : ∀ x ∈ hs, x.1.dest = none) : atomOps k hs = [] := by
  induction hs with
  | nil => rfl
  | cons x hs ih =>
    rw [List.forall_mem_cons] at h
    simp [atomOps, h.1, ih h.2]

theorem takeWhile_all {α : Type} {p : α → Bool} {xs : List α} (h : ∀ x ∈ xs, p x = true) : xs.takeWhile p = xs :=
  List.takeWhile_eq_self_iff.mpr h

variable {s : State} {c : Ctx}

/-- Atomics whose places are all here are performed at issue, lane after lane. -/
theorem atomAll_here (hs : c.s = s) (hheld : c.group.heldHere = none) {ord : AtomOrder}
    (hwide : ord.wide = true → c.team.lost = 0 ∧ s.unackedOf c.id.team = []) (i : Instr) {hits : List (Hit × AtomAccess)}
    (hhere : ∀ x ∈ hits, x.1.dest = none)
    (hown : s.ownHeld c.id ((hits.map (·.2)).flatMap AtomAccess.locs) = false) (k : State → List W64 → Res) :
    c.atomAll i hits ord k =
      let r := State.atomAccesses { s.markHits (hits.map (·.1)) true with nextId := s.nextId + 1 } (hits.map (·.2))
      k (bypassL1 r.2 c.core (ord.invalidates && !hits.isEmpty) ((hits.map (·.2)).flatMap AtomAccess.locs)) r.1 := by
  have hnone : ∀ x ∈ hits, x.1.dest.isNone = true := fun x hx => by rw [hhere x hx]; rfl
  have hlocs : hits.flatMap (fun h => h.2.locs) = (hits.map (·.2)).flatMap AtomAccess.locs := (List.flatMap_map ..).symm
  unfold Ctx.atomAll
  simp only [atomOps_here _ hhere, takeWhile_all hnone, List.filter_eq_self.mpr hnone, release_done hs hheld hwide, List.isEmpty_nil,
    if_true, Ctx.check, hs, hlocs, hown, Bool.false_eq_true, if_false, Ctx.send, List.any_nil, State.sendOps, List.isEmpty_map]
  rfl

/-- A scalar atomic to another destination travels on C0 with the scope of its acquire. -/
theorem atomAll_remote {s2 : State} (hs : c.s = s) (hheld : c.group.heldHere = none) {ord : AtomOrder}
    (hwide : ord.wide = true → c.team.lost = 0 ∧ s.unackedOf c.id.team = []) (i : Instr) {h : Hit} {a : AtomAccess} {dest : Dest}
    (hdest : h.dest = some dest) (hhome : h.home = dest) (hlost : c.team.lost.getLsbD 0 = false)
    (hblocks : ({ s.markHits [h] true with nextId := s.nextId + 1 } : State).copyBlocks c.id.team 0 dest s.nextId = false)
    (hsend : ({ s.markHits [h] true with nextId := s.nextId + 1 } : State).sendOp (.team c.id.team) 0 c.id.group (tagOf c ord.acq) dest
      (.atomic [a] (some s.nextId)) = some s2) (k : State → List W64 → Res) :
    c.atomAll i [(h, a)] ord k = k s2 [] := by
  have hcheck : c.lostCheck 0 = .ok () := by rw [Ctx.lostCheck, if_neg (by rw [hlost]; exact Bool.false_ne_true)]
  have hsends : ({ s.markHits [h] true with nextId := s.nextId + 1 } : State).sendOps (.team c.id.team) 0 c.id.group
      ⟨some (modeColour c.group.mode), ord.acq, false, none, []⟩ [⟨dest, false, .atomic [a] (some s.nextId)⟩] = some s2 := by
    have hsend' : ({ s.markHits [h] true with nextId := s.nextId + 1 } : State).sendOp (.team c.id.team) 0 c.id.group
      ⟨some (modeColour c.group.mode), ord.acq, false, none, []⟩ dest (.atomic [a] (some s.nextId)) = some s2 := hsend
    simp only [State.sendOps, hsend', Option.bind_some]
  have hops : atomOps s.nextId [(h, a)] = [⟨dest, false, .atomic [a] (some s.nextId)⟩] := by simp [atomOps, hdest, hhome]
  unfold Ctx.atomAll
  simp only [hs, hops, release_done hs hheld hwide, List.isEmpty_cons, hcheck, Bool.false_eq_true, if_false, Ctx.check, List.filter_cons,
    hdest, Option.isNone_some, List.filter_nil, List.flatMap_nil, ownHeld_nil, List.map_cons, List.map_nil, List.takeWhile_cons,
    State.atomAccesses, List.isEmpty_nil, Bool.not_true, Bool.and_false, dropLines_nil, Ctx.send, List.any_cons, hblocks, List.any_nil,
    Bool.or_self, hsends]


/-! A scalar atomic. -/

variable {d : BitVec 8} {p : BitVec 5} {sc : BitVec 3} {o : BitVec 2} {b : BitVec 6}

/-- The access that a scalar atomic makes. -/
def atomOf (c : Ctx) (h : Hit) (op : AtomOp) (d : BitVec 8) (b : BitVec 6) : AtomAccess :=
  ⟨0, h.loc, op, .int64, c.readB6S b, if op = .cas then c.readS d else 0, 0, false⟩

theorem atomOf_locs (c : Ctx) (h : Hit) (op : AtomOp) (d : BitVec 8) (b : BitVec 6) : (atomOf c h op d b).locs = spans h.loc 8 :=
  plus_spans h.loc 8

/-- A scalar atomic whose fields are met and whose checks pass. -/
theorem atomS_body {h : Hit} (i : Instr) (op : AtomOp) (hi : Issuing s c) (ho : outside c = true)
    (hd : (if op = .cas then namedS c d else dstS c d) = true) (hp : ptrFull c p = true) (hb : shortS c b = true)
    (hcodes : atomCodes sc o = true) (hord : ordered s c o)
    (hcheck : s.checkScalar c.launch c.id.team c.die (c.readPtr p) (ptrOff (c.readPtr p)) 8 [.pa] true = .ok h) :
    atomS i op (decide (op = .cas)) d p sc o b s =
      c.atomAll i [(h, atomOf c h op d b)] (atomOrder sc o (c.launch.spaceOf (c.readPtr p))) fun s1 olds =>
        .next { (s1.setGroup c.id ((c.group.pendS d s.nextId).advance)) with
          flights := s1.flights ++ [⟨s.nextId, c.id, .atomic, .scalar (olds.headD 0), [], []⟩] } := by
  have hdst : (if decide (op = .cas) = true then Need.rmwS 0 d else .dstS 0 d).met c = true := by
    by_cases hop : op = .cas
    · rw [if_pos hop] at hd
      rw [decide_eq_true hop]
      exact met_rmwS hd 0
    · rw [if_neg hop] at hd
      rw [decide_eq_false hop]
      exact met_dstS hd 0
  have hm : ∀ x ∈ [if decide (op = .cas) = true then Need.rmwS 0 d else .dstS 0 d, .ptr p, .field 6 (scLegal sc o), .b6S b],
      x.met c = true := by
    simp only [List.forall_mem_cons, List.not_mem_nil, IsEmpty.forall_iff, implies_true, and_true]
    exact ⟨hdst, met_ptr hp, met_field (scLegal_of_atom hcodes) 6, met_b6S hb⟩
  rw [atomS, issue_of_met _ _ _ hi ho (List.forall_mem_append.mpr ⟨hm, met_ordNeeds hi.state hord⟩)]
  simp only [hi.state, hcheck, peerLost_of_ne_hold c _ (show (Chk.ok h : Chk Hit) ≠ .hold by simp), Ctx.check, decide_eq_true_eq]
  rfl

/-- The one access of a scalar atomic: the old word, and the state with the new one stored. -/
theorem atomAccess_word (s : State) (c : Ctx) (h : Hit) (op : AtomOp) (d : BitVec 8) (b : BitVec 6) :
    let old : W64 := BitVec.ofNat 64 (leNat ((spans h.loc 8).map s.readLoc))
    s.atomAccess (atomOf c h op d b) =
      (old, s.storeCells (cellsAt h.loc 8 (newWord op old (c.readB6S b) (c.readS d)).toNat)) := by
  intro old
  have hlt : s.loadLoc h.loc 8 < 2 ^ 64 := loadLoc_lt s h.loc 8
  have hold : (BitVec.ofNat 64 (s.loadLoc h.loc 8)).toNat = s.loadLoc h.loc 8 := by
    rw [BitVec.toNat_ofNat, Nat.mod_eq_of_lt hlt]
  have hword : BitVec.ofNat 64 (s.loadLoc h.loc 8) = old := by rw [loadLoc_eq]
  have hnew : atomNew op .int64 (Rnd.ofCode 0) false (s.loadLoc h.loc 8) ((c.readB6S b).toNat % 2 ^ 64)
      ((if op = .cas then c.readS d else 0 : W64).toNat % 2 ^ 64) = (newWord op old (c.readB6S b) (c.readS d)).toNat := by
    rw [Nat.mod_eq_of_lt (BitVec.isLt _), Nat.mod_eq_of_lt (BitVec.isLt _), ← hold, atomNew_int64, hword]
    cases op <;> rfl
  rw [State.atomAccess, ← storeCellsOf_eq, ← hnew, ← hword]
  rfl

theorem atomS_here {h : Hit} (i : Instr) (op : AtomOp) (hi : Issuing s c) (ho : outside c = true)
    (hd : (if op = .cas then namedS c d else dstS c d) = true) (hp : ptrFull c p = true) (hb : shortS c b = true)
    (hcodes : atomCodes sc o = true) (hrel : released s c sc o (c.readPtr p))
    (hcheck : s.checkScalar c.launch c.id.team c.die (c.readPtr p) (ptrOff (c.readPtr p)) 8 [.pa] true = .ok h)
    (hdest : h.dest = none) (hown : s.ownHeld c.id (spans h.loc 8) = false) :
    let s1 := s.markHits [h] true
    let old : W64 := BitVec.ofNat 64 (leNat ((spans h.loc 8).map s1.readLoc))
    ∃ g' t, ScalarPending d s.nextId c.group g' ∧ atomS i op (decide (op = .cas)) d p sc o b s = .next t ∧
      t = { (s1.storeCells (cellsAt h.loc 8 (newWord op old (c.readB6S b) (c.readS d)).toNat)).setGroup c.id g' with
        nextId := s.nextId + 1
        cores := t.cores
        flights := s.flights ++ [⟨s.nextId, c.id, .atomic, .scalar old, [], []⟩] } ∧
      MemorySame s t (spans h.loc 8) [h] ∧ CoresSame s t c.core ∧ LinesGone t c.core (spans h.loc 8) := by
  intro s1 old
  obtain ⟨hord, hheld, hwide⟩ := hrel
  obtain ⟨v, -, -, -, htr⟩ := checkScalar_ok hcheck
  let new := (newWord op old (c.readB6S b) (c.readS d)).toNat
  let inv := acqWide sc o (c.launch.spaceOf (c.readPtr p)) && true
  let s2 := bypassL1 { s1.storeCells (cellsAt h.loc 8 new) with nextId := s.nextId + 1 } c.core inv (spans h.loc 8)
  have hstored : s1.storeCells (cellsAt h.loc 8 new) = { s with
      mem := (s1.storeCells (cellsAt h.loc 8 new)).mem, hostMem := (s1.storeCells (cellsAt h.loc 8 new)).hostMem
      peers := (s1.storeCells (cellsAt h.loc 8 new)).peers, teams := (s1.storeCells (cellsAt h.loc 8 new)).teams } := by
    rw [storeCells_frame, show s1 = { s with mem := s1.mem, peers := s1.peers } from markHits_frame s [h] true]
  have hread : ∀ loc, ({ s1 with nextId := s.nextId + 1 } : State).readLoc loc = s1.readLoc loc := fun loc =>
    readLoc_congr rfl rfl rfl rfl rfl loc
  have hone : ({ s1 with nextId := s.nextId + 1 } : State).atomAccess (atomOf c h op d b) =
      (old, { s1.storeCells (cellsAt h.loc 8 new) with nextId := s.nextId + 1 }) := by
    rw [atomAccess_word, storeCells_nextId]
    simp only [funext hread]
    rfl
  have hframe : s2 = { s1.storeCells (cellsAt h.loc 8 new) with nextId := s.nextId + 1, cores := s2.cores } := bypassL1_frame ..
  obtain ⟨hsame, hgone⟩ := bypassL1_cores { s1.storeCells (cellsAt h.loc 8 new) with nextId := s.nextId + 1 } c.core inv (spans h.loc 8)
  have hflights : s2.flights = s.flights := by rw [hframe, hstored]
  refine ⟨_, { s2.setGroup c.id (c.group.pendS d s.nextId).advance with
    flights := s.flights ++ [⟨s.nextId, c.id, .atomic, .scalar old, [], []⟩] }, pendS_pending c.group d s.nextId, ?_, ?_, ?_, ?_, hgone⟩
  · rw [atomS_body i op hi ho hd hp hb hcodes hord hcheck, atomAll_here hi.state hheld hwide i
      (by simpa using hdest) (by simpa [atomOf_locs] using hown)]
    simp only [List.map_cons, List.map_nil, State.atomAccesses, List.flatMap_cons, List.flatMap_nil, List.append_nil, atomOf_locs,
      List.headD_cons]
    rw [show (s.markHits [h] true) = s1 from rfl, hone]
    exact congrArg Host.Outcome.next (by rw [← hflights]; rfl)
  · rw [hframe]
    rfl
  · intro hwf loc hst hent
    have hmem := stored_memorySame hi [h] (cellsAt h.loc 8 new) (cellsAt_outside (hi.state ▸ htr)) (pendS_vregs c.group d s.nextId) s.cores
    rw [cellsAt_places] at hmem
    refine Eq.trans ?_ (hmem hwf loc hst hent)
    rw [hframe]
    exact readLoc_congr rfl rfl rfl rfl rfl loc
  · exact coresSame_trans (coresSame_of_eq c.core (by rw [hstored])) (coresSame_trans hsame (coresSame_of_eq c.core rfl))

theorem atomS_remote {h : Hit} {dest : Dest} {s2 : State} (i : Instr) (op : AtomOp) (hi : Issuing s c) (ho : outside c = true)
    (hd : (if op = .cas then namedS c d else dstS c d) = true) (hp : ptrFull c p = true) (hb : shortS c b = true)
    (hcodes : atomCodes sc o = true) (hrel : released s c sc o (c.readPtr p))
    (hcheck : s.checkScalar c.launch c.id.team c.die (c.readPtr p) (ptrOff (c.readPtr p)) 8 [.pa] true = .ok h)
    (hdest : h.dest = some dest) (hlost : c.team.lost.getLsbD 0 = false)
    (hblocks : ({ s.markHits [h] true with nextId := s.nextId + 1 } : State).copyBlocks c.id.team 0 dest s.nextId = false)
    (hsend : ({ s.markHits [h] true with nextId := s.nextId + 1 } : State).sendOp (.team c.id.team) 0 c.id.group
      (tagOf c (if o = 1 ∨ o = 3 then some sc else none)) dest (.atomic [atomOf c h op d b] (some s.nextId)) = some s2) :
    ∃ g', ScalarPending d s.nextId c.group g' ∧ atomS i op (decide (op = .cas)) d p sc o b s = .next { s2.setGroup c.id g' with
      flights := s2.flights ++ [⟨s.nextId, c.id, .atomic, .scalar 0, [], []⟩] } := by
  obtain ⟨hord, hheld, hwide⟩ := hrel
  obtain ⟨v, -, -, -, htr⟩ := checkScalar_ok hcheck
  have hacq : (atomOrder sc o (c.launch.spaceOf (c.readPtr p))).acq = if o = 1 ∨ o = 3 then some sc else none := by
    simp [atomOrder, isAcquire]
  refine ⟨_, pendS_pending c.group d s.nextId, ?_⟩
  rw [atomS_body i op hi ho hd hp hb hcodes hord hcheck, atomAll_remote hi.state hheld hwide i hdest (translate_home htr hdest) hlost hblocks
    (hacq ▸ hsend)]
  rfl

/-! A vector atomic. -/

/-- The old value of a lane is that of its place among the accesses. -/
theorem laneVal_zip {α : Type} {l : Nat} : ∀ (hs : List (Nat × α)) (olds : List W64) {k : Nat},
    hs.findIdx? (fun y => decide (y.1 = l)) = some k →
    laneVal ((hs.zip olds).map fun h => (h.1.1, (h.2.truncate 32 : W32))) l = (olds.getD k 0).truncate 32
  | [], _, _, hk => by cases hk
  | y :: ys, [], k, hk => by simp [laneVal]
  | y :: ys, w :: ws, k, hk => by
    rw [List.findIdx?_cons] at hk
    by_cases hy : y.1 = l
    · rw [if_pos (decide_eq_true hy)] at hk
      obtain rfl := Option.some.inj hk
      simp [laneVal, hy]
    · rw [if_neg (by simpa using hy), Option.map_eq_some_iff] at hk
      obtain ⟨j, hj, rfl⟩ := hk
      have hrest := laneVal_zip ys ws hj
      simp only [laneVal, List.zip_cons_cons, List.map_cons, List.find?_cons, decide_eq_false hy, List.getD_cons_succ] at hrest ⊢
      exact hrest

/-- The accesses of a vector atomic. -/
def laneAtoms (c : Ctx) (op : AtomOp) (ty : AtomType) (d : BitVec 8) (hs : List (Nat × Hit)) : List AtomAccess := hs.map fun h =>
  ⟨h.1, h.2.loc, op, ty, ((c.readV d).at h.1).zeroExtend 64, 0, c.group.mode.extractLsb' 9 3, c.group.mode.getLsbD 12⟩

theorem laneAtoms_locs {c : Ctx} {op : AtomOp} {ty : AtomType} (hty : ty.bytes = 4) (d : BitVec 8) (hs : List (Nat × Hit)) :
    (laneAtoms c op ty d hs).flatMap AtomAccess.locs = hs.flatMap fun h => spans h.2.loc 4 := by
  rw [laneAtoms, List.flatMap_map]
  refine List.flatMap_congr fun h _ => ?_
  rw [AtomAccess.locs, hty, plus_spans]

/-- A vector atomic whose fields are met. -/
theorem atomV_body (i : Instr) (op : AtomOp) (hi : Issuing s c) (ho : outside c = true) (hd : namedV c d = true)
    (hp : ptrFull c p = true) (hb : shortV c b = true) (hcodes : atomCodes sc o = true) (hord : ordered s c o)
    (hty : atomTypes c.ty = true) : atomV i op d p sc o b s =
      if !c.anyActive then c.finishV d fun _ => 0
      else c.check i (c.peerLost (c.readPtr p) (c.checkLanes (c.readPtr p) 4 [.pa] true true (laneOffsets c p b)))
        fun (hs : List (Nat × Hit)) =>
        c.atomAll i (hs.map fun h => (h.2, (⟨h.1, h.2.loc, op, atomTypeOf c.ty, ((c.readV d).at h.1).zeroExtend 64, 0,
          c.group.mode.extractLsb' 9 3, c.group.mode.getLsbD 12⟩ : AtomAccess))) (atomOrder sc o (c.launch.spaceOf (c.readPtr p)))
          fun s1 olds => .next { (s1.setGroup c.id ((c.pendV c.group d s.nextId).advance)) with
            free := s.free + 1
            flights := s1.flights ++ [⟨s.nextId, c.id, .atomic, .vector (Lanes.tab (laneVal
              (((hs.takeWhile fun h => h.2.dest.isNone).zip olds).map fun h => (h.1.1, (h.2.truncate 32 : W32))))),
              (List.range 128).map c.active, []⟩] } := by
  have hm : ∀ x ∈ [Need.rmwV d, .ptr p, .field 6 (scLegal sc o), .b6V b, .etype atomTypes], x.met c = true := by
    simp only [List.forall_mem_cons, List.not_mem_nil, IsEmpty.forall_iff, implies_true, and_true]
    exact ⟨met_rmwV hd, met_ptr hp, met_field (scLegal_of_atom hcodes) 6, met_b6V hb, met_etype hty⟩
  rw [atomV, issue_of_met _ _ _ hi ho (List.forall_mem_append.mpr ⟨hm, met_ordNeeds hi.state hord⟩)]
  simp only [hi.state]
  rfl

theorem atomV_here {hs : List (Nat × Hit)} {ty : AtomType} (i : Instr) (op : AtomOp) (hi : Issuing s c) (ho : outside c = true)
    (hd : namedV c d = true) (hp : ptrFull c p = true) (hb : shortV c b = true) (hcodes : atomCodes sc o = true)
    (hrel : released s c sc o (c.readPtr p)) (htypes : atomTypes c.ty = true) (hty : atomTypeOf c.ty = ty) (hbytes : ty.bytes = 4)
    (hsome : someActive c = true) (hcheck : c.checkLanes (c.readPtr p) 4 [.pa] true true (laneOffsets c p b) = .ok hs)
    (hhere : ∀ h ∈ hs, h.2.dest = none) (hown : s.ownHeld c.id (hs.flatMap fun h => spans h.2.loc 4) = false) :
    let r := ({ s.markHits (hs.map (·.2)) true with nextId := s.nextId + 1 } : State).atomAccesses (laneAtoms c op ty d hs)
    ∃ g' v t, Passed c.group g' ∧ OnlyVectors c.group g' ∧ VectorPending c d s.nextId g' ∧
      atomV i op d p sc o b s = .next t ∧ t = { r.2.setGroup c.id g' with
        free := s.free + 1
        cores := t.cores
        flights := s.flights ++ [⟨s.nextId, c.id, .atomic, .vector v, (List.range 128).map c.active, []⟩] } ∧
      CoresSame s t c.core ∧ LinesGone t c.core (hs.flatMap fun h => spans h.2.loc 4) ∧
      ∀ l < 128, ∀ k, hs.findIdx? (fun y => decide (y.1 = l)) = some k → v.at l = (r.1.getD k 0).truncate 32 := by
  intro r
  obtain ⟨hord, hheld, hwide⟩ := hrel
  obtain ⟨hpassed, honly, hpending⟩ := pendV_pending c d s.nextId
  let locs := hs.flatMap fun h => spans h.2.loc 4
  let inv := acqWide sc o (c.launch.spaceOf (c.readPtr p)) && !hs.isEmpty
  let s2 := bypassL1 r.2 c.core inv locs
  let vs := (hs.zip r.1).map fun h => (h.1.1, (h.2.truncate 32 : W32))
  have hframe : s2 = { r.2 with cores := s2.cores } := bypassL1_frame ..
  have hr : r.2 = { s with
      nextId := s.nextId + 1, mem := r.2.mem, hostMem := r.2.hostMem, peers := r.2.peers, teams := r.2.teams } := by
    have := atomAccesses_frame (laneAtoms c op ty d hs) { s.markHits (hs.map (·.2)) true with nextId := s.nextId + 1 }
    rw [show r.2 = _ from this, markHits_frame]
  obtain ⟨hsame, hgone⟩ := bypassL1_cores r.2 c.core inv locs
  have hflights : s2.flights = s.flights := by rw [hframe, hr]
  refine ⟨_, Lanes.tab (laneVal vs), { s2.setGroup c.id (c.pendV c.group d s.nextId).advance with
    free := s.free + 1
    flights := s.flights ++ [⟨s.nextId, c.id, .atomic, .vector (Lanes.tab (laneVal vs)), (List.range 128).map c.active, []⟩] },
    hpassed, honly, hpending, ?_, ?_, ?_, hgone, fun l hl k hk => ?_⟩
  · have hany : c.anyActive = true := hsome
    have htake : (hs.takeWhile fun h => h.2.dest.isNone) = hs := takeWhile_all fun h hh => by rw [hhere h hh]; rfl
    let hits := hs.map fun h => (h.2, (⟨h.1, h.2.loc, op, ty, ((c.readV d).at h.1).zeroExtend 64, 0, c.group.mode.extractLsb' 9 3,
      c.group.mode.getLsbD 12⟩ : AtomAccess))
    have haccs : hits.map (·.2) = laneAtoms c op ty d hs := List.map_map ..
    have hmarks : hits.map (·.1) = hs.map (·.2) := List.map_map ..
    have hdests : ∀ x ∈ hits, x.1.dest = none := fun x hx => by
      obtain ⟨h, hh, rfl⟩ := List.mem_map.mp hx
      exact hhere h hh
    rw [atomV_body i op hi ho hd hp hb hcodes hord htypes, hany, hcheck, peerLost_of_ne_hold c _ (by simp), hty,
      if_neg (by decide), check_ok c i rfl]
    refine (atomAll_here (ord := atomOrder sc o (c.launch.spaceOf (c.readPtr p))) hi.state hheld hwide i (hits := hits) hdests
      (by rw [haccs, laneAtoms_locs hbytes]; exact hown) _).trans ?_
    dsimp only
    rw [haccs, hmarks, laneAtoms_locs hbytes, htake, List.isEmpty_map, ← hflights]
    rfl
  · rw [hframe]
    rfl
  · exact coresSame_trans (coresSame_of_eq c.core (by rw [hr])) (coresSame_trans hsame (coresSame_of_eq c.core rfl))
  · rw [at_tab _ hl]
    exact laneVal_zip hs r.1 hk

end Sys2Proof.Claims

open Sys2Proof Sys2Proof.Machine Sys2Proof.Claims

/-- Settles O23: `atomS` for each operation here and on C0, and `atomV` for each operation here. -/
theorem atomics : Obligations.Atomics := by
  refine ⟨fun s c d p sc o b h hi ho hp hb hcodes hrel hcheck => ?_, fun s c d p sc o b hs ty hi ho hd hp hb hcodes hrel hty => ?_⟩
  · intro s1 old x hx
    simp only [List.mem_cons, List.not_mem_nil, or_false] at hx
    rcases hx with rfl | rfl | rfl | rfl | rfl | rfl | rfl | rfl <;> intro hd
    · exact ⟨atomS_here (.atadd d p sc o b) .add hi ho hd hp hb hcodes hrel hcheck,
        fun _ _ => atomS_remote (.atadd d p sc o b) .add hi ho hd hp hb hcodes hrel hcheck⟩
    · exact ⟨atomS_here (.atmin d p sc o b) .min hi ho hd hp hb hcodes hrel hcheck,
        fun _ _ => atomS_remote (.atmin d p sc o b) .min hi ho hd hp hb hcodes hrel hcheck⟩
    · exact ⟨atomS_here (.atmax d p sc o b) .max hi ho hd hp hb hcodes hrel hcheck,
        fun _ _ => atomS_remote (.atmax d p sc o b) .max hi ho hd hp hb hcodes hrel hcheck⟩
    · exact ⟨atomS_here (.atand d p sc o b) .and hi ho hd hp hb hcodes hrel hcheck,
        fun _ _ => atomS_remote (.atand d p sc o b) .and hi ho hd hp hb hcodes hrel hcheck⟩
    · exact ⟨atomS_here (.ator d p sc o b) .or hi ho hd hp hb hcodes hrel hcheck,
        fun _ _ => atomS_remote (.ator d p sc o b) .or hi ho hd hp hb hcodes hrel hcheck⟩
    · exact ⟨atomS_here (.atxor d p sc o b) .xor hi ho hd hp hb hcodes hrel hcheck,
        fun _ _ => atomS_remote (.atxor d p sc o b) .xor hi ho hd hp hb hcodes hrel hcheck⟩
    · exact ⟨atomS_here (.atxchg d p sc o b) .xchg hi ho hd hp hb hcodes hrel hcheck,
        fun _ _ => atomS_remote (.atxchg d p sc o b) .xchg hi ho hd hp hb hcodes hrel hcheck⟩
    · exact ⟨atomS_here (.atcas d p sc o b) .cas hi ho hd hp hb hcodes hrel hcheck,
        fun _ _ => atomS_remote (.atcas d p sc o b) .cas hi ho hd hp hb hcodes hrel hcheck⟩
  · intro x hx
    have htypes : atomTypes c.ty = true ∧ atomTypeOf c.ty = ty ∧ ty.bytes = 4 := by
      rcases hty with ⟨h1, rfl⟩ | ⟨h1, rfl⟩ | ⟨h1, rfl⟩ <;> rw [h1] <;> decide
    obtain ⟨hlegal, hof, hbytes⟩ := htypes
    have hnone : ∀ (i : Instr) (op : AtomOp), someActive c = false → Vector s c (atomV i op d p sc o b s) d fun _ => 0 := fun i op h => by
      rw [atomV_body i op hi ho hd hp hb hcodes hrel.1 hlegal, show c.anyActive = false from h]
      exact finishV_vector hi.state d _
    simp only [List.mem_cons, List.not_mem_nil, or_false] at hx
    rcases hx with rfl | rfl | rfl | rfl | rfl | rfl
    · exact ⟨hnone _ .add, atomV_here (.vatadd d p sc o b) .add hi ho hd hp hb hcodes hrel hlegal hof hbytes⟩
    · exact ⟨hnone _ .min, atomV_here (.vatmin d p sc o b) .min hi ho hd hp hb hcodes hrel hlegal hof hbytes⟩
    · exact ⟨hnone _ .max, atomV_here (.vatmax d p sc o b) .max hi ho hd hp hb hcodes hrel hlegal hof hbytes⟩
    · exact ⟨hnone _ .xchg, atomV_here (.vatxchg d p sc o b) .xchg hi ho hd hp hb hcodes hrel hlegal hof hbytes⟩
    · exact ⟨hnone _ .and, atomV_here (.vatand d p sc o b) .and hi ho hd hp hb hcodes hrel hlegal hof hbytes⟩
    · exact ⟨hnone _ .or, atomV_here (.vator d p sc o b) .or hi ho hd hp hb hcodes hrel hlegal hof hbytes⟩
end

section
/-! The packets of a queue other than LAUNCH (spec 23 R336-R340, R345, R348; 03 R78, R81; 13 R272, R273). -/

namespace Sys2Proof.Claims
open Sys2Proof.Machine

/-! Completions. -/

theorem leBytes_mod (n v : Nat) : leBytes n (v % 256 ^ n) = leBytes n v := by
  refine List.ext_getElem (by rw [leBytes_length, leBytes_length]) fun i h1 h2 => ?_
  rw [leBytes_length] at h1
  rw [leBytes_getElem, leBytes_getElem, byteOfNum, byteOfNum]
  apply BitVec.eq_of_toNat_eq
  rw [BitVec.toNat_ofNat, BitVec.toNat_ofNat]
  have hsplit : 256 ^ n = 256 ^ i * (256 * 256 ^ (n - i - 1)) := by
    rw [← Nat.pow_succ', ← Nat.pow_add]
    congr 1
    omega
  rw [hsplit, Nat.mod_mul_right_div_self]
  exact Nat.mod_mod_of_dvd _ ⟨_, rfl⟩

theorem leBytes_word (n : Nat) : leBytes 8 (BitVec.ofNat 64 n).toNat = leBytes 8 n := by
  have hpow : (2 : Nat) ^ 64 = 256 ^ 8 := by norm_num
  rw [BitVec.toNat_ofNat, hpow, leBytes_mod]

theorem wordBytes_pair (n : Nat) (data : W64) : wordBytes [BitVec.ofNat 64 n, data] = leBytes 8 n ++ leBytes 8 data.toNat := by
  simp only [wordBytes, List.flatMap_cons, List.flatMap_nil, List.append_nil, leBytes_word]

/-- The completion of a packet, by name. -/
theorem cpComplete_eq (s : State) (fn : Nat) (dev : Bool) (addr : W64) (tag : W32) (status : Nat) (data : W64) :
    s.cpComplete fn dev addr tag status false data = completed s fn dev addr tag status data.toNat := by
  rw [State.cpComplete, if_neg Bool.false_ne_true, Nat.add_zero, wordBytes_pair]
  rfl

/-! The packet is read. -/

theorem cpMark_launches (s : State) (ls : List Launch) (fn : Nat) (dev : Bool) (addr n : Nat) :
    ({ s with launches := ls } : State).cpMark fn dev addr n = { s.cpMark fn dev addr n with launches := ls } := by
  have hwalks : ({ s with launches := ls } : State).partWalks fn addr n false = s.partWalks fn addr n false := rfl
  unfold State.cpMark
  rw [hwalks]
  cases dev with
  | false => rfl
  | true =>
    simp only [if_true]
    cases pagesOf (s.partWalks fn addr n false) <;> rfl

/-- The packet read, with no splice producer looked at. -/
theorem consume_eq (s : State) (fn k : Nat) : s.consume fn k = { readOn s fn k with launches := s.launches } := by
  unfold State.consume
  dsimp only
  rw [cpMark_frame]
  rfl

theorem consume_unpair (s : State) (fn k : Nat) : (s.consume fn k).unpair fn k = readOn s fn k := by
  rw [consume_eq]
  rfl

theorem unpair_consume (s : State) (fn k : Nat) : (s.unpair fn k).consume fn k = readOn s fn k := by
  unfold State.consume State.unpair
  dsimp only
  rw [cpMark_launches, cpMark_frame]
  rfl

section
variable {s : State} {fn k kind : Nat} {q : Queue} {w : List W64}

/-- A well-formed packet of the kind that is asked for has its effect once it is read. -/
theorem plainPacket_reads {ok : List W64 → Bool} (h : NextPacket s fn k kind q w) (hok : ok w = true)
    (f : State → Queue → List W64 → State) :
    plainPacket fn k ok s f = .next (f ((if passesNop q w then s else s.unpair fn k).consume fn k) q w) := by
  obtain ⟨hnext, -, hformed, hstall⟩ := h
  simp only [plainPacket, packetOf, hnext, hok, hstall, hformed, Bool.and_false, Bool.not_false, Bool.and_true, Bool.true_or, if_true]

/-- The same of a packet that is no NOP: a splice producer of the queue is let go. -/
theorem plainPacket_readOn {ok : List W64 → Bool} (h : NextPacket s fn k kind q w) (hok : ok w = true) (hkind : kind ≠ 2)
    (f : State → Queue → List W64 → State) : plainPacket fn k ok s f = .next (f (readOn s fn k) q w) := by
  have hpass : passesNop q w = false := by simp [passesNop, h.2.1, hkind]
  rw [plainPacket_reads h hok, hpass, if_neg Bool.false_ne_true, unpair_consume]

/-- A DEBUG packet that names a group of an outstanding launch. -/
theorem debugPacket_reads {cmd : Nat} {l : Launch} {t : Team} {id : GroupId} {g : Group} (h : NextPacket s fn k 4 q w)
    (hcmd : debugCommand w = cmd) (htarget : (readOn s fn k).debugTarget fn w = some (l, t, id, g))
    (f : State → Queue → List W64 → Launch → Team → GroupId → Group → State) :
    debugPacket fn k cmd s f = .next (f (readOn s fn k) q w l t id g) := by
  rw [debugPacket, plainPacket_readOn h (by simp [h.2.1, hcmd]) (by decide), htarget]

end

/-! A malformed packet demotes its queue (23 R348). -/

/-- Letting splice producers go leaves the gangs that are collected. -/
theorem collecting_readOn {s : State} {fn k : Nat} (h : s.collecting fn k = []) : (readOn s fn k).collecting fn k = [] := by
  have hany : ∀ (p : Launch → Bool), (∀ l st, p { l with stage := st } = p l) → (unpaired s fn k).any p = s.launches.any p := fun p hp => by
    rw [unpaired, List.any_map]
    congr 1
    funext l
    simp only [Function.comp_apply]
    split
    · exact hp l .ready
    · rfl
  rw [← h]
  unfold State.collecting
  congr 1
  funext g
  rw [show (readOn s fn k).launches = unpaired s fn k from rfl, hany _ fun _ _ => rfl]

theorem map_of_false {α : Type} {p : α → Prop} [DecidablePred p] (f : α → α) (h : ∀ x, ¬ p x) (xs : List α) :
    (xs.map fun x => if p x then f x else x) = xs := by
  have hid : (fun x => if p x then f x else x) = id := funext fun x => if_neg (h x)
  rw [hid, List.map_id]

/-- A queue that is demoted where no gang is collected from it. -/
theorem demote_read {s : State} {fn k : Nat} (h : s.collecting fn k = []) (err : Nat) (index : W32) :
    (s.consume fn k).demote fn k err index = { readOn s fn k with
      launches := demotedLaunches s fn k
      fns := (Consumed s fn k).modify fn fun f => { f with queues := f.queues.modify k fun x =>
        { x with qstate := if s.mgmt.qcell.isSome then .quarantined else .stopped, qerr := BitVec.ofNat 8 err, qerrix := index } } } := by
  have hcell : (s.consume fn k).mgmt.qcell = s.mgmt.qcell := by rw [consume_eq]; rfl
  unfold State.demote
  dsimp only
  rw [consume_unpair, hcell]
  cases hq : s.mgmt.qcell with
  | none =>
    have hsame : demotedLaunches s fn k = unpaired s fn k := map_of_false _ (fun x hx => by rw [hq] at hx; cases hx.1) _
    rw [hsame]
    rfl
  | some cell =>
    have hlaunches : demotedLaunches s fn k = (unpaired s fn k).map fun l =>
        if l.fn = fn ∧ l.queue = k ∧ l.node.isNone ∧ l.gang = 0 ∧ l.nextTeam = 0 ∧ l.stage ≠ .complete then
          { l with quarantined := true, cutp := false } else l := by
      refine List.map_congr_left fun x _ => ?_
      simp only [hq, Option.isSome_some, true_and, Option.isNone_iff_eq_none]
    rw [hlaunches]
    simp only [Option.isSome_some, if_true, State.quarantine, collecting_readOn h, List.foldl_nil]
    rfl

/-- A packet of a reserved type or with a reserved command. -/
theorem exec_reservedPacket {s : State} {fn k : Nat} {q : Queue} {w : List W64} (hnext : s.nextPacket fn k = some (q, some w))
    (hformed : packetWellFormed w = false) (hlaunch : packetKind w ≠ 1) (hreply : packetKind w ≠ 5)
    (hstall : s.cpStalls fn q.qloc (pword w 6) 16 true = false) (hgangs : s.collecting fn k = []) :
    exec (.reservedPacket fn k) s = .next (completed { readOn s fn k with
      launches := demotedLaunches s fn k
      fns := (Consumed s fn k).modify fn fun f => { f with queues := f.queues.modify k fun x =>
        { x with qstate := if s.mgmt.qcell.isSome then .quarantined else .stopped, qerr := 1, qerrix := q.qhead } } }
      fn q.qloc (w.getD 6 0) (packetTag w) 5 0) := by
  have hheld : s.demoteHeld fn k = false := by rw [State.demoteHeld, hgangs]; simp
  show execReservedPacket fn k s = _
  rw [execReservedPacket, hnext]
  simp only [packetOf, hnext, hformed, hlaunch, ne_eq, not_false_eq_true, decide_true, Bool.not_false, Bool.true_and, hstall, Bool.and_false,
    hheld, Bool.or_true, if_true, State.malformed, hreply, if_false, demote_read hgangs, cpComplete_eq]
  rfl

/-! NOP and INVAL. -/

theorem exec_nopPacket {s : State} {fn k : Nat} {q : Queue} {w : List W64} (h : NextPacket s fn k 2 q w) : exec (.nopPacket fn k) s =
    .next (completed { readOn s fn k with launches := if q.qhead + 1 = q.qtail then unpaired s fn k else s.launches }
      fn q.qloc (w.getD 6 0) (packetTag w) 0 0) := by
  show execNopPacket fn k s = _
  rw [execNopPacket, plainPacket_reads h (by simp [h.2.1]), State.answer, cpComplete_eq]
  by_cases hlast : q.qhead + 1 = q.qtail
  · have hpass : passesNop q w = false := by
      simp only [passesNop, hlast, ne_eq, not_true, decide_false, Bool.and_false]
    rw [hpass, if_neg Bool.false_ne_true, if_pos hlast, unpair_consume]
    rfl
  · have hpass : passesNop q w = true := by
      simp only [passesNop, h.2.1, hlast, ne_eq, not_false_eq_true, decide_true, Bool.and_self]
    rw [hpass, if_pos rfl, if_neg hlast, consume_eq]
    rfl

theorem exec_inval {s : State} {fn k : Nat} {q : Queue} {w : List W64} (h : NextPacket s fn k 3 q w) : exec (.inval fn k) s =
    .next { readOn s fn k with invals := s.invals ++ [⟨fn, (s.packets.filter fun p => !p.performed).map (·.id), pword w 1, pword w 2,
      packetTag w, w.getD 6 0, q.qloc⟩] } := by
  show execInval fn k s = _
  rw [execInval, plainPacket_readOn h (by simp [h.2.1]) (by decide)]
  rfl

theorem exec_invalComplete {s : State} {j : Nat} {v : Inval} (hv : s.invals[j]? = some v)
    (hdone : ∀ p ∈ s.packets, p.id ∈ v.waits → p.performed = true)
    (hstall : s.cpStalls v.fn v.compDev v.compAddr.toNat 16 true = false) : exec (.invalComplete j) s =
    .next { completed s v.fn v.compDev v.compAddr v.tag 0 0 with invals := s.invals.eraseIdx j } := by
  have hall : (s.packets.all fun p => p.performed || !v.waits.contains p.id) = true := by
    rw [List.all_eq_true]
    intro p hp
    by_cases hw : p.id ∈ v.waits
    · simp [hdone p hp hw]
    · simp [hw]
  show execInvalComplete j s = _
  simp only [execInvalComplete, hv, hall, hstall, Bool.not_false, Bool.and_true, if_true, cpComplete_eq]
  rfl

/-! DEBUG. -/

section
variable {s : State} {fn k : Nat} {q : Queue} {w : List W64} {l : Launch} {t : Team} {id : GroupId} {g : Group}

theorem exec_debugStop_rest (h : NextPacket s fn k 4 q w) (htarget : (readOn s fn k).debugTarget fn w = some (l, t, id, g))
    (hcmd : debugCommand w = 1) (hrest : g.atRest = true) : exec (.debugStop fn k) s =
      .next (completed (readOn s fn k) fn q.qloc (w.getD 6 0) (packetTag w) 0 0) := by
  show execDebugStop fn k s = _
  rw [execDebugStop, debugPacket_reads h hcmd htarget, hrest, if_pos rfl, State.answer, cpComplete_eq]
  rfl

theorem exec_debugStop_pending (h : NextPacket s fn k 4 q w) (htarget : (readOn s fn k).debugTarget fn w = some (l, t, id, g))
    (hcmd : debugCommand w = 1) (hrest : g.atRest = false) : exec (.debugStop fn k) s =
      .next { (readOn s fn k).mapGroup id (fun x => { x with evStop := true }) with
        stops := s.stops ++ [⟨id, fn, packetTag w, w.getD 6 0, q.qloc⟩] } := by
  show execDebugStop fn k s = _
  rw [execDebugStop, debugPacket_reads h hcmd htarget, hrest, if_neg Bool.false_ne_true]
  rfl

theorem exec_debugResume (h : NextPacket s fn k 4 q w) (htarget : (readOn s fn k).debugTarget fn w = some (l, t, id, g))
    (hcmd : debugCommand w = 2) (hrest : g.atRest = true) : exec (.debugResume fn k) s =
      .next (completed ((readOn s fn k).mapGroup id fun x => if x.run = .ended then x else
        { x with run := .running, stepOnce := if pword w 2 / 2 ^ 17 % 2 = 1 then .armed else .off })
        fn q.qloc (w.getD 6 0) (packetTag w) 0 0) := by
  show execDebugResume fn k s = _
  rw [execDebugResume, debugPacket_reads h hcmd htarget, hrest, Bool.not_true, if_neg Bool.false_ne_true]
  dsimp only
  rw [State.answer, cpComplete_eq]
  rfl

/-- The origin record that stands beside a READ of the PC, when there is one. -/
theorem origin_data (a b : Prop) [Decidable a] [Decidable b] (bs old : List Byte) :
    (if (if a ∧ b then bs else []).isEmpty then old else if a ∧ b then bs else []) = if a ∧ b ∧ bs ≠ [] then bs else old := by
  by_cases hpc : a ∧ b
  · cases bs <;> simp [hpc]
  · have hno : ¬ (a ∧ b ∧ bs ≠ []) := fun hx => hpc ⟨hx.1, hx.2.1⟩
    simp [if_neg hpc, if_neg hno]

theorem exec_debugRead {v : W64} (h : NextPacket s fn k 4 q w) (htarget : (readOn s fn k).debugTarget fn w = some (l, t, id, g))
    (hcmd : debugCommand w = 3) (hrest : g.atRest = true)
    (hitem : ∀ un, debugItem g (t.budgetOf l id.group) (s.vtime t) un (pword w 2 / 2 ^ 24 % 2 ^ 8) (pword w 2 / 2 ^ 32) = some (v, false)) :
    exec (.debugRead fn k) s = .next (completed { readOn s fn k with
      free := s.free + 1
      hostData := if pword w 2 / 2 ^ 24 % 2 ^ 8 = 8 ∧ pword w 2 / 2 ^ 32 = 0 ∧ originBytes l g.pc ≠ [] then originBytes l g.pc
        else s.hostData } fn q.qloc (w.getD 6 0) (packetTag w) 0 v.toNat) := by
  have hvtime : (readOn s fn k).vtime t = s.vtime t := rfl
  have hdata := origin_data (pword w 2 / 2 ^ 24 % 2 ^ 8 = 8) (pword w 2 / 2 ^ 32 = 0) (originBytes l g.pc) s.hostData
  show execDebugRead fn k s = _
  rw [execDebugRead, debugPacket_reads h hcmd htarget, hrest, Bool.not_true, if_neg Bool.false_ne_true, ← hdata]
  dsimp only
  rw [hvtime, hitem, State.answer]
  generalize pword w 2 / 2 ^ 24 % 2 ^ 8 = item, pword w 2 / 2 ^ 32 = index
  exact congrArg Host.Outcome.next (cpComplete_eq _ _ _ _ _ _ _)

theorem exec_debugWrite {g' : Group} (h : NextPacket s fn k 4 q w) (htarget : (readOn s fn k).debugTarget fn w = some (l, t, id, g))
    (hcmd : debugCommand w = 4) (hrest : g.atRest = true)
    (hput : debugPut g (t.budgetOf l id.group) (decide (pword w 2 / 2 ^ 16 % 2 = 1)) (pword w 2 / 2 ^ 24 % 2 ^ 8) (pword w 2 / 2 ^ 32)
      (w.getD 3 0) = .ok g') : exec (.debugWrite fn k) s =
      .next (completed ((readOn s fn k).noteWrites id [] ((readOn s fn k).setGroup id g')) fn q.qloc (w.getD 6 0) (packetTag w) 0 0) := by
  show execDebugWrite fn k s = _
  rw [execDebugWrite, debugPacket_reads h hcmd htarget, hrest, Bool.not_true, if_neg Bool.false_ne_true, hput]
  dsimp only
  rw [State.answer, cpComplete_eq]
  rfl

theorem exec_debugBreak (h : NextPacket s fn k 4 q w) (htarget : (readOn s fn k).debugTarget fn w = some (l, t, id, g))
    (hcmd : debugCommand w = 5) : exec (.debugBreak fn k) s = .next (completed { readOn s fn k with
      launches := (readOn s fn k).launches.map fun x =>
        if x.seq = l.seq then { x with breakArmed := decide (pword w 3 % 2 = 1) } else x } fn q.qloc (w.getD 6 0) (packetTag w) 0 0) := by
  show execDebugBreak fn k s = _
  rw [execDebugBreak, debugPacket_reads h hcmd htarget, State.answer, cpComplete_eq]
  rfl

end

end Sys2Proof.Claims

open Sys2Proof Sys2Proof.Machine Sys2Proof.Claims

/-- Settles O48: one lemma a packet, over what reading a packet does. -/
theorem queuePackets : Obligations.QueuePackets :=
  ⟨fun _ _ _ _ _ _ _ => ⟨exec_nopPacket, exec_inval, exec_invalComplete, exec_reservedPacket⟩,
    fun _ _ _ _ _ _ _ _ _ _ _ h htarget => ⟨exec_debugStop_rest h htarget, exec_debugStop_pending h htarget, exec_debugResume h htarget,
      exec_debugRead h htarget, exec_debugWrite h htarget, exec_debugBreak h htarget⟩⟩
end

section
/-! The driver's replies to page faults, and the graph table (spec 23 R339, R345; 03 R80). -/

namespace Sys2Proof.Claims
open Sys2Proof.Machine

/-! Replies to a group's page fault. -/

/-- The fault is outstanding no more. -/
def replied (s : State) (fn k : Nat) (p : PageFault) : State := { readOn s fn k with
  fns := (readOn s fn k).fns.modify fn fun f => { f with faults := f.faults.filter fun x => decide (x ≠ p) } }

theorem pageBack_eq (g : Group) : pageBack g = { g.replayed with run := .running } := rfl

section
variable {s : State} {fn k : Nat} {q : Queue} {w : List W64} {p : PageFault} {t : Team} {g : Group} {id : GroupId}

theorem exec_pfreplyReplay (h : NextPacket s fn k 5 q w) (hp : (readOn s fn k).faultOf? fn (pword w 1) = some p)
    (hreplay : pword w 2 = 0) : exec (.pfreplyReplay fn k) s = .next ((replied s fn k p).resumeFault p) := by
  show execPfreplyReplay fn k s = _
  rw [execPfreplyReplay, plainPacket_readOn h (by simp [h.2.1, hreplay]) (by decide), hp]
  rfl

theorem exec_pfreplyDeliver (h : NextPacket s fn k 5 q w) (hp : (readOn s fn k).faultOf? fn (pword w 1) = some p)
    (hwho : p.who = .group id) (hdeliver : pword w 2 = 1) :
    exec (.pfreplyDeliver fn k) s = .next ((replied s fn k p).deliverPage id p) := by
  show execPfreplyDeliver fn k s = _
  rw [execPfreplyDeliver, plainPacket_readOn h (by simp [h.2.1, hdeliver]) (by decide), hp]
  dsimp only
  rw [hwho]
  rfl

/-- A group that waits for the page goes on, and no other team is touched. -/
theorem resumeFault_teamIs (hwho : p.who = .group id) (ht : s.team? id.team = some t) (hg : t.groups[id.group]? = some g)
    (hrun : g.run = .pageWait) : TeamIs s ((replied s fn k p).resumeFault p) id.team
      { t with groups := t.groups.set id.group (pageBack g) } := by
  have hset : (t.groups.modify id.group fun x => if x.run = .pageWait then pageBack x else x) = t.groups.set id.group (pageBack g) := by
    rw [List.modify_eq_set_getElem?, hg]
    simp [hrun]
  have hresume : (replied s fn k p).resumeFault p = (replied s fn k p).mapGroup id fun x => if x.run = .pageWait then pageBack x else x := by
    rw [State.resumeFault, hwho]
    rfl
  rw [hresume, ← hset]
  exact ⟨(replied s fn k p).team?_mapTeam id.team _ t ht fun _ => rfl, fun u hu => (replied s fn k p).team?_mapTeam_other id.team u _ (fun _ => rfl) hu⟩

/-- A declined page reaches the group that waits for it. -/
theorem deliverPage_waiting (hwho : p.who = .group id) (ht : s.team? id.team = some t) (hg : t.groups[id.group]? = some g)
    (hrun : g.run = .pageWait) : (replied s fn k p).deliverPage id p = ((replied s fn k p).setGroup id (pageBack g)).deliver id
      ⟨0x07, if p.write then 1 else 0, BitVec.ofNat 64 p.va, 0, p.maskLo, p.maskHi⟩ false ((replied s fn k p).wordAt id) := by
  have hgroup : (replied s fn k p).group? id = some g := by
    have hteam : (replied s fn k p).team? id.team = some t := ht
    rw [State.group?, hteam, Option.bind_some, hg]
  have hrest : g.atRest = false := by simp [Group.atRest, hrun]
  rw [State.deliverPage, hgroup]
  dsimp only
  rw [hrest, if_neg Bool.false_ne_true, hwho, ← pageBack_eq]
  rfl

end

/-! The graph table. -/

theorem read_write_of_ne_zero {m : Memory} (a : Nat) {v : Byte} (hv : v ≠ 0) : (m.write a v).read a = v := by
  induction m with
  | nil => rw [Memory.write, if_neg hv, Memory.read, if_pos rfl]
  | cons c m ih =>
    obtain ⟨b, x⟩ := c
    rw [Memory.write]
    split
    · rw [Memory.read, if_pos rfl]
    · next hlt =>
      split
      · rw [Memory.read, if_pos rfl]
      · next hne => rw [Memory.read, if_neg hne, if_neg hlt, ih]

/-- The top byte of a stored word, when it is not 0, in any byte store: it is stored last. -/
theorem read_top_of_writeLe (m : Memory) (a v : Nat) (hv : 2 ^ 63 ≤ v ∧ v < 2 ^ 64) :
    (m.writeLe a 8 v).read (a + 7) = BitVec.ofNat 8 (v / 256 / 256 / 256 / 256 / 256 / 256 / 256) := by
  simp only [Memory.writeLe, leBytes, Memory.writeBytes, Nat.add_assoc, Nat.reduceAdd]
  refine read_write_of_ne_zero _ fun h => ?_
  have htop : v / 256 / 256 / 256 / 256 / 256 / 256 / 256 % 2 ^ 8 = 0 := congrArg BitVec.toNat h
  omega

/-- Bit 63 of a word is the top bit of its last byte. -/
theorem read64_getLsbD_63 (m : Memory) (a : Nat) : (m.read64 a).getLsbD 63 = decide (128 ≤ (m.read (a + 7)).toNat) := by
  have hbytes : m.readLe a 8 = (m.read a).toNat + 256 * ((m.read (a + 1)).toNat + 256 * ((m.read (a + 2)).toNat + 256 *
      ((m.read (a + 3)).toNat + 256 * ((m.read (a + 4)).toNat + 256 * ((m.read (a + 5)).toNat + 256 *
      ((m.read (a + 6)).toNat + 256 * (m.read (a + 7)).toNat)))))) := rfl
  have hmsb : (m.read64 a).getLsbD 63 = (m.read64 a).msb := rfl
  have hbound (i : Nat) : (m.read (a + i)).toNat < 256 := (m.read (a + i)).isLt
  have h0 : (m.read a).toNat < 256 := (m.read a).isLt
  have h1 := hbound 1
  have h2 := hbound 2
  have h3 := hbound 3
  have h4 := hbound 4
  have h5 := hbound 5
  have h6 := hbound 6
  have h7 := hbound 7
  rw [hmsb, BitVec.msb_eq_decide, Memory.read64, BitVec.toNat_ofNat, hbytes]
  exact decide_eq_decide.mpr (by omega)

/-- LOADED stands in an entry that an image was put into. -/
theorem graphBit_setGraph (s : State) (fn table entry : Nat) (im : GraphImage) :
    (s.setGraph fn table entry (some im)).graphBit table entry = true := by
  have hmod : (s.mem.read64 (table + 16 * entry)).toNat % 2 ^ 63 < 2 ^ 63 := Nat.mod_lt _ (by positivity)
  rw [State.graphBit, read64_getLsbD_63, State.setGraph, Option.isSome_some, if_pos rfl, read_top_of_writeLe _ _ _ (by omega)]
  exact decide_eq_true (by rw [BitVec.toNat_ofNat]; omega)

theorem find_graph_rest (s : State) (fn table entry : Nat) :
    (s.graphs.filter fun x => decide (x.fn ≠ fn ∨ x.table ≠ table ∨ x.entry ≠ entry)).find?
      (fun g => decide (g.fn = fn) && decide (g.table = table) && decide (g.entry = entry)) = none := by
  rw [List.find?_eq_none]
  intro x hx
  have := (List.mem_filter.mp hx).2
  simp only [decide_eq_true_eq] at this
  simp only [Bool.and_eq_true, decide_eq_true_eq]
  exact fun h => this.elim (fun h' => h' h.1.1) fun h' => h'.elim (fun h' => h' h.1.2) fun h' => h' h.2

/-- An image that was put into an entry is there. -/
theorem graph?_setGraph_some (s : State) (fn table entry : Nat) (im : GraphImage) :
    (s.setGraph fn table entry (some im)).graph? fn table entry = some im := by
  rw [State.graph?, graphBit_setGraph, if_pos rfl]
  simp only [State.setGraph, List.find?_append, find_graph_rest, Option.map_some, Option.getD_some]
  simp

/-- An entry that was emptied holds none. -/
theorem graph?_setGraph_none (s : State) (fn table entry : Nat) :
    (s.setGraph fn table entry none).graph? fn table entry = none := by
  rw [State.graph?]
  split
  · simp only [State.setGraph, List.find?_append, find_graph_rest, Option.map_none, Option.getD_none]
    simp
  · rfl

theorem replaying_eq_false {s : State} {fn table entry : Nat}
    (h : ∀ r ∈ s.replays, r.fn = fn → r.table = table → r.entry ≠ entry) : s.replaying fn table entry = false := by
  rw [State.replaying, List.any_eq_false]
  intro r hr
  simp only [Bool.and_eq_true, decide_eq_true_eq]
  exact fun hall => h r hr hall.1.1 hall.1.2 hall.2

/-- Loading at once, where no image is loaded or no replay of it runs. -/
theorem loadGraph_idle {s : State} {fn k : Nat} {q : Queue} {w : List W64} (h : s.graphBit (pword w 1) (gloadEntry w) = false ∨
      ∀ r ∈ s.replays, r.fn = fn → r.table = pword w 1 → r.entry ≠ gloadEntry w) (g : Option GraphImage) :
    s.loadGraph fn k q w g = completed (s.setGraph fn (pword w 1) (gloadEntry w) g) fn q.qloc (w.getD 6 0) (packetTag w) 0 0 := by
  have hfree : ((s.graph? fn (pword w 1) (gloadEntry w)).isSome && s.replaying fn (pword w 1) (gloadEntry w)) = false := by
    rcases h with hbit | hrun
    · rw [State.graph?, hbit]
      rfl
    · rw [replaying_eq_false hrun, Bool.and_false]
  rw [State.loadGraph, hfree, if_neg Bool.false_ne_true, State.answer, cpComplete_eq]
  rfl

section
variable {s : State} {fn k : Nat} {q : Queue} {w : List W64}

theorem exec_gload {im : GraphImage} (h : NextPacket s fn k 6 q w) (htarget : gloadTarget w = true)
    (hidle : (readOn s fn k).graphBit (pword w 1) (gloadEntry w) = false ∨
      ∀ r ∈ s.replays, r.fn = fn → r.table = pword w 1 → r.entry ≠ gloadEntry w) (hload : pword w 2 / 2 ^ 32 % 2 = 0)
    (him : (readOn s fn k).graphWritten (pword w 1) (gloadEntry w) = some im) : exec (.gload fn k) s =
      .next (completed ((readOn s fn k).setGraph fn (pword w 1) (gloadEntry w) (some im)) fn q.qloc (w.getD 6 0) (packetTag w) 0 0) := by
  show execGload fn k s = _
  rw [execGload, plainPacket_readOn h (by simp only [h.2.1, hload, decide_true, Bool.and_self]) (by decide), htarget, if_pos rfl, him]
  dsimp only
  rw [loadGraph_idle hidle]

theorem exec_gloadUnload (h : NextPacket s fn k 6 q w) (htarget : gloadTarget w = true)
    (hidle : (readOn s fn k).graphBit (pword w 1) (gloadEntry w) = false ∨
      ∀ r ∈ s.replays, r.fn = fn → r.table = pword w 1 → r.entry ≠ gloadEntry w) (hunload : pword w 2 / 2 ^ 32 % 2 = 1) :
    exec (.gloadUnload fn k) s =
      .next (completed ((readOn s fn k).setGraph fn (pword w 1) (gloadEntry w) none) fn q.qloc (w.getD 6 0) (packetTag w) 0 0) := by
  show execGloadUnload fn k s = _
  rw [execGloadUnload, plainPacket_readOn h (by simp only [h.2.1, hunload, decide_true, Bool.and_self]) (by decide), htarget, if_pos rfl, loadGraph_idle hidle]

end

theorem exec_gloadDeferredComplete {s : State} {j : Nat} {d : DeferredLoad} (hd : s.deferred[j]? = some d)
    (hdone : ∀ r ∈ s.replays, r.fn = d.fn → r.table = d.table → r.entry ≠ d.entry)
    (hstall : s.cpStalls d.fn d.compDev d.compAddr.toNat 16 true = false) : exec (.gloadDeferredComplete j) s =
      .next (completed ({ s with deferred := s.deferred.eraseIdx j }.setGraph d.fn d.table d.entry d.image)
        d.fn d.compDev d.compAddr d.tag 0 0) := by
  show execGloadDeferredComplete j s = _
  simp only [execGloadDeferredComplete, hd, replaying_eq_false hdone, hstall, Bool.or_self, Bool.false_eq_true, if_false, cpComplete_eq]
  rfl

end Sys2Proof.Claims

open Sys2Proof Sys2Proof.Machine Sys2Proof.Claims

/-- Settles O49: one lemma a packet, and what an entry of the graph table holds after it is set. -/
theorem repliesAndGraphs : Obligations.RepliesAndGraphs := by
  intro s fn k j q w p t g id im df s1 table entry ok answered idle
  refine ⟨fun h hp hwho ht hg hrun => ⟨fun hreplay => ?_, fun hdeliver => ?_⟩,
    fun h htarget hidle => ⟨exec_gload h htarget hidle, exec_gloadUnload h htarget hidle⟩,
    exec_gloadDeferredComplete, graph?_setGraph_some s fn table entry im, graph?_setGraph_none s fn table entry⟩
  · refine ⟨_, exec_pfreplyReplay h hp hreplay, ?_, resumeFault_teamIs hwho ht hg hrun⟩
    rw [State.resumeFault, hwho]
    rfl
  · exact ⟨_, (exec_pfreplyDeliver h hp hwho hdeliver).trans (congrArg _ (deliverPage_waiting hwho ht hg hrun))⟩
end

section
/-! Pages that move (spec 03 R85, R86; 24 R363; 26 R386). -/

namespace Sys2Proof.Claims
open Sys2Proof.Machine

/-! A byte store as a finite map. -/

theorem read_of_mem {m : Memory} (hm : Memory.wf m = true) {a : Nat} {v : Byte} (h : (a, v) ∈ m) : m.read a = v := by
  induction m with
  | nil => cases h
  | cons c m ih =>
    obtain ⟨-, hlt, hwf⟩ := (Memory.wf_cons c m).mp hm
    rcases List.mem_cons.mp h with rfl | h
    · rw [Memory.read, if_pos rfl]
    · have hc : c.1 < a := hlt _ h
      rw [Memory.read, if_neg (Nat.ne_of_gt hc), if_neg (Nat.not_lt_of_gt hc), ih hwf h]

theorem read_of_not_mem {m : Memory} {a : Nat} (h : ∀ c ∈ m, c.1 ≠ a) : m.read a = 0 := by
  induction m with
  | nil => rfl
  | cons c m ih =>
    rw [Memory.read, if_neg (h c List.mem_cons_self).symm, ih fun d hd => h d (List.mem_cons_of_mem _ hd), ite_self]

/-- An address is listed, with its byte, or it is not. -/
theorem listed_or_not (m : Memory) (a : Nat) : (∃ v, (a, v) ∈ m) ∨ ∀ c ∈ m, c.1 ≠ a := by
  by_cases h : ∃ v, (a, v) ∈ m
  · exact .inl h
  · exact .inr fun c hc he => h ⟨c.2, he ▸ hc⟩

/-- Leaving out entries of other addresses changes no byte. -/
theorem read_filter {m : Memory} (hm : Memory.wf m = true) {p : Host.Cell → Bool} {a : Nat} (hp : ∀ v, p (a, v) = true) :
    Memory.read (m.filter p) a = m.read a := by
  rcases listed_or_not m a with ⟨v, hv⟩ | h
  · rw [read_of_mem hm hv, read_of_mem (Memory.wf_filter p m hm) (List.mem_filter.mpr ⟨hv, hp v⟩)]
  · rw [read_of_not_mem h, read_of_not_mem fun c hc => h c (List.mem_of_mem_filter hc)]

/-! Bytes of a page that is copied to another place. -/

/-- Cells of a page at `old`, stored at their places in the page at `new`. -/
def putMoved (old new : Nat) (cs : List Host.Cell) (m : Memory) : Memory := cs.foldl (fun m c => m.write (c.1 - old + new) c.2) m

theorem move_eq (m : Memory) (old new size : Nat) : m.move old new size = putMoved old new (m.slice old size) (m.clear new size) := rfl

theorem read_putMoved_other {old new a : Nat} (cs : List Host.Cell) : ∀ {m : Memory}, Memory.wf m = true →
    (∀ c ∈ cs, a ≠ c.1 - old + new) → (putMoved old new cs m).read a = m.read a := by
  induction cs with
  | nil => exact fun _ _ => rfl
  | cons c cs ih =>
    intro m hm h
    refine (ih (Memory.wf_write m _ c.2 hm) fun d hd => h d (List.mem_cons_of_mem _ hd)).trans ?_
    exact Memory.read_write_other m _ a c.2 (h c List.mem_cons_self) hm

theorem read_putMoved_mem {old new i : Nat} {v : Byte} (cs : Memory) : ∀ {m : Memory}, Memory.wf m = true → Memory.wf cs = true →
    (∀ c ∈ cs, old ≤ c.1) → (old + i, v) ∈ cs → (putMoved old new cs m).read (new + i) = v := by
  induction cs with
  | nil => exact fun _ _ _ h => nomatch h
  | cons c cs ih =>
    intro m hm hcs hold h
    obtain ⟨-, hlt, hwf⟩ := (Memory.wf_cons c cs).mp hcs
    have hwrite := Memory.wf_write m (c.1 - old + new) c.2 hm
    rcases List.mem_cons.mp h with rfl | h
    · have hplace : old + i - old + new = new + i := by omega
      refine (read_putMoved_other cs hwrite fun d hd => ?_).trans ?_
      · have : old + i < d.1 := hlt d hd
        omega
      · show (m.write (old + i - old + new) v).read (new + i) = v
        rw [hplace, Memory.read_write_same m _ v hm]
    · exact ih hwrite hwf (fun d hd => hold d (List.mem_cons_of_mem _ hd)) h

theorem mem_slice {m : Memory} {a n : Nat} {c : Host.Cell} : c ∈ m.slice a n ↔ c ∈ m ∧ a ≤ c.1 ∧ c.1 < a + n := by
  simp [Memory.slice]

section
variable {m : Memory} (hm : Memory.wf m = true) {old new size : Nat}
include hm

/-- The page's bytes stand at the new place. -/
theorem read_move_inside {i : Nat} (hi : i < size) : (m.move old new size).read (new + i) = m.read (old + i) := by
  have hclear := Memory.wf_clear m new size hm
  rw [move_eq]
  rcases listed_or_not m (old + i) with ⟨v, hv⟩ | h
  · rw [read_of_mem hm hv]
    exact read_putMoved_mem _ hclear (Memory.wf_slice m old size hm) (fun c hc => (mem_slice.mp hc).2.1)
      (mem_slice.mpr ⟨hv, Nat.le_add_right _ _, Nat.add_lt_add_left hi _⟩)
  · have hempty : (m.clear new size).read (new + i) = 0 := read_of_not_mem fun c hc he => by
      have hc := (List.mem_filter.mp hc).2
      rw [he] at hc
      simp [hi] at hc
    rw [read_putMoved_other _ hclear fun c hc => ?_, hempty, read_of_not_mem h]
    have hne := h c (mem_slice.mp hc).1
    have hle := (mem_slice.mp hc).2.1
    omega

/-- Every byte outside the new place is as before. -/
theorem read_move_outside {a : Nat} (ha : a < new ∨ new + size ≤ a) : (m.move old new size).read a = m.read a := by
  rw [move_eq, read_putMoved_other _ (Memory.wf_clear m new size hm) fun c hc => ?_]
  · refine read_filter hm fun v => ?_
    simp only [Bool.not_eq_true', Bool.and_eq_false_iff, decide_eq_false_iff_not]
    omega
  · obtain ⟨-, hle, hlt⟩ := mem_slice.mp hc
    omega

end

/-! The entry of a page that has moved: PADDR is new, and TRANSIT, bit 5, is clear. -/

/-- A page table entry with TRANSIT set, by its fields. -/
theorem entry_fields {e : W64} (h : e.getLsbD 5 = true) : ∃ (top : BitVec 8) (paddr : BitVec 44) (flags : BitVec 6) (low : BitVec 5),
    e = top ++ paddr ++ flags ++ 1#1 ++ low := by
  have hbit : e.toNat / 2 ^ 5 % 2 = 1 := by
    rw [BitVec.getLsbD, Nat.testBit_eq_decide_div_mod_eq] at h
    exact of_decide_eq_true h
  refine ⟨e.extractLsb' 56 8, e.extractLsb' 12 44, e.extractLsb' 6 6, e.extractLsb' 0 5, BitVec.eq_of_toNat_eq ?_⟩
  simp only [Laws.RoundTrip.toNat_app, BitVec.extractLsb'_toNat, Nat.shiftRight_eq_div_pow, BitVec.toNat_ofNat]
  have := e.isLt
  omega

theorem page_fields {n : Nat} (hpage : n % 4096 = 0) (hlt : n < 2 ^ 56) :
    BitVec.ofNat 64 n = 0#8 ++ BitVec.ofNat 44 (n / 4096) ++ 0#6 ++ 0#1 ++ 0#5 := by
  apply BitVec.eq_of_toNat_eq
  simp only [Laws.RoundTrip.toNat_app, BitVec.toNat_ofNat]
  omega

theorem entryMask_fields : (0xFF00000000000FDF : W64) = BitVec.allOnes 8 ++ 0#44 ++ BitVec.allOnes 6 ++ 0#1 ++ BitVec.allOnes 5 := by decide

/-- The number that the completion stores is the entry with those two fields changed. -/
theorem entry_moved {e : W64} {n : Nat} (h : e.getLsbD 5 = true) (hpage : n % 4096 = 0) (hlt : n < 2 ^ 56) :
    BitVec.ofNat 64 (e.toNat % 2 ^ 12 + e.toNat / 2 ^ 56 * 2 ^ 56 - 0x20 + n) = (e &&& 0xFF00000000000FDF) ||| BitVec.ofNat 64 n := by
  obtain ⟨top, paddr, flags, low, rfl⟩ := entry_fields h
  have hmasked : (top ++ paddr ++ flags ++ 1#1 ++ low) &&& (BitVec.allOnes 8 ++ 0#44 ++ BitVec.allOnes 6 ++ 0#1 ++ BitVec.allOnes 5) |||
      (0#8 ++ BitVec.ofNat 44 (n / 4096) ++ 0#6 ++ 0#1 ++ 0#5) = top ++ BitVec.ofNat 44 (n / 4096) ++ flags ++ 0#1 ++ low := by
    simp only [BitVec.and_append, BitVec.or_append, BitVec.and_allOnes, BitVec.and_zero, BitVec.zero_or, BitVec.or_zero]
  rw [entryMask_fields, page_fields hpage hlt]
  refine Eq.trans (BitVec.eq_of_toNat_eq ?_) hmasked.symm
  simp only [Laws.RoundTrip.toNat_app, BitVec.toNat_ofNat]
  have := top.isLt
  have := paddr.isLt
  have := flags.isLt
  have := low.isLt
  omega

/-! The start. -/

theorem exec_pageMigrationStart {s : State} {P va target : Nat} {p : Leaf}
    (h : (s.leavesOf P).find? (fun p => decide (p.va ≤ va) && decide (va < p.va + p.size)) = some p) :
    exec (.pageMigrationStart P va target) s =
      .next (if s.springMoves P p target && s.movable p target then s.startMove P p target else s) := by
  show execPageMigrationStart P va target s = _
  unfold execPageMigrationStart
  rw [h]

theorem goes_iff (s : State) (P target : Nat) (p : Leaf) : (s.springMoves P p target && s.movable p target) = true ↔
    (s.tieredPage P p = true ∨ (isNear target = true ∧ (P, p.va, nearDie target) ∈ s.rehomed)) ∧ s.movable p target = true := by
  rw [State.springMoves, Bool.and_eq_true, Bool.or_eq_true, Bool.and_eq_true, List.contains_iff_mem]

/-! The completion. -/

/-- The memory after a page has moved. -/
def movedMem (s : State) (t : Transit) : Memory :=
  (s.mem.move t.oldPage t.newPage t.size).writeLe t.entry 8 ((s.mem.read64 t.entry).toNat % 2 ^ 12 +
    (s.mem.read64 t.entry).toNat / 2 ^ 56 * 2 ^ 56 - 0x20 + t.newPage)

/-- The state after a page has moved, where no stop waits. -/
def pageMoved (s : State) (k : Nat) (t : Transit) : State := State.follow { s with
  mem := movedMem s t
  transits := s.transits.eraseIdx k
  telemetry := { s.telemetry with
    pageRetired := (List.range (s.retiredIn t.oldPage t.size)).foldl (fun w _ => satInc w) s.telemetry.pageRetired }
  rehomed := s.rehomed.filter fun x => !(decide (x.1 = t.part) && decide (x.2.1 = t.va)) } t.oldPage t.newPage t.size

theorem exec_pageMigrationComplete {s : State} {k : Nat} {t : Transit} (ht : s.transits[k]? = some t) (hstops : s.stops = []) :
    exec (.pageMigrationComplete k) s = .next (pageMoved s k t) := by
  have hfinish : (pageMoved s k t).finishStops = pageMoved s k t := by
    have hnone : (pageMoved s k t).stops = [] := hstops
    rw [State.finishStops, hnone]
    rfl
  show execPageMigrationComplete k s = _
  rw [execPageMigrationComplete, ht]
  exact congrArg Host.Outcome.next hfinish

/-- A lake page that moves first is found at its new place. -/
theorem lakePlace_movedPages {old new size i : Nat} (hlake : isLake old = true) (hne : old ≠ new) (hi : i < size) :
    lakePlace (movedPages old new size []) (old + i) = new + i := by
  have hmoved : movedPages old new size [] = [(old, size, new)] := by simp [movedPages, hlake, hne]
  rw [hmoved, lakePlace, List.find?_cons_of_pos (by simp [hi]), Option.map_some, Option.getD_some]
  dsimp only
  omega

/-- No line of either place is left in an L1. -/
theorem l1_pageMoved {s : State} {k : Nat} {t : Transit} {c : Core} (hc : c ∈ (pageMoved s k t).cores) {n : L1Line} (hn : n ∈ c.l1)
    {a : Nat} (ha : n.start = .phys a) :
    (a < t.oldPage ∨ t.oldPage + t.size ≤ a) ∧ (a < t.newPage ∨ t.newPage + t.size ≤ a) := by
  obtain ⟨c0, -, rfl⟩ := List.mem_map.mp hc
  have hkeep := (List.mem_filter.mp hn).2
  rw [ha] at hkeep
  simp only [Bool.not_eq_true', Bool.or_eq_false_iff, decide_eq_false_iff_not] at hkeep
  omega

theorem rehomed_pageMoved (s : State) (k : Nat) (t : Transit) :
    (pageMoved s k t).rehomed = s.rehomed.filter fun x => decide (x.1 ≠ t.part ∨ x.2.1 ≠ t.va) := by
  refine List.filter_congr fun x _ => ?_
  simp only [ne_eq, ← not_and_or, decide_not, Bool.decide_and]

section
variable {s : State} {t : Transit} (hs : Memory.wf s.mem = true) (hentry : t.entry + 8 ≤ t.newPage ∨ t.newPage + t.size ≤ t.entry)

include hs in
theorem read64_movedMem (htransit : (s.mem.read64 t.entry).getLsbD 5 = true) (hpage : t.newPage % 4096 = 0) (hlt : t.newPage < 2 ^ 56) :
    (movedMem s t).read64 t.entry = (s.mem.read64 t.entry &&& 0xFF00000000000FDF) ||| BitVec.ofNat 64 t.newPage := by
  rw [movedMem, read64_writeLe (Memory.wf_move _ _ _ _ hs), entry_moved htransit hpage hlt]

include hs hentry in
theorem read_movedMem_inside {i : Nat} (hi : i < t.size) : (movedMem s t).read (t.newPage + i) = s.mem.read (t.oldPage + i) := by
  rw [movedMem, Memory.read_writeLe_other _ _ _ _ _ (Memory.wf_move _ _ _ _ hs) (by omega), read_move_inside hs hi]

include hs in
theorem read_movedMem_outside {a : Nat} (ha : a < t.newPage ∨ t.newPage + t.size ≤ a) (hapart : a < t.entry ∨ t.entry + 8 ≤ a) :
    (movedMem s t).read a = s.mem.read a := by
  rw [movedMem, Memory.read_writeLe_other _ _ _ _ _ (Memory.wf_move _ _ _ _ hs) hapart, read_move_outside hs ha]

end

end Sys2Proof.Claims

open Sys2Proof Sys2Proof.Machine Sys2Proof.Claims

/-- Settles O52: the start by its guard, and the completion by what the moved memory holds and by what follows the page. -/
theorem pagesMove : Obligations.PagesMove := by
  intro s P va target k p t hs
  refine ⟨fun hp => ⟨fun hgoes => ?_, fun hstays => ?_⟩, fun ht hstops hentry hapart htransit hpage hlt => ?_⟩
  · rw [exec_pageMigrationStart hp, if_pos ((goes_iff s P target p).mpr hgoes)]
    rfl
  · rw [exec_pageMigrationStart hp, if_neg fun h => hstays ((goes_iff s P target p).mp h)]
  · obtain ⟨hmem, -⟩ := hs
    refine ⟨pageMoved s k t, exec_pageMigrationComplete ht hstops, rfl, read64_movedMem hmem htransit hpage hlt,
      fun i hi => read_movedMem_inside hmem hentry hi, fun a => read_movedMem_outside hmem, fun hfirst hlake i hi => ?_,
      fun c hc n hn a => l1_pageMoved hc hn, rehomed_pageMoved s k t, fun q hq => ?_, rfl, rfl⟩
    · have hmoved : (pageMoved s k t).moved = movedPages t.oldPage t.newPage t.size s.moved := rfl
      rw [hmoved, hfirst, lakePlace_movedPages hlake (by omega) hi]
    · obtain ⟨q0, hq0, rfl⟩ := List.mem_map.mp hq
      exact ⟨q0, hq0, rfl⟩
end

section
/-! Graph replays (spec 12 R245-R259; 19 R299; 03 R74). -/

namespace Sys2Proof.Claims
open Sys2Proof.Machine

/-! Replays by their number. -/

theorem replay?_id {s : State} {R : Nat} {r : Replay} (h : s.replay? R = some r) : r.id = R := by
  simpa using List.find?_some h

/-- A replay that was changed is found under its number. -/
theorem replay?_replaysWith {s t : State} {R : Nat} {r : Replay} (h : s.replay? R = some r) {f : Replay → Replay}
    (hf : ∀ x, (f x).id = x.id) (ht : t.replays = replaysWith s R f) : t.replay? R = some (f r) := by
  have hfind := find_map_same (fun x : Replay => decide (x.id = R)) f s.replays r h (by simp [hf])
  simpa [State.replay?, ht, replaysWith] using hfind

/-! FGRAPH (12 R257). -/

/-- The release of an instruction that has nothing to wait for. -/
theorem wideRelease_done {s : State} {c : Ctx} (hs : c.s = s) (hheld : c.group.heldHere = none) (hlost : c.team.lost = 0)
    (hacked : s.unackedOf c.id.team = []) (i : Instr) (ch : Option Nat) (k : Unit → Res) : c.wideRelease i ch k = k () :=
  release_done (wide := true) hs hheld (fun _ => ⟨hlost, hacked⟩) i ch k

section
variable {s : State} {c : Ctx} {d a b : BitVec 8} {im : GraphImage} {hs : List Hit}

/-- The replay that an FGRAPH starts. -/
def startedReplay (s : State) (c : Ctx) (a : BitVec 8) (im : GraphImage) (hs : List Hit) : Replay :=
  ⟨s.nextId, c.die, c.id, s.nextId, c.launch.fn, c.launch.graphTab, (c.readS a).toNat, im,
    hs.map (fun x => BitVec.ofNat 64 (leNat ((spans x.loc 8).map s.readLoc))), im.nodes.map (·.npred),
    im.nodes.map (fun _ => .idle), 0, 0, false, false, [], [], none, []⟩

/-- FGRAPH with its operands, its image and its base table checked. -/
theorem fgraph_checks (hi : Issuing s c) (ho : outside c = true) (hd : dstS c d = true) (ha : srcS c a = true) (hb : srcS c b = true)
    (hacc : mayAccess s c) (hentry : (c.readS a).toNat < c.launch.ngraph)
    (him : s.graph? c.launch.fn c.launch.graphTab (c.readS a).toNat = some im)
    (hbase : s.checkBase c.launch c.id.team c.die (c.readS b) im.nbase = .ok hs) : exec (.fgraph d a b) s =
      if 16 ≤ s.replaysOn c.die then c.held .barrier
      else if s.loadHeld c.id (hs.flatMap fun x => spans x.loc 8) then .next s
      else c.wideRelease (.fgraph d a b) none fun _ =>
        .next { ((s.markHits hs false).trafficTo c.die hs).setGroup c.id (c.group.pendS d s.nextId).advance with
          nextId := s.nextId + 1
          replays := s.replays ++ [startedReplay s c a im hs] } := by
  have hmet : ∀ n ∈ [Need.dstS 0 d, .srcS 1 .epa a, .srcS 2 .epb b, .access], n.met c = true := by
    simp only [List.forall_mem_cons, List.not_mem_nil, IsEmpty.forall_iff, implies_true, and_true]
    exact ⟨met_dstS hd _, met_srcS ha _ _, met_srcS hb _ _, met_access hi.state hacc⟩
  have hgraph : c.graphOf (c.readS a) = some im := by rw [Ctx.graphOf, if_pos hentry, hi.state, him]
  have hreplays : (((s.markHits hs false).trafficTo c.die hs).setGroup c.id (c.group.pendS d s.nextId).advance).replays = s.replays := by
    rw [trafficTo_frame, markHits_frame]
    rfl
  show execFgraph d a b s = _
  unfold execFgraph
  rw [issue_of_met _ _ _ hi ho hmet]
  simp only [hgraph]
  rw [check_ok c _ rfl, check_ok c _ (hi.state ▸ hbase)]
  simp only [hi.state, hreplays, loadLoc_eq, bytesOf_spans]
  rfl

/-- A seventeenth replay of a Forager waits. -/
theorem exec_fgraph_full (hi : Issuing s c) (ho : outside c = true) (hd : dstS c d = true) (ha : srcS c a = true) (hb : srcS c b = true)
    (hacc : mayAccess s c) (hentry : (c.readS a).toNat < c.launch.ngraph)
    (him : s.graph? c.launch.fn c.launch.graphTab (c.readS a).toNat = some im)
    (hbase : s.checkBase c.launch c.id.team c.die (c.readS b) im.nbase = .ok hs) (hfull : 16 ≤ s.replaysOn c.die) :
    Waits s c (exec (.fgraph d a b) s) .barrier := by
  rw [fgraph_checks hi ho hd ha hb hacc hentry him hbase, if_pos hfull, Ctx.held, hi.state]
  rfl

/-- A replay starts once no store of the group to its base table and no operation of its channels is awaited. -/
theorem exec_fgraph_starts (hi : Issuing s c) (ho : outside c = true) (hd : dstS c d = true) (ha : srcS c a = true) (hb : srcS c b = true)
    (hacc : mayAccess s c) (hentry : (c.readS a).toNat < c.launch.ngraph)
    (him : s.graph? c.launch.fn c.launch.graphTab (c.readS a).toNat = some im)
    (hbase : s.checkBase c.launch c.id.team c.die (c.readS b) im.nbase = .ok hs) (hfree : s.replaysOn c.die < 16)
    (hheld : s.loadHeld c.id (hs.flatMap fun x => spans x.loc 8) = false) (hhere : c.group.heldHere = none) (hlost : c.team.lost = 0)
    (hacked : s.unackedOf c.id.team = []) : exec (.fgraph d a b) s =
      .next { ((s.markHits hs false).trafficTo c.die hs).setGroup c.id (c.group.pendS d s.nextId).advance with
        nextId := s.nextId + 1
        replays := s.replays ++ [startedReplay s c a im hs] } := by
  rw [fgraph_checks hi ho hd ha hb hacc hentry him hbase, if_neg (Nat.not_le.mpr hfree), hheld, if_neg Bool.false_ne_true]
  exact wideRelease_done hi.state hhere hlost hacked _ _ _

end

/-! Reading the source of a WAIT or LAUNCH node. -/

theorem filterMap_hits (hs : List Hit) : (hs.map Tr.ok).filterMap Tr.hit? = hs := by
  rw [List.filterMap_map]
  exact List.filterMap_some

theorem nodeRead_ok {s : State} {l : Launch} {r : Replay} {i : Nat} {x : GraphNode} {n : Nat} {hs : List Hit}
    (h : s.sourceHits l r i x n = hs.map .ok) (hready : ∀ h ∈ hs, s.locReady h.loc = true) (f : State → List Hit → State) :
    s.nodeRead l r i x n f = .next (f (s.trafficTo r.die hs) hs) := by
  have hlength : hs.length = n := by
    have := congrArg List.length h
    simpa [State.sourceHits] using this.symm
  have hstopped : (hs.map Tr.ok).findSome? Tr.stopped? = none := by
    rw [List.findSome?_eq_none_iff]
    intro y hy
    obtain ⟨x, -, rfl⟩ := List.mem_map.mp hy
    rfl
  have hpaged : (hs.map Tr.ok).findSome? Tr.paged? = none := by
    rw [List.findSome?_eq_none_iff]
    intro y hy
    obtain ⟨x, -, rfl⟩ := List.mem_map.mp hy
    rfl
  have hall : (hs.all fun h => s.locReady h.loc) = true := List.all_eq_true.mpr hready
  unfold State.nodeRead
  rw [h]
  dsimp only
  rw [hstopped, hpaged, filterMap_hits]
  simp only [hlength, hall, decide_true, Bool.and_self, if_true]

/-! A node starts. -/

section
variable {s : State} {R N : Nat} {r : Replay} {l : Launch} {n : GraphNode} {spad : List (BitVec 8)} {text cls : Nat}

/-- WAIT and LAUNCH nodes transfer nothing. -/
theorem transfer_none (h : 4 < n.kind) : r.transfer n = none := by
  unfold Replay.transfer
  extract_lets
  rw [if_neg (by omega), if_neg (by omega), if_neg (by omega), if_neg (by omega), if_neg (by omega)]

/-- The replay with a WAIT or LAUNCH node started, and the window of its source of `k` bytes. -/
def beginNode (s : State) (l : Launch) (r : Replay) (n : GraphNode) (N k : Nat) (x : Replay) : Replay :=
  { x with
    states := x.states.set N .started
    waitAt := x.waitAt ++ ((s.sourceWindow l r n k).map fun w => (N, w)).toList }

variable (hr : s.replay? R = some r) (hl : s.launch? r.group.team.launch = some l) (hn : r.image.nodes[N]? = some n)

theorem sent_not_unsent (hsent : r.sent = true ∨ r.image.insts = []) : r.unsent = false := by
  rcases hsent with h | h <;> simp [Replay.unsent, h]

include hr hl hn in
/-- The node that is next starts, where it transfers. -/
theorem exec_nodeStart_transfer (hpaged : r.paged = false) (hsent : r.sent = true ∨ r.image.insts = []) (hnext : r.startsNext N = true)
    {tr : Transfer} (htr : r.transfer n = some tr) :
    exec (.foragerNodeStart R N spad text cls) s = .next (s.startTransfer l r N n tr) := by
  show execForagerNodeStart R N spad text cls s = _
  unfold execForagerNodeStart
  rw [hr]
  dsimp only
  rw [hl, hn]
  simp only [hpaged, sent_not_unsent hsent, hnext, htr, Bool.not_true, Bool.false_eq_true, if_false]

include hr hl hn in
/-- The node that is next starts, where it only reads. -/
theorem exec_nodeStart_read (hpaged : r.paged = false) (hsent : r.sent = true ∨ r.image.insts = []) (hnext : r.startsNext N = true)
    (htr : r.transfer n = none) : exec (.foragerNodeStart R N spad text cls) s = if n.kind = 5 then .next (s.startRead l r N n 8)
      else (s.startRead l r N n 64).launchNode l R N n spad text cls := by
  show execForagerNodeStart R N spad text cls s = _
  unfold execForagerNodeStart
  rw [hr]
  dsimp only
  rw [hl, hn]
  simp only [hpaged, sent_not_unsent hsent, hnext, htr, Bool.not_true, Bool.false_eq_true, if_false]

include hr in
theorem startRead_passes {k : Nat} (hcode : s.sourceCode l r n k = 0) :
    s.startRead l r N n k = { s with replays := replaysWith s R (beginNode s l r n N k) } := by
  unfold State.startRead
  rw [hcode, replay?_id hr]
  rfl

include hr in
theorem startTransfer_passes {tr : Transfer} (hcode : s.transferCode l r n tr = 0) : s.startTransfer l r N n tr =
    { s with
      replays := replaysWith s R fun x => { x with states := x.states.set N .started }
      nextId := s.nextId + 1
      copies := s.copies ++ [s.newCopy l r.die r.group n.ch tr.always (some (R, N)) tr.work
        ((tr.src.head?.map fun x => mkPtr x.1 x.2.1).getD 0) (mkPtr tr.dst.1 tr.dst.2.1)
        ((tr.src.head?.map fun x => x.2.2).getD 0) tr.dst.2.2 []] } := by
  unfold State.startTransfer
  rw [hcode, replay?_id hr]
  rfl

/-- The state of a node that was ready, once it has started. -/
theorem started_of_startsNext (hnext : r.startsNext N = true) (k : Nat) :
    (beginNode s l r n N k r).states[N]? = some .started := by
  have hidle : r.states[N]? = some .idle := by
    simp only [Replay.startsNext, Bool.and_eq_true, decide_eq_true_eq] at hnext
    exact hnext.1.2.1
  exact List.getElem?_set_self (List.getElem?_eq_some_iff.mp hidle).1

/-- A LAUNCH node that has started and submitted nothing reads its packet. -/
theorem launchNode_reads (hr : s.replay? R = some r) (hkind : n.kind = 6) (hstarted : r.states[N]? = some .started)
    (hfirst : ∀ y ∈ s.launches, y.node ≠ some (R, N)) : s.launchNode l R N n spad text cls =
      s.nodeRead l r N n 64 fun s hs => s.submitNode l r N hs spad text cls := by
  have hany : (s.launches.any fun y => decide (y.node = some (R, N))) = false := by
    rw [List.any_eq_false]
    exact fun y hy => by simpa using hfirst y hy
  unfold State.launchNode
  rw [hr]
  simp only [hkind, hstarted, hany]
  simp

end

section
variable {s : State} {R N : Nat} {r : Replay} {l : Launch} {n : GraphNode} {hs : List Hit}

/-- The state with a WAIT or LAUNCH node started. -/
def nodeBegun (s : State) (R : Nat) (l : Launch) (r : Replay) (n : GraphNode) (N k : Nat) : State :=
  { s with replays := replaysWith s R (beginNode s l r n N k) }

/-- A LAUNCH node that is next starts, reads its packet and submits what it describes. -/
theorem exec_launchNode (hr : s.replay? R = some r) (hl : s.launch? r.group.team.launch = some l) (hn : r.image.nodes[N]? = some n)
    (hpaged : r.paged = false) (hsent : r.sent = true ∨ r.image.insts = []) (hnext : r.startsNext N = true) (hkind : n.kind = 6)
    (hcode : s.sourceCode l r n 64 = 0) (hfirst : ∀ y ∈ s.launches, y.node ≠ some (R, N))
    (hread : (nodeBegun s R l r n N 64).sourceHits l (beginNode s l r n N 64 r) N n 64 = hs.map .ok)
    (hready : ∀ h ∈ hs, (nodeBegun s R l r n N 64).locReady h.loc = true) (spad : List (BitVec 8)) (text cls : Nat) :
    exec (.foragerNodeStart R N spad text cls) s = .next (((nodeBegun s R l r n N 64).trafficTo r.die hs).submitNode l
      (beginNode s l r n N 64 r) N hs spad text cls) := by
  have hbegun : (nodeBegun s R l r n N 64).replay? R = some (beginNode s l r n N 64 r) := replay?_replaysWith hr (fun _ => rfl) rfl
  rw [exec_nodeStart_read hr hl hn hpaged hsent hnext (transfer_none (by omega)), if_neg (by omega), startRead_passes hr hcode]
  exact (launchNode_reads hbegun hkind (started_of_startsNext hnext 64) hfirst).trans (nodeRead_ok hread hready _)

end

/-! The launch of a LAUNCH node (12 R249). -/

/-- A launch of a graph node looks for no splice consumer, so that nothing but the list of launches changes. -/
theorem addLaunch_node {s : State} {x : Launch} {node : Nat × Nat} (h : x.node = some node) :
    ∃ x', s.addLaunch x = { s with launches := s.launches ++ [x'] } ∧ x' = { x with stage := x'.stage } := by
  have hlook : s.looksForPair x = false := by simp [State.looksForPair, h]
  have hmark : s.markPair x = s := by
    unfold State.markPair
    rw [State.pairFound, hlook]
    rfl
  refine ⟨{ x with stage := if s.waitsDone x then s.afterWaits x else .waiting }, ?_, rfl⟩
  unfold State.addLaunch
  rw [hmark, ite_self]

section
variable {s : State} {l : Launch} {r : Replay} {N : Nat} {hs : List Hit} {spad : List (BitVec 8)} {text cls : Nat} {dw : List W64}

theorem submitNode_submits :
    let q := (s.fns.getD l.fn Fn.reset).queues.getD l.queue Queue.reset
    let pw := bytesWords (hs.map fun h => s.readLoc h.loc) 8
    let x := s.launchOf l.fn l.queue q pw dw spad text [] (some (r.id, N))
    s.cpStalls l.fn q.qloc (pword pw 6) 96 true = false → packetKind pw = 1 → packetWellFormed pw = true → s.descriptor pw = some dw →
    s.refusal dw x cls = 0 → (cls = 0 → s.codeStalls x x.textBytes = false) →
    ∃ x', s.submitNode l r N hs spad text cls = { s.markHits hs false with nextId := s.nextId + 1, launches := s.launches ++ [x'] } ∧
      x' = { x with stage := x'.stage } := by
  intro q pw x hstall hkind hformed hdesc hrefusal hcode
  have hheld : ¬ (cls = 0 ∧ s.codeStalls x x.textBytes = true) := fun h => by
    rw [hcode h.1] at h
    exact absurd h.2 Bool.false_ne_true
  have hlaunches : (s.markHits hs false).launches = s.launches := by rw [markHits_frame]
  obtain ⟨x', hadded, hstage⟩ := addLaunch_node (s := { s.markHits hs false with nextId := s.nextId + 1 }) (x := x) rfl
  refine ⟨x', Eq.trans ?_ (hlaunches ▸ hadded), hstage⟩
  unfold State.submitNode
  extract_lets refuse s1
  have hread : (decide (packetKind pw = 1) && packetWellFormed pw) = true := by rw [hkind, hformed]; rfl
  rw [hstall, if_neg Bool.false_ne_true, hread, if_pos rfl, hdesc]
  dsimp only
  rw [if_neg hheld, hrefusal, if_neg (not_not.mpr rfl)]

end

/-! A node completes. -/

section
variable {s : State} {R N : Nat} {r : Replay}

theorem exec_nodeComplete_met (hr : s.replay? R = some r) (hmet : r.states[N]? = some .met) :
    exec (.foragerNodeComplete R N) s = .next { s with replays := replaysWith s R fun x => x.complete N } := by
  show execForagerNodeComplete R N s = _
  unfold execForagerNodeComplete
  rw [hr]
  dsimp only
  rw [if_pos hmet]
  rfl

theorem exec_nodeComplete_copy {k : CopyCmd} (hr : s.replay? R = some r) (hstarted : r.states[N]? = some .started)
    (hk : s.copies.find? (fun y => decide (y.node = some (R, N))) = some k) (hended : s.copyEnded k = true) (hcode : k.code = 0) :
    exec (.foragerNodeComplete R N) s = .next { s with
      copies := s.copies.filter fun y => decide (y.id ≠ k.id)
      replays := replaysWith s R fun x => x.complete N } := by
  have hmet : r.states[N]? ≠ some .met := fun h => by rw [hstarted] at h; cases h
  show execForagerNodeComplete R N s = _
  unfold execForagerNodeComplete
  rw [hr]
  dsimp only
  rw [if_neg hmet, if_neg (not_not.mpr hstarted), hk]
  dsimp only
  rw [hended, if_pos rfl]
  simp only [hcode, if_true]
  rfl

/-- A WAIT looks at its flag again. -/
theorem exec_waitRecheck {l : Launch} {n : GraphNode} {hs : List Hit} (hr : s.replay? R = some r)
    (hl : s.launch? r.group.team.launch = some l) (hn : r.image.nodes[N]? = some n) (hkind : n.kind = 5)
    (hstarted : r.states[N]? = some .started) (hread : s.sourceHits l r N n 8 = hs.map .ok)
    (hready : ∀ h ∈ hs, s.locReady h.loc = true) : exec (.foragerWaitRecheck R N) s =
      .next (((s.trafficTo r.die hs).markHits hs false).mapReplay R fun x =>
        if reached64 (BitVec.ofNat 64 (leNat (hs.map fun h => (s.trafficTo r.die hs).readLoc h.loc))) n.value then x.setNode N .met
        else x) := by
  show execForagerWaitRecheck R N s = _
  unfold execForagerWaitRecheck
  rw [hr]
  dsimp only
  rw [hl, hn]
  simp only [hkind, hstarted, ne_eq, not_true, decide_false, Bool.or_self, Bool.false_eq_true, if_false]
  exact nodeRead_ok hread hready _

/-- The condition of the WAIT is met. -/
theorem exec_waitRecheck_met {l : Launch} {n : GraphNode} {hs : List Hit} (hr : s.replay? R = some r)
    (hl : s.launch? r.group.team.launch = some l) (hn : r.image.nodes[N]? = some n) (hkind : n.kind = 5)
    (hstarted : r.states[N]? = some .started) (hread : s.sourceHits l r N n 8 = hs.map .ok)
    (hready : ∀ h ∈ hs, s.locReady h.loc = true)
    (hmet : reached64 (BitVec.ofNat 64 (leNat (hs.map fun h => (s.trafficTo r.die hs).readLoc h.loc))) n.value = true) :
    let s1 := (s.trafficTo r.die hs).markHits hs false
    exec (.foragerWaitRecheck R N) s =
      .next { s1 with replays := replaysWith s1 R fun x => { x with states := x.states.set N .met } } := by
  rw [exec_waitRecheck hr hl hn hkind hstarted hread hready, hmet]
  rfl

/-- It is not. -/
theorem exec_waitRecheck_unmet {l : Launch} {n : GraphNode} {hs : List Hit} (hr : s.replay? R = some r)
    (hl : s.launch? r.group.team.launch = some l) (hn : r.image.nodes[N]? = some n) (hkind : n.kind = 5)
    (hstarted : r.states[N]? = some .started) (hread : s.sourceHits l r N n 8 = hs.map .ok)
    (hready : ∀ h ∈ hs, s.locReady h.loc = true)
    (hmet : reached64 (BitVec.ofNat 64 (leNat (hs.map fun h => (s.trafficTo r.die hs).readLoc h.loc))) n.value = false) :
    let s1 := (s.trafficTo r.die hs).markHits hs false
    exec (.foragerWaitRecheck R N) s = .next { s1 with replays := replaysWith s1 R id } := by
  rw [exec_waitRecheck hr hl hn hkind hstarted hread hready, hmet]
  rfl

end

/-! The status of a replay (12 R258). -/

theorem clearL1Of_frame (s : State) (id : TeamId) : s.clearL1Of id = { s with cores := (s.clearL1Of id).cores } := by
  unfold State.clearL1Of
  split <;> rfl

/-- The core of the team gives up the lines of its L1. -/
theorem clearL1Of_l1Cleared {s s1 : State} {id : TeamId} (hcores : s1.cores = s.cores)
    (hcore : (s1.team? id).bind Team.core? = (s.team? id).bind Team.core?) : L1Cleared s (s1.clearL1Of id) id := by
  rw [L1Cleared, ← hcore, ← hcores]
  unfold State.clearL1Of
  cases (s1.team? id).bind Team.core? with
  | none => exact ⟨rfl, fun k x hx => by simpa using hx⟩
  | some core =>
    refine ⟨List.length_modify .., fun k x hx => ?_⟩
    simp only [State.clearL1, State.mapCore, List.getElem?_modify, hx, Option.map_eq_map, Option.map_some, Option.some.injEq]

section
variable {s : State} {R : Nat} {r : Replay} {t : Team} {g : Group}

/-- The group with the status of a replay, and its collective event. -/
def replayStatus (r : Replay) (g : Group) : Group :=
  { scalarBack r.prod (BitVec.ofNat 64 (r.code.toNat + r.codeNode * 2 ^ 8)) g with evCollective := g.evCollective ++ r.event }

/-- The state with the status written back, before the L1 is cleared. -/
def statusGiven (s : State) (r : Replay) : State :=
  (s.mapGroup r.group (replayStatus r)).mapTeam r.group.team fun t => { t with saveBarred := false }

theorem exec_replayComplete (hr : s.replay? R = some r) (hended : r.ended = true) : exec (.replayComplete R) s =
    .next { (statusGiven s r).clearL1Of r.group.team with replays := s.replays.filter fun x => decide (x.id ≠ R) } := by
  show execReplayComplete R s = _
  unfold execReplayComplete
  rw [hr]
  dsimp only
  rw [hended, if_pos rfl]
  rfl

theorem statusGiven_team (ht : s.team? r.group.team = some t) (hg : t.groups[r.group.group]? = some g) :
    (statusGiven s r).team? r.group.team = some { t with
      groups := t.groups.set r.group.group (replayStatus r g)
      saveBarred := false } := by
  have hset : t.groups.modify r.group.group (replayStatus r) = t.groups.set r.group.group (replayStatus r g) := by
    rw [List.modify_eq_set_getElem?, hg]
    rfl
  have hgroup := s.team?_mapTeam r.group.team (fun t => { t with groups := t.groups.modify r.group.group (replayStatus r) }) t ht fun _ => rfl
  rw [← hset]
  exact (s.mapGroup r.group (replayStatus r)).team?_mapTeam r.group.team (fun t => { t with saveBarred := false }) _ hgroup fun _ => rfl

theorem statusGiven_other {u : TeamId} (hu : u ≠ r.group.team) : (statusGiven s r).team? u = s.team? u :=
  ((s.mapGroup r.group (replayStatus r)).team?_mapTeam_other r.group.team u (fun t => { t with saveBarred := false }) (fun _ => rfl) hu).trans
    (s.team?_mapTeam_other r.group.team u _ (fun _ => rfl) hu)

theorem event_of_mismatch {y : W32} (hcode : r.code = 6) (hy : r.mismatch = some y) :
    r.event = [(BitVec.ofNat 64 r.entry, y.zeroExtend 64)] := by
  rw [Replay.event, if_pos hcode, hy]
  rfl

theorem event_none (h : r.code ≠ 6 ∨ r.mismatch = none) : r.event = [] := by
  unfold Replay.event
  split
  · next hcode => rw [h.resolve_left (not_not.mpr hcode)]; rfl
  · rfl

end

/-! Signatures (12 R254-R256; 19 R299). -/

section
variable {s : State} {R : Nat} {r : Replay} {l : Launch} {i : InstRec} {x : Member}

/-- A member's signature waited for by a replay, and by no other. -/
def AwaitedAlone (s : State) (R : Nat) (r : Replay) (inst : W32) (x : Member) : Prop := r.awaits inst x = true ∧
  ∀ y ∈ s.replays, y.id ≠ R → y.unsent = false ∧ y.awaits inst x = false

theorem sent_of_awaits {inst : W32} (h : r.awaits inst x = true) : r.unsent = false := by
  rw [Replay.awaits, Bool.and_eq_true] at h
  simp [Replay.unsent, h.1]

/-- A replay that meets a condition which no replay of another number meets is the one that is found. -/
theorem find_replay {p : Replay → Bool} (hr : s.replay? R = some r) (hp : p r = true)
    (hother : ∀ y ∈ s.replays, y.id ≠ R → p y = false) : (s.replays.find? p).map (·.id) = some R := by
  cases h : s.replays.find? p with
  | none => exact absurd hp (List.find?_eq_none.mp h r (List.mem_of_find?_eq_some hr))
  | some y =>
    by_contra hne
    have hid : y.id ≠ R := fun he => hne (congrArg some he)
    have := hother y (List.mem_of_find?_eq_some h) hid
    rw [List.find?_some h] at this
    cases this

/-- The replay with a signature counted. -/
def hears (i : InstRec) (x : Member) (sentBy : Option Nat) (same : Bool) (y : Replay) : Replay :=
  { y with sigs := y.sigs ++ [⟨i.inst, x, sentBy, same⟩] }

/-- An unequal signature of a collective has stopped the replay, and no copy of a node of it that had started is left. -/
def Stopped (R : Nat) (r : Replay) (inst : W32) (t : State) : Prop :=
  ∃ r', t.replay? R = some r' ∧ r'.mismatch = some (r.mismatch.getD inst) ∧ (r.code = 0 → r'.code = 6) ∧
    ∀ y ∈ t.copies, ∀ j x, y.node = some (R, j) → r.image.nodes[j]? = some x → x.inst = inst → r.states[j]? ≠ some .started

theorem takeSignature_equal (hr : s.replay? R = some r) (s0 : State) (hs0 : s0.replays = s.replays) (sentBy : Option Nat) :
    s0.takeSignature r i x sentBy i.signature = { s0 with replays := replaysWith s R (hears i x sentBy true) } := by
  unfold State.takeSignature
  rw [if_pos rfl, decide_eq_true rfl, replay?_id hr, State.mapReplay, hs0]
  rfl

/-- The started nodes of a collective, which an unequal signature holds. -/
def heldNodes (r : Replay) (inst : W32) : List Nat := (List.range r.states.length).filter fun j =>
  ((r.image.nodes[j]?).map fun n => decide (n.inst = inst)).getD false && decide (r.states[j]? = some .started)

theorem mem_heldNodes {inst : W32} {j : Nat} {n : GraphNode} (hn : r.image.nodes[j]? = some n) (hinst : n.inst = inst)
    (hstarted : r.states[j]? = some .started) : j ∈ heldNodes r inst := by
  refine List.mem_filter.mpr ⟨List.mem_range.mpr (List.getElem?_eq_some_iff.mp hstarted).1, ?_⟩
  simp [hn, hinst, hstarted]

/-- What an unequal signature makes of the replay. -/
def stopReplay (r : Replay) (inst : W32) (x : Replay) : Replay := { x with
  code := if x.code = 0 then 6 else x.code
  codeNode := if x.code = 0 then (heldNodes r inst).head?.getD (r.image.instNode inst) else x.codeNode
  mismatch := x.mismatch.or (some inst)
  states := x.states.zipIdx.map fun y => if (heldNodes r inst).contains y.2 then .done else y.1 }

theorem mismatched_eq (s : State) (r : Replay) (inst : W32) : s.mismatched r inst = { s with
    replays := replaysWith s r.id (stopReplay r inst)
    copies := s.copies.filter fun k => !((heldNodes r inst).any fun j => decide (k.node = some (r.id, j))) } := rfl

theorem takeSignature_unequal (hr : s.replay? R = some r) {sig : Signature} (hsig : sig ≠ i.signature) (s0 : State)
    (hs0 : s0.replays = s.replays) (sentBy : Option Nat) : Stopped R r i.inst (s0.takeSignature r i x sentBy sig) ∧
      s0.takeSignature r i x sentBy sig = { s0 with
        replays := (s0.takeSignature r i x sentBy sig).replays
        copies := (s0.takeSignature r i x sentBy sig).copies } := by
  have hid := replay?_id hr
  have hheard : (s0.mapReplay R (hears i x sentBy false)).replay? R = some (hears i x sentBy false r) :=
    replay?_replaysWith hr (fun _ => rfl) (by rw [State.mapReplay, hs0]; rfl)
  have htake : s0.takeSignature r i x sentBy sig = (s0.mapReplay R (hears i x sentBy false)).mismatched r i.inst := by
    unfold State.takeSignature
    rw [if_neg hsig, decide_eq_false hsig, hid]
    rfl
  rw [htake, mismatched_eq, hid]
  refine ⟨⟨_, replay?_replaysWith hheard (f := stopReplay r i.inst) (fun _ => rfl) rfl, ?_, fun hcode => ?_, fun y hy j n hnode hn hinst hstarted => ?_⟩, rfl⟩
  · show r.mismatch.or (some i.inst) = _
    cases r.mismatch <;> rfl
  · exact if_pos hcode
  · have hkeep := (List.mem_filter.mp hy).2
    rw [Bool.not_eq_true', List.any_eq_false] at hkeep
    exact hkeep j (mem_heldNodes hn hinst hstarted) (decide_eq_true hnode)

/-- The word of R254 declares a collective as the replay's image does. -/
theorem signatureOf_eq_iff (i : InstRec) (w : W64) : signatureOf i.inst w = i.signature ↔
    w.toNat % 2 ^ 32 = i.count.toNat ∧ w.toNat / 2 ^ 32 % 16 = i.typ ∧ w.toNat / 2 ^ 36 % 16 = i.op := by
  have hcount : BitVec.ofNat 32 w.toNat = i.count ↔ w.toNat % 2 ^ 32 = i.count.toNat := by
    rw [← BitVec.toNat_inj, BitVec.toNat_ofNat]
  rw [← hcount]
  simp only [signatureOf, InstRec.signature, Signature.mk.injEq, true_and]
  exact Iff.rfl

variable (hr : s.replay? R = some r) (hl : s.launch? r.group.team.launch = some l)
  (hi : r.image.insts.find? (fun x => decide (x.inst = i.inst)) = some i)

include hr hl hi in
/-- A signature from another module. -/
theorem exec_signature_foreign {m : Nat} (halone : AwaitedAlone s R r i.inst (.module m)) (hgang : l.gang ≠ 0) (w : W64) :
    exec (.collectiveSignature m R i.inst (some w)) s = .next (s.takeSignature r i (.module m) none (signatureOf i.inst w)) := by
  have hinst : r.image.inst? i.inst = some i := hi
  have hmeets : (s.meetsForeign l.gang i.inst m).map (·.id) = some R := by
    refine find_replay hr ?_ fun y hy hne => ?_
    · simp only [hinst, halone.1, hl, hgang, Option.isSome_some, Option.map_some, Option.getD_some, Bool.or_true, Bool.and_true, decide_true,
        ne_eq, not_false_eq_true]
    · simp [halone.2 y hy hne]
  show execCollectiveSignature m R i.inst (some w) s = _
  unfold execCollectiveSignature
  rw [hr]
  dsimp only
  rw [hl, hinst]
  dsimp only
  rw [sent_of_awaits halone.1, if_neg Bool.false_ne_true, if_pos hmeets]

include hr hl hi in
/-- A signature under way on this module. -/
theorem exec_signature_here {k : Nat} {sg : SigMsg} (hk : s.signatures[k]? = some sg) (hsig : sg.sig.inst = i.inst)
    (hdest : sg.dest = .die r.die) (horigin : R ≠ sg.origin.replay) (halone : AwaitedAlone s R r i.inst (.die sg.origin.die))
    (hjob : sameJob l sg.origin.launch sg.origin.gang = true) : exec (.collectiveSignature k R i.inst none) s =
      .next (({ s with signatures := s.signatures.eraseIdx k } : State).takeSignature r i (.die sg.origin.die) (some sg.origin.replay)
        sg.sig) := by
  have hinst : r.image.inst? i.inst = some i := hi
  have hmeets : (s.meets sg.origin sg.dest sg.sig.inst).map (·.id) = some R := by
    refine find_replay hr ?_ fun y hy hne => ?_
    · simp [hdest, replay?_id hr, horigin, hsig, hinst, halone.1, hl, hjob]
    · simp [hsig, halone.2 y hy hne]
  show execCollectiveSignature k R i.inst none s = _
  unfold execCollectiveSignature
  rw [hr]
  dsimp only
  rw [hl, hinst]
  dsimp only
  rw [sent_of_awaits halone.1, if_neg Bool.false_ne_true, hk]
  dsimp only
  rw [hsig] at hmeets ⊢
  rw [hmeets, if_pos (by simp)]

end

end Sys2Proof.Claims

open Sys2Proof Sys2Proof.Machine Sys2Proof.Claims

/-- Settles O44: one lemma a step of the Forager, each over the replay looked up under its number. -/
theorem foragerReplays : Obligations.ForagerReplays := by
  intro s c d a b im hs R N r l n tr t g spad text cls m k w i sg dw
  refine ⟨fun hi ho hd ha hb hacc hentry him hbase => ?_, fun hr hl hn => ?_, fun hr hended ht hg => ?_, fun hr hl hi => ?_⟩
  · exact ⟨exec_fgraph_full hi ho hd ha hb hacc hentry him hbase, fun hfree hheld hhere hlost hacked => ⟨_, pendS_pending c.group d s.nextId,
      exec_fgraph_starts hi ho hd ha hb hacc hentry him hbase hfree hheld hhere hlost hacked⟩⟩
  · refine ⟨fun hpaged hsent hnext => ?_, exec_nodeComplete_met hr, fun c0 => exec_nodeComplete_copy hr,
      fun hkind hstarted hread hready => ⟨fun hmet => ?_, fun hmet => ?_⟩⟩
    · refine ⟨fun htr hcode => ?_, fun hkind hcode => ?_, fun hkind hcode hfirst => ?_⟩
      · rw [exec_nodeStart_transfer hr hl hn hpaged hsent hnext htr]
        exact congrArg Host.Outcome.next (startTransfer_passes hr hcode)
      · rw [exec_nodeStart_read hr hl hn hpaged hsent hnext (transfer_none (by omega)), if_pos hkind]
        exact congrArg Host.Outcome.next (startRead_passes hr hcode)
      · intro s0 hread hready s1 q pw x hstall hpacket hformed hdesc hrefusal hloaded
        have hlaunch := exec_launchNode hr hl hn hpaged hsent hnext hkind hcode hfirst hread hready spad text cls
        have hid : (beginNode s l r n N 64 r).id = R := (rfl : _ = r.id).trans (replay?_id hr)
        have hsubmit := submitNode_submits (s := s1) (l := l) (r := beginNode s l r n N 64 r) (N := N) (hs := hs) (spad := spad)
          (text := text) (cls := cls) (dw := dw)
        rw [hid] at hsubmit
        obtain ⟨x', hsubmitted, hstage⟩ := hsubmit hstall hpacket hformed hdesc hrefusal hloaded
        exact ⟨x', hlaunch.trans (congrArg Host.Outcome.next hsubmitted), hstage⟩
    · exact exec_waitRecheck_met hr hl hn hkind hstarted hread hready (decide_eq_true hmet)
    · exact exec_waitRecheck_unmet hr hl hn hkind hstarted hread hready (decide_eq_false (Nat.not_lt.mpr hmet))
  · have hteam := statusGiven_team ht hg
    have hframe := clearL1Of_frame (statusGiven s r) r.group.team
    refine ⟨_, replayStatus r g, exec_replayComplete hr hended, ?_, clearL1Of_l1Cleared rfl (by rw [hteam, ht]; rfl), ⟨?_, fun u hu => ?_⟩,
      rfl, fun h => ?_, fun y hcode hy => ?_⟩
    · rw [hframe]
      rfl
    · rw [hframe]
      exact hteam
    · rw [hframe]
      exact statusGiven_other hu
    · show g.evCollective ++ r.event = _
      rw [event_none h, List.append_nil]
    · show g.evCollective ++ r.event = _
      rw [event_of_mismatch hcode hy]
  · refine ⟨fun halone hgang => ?_, fun hk hsig hdest horigin halone hjob => ?_⟩
    · have hstep := exec_signature_foreign hr hl hi halone hgang w
      refine ⟨fun hequal => ?_, fun hunequal => ?_⟩
      · rw [hstep, (signatureOf_eq_iff i w).mpr hequal]
        exact congrArg Host.Outcome.next (takeSignature_equal hr s rfl none)
      · exact ⟨_, hstep, takeSignature_unequal hr (fun h => hunequal ((signatureOf_eq_iff i w).mp h)) s rfl none⟩
    · have hstep := exec_signature_here hr hl hi hk hsig hdest horigin halone hjob
      refine ⟨fun hequal => ?_, fun hunequal => ⟨_, hstep, ?_⟩⟩
      · have hsame : sg.sig = i.signature := hequal
        rw [hstep, hsame]
        exact congrArg Host.Outcome.next (takeSignature_equal hr { s with signatures := s.signatures.eraseIdx k } rfl _)
      · exact takeSignature_unequal hr hunequal { s with signatures := s.signatures.eraseIdx k } rfl _
end


section
/-! Sending on a channel (spec 05 R114, R115; 04 R93, R95), and a wide release that waits (04 R96). -/

namespace Sys2Proof.Claims
open Sys2Proof.Machine

/-! Channels hold no byte of memory. -/

/-- The channels of a team changed by `f`. -/
def changeChans (f : List Channel → List Channel) (t : Team) : Team := { t with chans := f t.chans }

/-- A team with other channels reads as before. -/
theorem team?_mapChans_field {α : Type} (s : State) (id : TeamId) (f : List Channel → List Channel) (ψ : Team → α)
    (hψ : ∀ (u : Team) cs, ψ { u with chans := cs } = ψ u) (j : TeamId) :
    ((s.mapTeam id (changeChans f)).team? j).map ψ = (s.team? j).map ψ := by
  by_cases hj : j = id
  · subst hj
    rw [team?_mapTeam_map s j (changeChans f) fun _ => rfl, Option.map_map]
    exact congrArg (Option.map · _) (funext fun u => hψ u _)
  · rw [s.team?_mapTeam_other id j (changeChans f) (fun _ => rfl) hj]

theorem group?_mapChans (s : State) (id : TeamId) (f : List Channel → List Channel) (g : GroupId) :
    (s.mapTeam id (changeChans f)).group? g = s.group? g := by
  have hgroups := team?_mapChans_field s id f (·.groups) (fun _ _ => rfl) g.team
  have hlookup (u : State) : u.group? g = ((u.team? g.team).map (·.groups)).bind fun gs => gs[g.group]? := by
    rw [State.group?, Option.bind_map]
    rfl
  rw [hlookup, hlookup, hgroups]

theorem readLoc_mapChan (s : State) (o : ChanOwner) (c : Nat) (f : Channel → Channel) (loc : Loc) :
    (s.mapChan o c f).readLoc loc = s.readLoc loc := by
  cases o with
  | forager d => exact readLoc_congr rfl rfl rfl rfl rfl loc
  | team id =>
    have hfield {α : Type} (ψ : Team → α) (hψ : ∀ (u : Team) cs, ψ { u with chans := cs } = ψ u) (j : TeamId) :
        ((s.mapChan (.team id) c f).team? j).map ψ = (s.team? j).map ψ :=
      team?_mapChans_field s id (fun cs => cs.modify c f) ψ hψ j
    cases loc with
    | phys a => rfl
    | host fn a => rfl
    | peer m a => rfl
    | fused n x => rfl
    | spad u x => rw [readLoc_spad, readLoc_spad, hfield (fun t => t.spad.read x) fun _ _ => rfl]
    | priv u x => rw [readLoc_priv, readLoc_priv, hfield (fun t => t.priv.read x) fun _ _ => rfl]
    | tileWin u k x =>
      rw [readLoc_tileWin, readLoc_tileWin,
        hfield (fun t => byteOf (((t.tiles.getD k []).getD (x / 4 % 256) []).at (x / 1024)) x) fun _ _ => rfl]
    | regWin u k x =>
      have hg : (s.mapChan (.team id) c f).group? ⟨u, k⟩ = s.group? ⟨u, k⟩ := group?_mapChans s id (fun cs => cs.modify c f) ⟨u, k⟩
      simp only [State.readLoc, hg]

/-- Making room for a stream changes channels and streams that close, and no byte. -/
theorem openStream_readLoc {s s0 : State} {o : ChanOwner} {c : Nat} {dest : Dest} (h : s.openStream o c dest = some s0) (loc : Loc) :
    s0.readLoc loc = s.readLoc loc := by
  unfold State.openStream at h
  dsimp only at h
  split at h
  · split at h
    · exact Option.some.inj h ▸ rfl
    · cases h
  · split at h
    · exact Option.some.inj h ▸ readLoc_mapChan ..
    · split at h
      · cases h
      · split at h
        · rw [← Option.some.inj h]
          exact (readLoc_congr rfl rfl rfl rfl rfl loc).trans (readLoc_mapChan ..)
        · cases h

/-! Sending. -/

/-- The packet that a send puts on the wire, its channel `ch` as the stream's room was made. -/
def sentPacket (id : Nat) (ch : Channel) (o : ChanOwner) (c group : Nat) (tag : SendTag) (dest : Dest) (op : ChanOp) : Packet :=
  ⟨id, ⟨o, c, dest⟩, ((ch.streams.find? fun e => decide (e.dest = dest)).map (·.next)).getD 0, op,
    tag.joins.getD ch.joins ++ tag.prior, group, tag.colour, tag.acq, tag.own, false, false, false, [], false⟩

/-- The stream's entry counts the operation (05 R115). -/
def countSent (dest : Dest) (id : Nat) (ch : Channel) : Channel := { ch with streams := ch.streams.map fun e =>
  if e.dest = dest then { e with next := e.next + 1, unacked := e.unacked + 1, newest := id } else e }

theorem sendOp_eq (s : State) (o : ChanOwner) (c group : Nat) (tag : SendTag) (dest : Dest) (op : ChanOp) :
    s.sendOp o c group tag dest op = (s.openStream o c dest).map fun s0 =>
      { s0.mapChan o c (countSent dest s0.nextId) with
        nextId := s0.nextId + 1
        packets := (s0.mapChan o c (countSent dest s0.nextId)).packets ++
          [sentPacket s0.nextId ((s0.chansOf o).getD c Channel.empty) o c group tag dest op]
        wire := (s0.mapChan o c (countSent dest s0.nextId)).wire ++ [s0.nextId] } := by
  unfold State.sendOp
  congr 1
  funext s0
  simp only [sentPacket]
  cases ((s0.chansOf o).getD c Channel.empty).streams.find? fun e => decide (e.dest = dest) <;> rfl

theorem mapChan_packets (s : State) (o : ChanOwner) (c : Nat) (f : Channel → Channel) : (s.mapChan o c f).packets = s.packets := by
  cases o <;> rfl

theorem mapChan_wire (s : State) (o : ChanOwner) (c : Nat) (f : Channel → Channel) : (s.mapChan o c f).wire = s.wire := by
  cases o <;> rfl

/-! A wide release that waits. -/

theorem wideRelease_waits {s : State} {c : Ctx} (hs : c.s = s) (hheld : c.group.heldHere = none) (hlost : c.team.lost = 0)
    (hunacked : s.unackedOf c.id.team ≠ []) (i : Instr) (k : Unit → Res) : c.wideRelease i none k =
      .next (s.setGroup c.id (c.group.hold (.draining (s.unackedOf c.id.team)))) := by
  have hany : c.lostAny = .ok () := by rw [Ctx.lostAny, lowestLost_zero hlost]
  have hdrain : c.draining? = none := by rw [Ctx.draining?, hheld]
  rw [Ctx.wideRelease, check_ok c i hany]
  simp only [hdrain, hs]
  exact if_neg (by simpa using hunacked)

/-- A wide release of a place on this die waits with no effect while operations of the team are not acknowledged. -/
theorem storeS_drains {s : State} {c : Ctx} {i : Instr} {n : Nat} {d : BitVec 8} {p : BitVec 5} {sc : BitVec 3} {o : BitVec 2}
    {b : BitVec 6} {h : Hit} (hi : Issuing s c) (ht : trapLegal (wordOf i) = true) (hd : srcS c d = true) (hp : ptrFull c p = true)
    (hb : shortS c b = true) (hcodes : storeCodes sc o = true) (hwide : isWide sc o (c.launch.spaceOf (c.readPtr p)) = true)
    (hord : ordered s c o) (hheld : c.group.heldHere = none) (hlost : c.team.lost = 0) (hdest : h.dest = none)
    (hunacked : s.unackedOf c.id.team ≠ [])
    (hcheck : s.checkScalar c.launch c.id.team c.die (c.readPtr p) (ptrOff (c.readPtr p) + (c.readB6S b).toInt) n [.pw] true = .ok h) :
    storeS i n d p sc o b s = .next (s.setGroup c.id (c.group.hold (.draining (s.unackedOf c.id.team)))) := by
  have hremote : [(h, storeCellsOf h.loc n (c.readS d).toNat)].filterMap
      (fun h => h.1.dest.map fun d => (⟨d, false, .store h.2⟩ : Outgoing)) = [] := by simp [hdest]
  rw [storeS_checks n hi ht hd hp hb hcodes hord, hcheck, peerLost_of_ne_hold c _ (by simp), check_ok c i rfl, hwide]
  unfold Ctx.storeAll
  simp only [hremote, Ctx.release, if_true, List.isEmpty_nil]
  exact wideRelease_waits hi.state hheld hlost hunacked i _

end Sys2Proof.Claims

open Sys2Proof Sys2Proof.Machine Sys2Proof.Claims

/-- Settles O20: a send is its packet behind the room made for its stream, and a wide release on this die is a drain. -/
theorem channelNumbers : Obligations.ChannelNumbers := by
  refine ⟨fun s s1 o c g tag dest op hsend => ?_, fun s c d p sc o b h hi hd hp hb hcodes hwide hord hheld hlost hdest hunacked x hx => ?_⟩
  · rw [sendOp_eq] at hsend
    obtain ⟨s0, hopen, rfl⟩ := Option.map_eq_some_iff.mp hsend
    refine ⟨sentPacket s0.nextId ((s0.chansOf o).getD c Channel.empty) o c g tag dest op, s0, hopen, ?_, ?_,
      rfl, rfl, rfl, rfl, rfl, rfl, rfl, rfl, rfl, rfl, fun e he => ?_, fun loc => ?_⟩
    · exact congrArg (· ++ _) (mapChan_packets ..)
    · exact congrArg (· ++ _) (mapChan_wire ..)
    · simp only [sentPacket, he, Option.map_some, Option.getD_some]
    · exact (readLoc_congr rfl rfl rfl rfl rfl loc).trans ((readLoc_mapChan ..).trans (openStream_readLoc hopen loc))
  · have hdrains {i : Instr} {n : Nat} (ht : trapLegal (wordOf i) = true) :=
      storeS_drains (n := n) hi ht hd hp hb hcodes hwide hord hheld hlost hdest hunacked
    simp only [List.mem_cons, List.not_mem_nil, or_false] at hx
    rcases hx with rfl | rfl | rfl | rfl
    · exact hdrains (trapLegal_formatA 0x24 d p sc o b (by decide) (i := .sst8 d p sc o b) rfl)
    · exact hdrains (trapLegal_formatA 0x25 d p sc o b (by decide) (i := .sst16 d p sc o b) rfl)
    · exact hdrains (trapLegal_formatA 0x26 d p sc o b (by decide) (i := .sst32 d p sc o b) rfl)
    · exact hdrains (trapLegal_formatA 0x27 d p sc o b (by decide) (i := .sst64 d p sc o b) rfl)
end


section
/-! FENCE, ICINV, NOP and VPREF (spec 09 R193, R197, R198; 13 R269; 04 R94, R95), and a drain of channel operations (05 R120). -/

namespace Sys2Proof.Claims
open Sys2Proof.Machine

/-! An instruction that the memory order keeps waiting. -/

/-- Beside the memory order, what a field asks for is there. -/
def Filled (c : Ctx) (n : Need) : Prop := n.illegal c = none ∧ n.untyped c = false ∧ n.empty? c = none

theorem filled_of_met {c : Ctx} {n : Need} (h : n.met c = true) : Filled c n := by
  simp only [Need.met, Bool.and_eq_true, Option.isNone_iff_eq_none, Bool.not_eq_true'] at h
  obtain ⟨⟨⟨hlegal, htyped⟩, hfull⟩, -⟩ := h
  exact ⟨hlegal, htyped, hfull⟩

/-- An instruction whose fields are filled and that the memory order keeps waiting is held. -/
theorem issue_waits {s : State} {c : Ctx} {i : Instr} {needs : List Need} (body : Ctx → Res) (hi : Issuing s c)
    (ht : trapLegal (wordOf i) = true) (hfilled : ∀ n ∈ needs, Filled c n) (hwait : ∃ n ∈ needs, n.waits c = true) :
    Waits s c (issue i s needs body) .waits := by
  have hlegal : needs.findSome? (Need.illegal c) = none := findSome_none _ _ fun n hn => (hfilled n hn).1
  have htyped : needs.any (Need.untyped c) = false := List.any_eq_false.mpr fun n hn => by simp [(hfilled n hn).2.1]
  have hfull : needs.filterMap (Need.empty? c) = [] := List.filterMap_eq_nil_iff.mpr fun n hn => (hfilled n hn).2.2
  have hgate : gate (wordOf i) c needs = .wait := by
    simp [gate, ht, hlegal, htyped, hfull, List.any_eq_true.mpr hwait]
  rw [Waits, issue]
  simp only [hi.1, hi.2, hgate, Ctx.held, hi.state]

theorem released_waits {s : State} {c : Ctx} {mask : BitVec 8} (hs : c.s = s) (h : ¬ mayRelease s c mask) :
    (Need.released mask).waits c = true := by
  simp only [mayRelease, not_forall] at h
  obtain ⟨p, hp, ho, hg, hown, ⟨k, hk, hmask⟩, hperf⟩ := h
  rw [Need.waits, State.ownPending, hs, List.any_eq_true]
  exact ⟨p, hp, by simp [ho, hg, hown, hk, hmask, hperf]⟩

theorem filled_released (c : Ctx) (mask : BitVec 8) : Filled c (.released mask) := ⟨rfl, rfl, rfl⟩

/-! A trap handler admits some instructions by their opcode alone (13 R266). -/

theorem trapLegal_of_opcode {i : Instr} {w : W32} {op : BitVec 8} (h : encode i = some w) (hop : opcodeOf w = op)
    (hrow : op.toNat < 0x34 ∨ op.toNat = 0xAC ∨ op.toNat = 0xB4 ∨ 0xF0 ≤ op.toNat) : trapLegal (wordOf i) = true := by
  rw [wordOf_eq h, trapLegal_iff, hop]
  rcases hrow with h | h | h | h
  · exact .inl h
  · exact .inr (.inl h)
  · exact .inr (.inr (.inr (.inl h)))
  · exact .inr (.inr (.inr (.inr h)))

theorem trapLegal_fence (m : BitVec 8) (sc : BitVec 3) : trapLegal (wordOf (.fence m sc)) = true :=
  trapLegal_of_opcode rfl (Laws.RoundTrip.partsz8f8z5f3 _ 0xAC m sc rfl).2.1 (by decide)

theorem trapLegal_icinv (a b : BitVec 8) : trapLegal (wordOf (.icinv a b)) = true :=
  trapLegal_of_opcode rfl (Laws.RoundTrip.partsz8f8f8 _ 0x2A a b rfl).2.1 (by decide)

/-! Channel operations that are not acknowledged. -/

theorem unackedOn_of_unackedOf_nil {s : State} {t : TeamId} (h : s.unackedOf t = []) {ch : Nat} (hch : ch < 16) : s.unackedOn t ch = [] :=
  List.flatMap_eq_nil_iff.mp h ch (List.mem_range.mpr hch)

/-- What the channels of a team have not had acknowledged is not acknowledged by its number either. -/
theorem isUnacked_of_unackedOn {s : State} {t : TeamId} {ch i : Nat} (h : i ∈ s.unackedOn t ch) : s.isUnacked i = true := by
  rw [State.isUnacked, Bool.or_eq_true, List.any_eq_true, List.any_eq_true]
  rcases List.mem_append.mp h with h | h
  · obtain ⟨p, hp, rfl⟩ := List.mem_map.mp h
    obtain ⟨hmem, hp⟩ := List.mem_filter.mp hp
    simp only [Bool.and_eq_true] at hp
    exact .inl ⟨p, hmem, by simp [Packet.isPart, hp.2]⟩
  · obtain ⟨k, hk, rfl⟩ := List.mem_map.mp h
    obtain ⟨hmem, hk⟩ := List.mem_filter.mp hk
    simp only [State.unsentOn, Bool.and_eq_true] at hk
    obtain ⟨⟨⟨-, hnode⟩, -⟩, hrest⟩ := hk
    exact .inr ⟨k, hmem, by simp [hnode, hrest]⟩

theorem stillUnacked_unackedOn (s : State) (t : TeamId) (ch : Nat) : s.stillUnacked (s.unackedOn t ch) = s.unackedOn t ch :=
  List.filter_eq_self.mpr fun _ h => isUnacked_of_unackedOn h

/-- A drain with nothing to wait for goes on. -/
theorem drain_nil {c : Ctx} (hheld : c.group.heldHere = none) (k : Unit → Res) : c.drain [] k = k () := by
  have hdrain : c.draining? = none := by rw [Ctx.draining?, hheld]
  simp [Ctx.drain, hdrain, State.stillUnacked]

/-- A first drain of a channel waits for what of it is not acknowledged. -/
theorem drain_waits {s : State} {c : Ctx} (hs : c.s = s) (hheld : c.group.heldHere = none) {t : TeamId} {ch : Nat}
    (h : s.unackedOn t ch ≠ []) (k : Unit → Res) :
    c.drain (s.unackedOn t ch) k = .next (s.setGroup c.id (c.group.hold (.draining (s.unackedOn t ch)))) := by
  have hdrain : c.draining? = none := by rw [Ctx.draining?, hheld]
  simp only [Ctx.drain, hdrain, Option.getD_none, hs, stillUnacked_unackedOn, List.isEmpty_iff, h, if_false, Ctx.put]

/-! FENCE. -/

section
variable {s : State} {c : Ctx}

theorem exec_fence_goes {m : BitVec 8} {sc : BitVec 3} (hi : Issuing s c) (hsc : sc ≠ 7) (hrel : mayRelease s c m) :
    exec (.fence m sc) s = .next ((if 3 ≤ sc.toNat then s.clearL1 c.core else s).setGroup c.id c.group.advance) := by
  have hs := hi.state
  subst hs
  refine (issue_go _ _ _ _ c hi.1 hi.2 (fun _ => trapLegal_fence m sc) ?_).trans rfl
  rw [List.forall_mem_cons, List.forall_mem_singleton]
  exact ⟨met_field (decide_eq_true hsc) 6, met_released rfl hrel⟩

theorem exec_fence_waits {m : BitVec 8} {sc : BitVec 3} (hi : Issuing s c) (hsc : sc ≠ 7) (hrel : ¬ mayRelease s c m) :
    Waits s c (exec (.fence m sc) s) .waits := by
  refine issue_waits _ hi (trapLegal_fence m sc) ?_ ⟨.released m, by simp, released_waits hi.state hrel⟩
  rw [List.forall_mem_cons, List.forall_mem_singleton]
  exact ⟨filled_of_met (met_field (decide_eq_true hsc) 6), filled_released c m⟩

/-! ICINV. -/

/-- The checks and the drain of an ICINV of some bytes. -/
theorem icinv_range {x y : BitVec 8} {v : SegView} (hs : c.s = s) (hheld : c.group.heldHere = none)
    (hseg : checkSeg c.launch (ptrSeg (c.readS x)) (c.readS x) [.px, .pc] false 0 0 = .ok v)
    (hlim : ptrOff (c.readS x) + (c.readS y).toNat ≤ v.limit) (hlost : c.team.lost = 0) (hacked : s.unackedOf c.id.team = [])
    (k : Unit → Res) : (c.check (.icinv x y) ((checkSeg c.launch (ptrSeg (c.readS x)) (c.readS x) [.px, .pc] false 0 0).andThen
        fun v => checkRange v (c.readS x) (c.readS y).toNat) fun _ =>
      c.check (.icinv x y) c.lostAny fun _ => c.drain (c.ownChannels.flatMap fun ch => c.s.unackedOn c.id.team ch) k) = k () := by
  have hrange : ((checkSeg c.launch (ptrSeg (c.readS x)) (c.readS x) [.px, .pc] false 0 0).andThen
      fun v => checkRange v (c.readS x) (c.readS y).toNat) = .ok () := by
    rw [hseg]
    exact if_pos hlim
  have hany : c.lostAny = .ok () := by rw [Ctx.lostAny, lowestLost_zero hlost]
  have hops : (c.ownChannels.flatMap fun ch => c.s.unackedOn c.id.team ch) = [] := by
    rw [hs, List.flatMap_eq_nil_iff]
    exact fun ch hch => unackedOn_of_unackedOf_nil hacked (List.mem_range.mp (List.mem_of_mem_filter hch))
  rw [check_ok c _ hrange, check_ok c _ hany, hops, drain_nil hheld]

theorem exec_icinv_goes {x y : BitVec 8} {v : SegView} (hi : Issuing s c) (hx : srcS c x = true) (hy : srcS c y = true)
    (hrange : c.readS y ≠ 0 → c.group.heldHere = none ∧
      checkSeg c.launch (ptrSeg (c.readS x)) (c.readS x) [.px, .pc] false 0 0 = .ok v ∧ ptrOff (c.readS x) + (c.readS y).toNat ≤ v.limit ∧
      c.team.lost = 0 ∧ s.unackedOf c.id.team = []) : exec (.icinv x y) s = .next (c.put c.group.advance) := by
  have hmet : ∀ n ∈ [Need.srcS 1 .epa x, .srcS 2 .epb y], n.met c = true := by
    rw [List.forall_mem_cons, List.forall_mem_singleton]
    exact ⟨met_srcS hx 1 .epa, met_srcS hy 2 .epb⟩
  show execIcinv x y s = _
  rw [execIcinv, issue_go _ _ _ _ c hi.1 hi.2 (fun _ => trapLegal_icinv x y) hmet]
  dsimp only
  split
  · rfl
  · next hn =>
    obtain ⟨hheld, hseg, hlim, hlost, hacked⟩ := hrange fun h => hn (by rw [h]; rfl)
    exact icinv_range hi.state hheld hseg hlim hlost hacked _

/-! NOP and VPREF. -/

theorem exec_nop (hi : Issuing s c) : exec .nop s = .next (c.put c.group.advance) :=
  issue_go .nop s [] _ c hi.1 hi.2 (fun _ => by decide) fun _ hn => absurd hn List.not_mem_nil

theorem exec_vpref {p : BitVec 5} {b : BitVec 6} (hi : Issuing s c) (ho : outside c = true) (hp : ptrFull c p = true)
    (hb : shortV c b = true) : exec (.vpref p 0 0 b) s = .next (c.put c.group.advance) := by
  refine issue_of_met _ _ _ hi ho ?_
  simp only [List.forall_mem_cons, List.not_mem_nil, IsEmpty.forall_iff, implies_true, and_true]
  exact ⟨met_ptr hp, met_field rfl 6, met_field rfl 7, met_b6V hb⟩

end

end Sys2Proof.Claims

open Sys2Proof Sys2Proof.Machine Sys2Proof.Claims

/-- Settles O25: past their gates and checks NOP, VPREF and ICINV put the group on, and FENCE the L1 too; a FENCE whose operations are
not performed is held at its gate. -/
theorem onlyGoOn : Obligations.OnlyGoOn := by
  intro s c m x y sc p b v hi
  have hs := hi.state
  refine ⟨fun hx hy hrange => ?_, fun hsc hrel => ?_, exec_fence_waits hi, ?_, fun ho hp hb => ?_⟩
  · rw [exec_icinv_goes hi hx hy hrange]
    exact put_advance_nothing hs
  · exact ⟨c.group.advance, advance_passed _, advance_goneOn _, exec_fence_goes hi hsc hrel⟩
  · rw [exec_nop hi]
    exact put_advance_nothing hs
  · rw [exec_vpref hi ho hp hb]
    exact put_advance_nothing hs
end


section
/-! CST, CATOM, CJOIN and CDRAIN (spec 09 R200-R202, R204; 05 R119, R120; 04 R93). -/

namespace Sys2Proof.Claims
open Sys2Proof.Machine

/-! Sending from an instruction. -/

/-- What goes before an operation does not depend on the next number. -/
theorem copyBlocks_nextId (s : State) (n : Nat) (t : TeamId) (ch : Nat) (dest : Dest) (below : Nat) :
    ({ s with nextId := n } : State).copyBlocks t ch dest below = s.copyBlocks t ch dest below := rfl

theorem sendOps_one (s : State) (o : ChanOwner) (ch group : Nat) (tag : SendTag) (x : Outgoing) :
    s.sendOps o ch group tag [x] = s.sendOp o ch group { tag with own := x.own } x.dest x.op := by
  simp only [State.sendOps]
  cases s.sendOp o ch group { tag with own := x.own } x.dest x.op <;> rfl

/-- Operations that no copy goes before, and whose streams have room, are sent. -/
theorem send_sent {c : Ctx} {s s1 : State} {ch : Nat} {ops : List Outgoing}
    (hblocks : ∀ x ∈ ops, s.copyBlocks c.id.team ch x.dest c.s.nextId = false)
    (hsend : s.sendOps (.team c.id.team) ch c.id.group (tagOf c none) ops = some s1) (k : State → Res) : c.send s ch none ops k = k s1 := by
  have hfree : (ops.any fun x => s.copyBlocks c.id.team ch x.dest c.s.nextId) = false :=
    List.any_eq_false.mpr fun x hx => by simp [hblocks x hx]
  have hsend' : s.sendOps (.team c.id.team) ch c.id.group ⟨some (modeColour c.group.mode), none, false, none, []⟩ ops = some s1 := hsend
  simp only [Ctx.send, hfree, hsend', Bool.false_eq_true, if_false]

/-- The same for one operation. -/
theorem send_one {c : Ctx} {s s1 : State} {ch : Nat} {h : Hit} {op : ChanOp}
    (hblocks : s.copyBlocks c.id.team ch h.home c.s.nextId = false)
    (hsend : s.sendOp (.team c.id.team) ch c.id.group (tagAt c h) h.home op = some s1) (k : State → Res) :
    c.send s ch none [⟨h.home, h.dest.isNone, op⟩] k = k s1 := by
  refine send_sent ?_ ?_ k
  · rw [List.forall_mem_singleton]
    exact hblocks
  · rw [sendOps_one]
    exact hsend

theorem lostCheck_ok {c : Ctx} {ch : Nat} (h : c.team.lost.getLsbD ch = false) : c.lostCheck ch = .ok () :=
  if_neg (by rw [h]; exact Bool.false_ne_true)

/-! The gate. -/

theorem met_srcV {c : Ctx} {a : BitVec 8} (h : srcV c a = true) (sub : BitVec 8) (pol : Pol) : (Need.srcV sub pol a).met c = true :=
  met_srcVT h sub pol

theorem trapLegal_cdrain (ch : BitVec 4) : trapLegal (wordOf (.cdrain ch)) = true :=
  trapLegal_of_opcode rfl (Laws.RoundTrip.partsf4z20 _ 0xB4 ch rfl).2.1 (by decide)

/-- Bit 2 of X tells the vector form of CST from the scalar one (09 R200). -/
theorem cst_scalar_form {x : BitVec 4} (hx : x.toNat < 4) : x.getLsbD 2 = false ∧ x.toNat % 4 = x.toNat :=
  ⟨by revert hx; revert x; decide, Nat.mod_eq_of_lt hx⟩

theorem cst_vector_form {x : BitVec 4} (h4 : 4 ≤ x.toNat) (h7 : x.toNat < 7) : x.getLsbD 2 = true ∧ x.toNat % 4 = x.toNat - 4 :=
  ⟨by revert h4 h7; revert x; decide, by omega⟩

/-- The scalar form of CST, whose X is 0 to 3, is one of the instructions of a trap handler (13 R266). -/
theorem trapLegal_cst {x : BitVec 4} (hx : x.toNat < 4) (ch : BitVec 4) (a b : BitVec 8) : trapLegal (wordOf (.cst ch x a b)) = true := by
  obtain ⟨-, hop, -, hfld, -⟩ := Laws.RoundTrip.partsf4f4f8f8 _ 0xB0 ch x a b rfl
  rw [wordOf_eq (rfl : encode (.cst ch x a b) = _), trapLegal_iff]
  refine .inr (.inr (.inl ⟨congrArg BitVec.toNat hop, ?_⟩))
  have hbit := (cst_scalar_form hx).1
  rw [← hfld, fld, BitVec.getLsbD_extractLsb'] at hbit
  simpa using hbit

section
variable {s s1 : State} {c : Ctx} {ch x : BitVec 4} {a b : BitVec 8}

/-! CST and CATOM. -/

theorem exec_cst_scalar {h : Hit} (hi : Issuing s c) (ha : srcS c a = true) (hacc : mayAccess s c) (hb : srcS c b = true)
    (hx : x.toNat < 4) (hlost : c.team.lost.getLsbD ch.toNat = false)
    (hblocks : (s.markHits [h] true).copyBlocks c.id.team ch.toNat h.home s.nextId = false)
    (hcheck : s.checkScalar c.launch c.id.team c.die (c.readS a) (ptrOff (c.readS a)) (2 ^ x.toNat) [.pm, .pw] true = .ok h)
    (hsend : (s.markHits [h] true).sendOp (.team c.id.team) ch.toNat c.id.group (tagAt c h) h.home
      (.store (cellsAt h.loc (2 ^ x.toNat) (c.readS b).toNat)) = some s1) :
    exec (.cst ch x a b) s = .next (s1.setGroup c.id c.group.advance) := by
  have hs := hi.state
  subst hs
  obtain ⟨hform, hsize⟩ := cst_scalar_form hx
  have hmet : ∀ n ∈ [Need.field 9 (decide (x.toNat < 7)), .srcS 1 .epa a, .srcS 2 .epb b, .access], n.met c = true := by
    simp only [List.forall_mem_cons, List.not_mem_nil, IsEmpty.forall_iff, implies_true, and_true]
    exact ⟨met_field (decide_eq_true (by omega)) 9, met_srcS ha 1 .epa, met_srcS hb 2 .epb, met_access rfl hacc⟩
  show execCst ch x a b c.s = _
  unfold execCst
  simp only [hform, hsize, Bool.false_eq_true, if_false]
  rw [issue_go _ _ _ _ c hi.1 hi.2 (fun _ => trapLegal_cst hx ch a b) hmet]
  unfold cstScalar
  rw [hcheck, check_ok c _ (rfl : c.lostHold ch.toNat (Chk.ok h) = _), check_ok c _ (lostCheck_ok hlost), storeCellsOf_eq]
  exact send_one hblocks hsend _

theorem exec_catom {h : Hit} (hi : Issuing s c) (ho : outside c = true) (ha : srcS c a = true) (hacc : mayAccess s c)
    (hb : srcS c b = true) (hx : x.toNat < 7) (hlost : c.team.lost.getLsbD ch.toNat = false)
    (hblocks : (s.markHits [h] true).copyBlocks c.id.team ch.toNat h.home s.nextId = false)
    (hcheck : s.checkScalar c.launch c.id.team c.die (c.readS a) (ptrOff (c.readS a)) 8 [.pm, .pa] true = .ok h)
    (hsend : ({ s.markHits [h] true with nextId := s.nextId + 1 } : State).sendOp (.team c.id.team) ch.toNat c.id.group (tagAt c h) h.home
      (.atomic [⟨0, h.loc, catomOp x.toNat, .int64, c.readS b, 0, 0, false⟩] (some s.nextId)) = some s1) :
    exec (.catom ch x a b) s = .next { s1.setGroup c.id (c.group.pendS 0xFF s.nextId).advance with
      flights := s1.flights ++ [⟨s.nextId, c.id, .engine, .scalar 0, [], []⟩] } := by
  have hs := hi.state
  subst hs
  have hmet : ∀ n ∈ [Need.field 9 (decide (x.toNat < 7)), .srcS 1 .epa a, .srcS 2 .epb b, .access], n.met c = true := by
    simp only [List.forall_mem_cons, List.not_mem_nil, IsEmpty.forall_iff, implies_true, and_true]
    exact ⟨met_field (decide_eq_true hx) 9, met_srcS ha 1 .epa, met_srcS hb 2 .epb, met_access rfl hacc⟩
  show execCatom ch x a b c.s = _
  unfold execCatom
  rw [issue_of_met _ _ _ hi ho hmet]
  dsimp only
  rw [hcheck, check_ok c _ (rfl : c.lostHold ch.toNat (Chk.ok h) = _), check_ok c _ (lostCheck_ok hlost)]
  exact send_one (by rw [copyBlocks_nextId]; exact hblocks) hsend _

/-- The vector form of CST comes to its lanes. -/
theorem exec_cst_vector (hi : Issuing s c) (ho : outside c = true) (ha : srcS c a = true) (hacc : mayAccess s c)
    (hb : srcV c b = true) (h4 : 4 ≤ x.toNat) (h7 : x.toNat < 7) :
    exec (.cst ch x a b) s = cstVector (.cst ch x a b) ch.toNat (2 ^ (x.toNat - 4)) (c.readS a) (c.readV b) c := by
  obtain ⟨hform, hsize⟩ := cst_vector_form h4 h7
  have hmet : ∀ n ∈ [Need.field 9 (decide (x.toNat < 7)), .srcS 1 .epa a, .srcV 2 .epb b, .access], n.met c = true := by
    simp only [List.forall_mem_cons, List.not_mem_nil, IsEmpty.forall_iff, implies_true, and_true]
    exact ⟨met_field (decide_eq_true h7) 9, met_srcS ha 1 .epa, met_srcV hb 2 .epb, met_access hi.state hacc⟩
  show execCst ch x a b s = _
  unfold execCst
  simp only [hform, hsize, if_true]
  exact issue_of_met _ _ _ hi ho hmet

theorem cstVector_none {i : Instr} {ch n : Nat} {p : W64} {v : Lanes} (h : someActive c = false) :
    cstVector i ch n p v c = .next (c.put c.group.advance) := by
  have hany : c.anyActive = false := h
  simp only [cstVector, hany, Bool.not_false, if_true]

theorem cstVector_sent {i : Instr} {ch n : Nat} {p : W64} {v : Lanes} {hs : List (Nat × Hit)} (hsome : someActive c = true)
    (hlost : c.team.lost.getLsbD ch = false)
    (hcheck : c.checkLanes p n [.pm, .pw] true false (((List.range 128).filter c.active).map fun l => (l, ptrOff p + n * l)) = .ok hs)
    (hblocks : ∀ y ∈ cstChunks (ptrOff p) n v hs, (c.s.markHits (hs.map (·.2)) true).copyBlocks c.id.team ch y.dest c.s.nextId = false)
    (hsend : (c.s.markHits (hs.map (·.2)) true).sendOps (.team c.id.team) ch c.id.group (tagOf c none) (cstChunks (ptrOff p) n v hs) =
      some s1) : cstVector i ch n p v c = .next (s1.setGroup c.id c.group.advance) := by
  have hany : c.anyActive = true := hsome
  have hcheck' : c.checkLanes p n [.pm, .pw] true false (((List.range numLanes).filter c.active).map fun l => (l, ptrOff p + n * l)) =
      .ok hs := hcheck
  simp only [cstVector, hany, Bool.not_true, Bool.false_eq_true, if_false, hcheck']
  rw [check_ok c _ (rfl : c.lostHold ch (Chk.ok hs) = _), check_ok c _ (lostCheck_ok hlost)]
  exact send_sent hblocks hsend _

/-! CJOIN and CDRAIN. -/

theorem exec_cjoin (hi : Issuing s c) (ho : outside c = true) : exec (.cjoin ch x) s =
    .next ((if s.unackedOn c.id.team x.toNat = [] then s else s.mapChan (.team c.id.team) ch.toNat fun y =>
      { y with joins := s.stillUnacked y.joins ++ s.unackedOn c.id.team x.toNat }).setGroup c.id c.group.advance) := by
  have hs := hi.state
  subst hs
  have hjoin : c.s.joinChan c.id.team ch.toNat x.toNat = if c.s.unackedOn c.id.team x.toNat = [] then c.s
      else c.s.mapChan (.team c.id.team) ch.toNat fun y =>
        { y with joins := c.s.stillUnacked y.joins ++ c.s.unackedOn c.id.team x.toNat } := by
    simp only [State.joinChan, List.isEmpty_iff]
  refine (issue_of_met _ [] _ hi ho fun _ hn => absurd hn List.not_mem_nil).trans ?_
  rw [hjoin]

theorem exec_cdrain (hi : Issuing s c) : exec (.cdrain ch) s = c.check (.cdrain ch) (c.lostCheck ch.toNat) fun _ =>
    c.drain (s.unackedOn c.id.team ch.toNat) fun _ => .next (c.put c.group.advance) := by
  have hs := hi.state
  subst hs
  exact issue_go _ _ [] _ c hi.1 hi.2 (fun _ => trapLegal_cdrain ch) fun _ hn => absurd hn List.not_mem_nil

theorem exec_cdrain_lost (hi : Issuing s c) (hlost : c.team.lost.getLsbD ch.toNat = true) : exec (.cdrain ch) s =
    .next (s.deliver c.id (.channelLost ch.toNat (s.chstat c.team)) false (wordOf (.cdrain ch))) := by
  have hs := hi.state
  subst hs
  have hcheck : c.lostCheck ch.toNat = .trap (.channelLost ch.toNat (c.s.chstat c.team)) := if_pos hlost
  rw [exec_cdrain hi, hcheck]
  rfl

end

end Sys2Proof.Claims

open Sys2Proof Sys2Proof.Machine Sys2Proof.Claims

/-- Settles O24: CST and CATOM are sends behind their checks, CJOIN a change of one channel's joins, and CDRAIN a drain behind the
check of LOST. -/
theorem channelOperations : Obligations.ChannelOperations := by
  constructor
  · intro s c ch x a b h hs s1 hi ha hacc op
    refine ⟨fun hb hlost hblocks => ⟨fun hx hcheck hsend => ?_, fun hx ho hcheck hsend => ?_⟩, fun ho h4 h7 hb => ?_⟩
    · exact ⟨_, advance_passed _, advance_goneOn _, exec_cst_scalar hi ha hacc hb hx hlost hblocks hcheck hsend⟩
    · exact ⟨_, pendS_pending c.group 0xFF s.nextId, exec_catom hi ho ha hacc hb hx hlost hblocks hcheck hsend⟩
    · intro n off s0
      rw [exec_cst_vector hi ho ha hacc hb h4 h7]
      refine ⟨fun hnone => ?_, fun hsome hlost hcheck hblocks hsend => ⟨_, advance_passed _, advance_goneOn _, ?_⟩⟩
      · rw [cstVector_none hnone]
        exact put_advance_nothing hi.state
      · have hs := hi.state
        subst hs
        exact cstVector_sent hsome hlost hcheck hblocks hsend
  · refine fun s c ch x hi => ⟨fun ho => ?_, exec_cdrain_lost hi, fun hlost hheld => ?_⟩
    · exact ⟨_, advance_passed _, advance_goneOn _, exec_cjoin hi ho⟩
    · rw [exec_cdrain hi, check_ok c _ (lostCheck_ok hlost)]
      refine ⟨fun hnone => ?_, fun hsome => drain_waits hi.state hheld hsome _⟩
      rw [hnone, drain_nil hheld]
      exact put_advance_nothing hi.state
end


section
/-! The array and the ports at work (spec 10 R208, R212, R216-R220, R224; 04 R103). -/

namespace Sys2Proof.Claims
open Sys2Proof.Machine

/-! The registers of a column of B (10 R212). -/

theorem fmtWidth_pos (f : Nat) : 0 < fmtWidth f := by
  unfold fmtWidth
  split
  · decide
  · split
    · decide
    · split <;> decide

/-- A quarter whose holder has every register that the column's elements lie in misses none that the column reads. -/
theorem column_ready {t : Team} {f : BitVec 256} {m : BitVec 128} {g vb j : Nat} (h : ∀ k < MapBlock.kext m,
      ∀ e < fmtWidth (FormatBlock.bfmt f), t.regReady g (vb + ((64 * k + j % 64) * fmtWidth (FormatBlock.bfmt f) + e) / 4096) = true) :
    ((List.range (quarterRegs f m)).all fun r => t.regReady g (vb + r) || !quarterReads f m j r) = true := by
  rw [List.all_eq_true]
  intro r _
  rw [Bool.or_eq_true, Bool.not_eq_true']
  by_cases hreads : quarterReads f m j r = true
  · simp only [quarterReads, List.any_eq_true, List.mem_range, Bool.or_eq_true, decide_eq_true_eq] at hreads
    obtain ⟨k, hk, hr⟩ := hreads
    have hw := fmtWidth_pos (FormatBlock.bfmt f)
    left
    rcases hr with rfl | rfl
    · exact h k hk 0 hw
    · rw [Nat.add_sub_assoc hw]
      exact h k hk _ (Nat.sub_lt hw Nat.one_pos)
  · exact .inr (Bool.not_eq_true _ ▸ hreads)

/-! The tile after an MMA (10 R216). -/

section
variable (t : Team) (free : Nat) (old : List Lanes) (f : BitVec 256) (m : BitVec 128) (hs vb p : Nat) (early : Nat → Nat → Bool)

theorem mmaTile_length : (t.mmaTile free old f m hs vb p early).length = 256 := by
  simp only [Team.mmaTile, List.length_map, List.length_range]

/-- An element of a column whose registers are ready, no operand of it written too early. -/
theorem mmaTile_element {i j : Nat} (hi : i < 128) (hj : j < 256) (hready : ∀ k < MapBlock.kext m, ∀ e < fmtWidth (FormatBlock.bfmt f),
      t.regReady (4 * hs + j / 64) (vb + ((64 * k + j % 64) * fmtWidth (FormatBlock.bfmt f) + e) / 4096) = true)
    (hearly : early i j = false) : ((t.mmaTile free old f m hs vb p early).getD j Lanes.zero).at i =
      mmaElem f (MapBlock.kext m) p (fun k => aElem t.spad f m i k) (fun k => bElem t.spad (t.reg (4 * hs + j / 64)) f vb k j)
        ((old.getD j Lanes.zero).at i) := by
  have hcolumn : (t.mmaTile free old f m hs vb p early).getD j Lanes.zero =
      Lanes.tab fun i => if early i j then Config.undefElem free (256 * i + j)
        else mmaElem f (MapBlock.kext m) p (fun k => aElem t.spad f m i k)
          (fun k => bElem t.spad (t.reg (4 * hs + j / 64)) f vb k j) ((old.getD j Lanes.zero).at i) := by
    rw [Team.mmaTile, List.getD_eq_getElem?_getD, List.getElem?_map, List.getElem?_range hj]
    exact if_pos (column_ready hready)
  rw [hcolumn, at_tab _ hi, hearly]
  rfl

end

/-- The tile that the oldest MMA leaves, its operands those that the array finds (assumption 25). -/
def tileAfter (s : State) (t : Team) (q : Sequencer) (tile : Nat) (f : BitVec 256) (m : BitVec 128) (hs vb p : Nat) : List Lanes :=
  t.mmaTile s.free (t.tiles.getD tile tileZero) f m hs vb p fun i j => q.nextMma.any fun x => x.spoiled i j

/-- No operand of an element is early where no place of the next MMA's touches it. -/
theorem spoiled_false {q : Sequencer} {i j : Nat} (h : ∀ x, q.nextMma = some x → ∀ y ∈ x.early, x.touches y i j = false) :
    (q.nextMma.any fun x => x.spoiled i j) = false := by
  rw [Option.any_eq_false]
  intro x hx
  rw [LiveMma.spoiled, List.any_eq_false]
  intro y hy
  rw [h x hx y hy]
  exact Bool.false_ne_true

/-! The oldest operation. -/

/-- The team `t` with the sequencer `q`, whose operations left are `rest`. -/
def opsLeft (s : State) (t : Team) (q : Sequencer) (rest : List (W32 × StreamOp)) : State :=
  s.setTeam { t with seq := some { q with ops := rest } }

theorem storeTile_seq (t : Team) (tile : Nat) (m : BitVec 128) (outf : Nat) (now : Nat → Bool) :
    (t.storeTile tile m outf now).seq = t.seq := by
  simp only [Team.storeTile]

section
variable {s : State} {L T : Nat} {t : Team} {q : Sequencer} {b : W32} {op : StreamOp} {rest : List (W32 × StreamOp)}
  (ht : s.team? ⟨L, T⟩ = some t) (hq : t.seq = some q) (hops : q.ops = (b, op) :: rest)
include ht hq hops

theorem exec_array_mzero {tile : Nat} (hop : op = .mzero tile) : exec (.mmaArrayExecute L T) s =
    .next (opsLeft s { t with tiles := t.tiles.set tile tileZero } (q.forgetTile tile) rest) := by
  subst hop
  show execMmaArrayExecute L T s = _
  simp only [execMmaArrayExecute, ht, hq, Option.bind_some, hops, List.head?_cons, Team.dropOp, Option.map_some,
    Sequencer.forgetTile, List.drop_succ_cons, List.drop_zero]
  rfl

theorem exec_array_mma {tile hs vb p : Nat} {f : BitVec 256} {m : BitVec 128} (hop : op = .mma tile f m hs vb p) :
    exec (.mmaArrayExecute L T) s =
      .next { opsLeft s { t with tiles := t.tiles.set tile (tileAfter s t q tile f m hs vb p) } q rest with free := s.free + 1 } := by
  subst hop
  show execMmaArrayExecute L T s = _
  simp only [execMmaArrayExecute, ht, hq, Option.bind_some, hops, List.head?_cons, Team.dropOp, Option.map_some,
    List.drop_succ_cons, List.drop_zero]
  rfl

theorem exec_port_mstore {tile outf : Nat} {m : BitVec 128} {d : List Nat} (hop : op = .mstore tile m outf d) :
    exec (.mxreadMstoreExecute L ⟨T, none⟩) s = .next (opsLeft s (t.storeTile tile m outf fun e => !d.contains e)
      { q with outs := q.outs ++ [(b, .mstore tile m outf [])] } rest) := by
  subst hop
  show execMxreadMstoreExecute L ⟨T, none⟩ s = _
  simp only [execMxreadMstoreExecute, ht, hq, Option.bind_some, hops, List.head?_cons, Team.dropOut, storeTile_seq, Option.map_some,
    List.drop_succ_cons, List.drop_zero]
  rfl

theorem exec_port_mstorePart {tile outf : Nat} {m : BitVec 128} {d : List Nat} (hop : op = .mstore tile m outf d) (js : List Nat) :
    exec (.mxreadMstoreExecute L ⟨T, some js⟩) s = .next (opsLeft s (t.storeTile tile m outf fun e => js.contains e && !d.contains e)
      q ((b, .mstore tile m outf (d ++ js)) :: rest)) := by
  subst hop
  show execMxreadMstoreExecute L ⟨T, some js⟩ s = _
  simp only [execMxreadMstoreExecute, ht, hq, Option.bind_some, hops, List.head?_cons, Team.headOp, storeTile_seq, Option.map_some,
    List.drop_succ_cons, List.drop_zero]
  rfl

end

/-! An MXREAD (10 R218). -/

/-- The group with `f c` written to its register `vd + c`, for `c` below `n`, one after another. -/
def slabWritten (vd : Nat) (f : Nat → Lanes) (n : Nat) (g : Group) : Group :=
  (List.range n).foldl (fun g c => { g with vregs := g.vregs.modify (vd + c) fun x => { x with val := f c } }) g

theorem slabWritten_succ (vd : Nat) (f : Nat → Lanes) (n : Nat) (g : Group) : slabWritten vd f (n + 1) g =
    { slabWritten vd f n g with vregs := (slabWritten vd f n g).vregs.modify (vd + n) fun x => { x with val := f n } } := by
  simp only [slabWritten, List.range_succ, List.foldl_append, List.foldl_cons, List.foldl_nil]

theorem slabWritten_frame (vd : Nat) (f : Nat → Lanes) (n : Nat) (g : Group) :
    slabWritten vd f n g = { g with vregs := (slabWritten vd f n g).vregs } := by
  induction n with
  | zero => rfl
  | succ n ih =>
    rw [slabWritten_succ]
    conv_lhs => rw [ih]

theorem slabWritten_length (vd : Nat) (f : Nat → Lanes) (n : Nat) (g : Group) :
    (slabWritten vd f n g).vregs.length = g.vregs.length := by
  induction n with
  | zero => rfl
  | succ n ih => rw [slabWritten_succ, List.length_modify, ih]

theorem slabWritten_register (vd : Nat) (f : Nat → Lanes) (n : Nat) {g : Group} {k : Nat} {r : VSlot} (h : g.vregs[k]? = some r) :
    (slabWritten vd f n g).vregs[k]? = some (if vd ≤ k ∧ k < vd + n then ⟨f (k - vd), r.pend⟩ else r) := by
  induction n with
  | zero => rw [if_neg (by omega)]; exact h
  | succ n ih =>
    rw [slabWritten_succ]
    show ((slabWritten vd f n g).vregs.modify (vd + n) _)[k]? = _
    rw [List.getElem?_modify, ih, Option.map_eq_map, Option.map_some]
    by_cases hk : vd + n = k
    · rw [if_pos hk, if_neg (by omega), if_pos (by omega), ← hk, Nat.add_sub_cancel_left]
    · rw [if_neg hk]
      simp only [show (vd ≤ k ∧ k < vd + (n + 1)) ↔ (vd ≤ k ∧ k < vd + n) by omega]

theorem exec_port_mxread {s : State} {L T : Nat} {t : Team} {q : Sequencer} {b : W32} {rest : List (W32 × StreamOp)}
    (ht : s.team? ⟨L, T⟩ = some t) (hq : t.seq = some q) {tile grp vd sl : Nat} {port h : Bool}
    (hops : q.ops = (b, .mxread tile port grp h vd sl) :: rest) {x : Group} (hx : t.groups[grp]? = some x)
    (hready : ∀ k < 32, t.regReady grp (vd + k) = true) :
    exec (.mxreadMstoreExecute L ⟨T, none⟩) s = .next (opsLeft s
      { t with groups := t.groups.set grp (slabWritten vd (mxreadReg (t.tiles.getD tile tileZero) port h sl) 32 x) }
      { q with outs := q.outs ++ [(b, .mxread tile port grp h vd sl)] } rest) := by
  have hall : ((List.range 32).all fun c => t.regReady grp (vd + c)) = true :=
    List.all_eq_true.mpr fun k hk => hready k (List.mem_range.mp hk)
  have hgroups : t.groups.modify grp (slabWritten vd (mxreadReg (t.tiles.getD tile tileZero) port h sl) 32) =
      t.groups.set grp (slabWritten vd (mxreadReg (t.tiles.getD tile tileZero) port h sl) 32 x) := by
    rw [List.modify_eq_set_getElem?, hx]
    rfl
  show execMxreadMstoreExecute L ⟨T, none⟩ s = _
  simp only [execMxreadMstoreExecute, ht, hq, Option.bind_some, hops, List.head?_cons, hall, if_true, Team.dropOut, Option.map_some,
    List.drop_succ_cons, List.drop_zero]
  rw [← hgroups]
  rfl

/-! A batch completes (10 R220). -/

/-- BATCH_COMPLETE on a sequencer. -/
def batchDone (q : Sequencer) : Sequencer :=
  if q.doneb ≠ q.closed && !(q.ops.any fun x => decide (x.1 = q.doneb + 1)) then ({ q with doneb := q.doneb + 1 } : Sequencer).endIfDone
  else q

def teamBatchDone (t : Team) : Team := { t with seq := t.seq.map batchDone }

theorem exec_batchComplete (s : State) (L T : Nat) : exec (.batchComplete L T) s = .next (s.mapTeam ⟨L, T⟩ teamBatchDone) := rfl

/-- The next closed batch is done when none of its operations is left, and no MEND waits. -/
theorem batchDone_counts {q : Sequencer} (hclosed : q.doneb ≠ q.closed) (hops : ∀ x ∈ q.ops, x.1 ≠ q.doneb + 1) (hending : q.ending = false) :
    batchDone q = { q with doneb := q.doneb + 1 } := by
  have hleft : (q.ops.any fun x => decide (x.1 = q.doneb + 1)) = false :=
    List.any_eq_false.mpr fun x hx => by rw [decide_eq_true_eq]; exact hops x hx
  have hdone : (decide (q.doneb ≠ q.closed) && !(q.ops.any fun x => decide (x.1 = q.doneb + 1))) = true := by
    rw [hleft, decide_eq_true hclosed]
    rfl
  rw [batchDone, if_pos hdone, Sequencer.endIfDone, hending, Bool.false_and]
  exact if_neg Bool.false_ne_true

end Sys2Proof.Claims

open Sys2Proof Sys2Proof.Machine Sys2Proof.Claims

/-- Settles O27: one lemma an operation, over the team and its sequencer with the operation taken off. -/
theorem arrayAndPorts : Obligations.ArrayAndPorts := by
  intro s L T t q b op rest ht hq after executed taken
  refine ⟨fun hops => ⟨fun tile hop => exec_array_mzero ht hq hops hop, fun tile f m hs vb p hop => ?_, fun tile m outf d hop => ?_,
    fun tile port grp h vd sl x hop hx hready => ?_⟩, fun hclosed hleft hending => ?_⟩
  · exact ⟨tileAfter s t q tile f m hs vb p, exec_array_mma ht hq hops hop, mmaTile_length .., fun j hj hready i hi hearly =>
      mmaTile_element t _ _ f m hs vb p _ hi hj hready (spoiled_false hearly)⟩
  · exact ⟨exec_port_mstore ht hq hops hop, exec_port_mstorePart ht hq hops hop⟩
  · subst hop
    exact ⟨_, exec_port_mxread ht hq hops hx hready, slabWritten_frame .., slabWritten_length .., fun k r hr => slabWritten_register _ _ _ hr⟩
  · refine ⟨_, exec_batchComplete s L T, ?_, rfl, fun id hid => s.team?_mapTeam_other _ id _ (fun _ => rfl) hid⟩
    rw [s.team?_mapTeam _ teamBatchDone t ht fun _ => rfl, teamBatchDone, hq, Option.map_some, batchDone_counts hclosed hleft hending]
end


section
/-! Command links, Hive controllers, clock steps and the time lock (spec 25 R366, R367; 26 R384; 04 R108, R109). -/

namespace Sys2Proof.Claims
open Sys2Proof.Machine

/-! A message on a command link (25 R366). -/

theorem modify_of_getElem? {α : Type} {xs : List α} {i : Nat} {a : α} (h : xs[i]? = some a) (f : α → α) : xs.modify i f = xs.set i (f a) := by
  rw [List.modify_eq_set_getElem?, h]
  rfl

/-- The links of a direction. -/
def linksOf (s : State) (toCell : Bool) : List CmdLink := if toCell then s.hive.toCells else s.hive.fromCells

def putLink (s : State) (cell : Nat) (toCell : Bool) (l : CmdLink) : State :=
  if toCell then { s with hive := { s.hive with toCells := s.hive.toCells.set cell l } }
  else { s with hive := { s.hive with fromCells := s.hive.fromCells.set cell l } }

/-- The cell controller has logged the message. -/
def logMessage (s : State) (cell : Nat) (msg : BitVec 512) : State :=
  { s with hive := { s.hive with logs := s.hive.logs.modify cell (· ++ [msg]) } }

theorem putLink_self {s : State} {cell : Nat} {toCell : Bool} {l : CmdLink} (h : (linksOf s toCell)[cell]? = some l) :
    putLink s cell toCell l = s := by
  have hset {xs : List CmdLink} (h : xs[cell]? = some l) : xs.set cell l = xs :=
    (modify_of_getElem? h id).symm.trans (List.modify_id ..)
  cases toCell
  · exact congrArg (fun xs => ({ s with hive := { s.hive with fromCells := xs } } : State)) (hset h)
  · exact congrArg (fun xs => ({ s with hive := { s.hive with toCells := xs } } : State)) (hset h)

section
variable {s : State} {cell : Nat} {toCell : Bool} {l : CmdLink} (hcell : s.hive.lostCells.contains cell = false)
  (hl : (linksOf s toCell)[cell]? = some l)
include hcell hl

/-- A message is logged where the link carries it, and the link sends or consumes. -/
theorem exec_message (urgent send : Bool) (msg : BitVec 512) : exec (.commandLinkMessage cell toCell urgent send msg) s =
    .next (putLink (if send && l.carries urgent then logMessage s cell msg else s) cell toCell
      (if send then l.send urgent msg else l.consume urgent)) := by
  have hcell' : cell ∉ s.hive.lostCells := by simpa using hcell
  show execCommandLinkMessage cell toCell urgent send msg s = _
  cases toCell
  · have hl' : s.hive.fromCells[cell]? = some l := hl
    cases hlog : send && l.carries urgent <;>
      simp [execCommandLinkMessage, hcell', hl', hlog, modify_of_getElem? hl', putLink, logMessage]
  · have hl' : s.hive.toCells[cell]? = some l := hl
    cases hlog : send && l.carries urgent <;>
      simp [execCommandLinkMessage, hcell', hl', hlog, modify_of_getElem? hl', putLink, logMessage]

theorem exec_message_sent {urgent : Bool} (hpermit : (if urgent then l.urgentPermits else l.normalPermits) ≠ 0) (msg : BitVec 512) :
    exec (.commandLinkMessage cell toCell urgent true msg) s =
      .next (putLink (logMessage s cell msg) cell toCell (l.send urgent msg)) := by
  have hcarries : l.carries urgent = true := decide_eq_true hpermit
  rw [exec_message hcell hl, hcarries]
  rfl

theorem exec_message_waits {urgent : Bool} (hpermit : (if urgent then l.urgentPermits else l.normalPermits) = 0) (msg : BitVec 512) :
    exec (.commandLinkMessage cell toCell urgent true msg) s = .next s := by
  have hcarries : l.carries urgent = false := decide_eq_false (not_not_intro hpermit)
  have hsend : l.send urgent msg = l := by
    cases urgent
    · exact if_pos hpermit
    · exact if_pos hpermit
  rw [exec_message hcell hl, hcarries, hsend]
  exact congrArg Host.Outcome.next (putLink_self hl)

theorem exec_message_consumed (urgent : Bool) (msg : BitVec 512) : exec (.commandLinkMessage cell toCell urgent false msg) s =
    .next (putLink s cell toCell (l.consume urgent)) :=
  exec_message hcell hl urgent false msg

end

theorem send_urgent {l : CmdLink} (h : 0 < l.urgentPermits) (msg : BitVec 512) :
    l.send true msg = { l with urgentPermits := l.urgentPermits - 1, urgent := l.urgent ++ [msg] } := by
  rw [CmdLink.send, if_pos rfl, if_neg (Nat.ne_of_gt h)]

theorem send_normal {l : CmdLink} (h : 0 < l.normalPermits) (msg : BitVec 512) :
    l.send false msg = { l with normalPermits := l.normalPermits - 1, normal := l.normal ++ [msg] } := by
  rw [CmdLink.send, if_neg Bool.false_ne_true, if_neg (Nat.ne_of_gt h)]

theorem consume_urgent {l : CmdLink} {msg : BitVec 512} {rest : List (BitVec 512)} (h : l.urgent = msg :: rest) :
    l.consume true = { l with urgentPermits := l.urgentPermits + 1, urgent := rest } := by
  simp only [CmdLink.consume, if_true, h]

theorem consume_normal {l : CmdLink} {msg : BitVec 512} {rest : List (BitVec 512)} (h : l.normal = msg :: rest) :
    l.consume false = { l with normalPermits := l.normalPermits + 1, normal := rest } := by
  simp only [CmdLink.consume, Bool.false_eq_true, if_false, h]

/-! Hive controllers (25 R367). -/

section
variable {s : State}

theorem exec_heartbeat_due (hfenced : s.hive.fenced = none) (hdue : s.hive.beatAt + 100000 ≤ s.clock.gtime) (received : Bool) :
    exec (.hiveHeartbeat received) s = .next { s with hive := { s.hive with
      missed := if received then 0 else s.hive.missed + 1, beatAt := s.clock.gtime } } := by
  have hgoes : ¬ (s.hive.fenced.isSome || decide (s.clock.gtime < s.hive.beatAt + 100000)) = true := by
    simp [hfenced, hdue]
  exact congrArg Host.Outcome.next (if_neg hgoes)

theorem exec_heartbeat_early (h : s.hive.fenced ≠ none ∨ s.clock.gtime < s.hive.beatAt + 100000) (received : Bool) :
    exec (.hiveHeartbeat received) s = .next s := by
  have hstays : (s.hive.fenced.isSome || decide (s.clock.gtime < s.hive.beatAt + 100000)) = true := by
    simpa [Option.isSome_iff_ne_none] using h
  exact congrArg Host.Outcome.next (if_pos hstays)

theorem exec_takeover_due (hfenced : s.hive.fenced = none) (hmissed : 3 ≤ s.hive.missed) :
    exec .hiveTakeover s = .next (s.takeOver true) := by
  have hgoes : (s.hive.fenced.isNone && decide (3 ≤ s.hive.missed)) = true := by simp [hfenced, hmissed]
  exact congrArg Host.Outcome.next (if_pos hgoes)

theorem exec_takeover_early (h : s.hive.fenced ≠ none ∨ s.hive.missed < 3) : exec .hiveTakeover s = .next s := by
  have hstays : ¬ (s.hive.fenced.isNone && decide (3 ≤ s.hive.missed)) = true := by
    rw [Bool.and_eq_true, decide_eq_true_eq, Option.isNone_iff_eq_none]
    rintro ⟨hnone, hmissed⟩
    rcases h with h | h
    · exact h hnone
    · omega
  exact congrArg Host.Outcome.next (if_neg hstays)

/-! The clock step after a millisecond (26 R384). -/

/-- The step that the cold plate's limit asks for: it holds the step, or takes it up. -/
def plateStep (k : Nat) : Option Bool → Nat
  | none => 0
  | some up => min 14 (k + if up then 1 else 0)

/-- The state after a tick to step `k`, which counts in CAPMISS or does not. -/
def ticked (s : State) (average k : Nat) (miss : Bool) : State := { s with
  mgmt := { s.mgmt with clockStep := k, capAt := s.clock.gtime }
  telemetry := { s.telemetry with
    power := BitVec.ofNat 64 average
    capmiss := if miss then satInc s.telemetry.capmiss else s.telemetry.capmiss } }

theorem exec_tick_early {average : Nat} (h : s.clock.gtime < s.mgmt.capAt + 1000000) (plate : Option Bool) :
    exec (.powerCapTick average plate) s = .next s := if_pos h

/-- A tick that is due: the larger of the cap's step and the plate's, a miss where the cap's is the smaller. -/
theorem exec_tick_due {average k : Nat} {exceeds : Bool} {plate : Option Bool} (hdue : s.mgmt.capAt + 1000000 ≤ s.clock.gtime)
    (hcap : s.mgmt.capStep average = (k, exceeds)) : exec (.powerCapTick average plate) s =
      .next (ticked s average (max k (plateStep s.mgmt.clockStep plate))
        (exceeds || decide (k < max k (plateStep s.mgmt.clockStep plate)))) := by
  show execPowerCapTick average plate s = _
  simp only [execPowerCapTick, if_neg (Nat.not_lt.mpr hdue), hcap]
  cases plate <;> rfl

theorem exec_tick_cap {average k : Nat} {exceeds : Bool} {plate : Option Bool} (hdue : s.mgmt.capAt + 1000000 ≤ s.clock.gtime)
    (hcap : s.mgmt.capStep average = (k, exceeds)) (hplate : plateStep s.mgmt.clockStep plate ≤ k) :
    exec (.powerCapTick average plate) s = .next (ticked s average k exceeds) := by
  rw [exec_tick_due hdue hcap, Nat.max_eq_left hplate, decide_eq_false (Nat.lt_irrefl k), Bool.or_false]

theorem exec_tick_plate {average k : Nat} {exceeds : Bool} {plate : Option Bool} (hdue : s.mgmt.capAt + 1000000 ≤ s.clock.gtime)
    (hcap : s.mgmt.capStep average = (k, exceeds)) (hplate : k < plateStep s.mgmt.clockStep plate) :
    exec (.powerCapTick average plate) s = .next (ticked s average (plateStep s.mgmt.clockStep plate) true) := by
  rw [exec_tick_due hdue hcap, Nat.max_eq_right hplate.le, decide_eq_true hplate, Bool.or_true]

theorem capStep_up {m : Mgmt} {average : Nat} (h : m.powerCap < average) (hk : m.clockStep < 14) :
    m.capStep average = (m.clockStep + 1, false) := (if_pos h).trans (if_pos hk)

theorem capStep_top {m : Mgmt} {average : Nat} (h : m.powerCap < average) (hk : m.clockStep = 14) :
    m.capStep average = (m.clockStep, true) := (if_pos h).trans (if_neg (by omega))

theorem capStep_down {m : Mgmt} {average : Nat} (h : average + 200 ≤ m.powerCap) (hk : 0 < m.clockStep) :
    m.capStep average = (m.clockStep - 1, false) := (if_neg (by omega)).trans (if_pos ⟨h, hk⟩)

theorem capStep_stays {m : Mgmt} {average : Nat} (h : average ≤ m.powerCap) (hk : m.powerCap < average + 200 ∨ m.clockStep = 0) :
    m.capStep average = (m.clockStep, false) := (if_neg (by omega)).trans (if_neg (by omega))

theorem plateStep_hold {k : Nat} (h : k ≤ 14) : plateStep k (some false) = k := Nat.min_eq_right h

theorem plateStep_up {k : Nat} (h : k < 14) : plateStep k (some true) = k + 1 := Nat.min_eq_right h

/-- The plate asks for no more than one step up. -/
theorem plateStep_le (k : Nat) (plate : Option Bool) : plateStep k plate ≤ 14 ∧ plateStep k plate ≤ k + 1 := by
  cases plate with
  | none => simp [plateStep]
  | some up => cases up <;> simp [plateStep]

end

/-- LOSSES counts up to its largest value (04 R108). -/
theorem saturating_succ (n : BitVec 16) : (if n.toNat < 0xFFFF then n + 1 else n) = if n = 0xFFFF then 0xFFFF else n + 1 := by
  by_cases h : n = 0xFFFF
  · subst h
    rfl
  · have hlt : n.toNat < 0xFFFF := by bv_omega
    rw [if_pos hlt, if_neg h]

end Sys2Proof.Claims

open Sys2Proof Sys2Proof.Machine Sys2Proof.Claims

/-- Settles O58: a message by its link, a heartbeat and a takeover by their conditions, and a tick by the larger of two steps. -/
theorem firmwareLinksPowerAndTime : Obligations.FirmwareLinksPowerAndTime := by
  intro s cell avg l m rest tel tick missTick
  refine ⟨fun toCell hcell hlink => ?_, fun hfenced hdue => ⟨exec_heartbeat_due hfenced hdue true, exec_heartbeat_due hfenced hdue false⟩,
    fun r h => exec_heartbeat_early h r, exec_takeover_due, exec_takeover_early, fun plate h => exec_tick_early h plate,
    fun hdue hmax => ⟨fun hover hk plate => ?_, fun hover hk plate => ?_, fun hunder hk => ⟨?_, ?_, ?_⟩, fun hunder hk => ⟨?_, ?_, fun hlt => ?_⟩⟩,
    fun hlocked => ?_, fun hstarted hlocked => ?_, rfl⟩
  · have hl : (linksOf s toCell)[cell]? = some l := by cases toCell <;> exact hlink
    intro put logged
    refine ⟨fun h => ?_, fun h => exec_message_waits hcell hl (urgent := true) h m, fun h => ?_,
      fun h => exec_message_waits hcell hl (urgent := false) h m, fun h => ?_, fun h => ?_⟩
    · rw [exec_message_sent hcell hl (urgent := true) (Nat.ne_of_gt h), send_urgent h]
      cases toCell <;> rfl
    · rw [exec_message_sent hcell hl (urgent := false) (Nat.ne_of_gt h), send_normal h]
      cases toCell <;> rfl
    · rw [exec_message_consumed hcell hl, consume_urgent h]
      rfl
    · rw [exec_message_consumed hcell hl, consume_normal h]
      rfl
  · obtain ⟨-, hplate⟩ := plateStep_le s.mgmt.clockStep plate
    exact exec_tick_cap hdue (capStep_up hover hk) hplate
  · obtain ⟨hplate, -⟩ := plateStep_le s.mgmt.clockStep plate
    rw [exec_tick_cap hdue (capStep_top hover hk) (hk ▸ hplate), hk]
    rfl
  · exact exec_tick_cap hdue (capStep_down hunder hk) (Nat.zero_le _)
  · have hlt : s.mgmt.clockStep - 1 < plateStep s.mgmt.clockStep (some false) := by
      rw [plateStep_hold hmax]
      omega
    rw [exec_tick_plate hdue (capStep_down hunder hk) hlt, plateStep_hold hmax]
    rfl
  · have hlt : s.mgmt.clockStep - 1 < plateStep s.mgmt.clockStep (some true) := Nat.lt_min.mpr (by omega)
    exact exec_tick_plate hdue (capStep_down hunder hk) hlt
  · exact exec_tick_cap hdue (capStep_stays hunder hk) (Nat.zero_le _)
  · exact exec_tick_cap hdue (capStep_stays hunder hk) (plateStep_hold hmax).le
  · rw [exec_tick_plate hdue (capStep_stays hunder hk) (by rw [plateStep_up hlt]; omega), plateStep_up hlt]
    rfl
  · show execGtimeLockLoss s = _
    simp only [execGtimeLockLoss, hlocked, if_true, saturating_succ]
  · show execGtimeRelock s = _
    simp only [execGtimeRelock, hstarted, hlocked, Bool.not_false, Bool.and_self, if_true]
end

section
/-! A peer that becomes unreachable (spec 05 R123, 12 R243). A copy of a team whose rest goes on a channel to the lost peer marks
that channel LOST also when no stream of the channel is open there; the statement has the open streams alone mark it. -/

namespace Sys2Proof.Claims
open Sys2Proof.Machine

/-- A copy of one byte on channel 0, not yet begun, through a window onto die 0 of peer 3. -/
def unsentCopy : CopyCmd :=
  ⟨5, ⟨⟨0, 0⟩, 0⟩, 0, false, none, none, 0, 0, 1, 0, 0, false, none, some ⟨.peer 3 0, some (.peer 3 0)⟩, none, [], []⟩

/-- A team with that copy, and no stream open on any of its channels. -/
def unsentState : State :=
  { State.reset with launches := [soloLaunch], teams := [waitDueTeam], copies := [unsentCopy] }

/-- What becomes of the LOST bit of channel 0 when peer 3 is unreachable. -/
def lostBitAfter (s : State) : Option Bool := match exec (.peerUnreachable 3) s with
  | .next s' => (s'.team? ⟨0, 0⟩).map fun t => t.lost.getLsbD 0
  | _ => none

theorem unsent_copy_marks_channel : lostBitAfter unsentState = some true := by decide

end Sys2Proof.Claims

open Sys2Proof Sys2Proof.Machine Sys2Proof.Claims

/-- Refutes O51: in `unsentState` peer 3 becomes unreachable. No stream is open there, so the statement leaves LOST bit 0 clear;
the copy that was still to be sent to the peer sets it. -/
theorem not_transport : ¬ Obligations.Transport := by
  intro h
  obtain ⟨-, links⟩ := h
  obtain ⟨-, -, -, -, -, -, -, -, -, s', hs', -, -, hlost, -⟩ :=
    links unsentState 0 ⟨false, .full, 0, 0⟩ [] [] 3 rfl
  obtain ⟨t', ht', hbits⟩ := hlost rfl ⟨0, 0⟩ waitDueTeam rfl
  have hclear : t'.lost.getLsbD 0 = false := (hbits 0 (by decide)).trans (by decide)
  have hset := unsent_copy_marks_channel
  rw [lostBitAfter, hs'] at hset
  simp only [ht', Option.map_some, hclear] at hset
  exact absurd hset (by decide)
end

section
/-! Results that come back, copies and events of a group (spec 06 R135; 09 R203; 12 R241-R243, R260; 13 R271). -/

namespace Sys2Proof.Claims
open Sys2Proof.Machine

/-! A change of one group. -/

theorem mapGroup_teamIs {s : State} {id : GroupId} {t : Team} {g : Group} (ht : s.team? id.team = some t)
    (hg : t.groups[id.group]? = some g) (f : Group → Group) :
    TeamIs s (s.mapGroup id f) id.team { t with groups := t.groups.set id.group (f g) } := by
  rw [← modify_of_getElem? hg f]
  exact ⟨s.team?_mapTeam id.team _ t ht fun _ => rfl, fun u hu => s.team?_mapTeam_other id.team u _ (fun _ => rfl) hu⟩

theorem setGroup_teamIs {s : State} {id : GroupId} {t : Team} (ht : s.team? id.team = some t) (g : Group) :
    TeamIs s (s.setGroup id g) id.team { t with groups := t.groups.set id.group g } :=
  ⟨s.team?_mapTeam id.team _ t ht fun _ => rfl, fun u hu => s.team?_mapTeam_other id.team u _ (fun _ => rfl) hu⟩

theorem group?_of_team {s : State} {id : GroupId} {t : Team} {g : Group} (ht : s.team? id.team = some t)
    (hg : t.groups[id.group]? = some g) : s.group? id = some g := by
  rw [State.group?, ht, Option.bind_some, hg]

/-! Results that come back (06 R135). -/

/-- What a result does to the group that waits for it. -/
def landed (f : Flight) (g : Group) : Group := match f.value with
  | .scalar v => g.landS f.id v
  | .vector v => g.landV f.id f.mask v

theorem landSlots_filled (f : Flight) (v : Lanes) (q : List VSlot) :
    LanesFilled f v q (landSlots f.id (fun old => Lanes.tab fun l => if f.mask.getD l false then v.at l else old.at l) q) := by
  refine ⟨List.length_map _, fun k x hx => ⟨_, by rw [landSlots, List.getElem?_map, hx]; rfl, fun h => if_neg h, fun h => ?_⟩⟩
  rw [if_pos h]
  exact ⟨rfl, fun l hl => at_tab (fun l => if f.mask.getD l false then v.at l else x.val.at l) hl⟩

theorem landed_writtenBack (f : Flight) (g : Group) : WrittenBack f g (landed f g) := by
  unfold WrittenBack landed
  cases f.value with
  | scalar v => rfl
  | vector v => exact ⟨rfl, landSlots_filled f v g.vregs, landSlots_filled f v g.vqueue⟩

section
variable {s : State} {id : Nat} {f : Flight} {t : Team} {g : Group}

/-- The result lands in its group, and its flight ends. -/
theorem land_writesBack (hid : f.id = id) (ht : s.team? f.group.team = some t) (hg : t.groups[f.group.group]? = some g) :
    ∃ g' s', Host.Outcome.next (s.land f) = (.next s' : Res) ∧ WrittenBack f g g' ∧
      TeamIs s s' f.group.team { t with groups := t.groups.set f.group.group g' } ∧
      s' = { s with teams := s'.teams, flights := s.flights.filter fun x => decide (x.id ≠ id) } := by
  refine ⟨landed f g, s.land f, rfl, landed_writtenBack f g, mapGroup_teamIs ht hg (landed f), ?_⟩
  rw [← hid]
  rfl

theorem flight_id (hf : s.flights.find? (fun x => decide (x.id = id)) = some f) : f.id = id := by
  simpa using List.find?_some hf

theorem exec_loadReturn (hf : s.flights.find? (fun x => decide (x.id = id)) = some f) (hkind : f.kind = .load) (bad : Bool)
    (hserved : bad = true → ∀ x ∈ f.locs, ∀ a, x ≠ .phys a) : exec (.loadReturn id bad) s = .next (s.land f) := by
  show execLoadReturn id bad s = _
  rw [execLoadReturn, hf]
  dsimp only
  rw [if_neg (not_not.mpr hkind)]
  split
  · next herror =>
    obtain ⟨hbad, hphys⟩ := Bool.and_eq_true_iff.mp herror
    obtain ⟨x, hx, hmatch⟩ := List.any_eq_true.mp hphys
    cases x with
    | phys a => exact absurd rfl (hserved hbad _ hx a)
    | _ => exact absurd hmatch Bool.false_ne_true
  · rfl

theorem landKind_lands {ks : List FlightKind} (hf : s.flights.find? (fun x => decide (x.id = id)) = some f)
    (hkind : ks.contains f.kind = true)
    (hquiet : ∀ x ∈ s.packets, x.acked = false → ∀ accs k, x.op = .atomic accs k → k ≠ some id) :
    landKind ks id s = .next (s.land f) := by
  have hready : s.flightReady f = true := by
    rw [State.flightReady, flight_id hf, List.all_eq_true]
    intro p hp
    cases hack : p.acked with
    | true => rfl
    | false =>
      cases hop : p.op with
      | atomic accs k => simpa using hquiet p hp hack accs k hop
      | _ => rfl
  rw [landKind, hf]
  dsimp only
  rw [hkind, hready]
  rfl

end

/-! The confirmation of a receipt (05 R118). -/

theorem exec_receiptConfirmation {s : State} {id : Nat} {p : Packet} (hp : s.packet? id = some p) (hacked : p.acked = true) :
    exec (.atomicReceiptConfirmation id) s = .next (s.mapPacket id fun p => { p with kept := false }).dropSettled := by
  show execAtomicReceiptConfirmation id s = _
  rw [execAtomicReceiptConfirmation, hp]
  dsimp only
  rw [if_pos hacked]

/-- Packets that settle are acknowledged and keep no result. -/
theorem mem_dropSettled {s : State} {x : Packet} (hx : x ∈ s.packets) (h : x.acked = false ∨ x.kept = true) :
    x ∈ s.dropSettled.packets := by
  refine List.mem_filter.mpr ⟨hx, ?_⟩
  rcases h with h | h <;> simp [h]

theorem mem_mapPacket_other {s : State} {id : Nat} {x : Packet} (hx : x ∈ s.packets) (hne : x.id ≠ id) (f : Packet → Packet) :
    x ∈ (s.mapPacket id f).packets :=
  List.mem_map.mpr ⟨x, hx, if_neg hne⟩

theorem kept_of_confirmed {s : State} {id : Nat} {x : Packet}
    (hx : x ∈ (s.mapPacket id fun p => { p with kept := false }).dropSettled.packets) (hid : x.id = id) : x.kept = false := by
  obtain ⟨y, -, rfl⟩ := List.mem_map.mp (List.mem_of_mem_filter hx)
  split
  · rfl
  · next hne => exact absurd hid (by rwa [if_neg hne])

/-! A chunk of a copy (12 R243). -/

section
variable {s : State} {id : Nat} {k : CopyCmd} {l : Launch} {ch : Chunk} {h0 : Hit}

theorem copy_id (hk : s.copies.find? (fun x => decide (x.id = id)) = some k) : k.id = id := by
  simpa using List.find?_some hk

/-- What a chunk is made of, when its pages are mapped and its places ready. -/
theorem chunkOf_reads {die : Nat} (hwork : k.work = none) (hch : s.chunkOf l die k = some (.inl ch)) :
    ch.next = chunkEnd (ptrOff k.dst) k.next k.count ∧ ch.reads.length = ch.next - k.next ∧ ch.reads2 = [] := by
  unfold State.chunkOf at hch
  simp only [hwork] at hch
  split at hch
  · cases hch
  · split at hch
    · next hall =>
      obtain rfl := Sum.inl.inj (Option.some.inj hch)
      simp only [Bool.and_eq_true, decide_eq_true_eq] at hall
      obtain ⟨⟨⟨hreads, -⟩, -⟩, -⟩ := hall
      refine ⟨rfl, ?_, rfl⟩
      rw [hreads]
      simp [CopyCmd.sourceBytes, CopyCmd.elems, hwork]
    · cases hch

/-- No byte of the sources lies behind a window onto registers or tiles. -/
def NoWindow (hs : List Hit) : Prop := ∀ h ∈ hs, ∀ u j o, h.loc ≠ .regWin u j o ∧ h.loc ≠ .tileWin u j o

theorem readEarly_of_noWindow {loc : Loc} (h : ∀ u j o, loc ≠ .regWin u j o ∧ loc ≠ .tileWin u j o) (s : State) (r : GroupId) :
    s.readEarly r loc = false ∧ s.discarded loc = false := by
  cases loc with
  | regWin u j o => exact absurd rfl (h u j o).1
  | tileWin u j o => exact absurd rfl (h u j o).2
  | _ => exact ⟨rfl, rfl⟩

theorem spoilReads_of_noWindow {hs : List Hit} (h : NoWindow hs) (s : State) (r : GroupId) : s.spoilReads r (hs.map (·.loc)) = s := by
  have hnone : (hs.map (·.loc)).filter (s.readEarly r) = [] := by
    rw [List.filter_eq_nil_iff]
    intro loc hloc
    obtain ⟨x, hx, rfl⟩ := List.mem_map.mp hloc
    simp [(readEarly_of_noWindow (h x hx) s r).1]
  rw [State.spoilReads, hnone]
  rfl

/-- The data of a copy's chunk are the bytes at its sources. -/
theorem chunkData_copy (hwork : k.work = none) (h : NoWindow ch.reads) :
    s.chunkData k ch = ch.reads.map fun x => s.readLoc x.loc := by
  have hbyte (x : Hit × Nat) (hx : x ∈ ch.reads.zipIdx) : s.sourceByte k (k.next + x.2) x.1 = s.readLoc x.1.loc := by
    obtain ⟨hearly, hdiscarded⟩ := readEarly_of_noWindow (h x.1 (List.fst_mem_of_mem_zipIdx hx)) s k.group
    rw [State.sourceByte, hearly, hdiscarded]
    rfl
  unfold State.chunkData
  rw [hwork]
  dsimp only
  rw [List.map_congr_left hbyte]
  exact (List.map_map (f := Prod.fst) (g := fun x : Hit => s.readLoc x.loc)).symm.trans (by rw [List.zipIdx_map_fst])

/-- Without an overlap the data are what is written. -/
theorem chunkBytes_copy (hwork : k.work = none) (h : NoWindow ch.reads) (hlen : ch.reads.length = ch.next - k.next)
    (hnext : ch.next ≤ k.count) (hover : ∀ i < k.count, k.overlapped l i = false) :
    s.chunkBytes l k ch = ch.reads.map fun x => s.readLoc x.loc := by
  have hall : (s.chunkData k ch).take (ch.next - k.next) = ch.reads.map fun x => s.readLoc x.loc := by
    rw [chunkData_copy hwork h, List.take_of_length_le (by simp [hlen])]
  have hbyte (x : Byte × Nat) (hx : x ∈ (ch.reads.map fun x => s.readLoc x.loc).zipIdx) :
      (if k.overlapped l (k.next + x.2) then Config.undefByte s.free (2 * k.count + k.next + x.2) else x.1) = x.1 := by
    have hlt : x.2 < ch.next - k.next := by
      have := List.snd_lt_of_mem_zipIdx hx
      simpa [hlen] using this
    rw [hover (k.next + x.2) (by omega)]
    rfl
  rw [State.chunkBytes, hall, List.map_congr_left hbyte, List.zipIdx_map_fst]

theorem chunkSig_none (hnode : k.node = none) : s.chunkSig l k = none := by
  rw [State.chunkSig, hnode]
  rfl

theorem copyBegins_none (hnode : k.node = none) : s.copyBegins k = s := by
  rw [State.copyBegins, hnode]
  rfl

theorem nodeMayWrite_none (hnode : k.node = none) : s.nodeMayWrite k = true := by
  rw [State.nodeMayWrite, hnode]


/-- The state in which a copy engine has read a chunk: the entries are marked, and the links of its reads are at full width. -/
def chunkRead (s : State) (die : Nat) (ch : Chunk) : State :=
  { ((s.markHits ch.hits true).markHits ch.reads false).trafficTo die ch.reads with free := s.free + 2 }

/-- The cells that the chunk of a copy writes. -/
def chunkCells (s : State) (ch : Chunk) : List (Loc × Byte) :=
  (ch.hits.map (·.loc)).zip (ch.reads.map fun h => s.readLoc h.loc)

/-- The copies with one of them at the end of its chunk. -/
def chunkDone (id : Nat) (ch : Chunk) (cs : List CopyCmd) : List CopyCmd :=
  cs.map fun x => if x.id = id then { x with next := ch.next, carry := [] } else x

theorem engineStore_of_noTile {cells : List (Loc × Byte)} (h : ∀ x ∈ cells, ∀ u j o, x.1 ≠ .tileWin u j o) (s : State) :
    s.engineStore cells = s.storeCells cells := by
  unfold State.engineStore
  dsimp only
  split
  · next u j o b hhead => exact absurd rfl (h _ (List.mem_of_mem_head? hhead) u j o)
  · rfl

theorem storeCells_copies (cs : List (Loc × Byte)) (s : State) : (s.storeCells cs).copies = s.copies := by
  rw [storeCells_frame]

theorem chunkRead_copies (s : State) (die : Nat) (ch : Chunk) : (chunkRead s die ch).copies = s.copies := by
  rw [chunkRead, trafficTo_frame, markHits_frame, markHits_frame]

/-- A copy's chunk goes on the channel, or is performed here. -/
theorem doChunk_copy (hnode : k.node = none) (hwork : k.work = none) (hch : s.chunkOf l (s.copyDie k) k = some (.inl ch))
    (hover : ∀ i < k.count, k.overlapped l i = false) (hwin : NoWindow ch.reads) (hhead : ch.hits.head? = some h0) :
    s.doChunk l (s.copyDie k) k ch =
      (let go (t : State) : State := { t with copies := chunkDone k.id ch t.copies }
      if k.always || h0.dest.isSome then
        if s.copyBlocks k.group.team k.chan h0.home k.id then s
        else match (chunkRead s (s.copyDie k) ch).sendOp (.team k.group.team) k.chan k.group.group
            ⟨none, none, false, some k.joins, []⟩ h0.home (.chunk k.id (chunkCells s ch) none) with
          | some t => go t
          | none => s
      else go ((chunkRead s (s.copyDie k) ch).engineStore (chunkCells s ch))) := by
  obtain ⟨hnext, hlen, hreads2⟩ := chunkOf_reads hwork hch
  have hle : ch.next ≤ k.count := hnext ▸ Nat.min_le_left ..
  have hbytes := chunkBytes_copy (s := s) hwork hwin hlen hle hover
  have hrest : (s.chunkData k ch).drop (ch.next - k.next) = [] := by
    rw [chunkData_copy hwork hwin, List.drop_of_length_le (by simp [hlen])]
  have hcells : (ch.hits.zip (ch.reads.map fun x => s.readLoc x.loc)).map (fun x => (x.1.loc, x.2)) = chunkCells s ch := by
    rw [chunkCells, List.zip_map_left]
    rfl
  unfold State.doChunk
  simp only [hbytes, hrest, hcells, hreads2, List.append_nil, hhead, hnode, Option.isNone_none, Option.isSome_none, if_true,
    Bool.false_eq_true, if_false, chunkSig_none hnode, copyBegins_none hnode, spoilReads_of_noWindow hwin]
  rfl

theorem exec_copyChunk (hk : s.copies.find? (fun x => decide (x.id = id)) = some k) (hnode : k.node = none)
    (hl : s.launch? k.group.team.launch = some l) (hfatal : s.fatal = false) (hpage : k.pageWait = false) (hcode : k.code = 0)
    (hmore : k.next < k.count) (hch : s.chunkOf l (s.copyDie k) k = some (.inl ch)) :
    exec (.copyChunk id) s = .next (s.doChunk l (s.copyDie k) k ch) := by
  have hgoes : (s.fatal || k.pageWait || decide (k.code ≠ 0) || decide (k.count ≤ k.next) || !s.nodeMayWrite k) = false := by
    simp [hfatal, hpage, hcode, nodeMayWrite_none hnode, Nat.not_le.mpr hmore]
  show execCopyChunk id s = _
  rw [execCopyChunk, hk]
  dsimp only
  rw [hl]
  dsimp only
  rw [hgoes, if_neg Bool.false_ne_true, hch]

/-- A chunk that stays on the die is performed at once. -/
theorem doChunk_here (hnode : k.node = none) (hwork : k.work = none) (hch : s.chunkOf l (s.copyDie k) k = some (.inl ch))
    (hover : ∀ i < k.count, k.overlapped l i = false) (hwin : NoWindow ch.reads) (hhead : ch.hits.head? = some h0)
    (halways : k.always = false) (hdest : h0.dest = none) (htile : ∀ h ∈ ch.hits, ∀ u j o, h.loc ≠ .tileWin u j o) :
    s.doChunk l (s.copyDie k) k ch =
      { (chunkRead s (s.copyDie k) ch).storeCells (chunkCells s ch) with copies := chunkDone k.id ch s.copies } := by
  have hstore : (chunkRead s (s.copyDie k) ch).engineStore (chunkCells s ch) =
      (chunkRead s (s.copyDie k) ch).storeCells (chunkCells s ch) := by
    refine engineStore_of_noTile (fun x hx u j o => ?_) _
    obtain ⟨h, hh, hloc⟩ := List.mem_map.mp (List.of_mem_zip hx).1
    exact hloc ▸ htile h hh u j o
  rw [doChunk_copy hnode hwork hch hover hwin hhead]
  simp only [halways, hdest, Option.isSome_none, Bool.or_self, Bool.false_eq_true, if_false, hstore, storeCells_copies,
    chunkRead_copies]

/-- A chunk that leaves the die, or any of a CCOPY, is one operation on the copy's channel. -/
theorem doChunk_sent {s2 : State} (hnode : k.node = none) (hwork : k.work = none)
    (hch : s.chunkOf l (s.copyDie k) k = some (.inl ch)) (hover : ∀ i < k.count, k.overlapped l i = false) (hwin : NoWindow ch.reads)
    (hhead : ch.hits.head? = some h0) (hgoes : k.always = true ∨ h0.dest ≠ none)
    (hblocks : s.copyBlocks k.group.team k.chan h0.home k.id = false)
    (hsend : (chunkRead s (s.copyDie k) ch).sendOp (.team k.group.team) k.chan k.group.group ⟨none, none, false, some k.joins, []⟩
      h0.home (.chunk k.id (chunkCells s ch) none) = some s2) :
    s.doChunk l (s.copyDie k) k ch = { s2 with copies := chunkDone k.id ch s2.copies } := by
  have htravels : (k.always || h0.dest.isSome) = true := by
    simpa [Option.isSome_iff_ne_none] using hgoes
  rw [doChunk_copy hnode hwork hch hover hwin hhead]
  simp only [htravels, hblocks, hsend, if_true, Bool.false_eq_true, if_false]

/-! The status of a copy (09 R203, 12 R241). -/

theorem copyEnded_of {s : State} {k : CopyCmd} (hend : k.code ≠ 0 ∨ k.count ≤ k.next)
    (hquiet : ∀ p ∈ s.packets, p.acked = false → ∀ cs x, p.op ≠ .chunk k.id cs x) : s.copyEnded k = true := by
  rw [State.copyEnded, State.copyQuiet, Bool.and_eq_true, decide_eq_true_eq, List.all_eq_true]
  refine ⟨hend, fun p hp => ?_⟩
  cases hack : p.acked with
  | true => rfl
  | false =>
    cases hop : p.op with
    | chunk i cs x => simpa using fun hi : i = k.id => hquiet p hp hack cs x (hi ▸ hop)
    | _ => rfl

/-- The status written back to the copy's group, before the L1 is cleared. -/
def copyStatus (s : State) (k : CopyCmd) : State :=
  (s.mapGroup k.group (scalarBack k.id (k.code.zeroExtend 64))).mapTeam k.group.team fun t => { t with saveBarred := false }

theorem exec_copyFinish (hk : s.copies.find? (fun x => decide (x.id = id)) = some k) (hnode : k.node = none)
    (hended : s.copyEnded k = true) : exec (if k.always then .ccopyComplete id else .copyComplete id) s =
      .next { (copyStatus s k).clearL1Of k.group.team with copies := s.copies.filter fun x => decide (x.id ≠ id) } := by
  have hfinish (b : Bool) (hb : k.always = b) : copyFinish id b s =
      .next { (copyStatus s k).clearL1Of k.group.team with copies := s.copies.filter fun x => decide (x.id ≠ id) } := by
    have hall : (decide (k.always = b) && k.node.isNone && s.copyEnded k) = true := by simp [hb, hnode, hended]
    unfold copyFinish
    rw [hk]
    dsimp only
    rw [hall, if_pos rfl, copyStatus, copy_id hk]
    rfl
  cases halways : k.always with
  | true => exact hfinish true halways
  | false => exact hfinish false halways

theorem copyStatus_teamIs {t : Team} {g : Group} (ht : s.team? k.group.team = some t) (hg : t.groups[k.group.group]? = some g) :
    TeamIs s (copyStatus s k) k.group.team { t with
      groups := t.groups.set k.group.group (scalarBack k.id (k.code.zeroExtend 64) g)
      saveBarred := false } := by
  obtain ⟨hteam, hothers⟩ := mapGroup_teamIs ht hg (scalarBack k.id (k.code.zeroExtend 64))
  refine ⟨State.team?_mapTeam _ k.group.team (fun t => { t with saveBarred := false }) _ hteam fun _ => rfl, fun u hu => ?_⟩
  exact (State.team?_mapTeam_other _ k.group.team u (fun t => { t with saveBarred := false }) (fun _ => rfl) hu).trans (hothers u hu)

/-- The L1 of the team's core is cleared, and nothing else changes with the status. -/
theorem exec_copyFinish_gives {t : Team} {g : Group} (hk : s.copies.find? (fun x => decide (x.id = id)) = some k)
    (hnode : k.node = none) (hended : s.copyEnded k = true) (ht : s.team? k.group.team = some t)
    (hg : t.groups[k.group.group]? = some g) :
    ∃ s', exec (if k.always then .ccopyComplete id else .copyComplete id) s = .next s' ∧
      TeamIs s s' k.group.team { t with
        groups := t.groups.set k.group.group (scalarBack id (k.code.zeroExtend 64) g)
        saveBarred := false } ∧ L1Cleared s s' k.group.team ∧
      s' = { s with
        teams := s'.teams
        cores := s'.cores
        copies := s.copies.filter (fun x => decide (x.id ≠ id)) } := by
  have hteams := copyStatus_teamIs ht hg
  have hcore : ((copyStatus s k).team? k.group.team).bind Team.core? = (s.team? k.group.team).bind Team.core? := by
    rw [hteams.1, ht]
    rfl
  have hcleared : L1Cleared s ((copyStatus s k).clearL1Of k.group.team) k.group.team := clearL1Of_l1Cleared rfl hcore
  rw [copy_id hk] at hteams
  refine ⟨_, exec_copyFinish hk hnode hended, ?_, hcleared, ?_⟩
  · rw [clearL1Of_frame]
    exact hteams
  · rw [clearL1Of_frame]
    rfl

end

/-! A parked group (12 R260), VTIME (07 R152) and events (13 R271). -/

section
variable {s : State} {L T G : Nat} {t : Team} {g : Group} {c : Ctx}

theorem ctx_team_group {s : State} {id : GroupId} {t : Team} {g : Group} (ht : s.team? id.team = some t)
    (hg : t.groups[id.group]? = some g) {c : Ctx} (hc : s.ctx? id = some c) : c.s = s ∧ c.id = id ∧ c.team = t ∧ c.group = g := by
  obtain ⟨hs, hid, hteam, -, hgroup, -⟩ := s.ctx?_spec id c hc
  exact ⟨hs, hid, Option.some.inj (hteam.symm.trans ht), Option.some.inj (hgroup.symm.trans (group?_of_team ht hg))⟩

/-- The wait of a parked group is over when its flag has reached the threshold. -/
theorem waitMet_eq {a v : W64} {x : Hit}
    (hx : c.s.checkScalar c.launch c.id.team c.die a (ptrOff a) 8 [.pr] false = .ok x)
    (hheld : c.s.loadHeld c.id (spans x.loc 8) = false) :
    c.waitMet a v = decide ((BitVec.ofNat 64 (leNat ((spans x.loc 8).map c.s.readLoc)) - v).toNat < 2 ^ 63) := by
  unfold Ctx.waitMet
  rw [hx]
  dsimp only
  rw [bytesOf_spans, hheld, loadLoc_eq, Bool.not_false, Bool.true_and, reached64]

theorem exec_waitaWake {a v : W64} {since : Nat} (hc : s.ctx? ⟨⟨L, T⟩, G⟩ = some c) (hrun : c.group.run = .parked a v since) :
    exec (.waitaWake L T G) s =
      .next (if c.waitMet a v then s.setGroup ⟨⟨L, T⟩, G⟩ { c.group with run := .running } else s) := by
  show execWaitaWake L T G s = _
  unfold execWaitaWake
  dsimp only
  rw [hc]
  dsimp only
  rw [hrun]

theorem exec_vtimeCompareMatch (ht : s.team? ⟨L, T⟩ = some t) (hg : t.groups[G]? = some g)
    (hset : g.vtcmp ≠ BitVec.allOnes 64) (hreached : g.vtcmp.toNat ≤ (s.vtime t).toNat) :
    exec (.vtimeCompareMatch L T G) s = .next (s.setGroup ⟨⟨L, T⟩, G⟩ { g with evVtime := true, vtcmp := BitVec.allOnes 64 }) := by
  have hgroup : s.group? ⟨⟨L, T⟩, G⟩ = some g := group?_of_team (id := ⟨⟨L, T⟩, G⟩) ht hg
  have hmatch : (decide (g.vtcmp ≠ BitVec.allOnes 64) && decide (g.vtcmp.toNat ≤ (s.vtime t).toNat)) = true := by
    rw [decide_eq_true hset, decide_eq_true hreached]
    rfl
  show execVtimeCompareMatch L T G s = _
  rw [execVtimeCompareMatch, State.vtimeCheck, hgroup, ht]
  dsimp only
  rw [hmatch]
  rfl

/-- A group at a boundary takes its event. -/
theorem exec_eventTrap (ht : s.team? ⟨L, T⟩ = some t) (hg : t.groups[G]? = some g) (htrap : g.inTrap = false)
    (hrun : g.run = .running) (hrewriting : g.rewriting = none) (hfrozen : t.frozen = false) (hcore : t.core?.isSome = true)
    (hnoted : (⟨⟨L, T⟩, G⟩ : GroupId) ∈ s.noted) (hevent : (g.evStream || !g.evCollective.isEmpty || g.evVtime || g.evStop) = true) :
    exec (.eventTrap L T G) s =
      .next ((s.setGroup ⟨⟨L, T⟩, G⟩ { g with run := .running }).takeEvent ⟨⟨L, T⟩, G⟩).finishStops := by
  have hgroup : s.group? ⟨⟨L, T⟩, G⟩ = some g := group?_of_team (id := ⟨⟨L, T⟩, G⟩) ht hg
  have htakes : (g.eventReady && g.mayIssue && g.rewriting.isNone && !t.frozen && t.core?.isSome &&
      s.noted.contains (⟨⟨L, T⟩, G⟩ : GroupId)) = true := by
    simp [Group.eventReady, Group.mayIssue, htrap, hrun, hrewriting, hfrozen, hcore, hnoted, hevent]
  show execEventTrap L T G s = _
  unfold execEventTrap
  dsimp only
  rw [hgroup, ht]
  dsimp only
  rw [htakes]
  rfl

section
variable {id : GroupId}

theorem takeEvent_stream {q : Sequencer} (hgroup : s.group? id = some g) (ht : s.team? id.team = some t) (hq : t.seq = some q)
    (h : g.evStream = true) : s.takeEvent id = (s.setGroup id { g with evStream := false }).deliver id
      ⟨0x11, BitVec.ofNat 8 (q.sqfault.toNat % 8), q.faultPtr, q.sqfault, 0, 0⟩ false 0 := by
  rw [State.takeEvent, hgroup, ht]
  dsimp only
  rw [if_pos h, hq]
  rfl

theorem takeEvent_collective {h n : W64} {rest : List (W64 × W64)} (hgroup : s.group? id = some g)
    (ht : s.team? id.team = some t) (hstream : g.evStream = false) (hevent : g.evCollective = (h, n) :: rest) :
    s.takeEvent id = (s.setGroup id { g with evCollective := rest }).deliver id ⟨0x12, 0, h, n, 0, 0⟩ false 0 := by
  rw [State.takeEvent, hgroup, ht]
  dsimp only
  rw [hstream, if_neg Bool.false_ne_true, hevent]
  rfl

theorem takeEvent_vtime (hgroup : s.group? id = some g) (ht : s.team? id.team = some t) (hstream : g.evStream = false)
    (hcollective : g.evCollective = []) (h : g.evVtime = true) :
    s.takeEvent id = (s.setGroup id { g with evVtime := false }).deliver id ⟨0x10, 0, 0, s.vtime t, 0, 0⟩ false 0 := by
  rw [State.takeEvent, hgroup, ht]
  dsimp only
  rw [hstream, if_neg Bool.false_ne_true, hcollective]
  dsimp only
  rw [if_pos h]
  rfl

theorem takeEvent_stop (hgroup : s.group? id = some g) (ht : s.team? id.team = some t) (hstream : g.evStream = false)
    (hcollective : g.evCollective = []) (hvtime : g.evVtime = false) (h : g.evStop = true) :
    s.takeEvent id = s.setGroup id { g with evStop := false, run := .debugStopped } := by
  rw [State.takeEvent, hgroup, ht]
  dsimp only
  rw [hstream, if_neg Bool.false_ne_true, hcollective]
  dsimp only
  rw [hvtime, if_neg Bool.false_ne_true, if_pos h]

end
end

end Sys2Proof.Claims

open Sys2Proof Sys2Proof.Machine Sys2Proof.Claims

/-- Settles O43: a result lands where it is waited for; a copy's chunk by where it goes; events in their order. -/
theorem eventsOfAGroup : Obligations.EventsOfAGroup := by
  refine ⟨fun s id f t g p => ⟨fun hf ht hg => ?_, fun hp hacked => ?_⟩, ?_, ?_⟩
  · have hback := land_writesBack (flight_id hf) ht hg
    refine ⟨fun hkind => ?_, fun hkind hserved => ?_, fun hkind hquiet => ?_, fun hkind hquiet => ?_⟩
    · rw [exec_loadReturn hf hkind false fun h => absurd h Bool.false_ne_true]
      exact hback
    · rw [exec_loadReturn hf hkind true fun _ => hserved]
      exact hback
    · have hland : exec (.atomicReturn id) s = .next (s.land f) :=
        landKind_lands hf (by rcases hkind with h | h <;> rw [h] <;> rfl) hquiet
      rw [hland]
      exact hback
    · have hland : exec (.nectarWriteback id) s = .next (s.land f) := landKind_lands hf (by rw [hkind]; rfl) hquiet
      rw [hland]
      exact hback
  · exact ⟨_, exec_receiptConfirmation hp hacked, rfl, fun x hx hid => kept_of_confirmed hx hid,
      fun x hx hne h => mem_dropSettled (mem_mapPacket_other hx hne _) h⟩
  · intro s id k l ch h0 t g s2 hk hnode hwork die moved cells s1
    refine ⟨fun hl hfatal hpage hcode hmore hch hover hwin hhead => ⟨fun halways hdest htile => ?_, fun hgoes hblocks hsend => ?_⟩,
      fun ht hg hend hquiet => ?_⟩
    · rw [exec_copyChunk hk hnode hl hfatal hpage hcode hmore hch, doChunk_here hnode hwork hch hover hwin hhead halways hdest htile,
        copy_id hk]
      rfl
    · rw [exec_copyChunk hk hnode hl hfatal hpage hcode hmore hch,
        doChunk_sent hnode hwork hch hover hwin hhead hgoes hblocks (by rw [copy_id hk]; exact hsend), copy_id hk]
      rfl
    · exact exec_copyFinish_gives hk hnode (copyEnded_of hend (by rw [copy_id hk]; exact hquiet)) ht hg
  · intro s L T G t g q h n rest c x id ht hg
    refine ⟨fun a v since hrun hc hx hheld => ?_, exec_vtimeCompareMatch ht hg,
      fun htrap hrun hrewriting hfrozen hcore hnoted => ?_⟩
    · obtain ⟨rfl, hid, rfl, rfl⟩ := ctx_team_group (id := id) ht hg hc
      have hwake := exec_waitaWake hc hrun
      rw [waitMet_eq (by rw [hid]; exact hx) (by rw [hid]; exact hheld)] at hwake
      refine ⟨fun hmet => ⟨_, hwake.trans (by rw [decide_eq_true hmet, if_pos rfl]), rfl, setGroup_teamIs (id := id) ht _⟩,
        fun hmet => hwake.trans (by rw [decide_eq_false (Nat.not_lt.mpr hmet), if_neg Bool.false_ne_true])⟩
    · have hsame : ({ g with run := .running } : Group) = g := by rw [← hrun]
      have htrapped := exec_eventTrap ht hg htrap hrun hrewriting hfrozen hcore hnoted
      intro s0
      obtain ⟨hteam, -⟩ := setGroup_teamIs (id := id) ht { g with run := .running }
      have hgroup : s0.group? id = some g :=
        hsame ▸ s.group?_setGroup id g { g with run := .running } (group?_of_team (id := id) ht hg)
      refine ⟨fun hev hq => ?_, fun hstream hev => ?_, fun hstream hcollective hev => ?_, fun hstream hcollective hvtime hev => ?_⟩
      · rw [htrapped (by simp [hev]), takeEvent_stream hgroup hteam hq hev]
      · rw [htrapped (by simp [hev]), takeEvent_collective hgroup hteam hstream hev]
      · rw [htrapped (by simp [hev]), takeEvent_vtime hgroup hteam hstream hcollective hev]
        rfl
      · rw [htrapped (by simp [hev]), takeEvent_stop hgroup hteam hstream hcollective hvtime hev]
end

section
/-! What follows a loss (spec 24 R363, R364): the relations that say what a step of it leaves of teams, launches and work. -/

namespace Sys2Proof.Claims
open Sys2Proof.Machine

/-! Nothing new is under way. -/

/-- What is under way in `t`, on cores, channels and engines, was under way in `s` for the same groups and streams. -/
structure NothingNew (s t : State) : Prop where
  entries : ∀ c ∈ t.cores, ∀ e ∈ c.active ++ c.pending, ∃ c0 ∈ s.cores, e ∈ c0.active ++ c0.pending
  packets : ∀ p ∈ t.packets, ∃ q ∈ s.packets, q.stream = p.stream
  ports : ∀ p ∈ t.ports, p ∈ s.ports
  flights : ∀ x ∈ t.flights, ∃ y ∈ s.flights, y.group = x.group
  copies : ∀ x ∈ t.copies, ∃ y ∈ s.copies, y.group = x.group
  replays : ∀ x ∈ t.replays, x ∈ s.replays
  signatures : ∀ x ∈ t.signatures, x ∈ s.signatures

theorem NothingNew.refl (s : State) : NothingNew s s :=
  ⟨fun c hc _ he => ⟨c, hc, he⟩, fun p hp => ⟨p, hp, rfl⟩, fun _ h => h, fun x hx => ⟨x, hx, rfl⟩, fun x hx => ⟨x, hx, rfl⟩,
    fun _ h => h, fun _ h => h⟩

theorem NothingNew.trans {s t u : State} (h : NothingNew s t) (h' : NothingNew t u) : NothingNew s u where
  entries c hc e he := by
    obtain ⟨c1, hc1, he1⟩ := h'.entries c hc e he
    exact h.entries c1 hc1 e he1
  packets p hp := by
    obtain ⟨q, hq, hqp⟩ := h'.packets p hp
    obtain ⟨r, hr, hrq⟩ := h.packets q hq
    exact ⟨r, hr, hrq.trans hqp⟩
  ports p hp := h.ports p (h'.ports p hp)
  flights x hx := by
    obtain ⟨y, hy, hyx⟩ := h'.flights x hx
    obtain ⟨z, hz, hzy⟩ := h.flights y hy
    exact ⟨z, hz, hzy.trans hyx⟩
  copies x hx := by
    obtain ⟨y, hy, hyx⟩ := h'.copies x hx
    obtain ⟨z, hz, hzy⟩ := h.copies y hy
    exact ⟨z, hz, hzy.trans hyx⟩
  replays x hx := h.replays x (h'.replays x hx)
  signatures x hx := h.signatures x (h'.signatures x hx)

/-- A change of other components of the state. -/
theorem NothingNew.of_eq {s t : State} (hcores : t.cores = s.cores) (hpackets : t.packets = s.packets) (hports : t.ports = s.ports)
    (hflights : t.flights = s.flights) (hcopies : t.copies = s.copies) (hreplays : t.replays = s.replays)
    (hsignatures : t.signatures = s.signatures) : NothingNew s t where
  entries c hc _ he := ⟨c, hcores ▸ hc, he⟩
  packets p hp := ⟨p, hpackets ▸ hp, rfl⟩
  ports _ hp := hports ▸ hp
  flights x hx := ⟨x, hflights ▸ hx, rfl⟩
  copies x hx := ⟨x, hcopies ▸ hx, rfl⟩
  replays _ hx := hreplays ▸ hx
  signatures _ hx := hsignatures ▸ hx

/-- Streams that are forgotten leave no packet, and nothing new. -/
theorem forgetStreams_nothingNew (s : State) (f : StreamId → Bool) : NothingNew s (s.forgetStreams f) where
  entries c hc _ he := ⟨c, hc, he⟩
  packets p hp := ⟨p, List.mem_of_mem_filter hp, rfl⟩
  ports _ hp := List.mem_of_mem_filter hp
  flights x hx := ⟨x, hx, rfl⟩
  copies x hx := ⟨x, hx, rfl⟩
  replays _ hx := hx
  signatures _ hx := hx

/-! An exception that groups take outside their turn. -/

/-- `t` is `s` with exceptions delivered to groups that `p` admits: those groups change, the launches note stops, and patch actions
may begin. -/
structure Delivered (p : GroupId → Prop) (s t : State) : Prop where
  teams : ∃ F : Team → Team, t.teams = s.teams.map F ∧ ∀ x, F x = { x with groups := (F x).groups } ∧
    ∀ i, ¬ p ⟨x.id, i⟩ → (F x).groups[i]? = x.groups[i]?
  launches : ∃ F : Launch → Launch, t.launches = s.launches.map F ∧
    ∀ m, F m = { m with nstop := (F m).nstop, firstStop := (F m).firstStop, reports := (F m).reports }
  frame : t = { s with
    teams := t.teams, launches := t.launches, patchActs := t.patchActs
    telemetry := { s.telemetry with patchActs := t.telemetry.patchActs } }

section
variable {p : GroupId → Prop} {s t u : State}

theorem Delivered.refl (p : GroupId → Prop) (s : State) : Delivered p s s :=
  ⟨⟨id, (List.map_id _).symm, fun _ => ⟨rfl, fun _ _ => rfl⟩⟩, ⟨id, (List.map_id _).symm, fun _ => rfl⟩, rfl⟩

theorem Delivered.trans (h : Delivered p s t) (h' : Delivered p t u) : Delivered p s u := by
  obtain ⟨⟨F, hF, hFx⟩, ⟨L, hL, hLm⟩, hframe⟩ := h
  obtain ⟨⟨F', hF', hFx'⟩, ⟨L', hL', hLm'⟩, hframe'⟩ := h'
  refine ⟨⟨F' ∘ F, by rw [hF', hF, List.map_map], fun x => ⟨?_, fun i hi => ?_⟩⟩, ⟨L' ∘ L, by rw [hL', hL, List.map_map], fun m => ?_⟩, ?_⟩
  · rw [Function.comp_apply, (hFx' (F x)).1, (hFx x).1]
  · have hid : (F x).id = x.id := by rw [(hFx x).1]
    rw [Function.comp_apply, (hFx' (F x)).2 i (by rw [hid]; exact hi), (hFx x).2 i hi]
  · rw [Function.comp_apply, hLm' (L m), hLm m]
  · rw [hframe', hframe]

theorem Delivered.mono {q : GroupId → Prop} (hpq : ∀ i, p i → q i) (h : Delivered p s t) : Delivered q s t := by
  obtain ⟨⟨F, hF, hFx⟩, hlaunches, hframe⟩ := h
  exact ⟨⟨F, hF, fun x => ⟨(hFx x).1, fun i hi => (hFx x).2 i fun h => hi (hpq _ h)⟩⟩, hlaunches, hframe⟩

theorem Delivered.nothingNew (h : Delivered p s t) : NothingNew s t := by
  obtain ⟨-, -, hframe⟩ := h
  rw [hframe]
  exact .of_eq rfl rfl rfl rfl rfl rfl rfl

/-- A group that `p` does not choose is as it was. -/
theorem Delivered.group? (h : Delivered p s t) {id : GroupId} (hid : ¬ p id) : t.group? id = s.group? id := by
  obtain ⟨⟨F, hF, hFx⟩, -, -⟩ := h
  have hsame (x : Team) : (F x).id = x.id := by rw [(hFx x).1]
  rw [State.group?, State.team?, hF, find?_map_of_same hsame, State.group?, State.team?]
  cases hx : s.teams.find? fun x => decide (x.id = id.team) with
  | none => rfl
  | some x =>
    have hteam : x.id = id.team := by simpa using List.find?_some hx
    exact (hFx x).2 id.group (by rw [hteam]; exact hid)

theorem Delivered.launch? (h : Delivered p s t) (n : Nat) : (t.launch? n).isSome = (s.launch? n).isSome := by
  obtain ⟨-, ⟨F, hF, hFm⟩, -⟩ := h
  have hsame (m : Launch) : (F m).seq = m.seq := by rw [hFm m]
  rw [State.launch?, hF, find?_map_of_same hsame, State.launch?, Option.isSome_map]

theorem Delivered.faultSlot? (h : Delivered p s t) (code sub : BitVec 8) : t.faultSlot? code sub = s.faultSlot? code sub := by
  rw [h.frame]
  rfl

end

theorem mapGroup_delivered (s : State) (id : GroupId) (f : Group → Group) : Delivered (· = id) s (s.mapGroup id f) := by
  refine ⟨⟨_, rfl, fun x => ⟨by split <;> rfl, fun i hi => ?_⟩⟩, ⟨_, (List.map_id _).symm, fun _ => rfl⟩, rfl⟩
  split
  · next hx =>
    have hne : id.group ≠ i := fun h => hi (by rw [hx, ← h])
    exact List.getElem?_modify_ne f _ hne
  · rfl

theorem setGroup_delivered (s : State) (id : GroupId) (g : Group) : Delivered (· = id) s (s.setGroup id g) := by
  refine ⟨⟨_, rfl, fun x => ⟨by split <;> rfl, fun i hi => ?_⟩⟩, ⟨_, (List.map_id _).symm, fun _ => rfl⟩, rfl⟩
  split
  · next hx => exact List.getElem?_set_ne fun h => hi (by rw [hx, ← h])
  · rfl

theorem stopGroup_delivered (s : State) (id : GroupId) (r : FaultRecord) : Delivered (· = id) s (s.stopGroup id r) := by
  refine (mapGroup_delivered s id _).trans ⟨⟨_, (List.map_id _).symm, fun _ => ⟨rfl, fun _ _ => rfl⟩⟩, ⟨_, rfl, fun m => ?_⟩, rfl⟩
  split <;> rfl

theorem deliverRecord_delivered (s : State) (l : Launch) (t : Team) (id : GroupId) (g : Group) (r : FaultRecord) :
    Delivered (· = id) s (s.deliverRecord l t id g r) := by
  unfold State.deliverRecord
  split
  · exact stopGroup_delivered s id _
  · dsimp only
    split
    · exact stopGroup_delivered s id r
    · split
      · exact (setGroup_delivered s id _).trans (stopGroup_delivered _ id _)
      · exact setGroup_delivered s id _

theorem patchAct_delivered (s : State) (id : GroupId) (k : Nat) (x : PatchSlot) (w : W32) (r : Option FaultRecord) :
    Delivered (· = id) s (s.patchAct id k x w r) := by
  have hcount : Delivered (· = id) s { s with telemetry := { s.telemetry with patchActs := satInc s.telemetry.patchActs } } :=
    ⟨⟨_, (List.map_id _).symm, fun _ => ⟨rfl, fun _ _ => rfl⟩⟩, ⟨_, (List.map_id _).symm, fun _ => rfl⟩, rfl⟩
  unfold State.patchAct
  dsimp only
  split
  · exact hcount.trans (mapGroup_delivered _ id _)
  · split
    · refine (hcount.trans (mapGroup_delivered _ id _)).trans ⟨⟨_, (List.map_id _).symm, fun _ => ⟨rfl, fun _ _ => rfl⟩⟩,
        ⟨_, (List.map_id _).symm, fun _ => rfl⟩, rfl⟩
    · exact hcount

theorem mkRecord_code (l : Launch) (g : Group) (x : TrapInfo) (done : Bool) (vt : W64) : (mkRecord l g x done vt).code = x.code := by
  unfold mkRecord
  dsimp only
  split
  · rfl
  · split <;> rfl

/-- BARRIER_LOST clears no LOST bit. -/
theorem deliver_barrierLost_delivered (s : State) (id : GroupId) (w : W32) : Delivered (· = id) s (s.deliver id .barrierLost false w) := by
  unfold State.deliver
  split
  · next t l g ht hl hg =>
    dsimp only
    split
    · exact patchAct_delivered s id _ _ w _
    · have hcode : (mkRecord l g .barrierLost false (s.vtime t)).code ≠ 0x0B := by
        rw [mkRecord_code]
        decide
      rw [State.clearLost, if_neg hcode]
      exact deliverRecord_delivered s l t id g _
  · exact .refl _ s

/-! Groups that WAITA parked take BARRIER_LOST (24 R364). -/

/-- A parked group takes BARRIER_LOST. -/
def wake (s : State) (id : GroupId) : State :=
  (s.mapGroup id fun g => { g with run := .running }).deliver id .barrierLost false (s.wordAt id)

theorem wake_delivered (s : State) (id : GroupId) : Delivered (· = id) s (wake s id) :=
  (mapGroup_delivered s id _).trans (deliver_barrierLost_delivered _ id _)

theorem foldl_wake_delivered (ids : List GroupId) : ∀ s, Delivered (· ∈ ids) s (ids.foldl wake s) := by
  induction ids with
  | nil => exact fun s => .refl _ s
  | cons id ids ih =>
    intro s
    refine ((wake_delivered s id).mono fun i hi => ?_).trans ((ih (wake s id)).mono fun i hi => List.mem_cons_of_mem _ hi)
    exact hi ▸ List.mem_cons_self

theorem mem_parkedGroups {s : State} {ns : List Nat} {id : GroupId} (h : id ∈ s.parkedGroups ns) : id.team.launch ∈ ns := by
  obtain ⟨t, ht, hid⟩ := List.mem_flatMap.mp h
  obtain ⟨x, -, rfl⟩ := List.mem_map.mp hid
  have hlaunch := (List.mem_filter.mp ht).2
  simp only [Bool.and_eq_true, List.contains_iff_mem] at hlaunch
  exact hlaunch.1

theorem wakeParked_delivered (s : State) (ns : List Nat) : Delivered (fun id => id.team.launch ∈ ns) s (s.wakeParked ns) :=
  (foldl_wake_delivered (s.parkedGroups ns) s).mono fun _ => mem_parkedGroups

/-- The group of a resident team is among those that are parked. -/
theorem mem_parkedGroups_of {s : State} {ns : List Nat} {id : GroupId} {t : Team} {g : Group} {a v : W64} {n k : Nat}
    (ht : s.team? id.team = some t) (hplace : t.place = .resident k) (hg : t.groups[id.group]? = some g)
    (hrun : g.run = .parked a v n) (hmem : id.team.launch ∈ ns) : id ∈ s.parkedGroups ns := by
  have hid : t.id = id.team := by simpa using List.find?_some ht
  refine List.mem_flatMap.mpr ⟨t, List.mem_filter.mpr ⟨List.mem_of_find?_eq_some ht, ?_⟩, List.mem_map.mpr
    ⟨(g, id.group), List.mem_filter.mpr ⟨List.mk_mem_zipIdx_iff_getElem?.mpr hg, by simp [hrun]⟩, by rw [hid]⟩⟩
  simp [hid, hmem, Team.core?, hplace]

/-- A group that may take BARRIER_LOST, and leaves no other record when it has taken it already. -/
def MayTake (s : State) (id : GroupId) : Prop := s.faultSlot? 0x0C 0 = none ∧ (s.launch? id.team.launch).isSome = true ∧
  ∃ g, s.group? id = some g ∧ (g.inTrap = true → g.record.code = 0x0C)

/-- The group has taken BARRIER_LOST. -/
def Took (s : State) (id : GroupId) : Prop := ∃ g, s.group? id = some g ∧ g.record.code = 0x0C ∧ ∀ a v n, g.run ≠ .parked a v n

theorem MayTake.delivered {p : GroupId → Prop} {s t : State} {id : GroupId} (h : MayTake s id) (hd : Delivered p s t) (hid : ¬ p id) :
    MayTake t id := by
  obtain ⟨hslot, hlaunch, hg⟩ := h
  exact ⟨(hd.faultSlot? _ _).trans hslot, (hd.launch? _).trans hlaunch, by rwa [hd.group? hid]⟩

theorem stopGroup_group? {s : State} {id : GroupId} {g : Group} (hg : s.group? id = some g) (r : FaultRecord) :
    ∃ g', (s.stopGroup id r).group? id = some g' ∧ g'.record = r ∧ g'.run = .stopped :=
  ⟨_, (group?_mapGroup s id _).trans (by rw [hg]; rfl), rfl, rfl⟩

/-- What delivery leaves of the group: its record, or the record it had. -/
theorem deliverRecord_group? {s : State} {id : GroupId} {g : Group} (hg : s.group? id = some g) (l : Launch) (t : Team)
    {r : FaultRecord} (hdone : r.done = false) (hcode : g.inTrap = true → g.record.code = r.code) :
    ∃ g', (s.deliverRecord l t id g r).group? id = some g' ∧ g'.record.code = r.code ∧ ∀ a v n, g'.run ≠ .parked a v n := by
  have stopped {s1 : State} {g1 : Group} (h1 : s1.group? id = some g1) {r1 : FaultRecord} (hr1 : r1.code = r.code) :
      ∃ g', (s1.stopGroup id r1).group? id = some g' ∧ g'.record.code = r.code ∧ ∀ a v n, g'.run ≠ .parked a v n := by
    obtain ⟨g', hg', hrecord, hrun⟩ := stopGroup_group? h1 r1
    exact ⟨g', hg', by rw [hrecord, hr1], fun a v n => by rw [hrun]; exact nofun⟩
  unfold State.deliverRecord
  split
  · next htrap => exact stopped hg (hcode htrap)
  · dsimp only
    split
    · exact stopped hg rfl
    · rw [hdone]
      split
      · exact stopped (s.group?_setGroup id g _ hg) rfl
      · exact ⟨_, s.group?_setGroup id g _ hg, rfl, fun a v n => nofun⟩

theorem mkRecord_done (l : Launch) (g : Group) (x : TrapInfo) (done : Bool) (vt : W64) : (mkRecord l g x done vt).done = done := by
  unfold mkRecord
  dsimp only
  split
  · rfl
  · split <;> rfl

theorem deliver_took {s : State} {id : GroupId} (h : MayTake s id) (w : W32) : Took (s.deliver id .barrierLost false w) id := by
  obtain ⟨hslot, hlaunch, g, hg, hcode⟩ := h
  obtain ⟨l, hl⟩ := Option.isSome_iff_exists.mp hlaunch
  obtain ⟨t, ht⟩ : ∃ t, s.team? id.team = some t := by
    cases ht : s.team? id.team with
    | none => rw [State.group?, ht] at hg; cases hg
    | some t => exact ⟨t, rfl⟩
  have hnone : (if isFaultClass TrapInfo.barrierLost.code && g.rewriting.isNone then
      s.faultSlot? TrapInfo.barrierLost.code TrapInfo.barrierLost.sub else none) = none := by
    rw [show s.faultSlot? TrapInfo.barrierLost.code TrapInfo.barrierLost.sub = none from hslot, ite_self]
  have hrecord := mkRecord_code l g .barrierLost false (s.vtime t)
  unfold State.deliver
  rw [ht, hl, hg]
  dsimp only
  rw [hnone]
  dsimp only
  rw [Took, clearLost_group?]
  obtain ⟨g', hg', hcode', hrun⟩ :=
    deliverRecord_group? hg l t (mkRecord_done l g .barrierLost false (s.vtime t)) fun htrap => (hcode htrap).trans hrecord.symm
  exact ⟨g', hg', hcode'.trans hrecord, hrun⟩

theorem wake_took {s : State} {id : GroupId} (h : MayTake s id) : Took (wake s id) id := by
  obtain ⟨hslot, hlaunch, g, hg, hcode⟩ := h
  exact deliver_took (s := s.mapGroup id fun g => { g with run := .running })
    ⟨hslot, hlaunch, { g with run := .running }, by rw [group?_mapGroup, hg]; rfl, hcode⟩ _

/-- A parked group that may take BARRIER_LOST takes it, however often it is listed. -/
theorem foldl_wake_took {id : GroupId} (ids : List GroupId) {s : State} (h : MayTake s id) :
    MayTake (ids.foldl wake s) id ∧ (id ∈ ids → Took (ids.foldl wake s) id) := by
  induction ids using List.reverseRecOn with
  | nil => exact ⟨h, nofun⟩
  | append_singleton ids k ih =>
    obtain ⟨hmay, htook⟩ := ih
    have hstep := wake_delivered (ids.foldl wake s) k
    rw [List.foldl_append, List.foldl_cons, List.foldl_nil]
    by_cases hk : id = k
    · subst hk
      have hnow := wake_took hmay
      have ⟨g, hg, hcode, _⟩ := hnow
      exact ⟨⟨(hstep.faultSlot? _ _).trans hmay.1, (hstep.launch? _).trans hmay.2.1, g, hg, fun _ => hcode⟩, fun _ => hnow⟩
    · refine ⟨hmay.delivered hstep hk, fun hid => ?_⟩
      have hbefore : id ∈ ids := (List.mem_append.mp hid).resolve_right fun h => hk (List.mem_singleton.mp h)
      rw [Took, hstep.group? hk]
      exact htook hbefore

theorem wakeParked_took {s : State} {ns : List Nat} {id : GroupId} {t : Team} {g : Group} {a v : W64} {n k : Nat}
    (hslot : s.faultSlot? 0x0C 0 = none) (hlaunch : (s.launch? id.team.launch).isSome = true)
    (ht : s.team? id.team = some t) (hplace : t.place = .resident k) (hg : t.groups[id.group]? = some g)
    (hrun : g.run = .parked a v n) (htrap : g.inTrap = false) (hmem : id.team.launch ∈ ns) : Took (s.wakeParked ns) id := by
  have hmay : MayTake s id := ⟨hslot, hlaunch, g, group?_of_team ht hg, fun h => by rw [htrap] at h; cases h⟩
  exact (foldl_wake_took (s.parkedGroups ns) hmay).2 (mem_parkedGroups_of ht hplace hg hrun hmem)

end Sys2Proof.Claims
end

section
/-! The steps of a loss: a job that goes back (24 R363), teams that are lost (R364), pages that are remapped and streams that are
lost (05 R123). -/

namespace Sys2Proof.Claims
open Sys2Proof.Machine

/-! A job that goes back to its cut. -/

/-- A team of a cut record, as it waits for placement. -/
def again (t : Team) : Team := { t with chans := t.chans.map fun _ => Channel.empty, lost := 0 }

/-- The counts of a launch that a rollback takes back. -/
def SameCounts (m m' : Launch) : Prop := m'.seq = m.seq ∧ m'.nextTeam = m.nextTeam ∧ m'.retired = m.retired ∧ m'.vtSum = m.vtSum ∧
  m'.stopReq = m.stopReq ∧ m'.dieLost = m.dieLost

theorem SameCounts.trans {a b c : Launch} (h : SameCounts a b) (h' : SameCounts b c) : SameCounts a c := by
  obtain ⟨h1, h2, h3, h4, h5, h6⟩ := h
  obtain ⟨h1', h2', h3', h4', h5', h6'⟩ := h'
  exact ⟨h1'.trans h1, h2'.trans h2, h3'.trans h3, h4'.trans h4, h5'.trans h5, h6'.trans h6⟩

/-- The teams of some launches. -/
def teamsOf (s : State) (ns : List Nat) : List Team := s.teams.filter fun t => decide (t.id.launch ∈ ns)

/-- Nothing of a job is under way. -/
structure Idle (s : State) (j : CutJob) : Prop where
  entries : ∀ c ∈ s.cores, ∀ e ∈ c.active ++ c.pending, e.group.team.launch ∉ j.launches
  streams : ∀ (q : StreamId) (t : TeamId), q.owner = .team t → t.launch ∈ j.launches →
    (∀ p ∈ s.packets, p.stream ≠ q) ∧ ∀ p ∈ s.ports, p.stream ≠ q
  flights : ∀ x ∈ s.flights, x.group.team.launch ∉ j.launches
  copies : ∀ x ∈ s.copies, x.group.team.launch ∉ j.launches
  replays : ∀ x ∈ s.replays, x.group.team.launch ∉ j.launches
  signatures : ∀ x ∈ s.signatures, x.origin.launch ∉ j.launches

theorem Idle.nothingNew {s t : State} {j : CutJob} (h : Idle s j) (hn : NothingNew s t) : Idle t j where
  entries c hc e he := by
    obtain ⟨c0, hc0, he0⟩ := hn.entries c hc e he
    exact h.entries c0 hc0 e he0
  streams q t hq ht := by
    obtain ⟨hpackets, hports⟩ := h.streams q t hq ht
    refine ⟨fun p hp => ?_, fun p hp => hports p (hn.ports p hp)⟩
    obtain ⟨p0, hp0, hstream⟩ := hn.packets p hp
    exact hstream ▸ hpackets p0 hp0
  flights x hx := by
    obtain ⟨y, hy, hgroup⟩ := hn.flights x hx
    exact hgroup ▸ h.flights y hy
  copies x hx := by
    obtain ⟨y, hy, hgroup⟩ := hn.copies x hx
    exact hgroup ▸ h.copies y hy
  replays x hx := h.replays x (hn.replays x hx)
  signatures x hx := h.signatures x (hn.signatures x hx)

/-- The job has gone back in `s`, and is not lost. -/
structure RolledBack (s : State) (j : CutJob) : Prop where
  teams : teamsOf s j.launches = j.teams.map again
  launches : ∀ l ∈ s.launches, l.seq ∈ j.launches → l.dieLost = false ∧
    ∀ m, j.recorded.find? (fun x => decide (x.seq = l.seq)) = some m →
      l.nextTeam = m.nextTeam ∧ l.retired = m.retired ∧ l.vtSum = m.vtSum ∧ l.stopReq = false
  idle : Idle s j

/-- A step leaves the teams and the counts of some launches as they are, and begins nothing. -/
structure Keeps (ns : List Nat) (s t : State) : Prop where
  teams : teamsOf t ns = teamsOf s ns
  launches : ∀ m' ∈ t.launches, m'.seq ∈ ns → ∃ m ∈ s.launches, SameCounts m m'
  nothing : NothingNew s t

theorem Keeps.refl (ns : List Nat) (s : State) : Keeps ns s s :=
  ⟨rfl, fun m hm _ => ⟨m, hm, rfl, rfl, rfl, rfl, rfl, rfl⟩, .refl s⟩

theorem Keeps.trans {ns : List Nat} {s t u : State} (h : Keeps ns s t) (h' : Keeps ns t u) : Keeps ns s u where
  teams := h'.teams.trans h.teams
  launches m' hm' hj := by
    obtain ⟨m, hm, hsame⟩ := h'.launches m' hm' hj
    obtain ⟨m0, hm0, hsame0⟩ := h.launches m hm (hsame.1 ▸ hj)
    exact ⟨m0, hm0, hsame0.trans hsame⟩
  nothing := h.nothing.trans h'.nothing

theorem RolledBack.keeps {s t : State} {j : CutJob} (h : RolledBack s j) (hk : Keeps j.launches s t) : RolledBack t j where
  teams := hk.teams.trans h.teams
  launches l hl hj := by
    obtain ⟨m, hm, hseq, hnext, hretired, hvtime, hstop, hlost⟩ := hk.launches l hl hj
    obtain ⟨hkept, hcounts⟩ := h.launches m hm (hseq ▸ hj)
    refine ⟨hlost.trans hkept, fun r hr => ?_⟩
    obtain ⟨h1, h2, h3, h4⟩ := hcounts r (hseq ▸ hr)
    exact ⟨hnext.trans h1, hretired.trans h2, hvtime.trans h3, hstop.trans h4⟩
  idle := h.idle.nothingNew hk.nothing

theorem RolledBack.wentBack {s s' : State} {j : CutJob} (h : RolledBack s' j)
    (hcount : s.cuts = [j] → s'.telemetry.rollback = satInc s.telemetry.rollback) : WentBack s s' j := by
  refine ⟨h.teams, fun l hl hj m hm => ?_, h.idle.entries, h.idle.streams, h.idle.flights, h.idle.copies, h.idle.replays,
    h.idle.signatures, hcount⟩
  obtain ⟨hlost, hcounts⟩ := h.launches l hl hj
  obtain ⟨h1, h2, h3, h4⟩ := hcounts m hm
  exact ⟨h1, h2, h3, h4, hlost⟩

section
variable {s : State} {j k : CutJob}

/-- A launch of a job, as the cut records it. -/
def backTo (s : State) (j : CutJob) (l : Launch) : Launch := match j.recorded.find? fun m => decide (m.seq = l.seq) with
  | some m => { l with
      nextTeam := m.nextTeam, retired := m.retired, vtSum := m.vtSum, lostTeams := m.lostTeams, nstop := m.nstop, firstStop := m.firstStop,
      reports := m.reports, stopReq := false, refill := [], away := some s.clock.gtime }
  | none => l

theorem rollback_teams (s : State) (j : CutJob) :
    (s.rollback j).teams = (s.teams.filter fun t => !j.launches.contains t.id.launch) ++ j.teams.map again := rfl

theorem rollback_launches (s : State) (j : CutJob) :
    (s.rollback j).launches = s.launches.map fun l => if j.launches.contains l.seq then backTo s j l else l := rfl

theorem rollback_cores (s : State) (j : CutJob) : (s.rollback j).cores = s.cores.map fun c =>
    { c with active := c.active.filter fun e => !j.launches.contains e.group.team.launch,
             pending := c.pending.filter fun e => !j.launches.contains e.group.team.launch } := rfl

theorem backTo_frame (s : State) (j : CutJob) (l : Launch) : (backTo s j l).seq = l.seq ∧ (backTo s j l).dieLost = l.dieLost ∧
    (backTo s j l).gang = l.gang ∧ (backTo s j l).aborted = l.aborted ∧ (backTo s j l).reason = l.reason ∧
    (backTo s j l).stage = l.stage ∧ (backTo s j l).cutp = l.cutp := by
  unfold backTo
  split <;> exact ⟨rfl, rfl, rfl, rfl, rfl, rfl, rfl⟩

theorem rollback_nothingNew (s : State) (j : CutJob) : NothingNew s (s.rollback j) where
  entries c hc e he := by
    rw [rollback_cores] at hc
    obtain ⟨c0, hc0, rfl⟩ := List.mem_map.mp hc
    refine ⟨c0, hc0, ?_⟩
    rcases List.mem_append.mp he with he | he
    · exact List.mem_append_left _ (List.mem_of_mem_filter he)
    · exact List.mem_append_right _ (List.mem_of_mem_filter he)
  packets p hp := by
    obtain ⟨q, hq, rfl⟩ := List.mem_map.mp (List.mem_of_mem_filter hp)
    exact ⟨q, hq, by split <;> rfl⟩
  ports _ hp := List.mem_of_mem_filter hp
  flights x hx := ⟨x, List.mem_of_mem_filter hx, rfl⟩
  copies x hx := ⟨x, List.mem_of_mem_filter hx, rfl⟩
  replays _ hx := List.mem_of_mem_filter hx
  signatures _ hx := List.mem_of_mem_filter hx

/-- A stream that is forgotten has no packet and no entry. -/
theorem forgetStreams_none {s : State} {f : StreamId → Bool} {q : StreamId} (h : f q = true) :
    (∀ p ∈ (s.forgetStreams f).packets, p.stream ≠ q) ∧ ∀ p ∈ (s.forgetStreams f).ports, p.stream ≠ q := by
  constructor
  · rintro p hp rfl
    have := (List.mem_filter.mp hp).2
    simp [h] at this
  · rintro p hp rfl
    have := (List.mem_filter.mp hp).2
    simp [h] at this

/-- What a filter leaves out by launch is not of the job. -/
theorem notIn_of_filter {α : Type} {f : α → Nat} {xs : List α} {x : α} (h : x ∈ xs.filter fun y => !j.launches.contains (f y)) :
    f x ∉ j.launches := by
  simpa using (List.mem_filter.mp h).2

theorem rollback_idle (s : State) (j : CutJob) : Idle (s.rollback j) j where
  entries c hc e he := by
    rw [rollback_cores] at hc
    obtain ⟨c0, -, rfl⟩ := List.mem_map.mp hc
    rcases List.mem_append.mp he with he | he
    · exact notIn_of_filter (f := fun e : SetEntry => e.group.team.launch) he
    · exact notIn_of_filter (f := fun e : SetEntry => e.group.team.launch) he
  streams q t hq ht := forgetStreams_none (s := (s.forgetWork fun n => j.launches.contains n).dropAreas 0 fun t => j.launches.contains t.launch)
    (f := fun st => match st.owner with
      | .team t => j.launches.contains t.launch
      | .forager _ => false) (by simp [hq, ht])
  flights _ hx := notIn_of_filter (f := fun x : Flight => x.group.team.launch) hx
  copies _ hx := notIn_of_filter (f := fun x : CopyCmd => x.group.team.launch) hx
  replays _ hx := notIn_of_filter (f := fun x : Replay => x.group.team.launch) hx
  signatures _ hx := notIn_of_filter (f := fun x : SigMsg => x.origin.launch) hx

/-- A job that is not lost goes back. -/
theorem rollback_rolledBack (hteams : ∀ t ∈ j.teams, t.id.launch ∈ j.launches)
    (hkept : ∀ l ∈ s.launches, l.seq ∈ j.launches → l.dieLost = false) : RolledBack (s.rollback j) j where
  teams := by
    have hnone : ((s.teams.filter fun t => !j.launches.contains t.id.launch).filter fun t => decide (t.id.launch ∈ j.launches)) = [] := by
      rw [List.filter_eq_nil_iff]
      intro t ht
      simpa using notIn_of_filter (f := fun t : Team => t.id.launch) ht
    have hall : ((j.teams.map again).filter fun t => decide (t.id.launch ∈ j.launches)) = j.teams.map again := by
      rw [List.filter_eq_self]
      intro t ht
      obtain ⟨u, hu, rfl⟩ := List.mem_map.mp ht
      exact decide_eq_true (hteams u hu)
    rw [teamsOf, rollback_teams, List.filter_append, hnone, hall, List.nil_append]
  launches l hl hj := by
    rw [rollback_launches] at hl
    obtain ⟨l0, hl0, rfl⟩ := List.mem_map.mp hl
    have hseq : (if j.launches.contains l0.seq then backTo s j l0 else l0).seq = l0.seq := by
      split
      · exact (backTo_frame s j l0).1
      · rfl
    rw [hseq] at hj ⊢
    rw [if_pos (List.contains_iff_mem.mpr hj)]
    refine ⟨(backTo_frame s j l0).2.1.trans (hkept l0 hl0 hj), fun m hm => ?_⟩
    rw [backTo, hm]
    exact ⟨rfl, rfl, rfl, rfl⟩
  idle := rollback_idle s j

/-- Launches that a job does not have are kept through its rollback. -/
theorem rollback_keeps {ns : List Nat} (hlaunches : ∀ n ∈ k.launches, n ∉ ns) (hteams : ∀ t ∈ k.teams, t.id.launch ∉ ns) :
    Keeps ns s (s.rollback k) where
  teams := by
    have hkept : ((s.teams.filter fun t => !k.launches.contains t.id.launch).filter fun t => decide (t.id.launch ∈ ns)) =
        s.teams.filter fun t => decide (t.id.launch ∈ ns) := by
      rw [List.filter_filter]
      refine List.filter_congr fun t _ => ?_
      by_cases h : t.id.launch ∈ ns
      · have hnot : t.id.launch ∉ k.launches := fun hk => hlaunches _ hk h
        simp [h, hnot]
      · simp [h]
    have hnone : ((k.teams.map again).filter fun t => decide (t.id.launch ∈ ns)) = [] := by
      rw [List.filter_eq_nil_iff]
      intro t ht
      obtain ⟨u, hu, rfl⟩ := List.mem_map.mp ht
      simpa [again] using hteams u hu
    rw [teamsOf, rollback_teams, List.filter_append, hkept, hnone, List.append_nil]
    rfl
  launches m' hm' hj := by
    rw [rollback_launches] at hm'
    obtain ⟨m, hm, rfl⟩ := List.mem_map.mp hm'
    split at hj
    · next hk =>
      rw [(backTo_frame s k m).1] at hj
      exact absurd hj (hlaunches _ (List.contains_iff_mem.mp hk))
    · next hk =>
      rw [if_neg hk]
      exact ⟨m, hm, rfl, rfl, rfl, rfl, rfl, rfl⟩
  nothing := rollback_nothingNew s k

end

/-! Teams that are lost without a cut (24 R364). -/

section
variable {s : State} {l : Launch} {reason : Nat} {f : Team → Bool}

/-- The teams of a launch that are lost. -/
def lostTeams (s : State) (l : Launch) (f : Team → Bool) : List Team :=
  s.teams.filter fun t => decide (t.id.launch = l.seq) && f t && decide (t.place ≠ .retired)

/-- A team is among them, by its identity. -/
def isLost (s : State) (l : Launch) (f : Team → Bool) (id : TeamId) : Bool := (lostTeams s l f).any fun t => decide (t.id = id)

theorem isLost_iff {id : TeamId} : isLost s l f id = true ↔
    ∃ t ∈ s.teams, t.id = id ∧ id.launch = l.seq ∧ f t = true ∧ t.place ≠ .retired := by
  simp only [isLost, lostTeams, List.any_eq_true, List.mem_filter, Bool.and_eq_true, decide_eq_true_eq]
  constructor
  · rintro ⟨t, ⟨ht, ⟨hl, hf⟩, hp⟩, rfl⟩
    exact ⟨t, ht, rfl, hl, hf, hp⟩
  · rintro ⟨t, ht, rfl, hl, hf, hp⟩
    exact ⟨t, ⟨ht, ⟨hl, hf⟩, hp⟩, rfl⟩

/-- Teams leave their cores, and their faults are dropped. -/
def offCore (s : State) (t : Team) : State := (s.leaveCore t.id).dropTeamFaults t.id

theorem offCore_cores (s : State) (t : Team) : (offCore s t).cores = s.cores.map fun c =>
    { c with active := c.active.filter fun e => decide (e.group.team ≠ t.id),
             pending := c.pending.filter fun e => decide (e.group.team ≠ t.id) } := rfl

theorem foldl_offCore_frame (ts : List Team) : ∀ s : State,
    ts.foldl offCore s = { s with cores := (ts.foldl offCore s).cores, fns := (ts.foldl offCore s).fns } := by
  induction ts with
  | nil => exact fun _ => rfl
  | cons t ts ih =>
    intro s
    rw [List.foldl_cons, ih (offCore s t)]
    rfl

/-- No entry of a team that has left is on a core, and no entry is new. -/
theorem foldl_offCore_entries (ts : List Team) : ∀ s : State, ∀ c ∈ (ts.foldl offCore s).cores, ∀ e ∈ c.active ++ c.pending,
    (∃ c0 ∈ s.cores, e ∈ c0.active ++ c0.pending) ∧ ∀ t ∈ ts, e.group.team ≠ t.id := by
  induction ts with
  | nil =>
    intro s c hc e he
    rw [List.foldl_nil] at hc
    exact ⟨⟨c, hc, he⟩, fun t ht => absurd ht List.not_mem_nil⟩
  | cons t ts ih =>
    intro s c hc e he
    obtain ⟨⟨c1, hc1, he1⟩, hrest⟩ := ih (offCore s t) c hc e he
    rw [offCore_cores] at hc1
    obtain ⟨c0, hc0, rfl⟩ := List.mem_map.mp hc1
    have hleft : e ∈ c0.active ++ c0.pending ∧ e.group.team ≠ t.id := by
      simpa [← or_and_right] using he1
    refine ⟨⟨c0, hc0, hleft.1⟩, fun u hu => ?_⟩
    rcases List.mem_cons.mp hu with rfl | hu
    · exact hleft.2
    · exact hrest u hu

/-- The loss of some teams of a launch, once they have left their cores. -/
def loseFrom (s : State) (lost : List Team) (l : Launch) (reason : Nat) : State :=
  let isGone (id : TeamId) : Bool := lost.any fun t => decide (t.id = id)
  let s2 := (s.dropAreas 0 isGone).forgetStreams fun st => match st.owner with
    | .team t => isGone t
    | .forager _ => false
  { s2 with
    flights := s2.flights.filter fun x => !isGone x.group.team
    copies := s2.copies.filter fun k => k.node.isSome || !isGone k.group.team
    patchActs := s2.patchActs.filter fun p => !isGone p.group.team
    teams := s2.teams.map fun t => if isGone t.id then { t with place := .retired, preempt := none, frozen := false } else t
    launches := s2.launches.map fun m => if m.seq = l.seq then
        { m with
          aborted := true, reason := reason, dieLost := true
          retired := m.retired + lost.length, lostTeams := m.lostTeams + lost.length }
      else m }

theorem loseTeams_eq (s : State) (l : Launch) (reason : Nat) (f : Team → Bool) :
    s.loseTeams l reason f = loseFrom ((lostTeams s l f).foldl offCore s) (lostTeams s l f) l reason := rfl

/-- A team that is lost. -/
def loseTeam (t : Team) : Team := { t with place := .retired, preempt := none, frozen := false }

/-- A launch that is lost with `n` teams. -/
def loseLaunch (reason n : Nat) (m : Launch) : Launch :=
  { m with aborted := true, reason := reason, dieLost := true, retired := m.retired + n, lostTeams := m.lostTeams + n }

theorem loseTeams_teams (s : State) (l : Launch) (reason : Nat) (f : Team → Bool) :
    (s.loseTeams l reason f).teams = s.teams.map fun t => if isLost s l f t.id then loseTeam t else t := by
  have hteams : ((lostTeams s l f).foldl offCore s).teams = s.teams := by rw [foldl_offCore_frame]
  rw [loseTeams_eq, ← hteams]
  rfl

theorem loseTeams_launches (s : State) (l : Launch) (reason : Nat) (f : Team → Bool) : (s.loseTeams l reason f).launches =
    s.launches.map fun m => if m.seq = l.seq then loseLaunch reason (lostTeams s l f).length m else m := by
  have hlaunches : ((lostTeams s l f).foldl offCore s).launches = s.launches := by rw [foldl_offCore_frame]
  rw [loseTeams_eq, ← hlaunches]
  rfl

theorem loseTeams_mem (s : State) (l : Launch) (reason : Nat) (f : Team → Bool) : (s.loseTeams l reason f).mem = s.mem := by
  have hmem : ((lostTeams s l f).foldl offCore s).mem = s.mem := by rw [foldl_offCore_frame]
  rw [loseTeams_eq, ← hmem]
  rfl

/-- Lost teams leave no entry on a core. -/
theorem loseTeams_entries (s : State) (l : Launch) (reason : Nat) (f : Team → Bool) : ∀ c ∈ (s.loseTeams l reason f).cores,
    ∀ e ∈ c.active ++ c.pending, (∃ c0 ∈ s.cores, e ∈ c0.active ++ c0.pending) ∧ isLost s l f e.group.team = false := by
  intro c hc e he
  obtain ⟨hbefore, hleft⟩ := foldl_offCore_entries (lostTeams s l f) s c hc e he
  refine ⟨hbefore, ?_⟩
  rw [isLost, List.any_eq_false]
  exact fun t ht => by simpa using Ne.symm (hleft t ht)

theorem loseFrom_nothingNew (s : State) (lost : List Team) (l : Launch) (reason : Nat) : NothingNew s (loseFrom s lost l reason) where
  entries c hc _ he := ⟨c, hc, he⟩
  packets p hp := ⟨p, List.mem_of_mem_filter hp, rfl⟩
  ports _ hp := List.mem_of_mem_filter hp
  flights x hx := ⟨x, List.mem_of_mem_filter hx, rfl⟩
  copies x hx := ⟨x, List.mem_of_mem_filter hx, rfl⟩
  replays _ hx := hx
  signatures _ hx := hx

theorem foldl_offCore_nothingNew (ts : List Team) (s : State) : NothingNew s (ts.foldl offCore s) where
  entries c hc e he := (foldl_offCore_entries ts s c hc e he).1
  packets p hp := ⟨p, by rwa [foldl_offCore_frame] at hp, rfl⟩
  ports p hp := by rwa [foldl_offCore_frame] at hp
  flights x hx := ⟨x, by rwa [foldl_offCore_frame] at hx, rfl⟩
  copies x hx := ⟨x, by rwa [foldl_offCore_frame] at hx, rfl⟩
  replays x hx := by rwa [foldl_offCore_frame] at hx
  signatures x hx := by rwa [foldl_offCore_frame] at hx

theorem loseTeams_nothingNew (s : State) (l : Launch) (reason : Nat) (f : Team → Bool) : NothingNew s (s.loseTeams l reason f) := by
  rw [loseTeams_eq]
  exact (foldl_offCore_nothingNew (lostTeams s l f) s).trans (loseFrom_nothingNew _ _ l reason)

/-- The loss of a launch's teams leaves other launches as they are. -/
theorem loseTeams_keeps {ns : List Nat} (hl : l.seq ∉ ns) : Keeps ns s (s.loseTeams l reason f) where
  teams := by
    rw [teamsOf, loseTeams_teams, List.filter_map]
    have hfilter : s.teams.filter ((fun t => decide (t.id.launch ∈ ns)) ∘
        fun t => if isLost s l f t.id then loseTeam t else t) = teamsOf s ns := by
      refine List.filter_congr fun t _ => ?_
      rw [Function.comp_apply]
      split <;> rfl
    rw [hfilter]
    refine (List.map_congr_left fun t ht => if_neg fun hlost => ?_).trans (List.map_id _)
    obtain ⟨-, -, -, hlaunch, -⟩ := isLost_iff.mp hlost
    exact hl (hlaunch ▸ of_decide_eq_true (List.mem_filter.mp ht).2)
  launches m' hm' hj := by
    rw [loseTeams_launches] at hm'
    obtain ⟨m, hm, rfl⟩ := List.mem_map.mp hm'
    split at hj
    · next hseq => exact absurd (hseq ▸ hj) hl
    · next hseq =>
      rw [if_neg hseq]
      exact ⟨m, hm, rfl, rfl, rfl, rfl, rfl, rfl⟩
  nothing := loseTeams_nothingNew s l reason f

end

/-! The components that no step of a loss touches. -/

/-- Images, logs, spares, fences, cells and the clock are as they were, and of the counters only those of rollbacks and of patch
actions may differ. -/
structure SameRest (s t : State) : Prop where
  images : t.images = s.images
  errorLog : t.errorLog = s.errorLog
  free : t.free = s.free
  spares : t.spares = s.spares
  fencedDies : t.fencedDies = s.fencedDies
  hive : t.hive = s.hive
  clock : t.clock = s.clock
  telemetry : t.telemetry = { s.telemetry with rollback := t.telemetry.rollback, patchActs := t.telemetry.patchActs }

theorem SameRest.refl (s : State) : SameRest s s := ⟨rfl, rfl, rfl, rfl, rfl, rfl, rfl, rfl⟩

theorem SameRest.trans {s t u : State} (h : SameRest s t) (h' : SameRest t u) : SameRest s u where
  images := h'.images.trans h.images
  errorLog := h'.errorLog.trans h.errorLog
  free := h'.free.trans h.free
  spares := h'.spares.trans h.spares
  fencedDies := h'.fencedDies.trans h.fencedDies
  hive := h'.hive.trans h.hive
  clock := h'.clock.trans h.clock
  telemetry := by rw [h'.telemetry, h.telemetry]

theorem Delivered.sameRest {p : GroupId → Prop} {s t : State} (h : Delivered p s t) : SameRest s t := by
  rw [h.frame]
  exact ⟨rfl, rfl, rfl, rfl, rfl, rfl, rfl, rfl⟩

theorem Delivered.mem {p : GroupId → Prop} {s t : State} (h : Delivered p s t) : t.mem = s.mem := by
  rw [h.frame]

theorem Delivered.rollback {p : GroupId → Prop} {s t : State} (h : Delivered p s t) : t.telemetry.rollback = s.telemetry.rollback := by
  rw [h.frame]

theorem rollback_sameRest (s : State) (j : CutJob) : SameRest s (s.rollback j) := ⟨rfl, rfl, rfl, rfl, rfl, rfl, rfl, rfl⟩

theorem foldl_offCore_sameRest (ts : List Team) (s : State) : SameRest s (ts.foldl offCore s) := by
  rw [foldl_offCore_frame]
  exact ⟨rfl, rfl, rfl, rfl, rfl, rfl, rfl, rfl⟩

theorem loseTeams_sameRest (s : State) (l : Launch) (reason : Nat) (f : Team → Bool) : SameRest s (s.loseTeams l reason f) := by
  rw [loseTeams_eq]
  exact (foldl_offCore_sameRest _ s).trans ⟨rfl, rfl, rfl, rfl, rfl, rfl, rfl, rfl⟩

theorem loseTeams_rollback (s : State) (l : Launch) (reason : Nat) (f : Team → Bool) :
    (s.loseTeams l reason f).telemetry.rollback = s.telemetry.rollback := by
  have hsame : ((lostTeams s l f).foldl offCore s).telemetry = s.telemetry := by rw [foldl_offCore_frame]
  rw [loseTeams_eq, ← hsame]
  rfl

end Sys2Proof.Claims
end

section
/-! What comes after jobs have gone back and teams are lost: pages are served from the journal (24 R363), and streams are lost
(05 R123). -/

namespace Sys2Proof.Claims
open Sys2Proof.Machine

/-- A later step leaves launches and groups as they are; it closes streams of teams, and leaves a team alone that has none and no copy. -/
structure Follows (s t : State) : Prop where
  launches : t.launches = s.launches
  teams : ∃ F : Team → Team, t.teams = s.teams.map F ∧ ∀ x, F x = { x with lost := (F x).lost, chans := (F x).chans } ∧
    ((∀ c ∈ x.chans, c.streams = []) → (∀ k ∈ s.copies, k.group.team ≠ x.id) → F x = x)
  nothing : NothingNew s t

/-- The same, and the components that no step of a loss touches, and every counter, stay as they are. -/
structure Later (s t : State) : Prop extends Follows s t where
  rest : SameRest s t
  telemetry : t.telemetry = s.telemetry

section
variable {s t u : State}

theorem Follows.refl (s : State) : Follows s s :=
  ⟨rfl, ⟨id, (List.map_id _).symm, fun _ => ⟨rfl, fun _ _ => rfl⟩⟩, .refl s⟩

theorem Follows.trans (h : Follows s t) (h' : Follows t u) : Follows s u := by
  obtain ⟨hlaunches, ⟨F, hF, hFx⟩, hnothing⟩ := h
  obtain ⟨hlaunches', ⟨F', hF', hFx'⟩, hnothing'⟩ := h'
  refine ⟨hlaunches'.trans hlaunches, ⟨F' ∘ F, by rw [hF', hF, List.map_map], fun x => ⟨?_, fun hclosed hcopies => ?_⟩⟩,
    hnothing.trans hnothing'⟩
  · rw [Function.comp_apply, (hFx' (F x)).1, (hFx x).1]
  · have hx : F x = x := (hFx x).2 hclosed hcopies
    rw [Function.comp_apply, hx]
    refine (hFx' x).2 hclosed fun k hk => ?_
    obtain ⟨k0, hk0, hgroup⟩ := hnothing.copies k hk
    exact hgroup ▸ hcopies k0 hk0

theorem Later.refl (s : State) : Later s s :=
  ⟨.refl s, .refl s, rfl⟩

theorem Later.trans (h : Later s t) (h' : Later t u) : Later s u :=
  ⟨h.toFollows.trans h'.toFollows, h.rest.trans h'.rest, h'.telemetry.trans h.telemetry⟩

theorem foldl_later {α : Type} {f : State → α → State} (hf : ∀ s x, Later s (f s x)) (xs : List α) :
    ∀ s : State, Later s (xs.foldl f s) := by
  induction xs with
  | nil => exact fun s => .refl s
  | cons x xs ih => exact fun s => (hf s x).trans (ih (f s x))

/-- Groups stay as they are. -/
theorem Follows.group? (h : Follows s t) (id : GroupId) : t.group? id = s.group? id := by
  obtain ⟨-, ⟨F, hF, hFx⟩, -⟩ := h
  have hsame (x : Team) : (F x).id = x.id := by rw [(hFx x).1]
  rw [State.group?, State.team?, hF, find?_map_of_same hsame, State.group?, State.team?]
  cases s.teams.find? fun x => decide (x.id = id.team) with
  | none => rfl
  | some x =>
    rw [Option.map_some, Option.bind_some, Option.bind_some, (hFx x).1]

/-- A job that has gone back stays as it is. -/
theorem RolledBack.follows {j : CutJob} (h : RolledBack s j) (hl : Follows s t) : RolledBack t j := by
  obtain ⟨hlaunches, ⟨F, hF, hFx⟩, hnothing⟩ := hl
  refine h.keeps ⟨?_, fun m hm _ => ⟨m, hlaunches ▸ hm, rfl, rfl, rfl, rfl, rfl, rfl⟩, hnothing⟩
  have hfilter : s.teams.filter ((fun t => decide (t.id.launch ∈ j.launches)) ∘ F) = teamsOf s j.launches := by
    refine List.filter_congr fun x _ => ?_
    rw [Function.comp_apply, (hFx x).1]
  rw [teamsOf, hF, List.filter_map, hfilter]
  refine (List.map_congr_left fun x hx => (hFx x).2 (fun c hc => ?_) fun k hk he => ?_).trans (List.map_id _)
  · rw [h.teams] at hx
    obtain ⟨y, -, rfl⟩ := List.mem_map.mp hx
    obtain ⟨c0, -, rfl⟩ := List.mem_map.mp hc
    rfl
  · exact h.idle.copies k hk (he ▸ of_decide_eq_true (List.mem_filter.mp hx).2)

end

/-! Lost streams. -/

section
variable (s : State) (f : StreamId → Bool)

/-- A team whose streams to lost destinations are closed. -/
def cutTeam (t : Team) : Team :=
  let ended (t : TeamId) (c : Nat) : Bool := s.copies.any fun k =>
    k.node.isNone && decide (k.group.team = t) && decide (k.chan = c) && decide ((s.loseCopy f k).code ≠ k.code)
  let bits := t.chans.zipIdx.foldl (fun (b : BitVec 16) c =>
    if (c.1.streams.any fun e => f ⟨.team t.id, c.2, e.dest⟩) || ended t.id c.2 then b ||| BitVec.ofNat 16 (2 ^ c.2) else b) 0
  { t with
    lost := t.lost ||| bits
    chans := t.chans.zipIdx.map fun c => { c.1 with streams := c.1.streams.filter fun e => !f ⟨.team t.id, c.2, e.dest⟩ } }

theorem cutTeam_of_closed {t : Team} (hclosed : ∀ c ∈ t.chans, c.streams = []) (hcopies : ∀ k ∈ s.copies, k.group.team ≠ t.id) :
    cutTeam s f t = t := by
  have hended (c : Nat) : (s.copies.any fun k =>
      k.node.isNone && decide (k.group.team = t.id) && decide (k.chan = c) && decide ((s.loseCopy f k).code ≠ k.code)) = false := by
    rw [List.any_eq_false]
    intro k hk
    simp [hcopies k hk]
  have hbits (b : BitVec 16) (cs : List (Channel × Nat)) (hcs : ∀ c ∈ cs, c.1 ∈ t.chans) : cs.foldl (fun (b : BitVec 16) c =>
      if (c.1.streams.any fun e => f ⟨.team t.id, c.2, e.dest⟩) || (s.copies.any fun k => k.node.isNone &&
        decide (k.group.team = t.id) && decide (k.chan = c.2) && decide ((s.loseCopy f k).code ≠ k.code)) then
        b ||| BitVec.ofNat 16 (2 ^ c.2) else b) b = b := by
    induction cs with
    | nil => rfl
    | cons c cs ih =>
      rw [List.foldl_cons, hended, hclosed c.1 (hcs c List.mem_cons_self)]
      exact ih fun d hd => hcs d (List.mem_cons_of_mem _ hd)
  have hchans : (t.chans.zipIdx.map fun c =>
      ({ c.1 with streams := c.1.streams.filter fun e => !f ⟨.team t.id, c.2, e.dest⟩ } : Channel)) = t.chans := by
    refine (List.map_congr_left fun c hc => ?_).trans (List.zipIdx_map_fst ..)
    have hempty := hclosed c.1 (List.fst_mem_of_mem_zipIdx hc)
    rw [hempty, List.filter_nil, ← hempty]
  unfold cutTeam
  dsimp only
  rw [hbits 0 t.chans.zipIdx fun c hc => List.fst_mem_of_mem_zipIdx hc, hchans, show t.lost ||| (0 : BitVec 16) = t.lost from BitVec.or_zero]

theorem loseResult_frame (p : Packet) :
    s.loseResult p = { s with flights := (s.loseResult p).flights, copies := (s.loseResult p).copies } := by
  unfold State.loseResult
  split
  · unfold State.giveResults
    split <;> rfl
  · rfl
  · rfl

theorem loseResult_nothingNew (p : Packet) : NothingNew s (s.loseResult p) := by
  have hflights : ∀ x ∈ (s.loseResult p).flights, ∃ y ∈ s.flights, y.group = x.group := by
    unfold State.loseResult
    split
    · unfold State.giveResults
      split
      · intro x hx
        obtain ⟨y, hy, rfl⟩ := List.mem_map.mp hx
        exact ⟨y, hy, by split <;> rfl⟩
      · exact fun x hx => ⟨x, hx, rfl⟩
    · exact fun x hx => ⟨x, hx, rfl⟩
    · exact fun x hx => ⟨x, hx, rfl⟩
  have hcopies : ∀ x ∈ (s.loseResult p).copies, ∃ y ∈ s.copies, y.group = x.group := by
    unfold State.loseResult
    split
    · unfold State.giveResults
      split <;> exact fun x hx => ⟨x, hx, rfl⟩
    · intro x hx
      obtain ⟨y, hy, rfl⟩ := List.mem_map.mp hx
      exact ⟨y, hy, by split <;> rfl⟩
    · exact fun x hx => ⟨x, hx, rfl⟩
  refine ⟨fun c hc e he => ?_, fun q hq => ?_, fun q hq => ?_, hflights, hcopies, fun x hx => ?_, fun x hx => ?_⟩
  · rw [loseResult_frame] at hc
    exact ⟨c, hc, he⟩
  · rw [loseResult_frame] at hq
    exact ⟨q, hq, rfl⟩
  · rwa [loseResult_frame] at hq
  · rwa [loseResult_frame] at hx
  · rwa [loseResult_frame] at hx

theorem loseResult_later (p : Packet) : Later s (s.loseResult p) := by
  refine ⟨⟨?_, ⟨id, ?_, fun _ => ⟨rfl, fun _ _ => rfl⟩⟩, loseResult_nothingNew s p⟩, ?_, ?_⟩
  · rw [loseResult_frame]
  · rw [loseResult_frame, List.map_id]
  · rw [loseResult_frame]
    exact ⟨rfl, rfl, rfl, rfl, rfl, rfl, rfl, rfl⟩
  · rw [loseResult_frame]

theorem foldl_loseResult_frame (ps : List Packet) : ∀ s : State, ps.foldl State.loseResult s =
    { s with flights := (ps.foldl State.loseResult s).flights, copies := (ps.foldl State.loseResult s).copies } := by
  induction ps with
  | nil => exact fun _ => rfl
  | cons p ps ih =>
    intro s
    rw [List.foldl_cons, ih, loseResult_frame]

/-- The state in which the copies and the results of lost streams have ended. -/
def resultsLost : State :=
  (s.packets.filter fun p => f p.stream && !p.acked).foldl State.loseResult { s with copies := s.copies.map (s.loseCopy f) }

theorem loseCopy_group (k : CopyCmd) : (s.loseCopy f k).group = k.group := by
  unfold State.loseCopy
  dsimp only
  generalize (if k.node.isSome then ChanOwner.forager (s.copyDie k) else .team k.group.team) = owner
  split <;> rfl

theorem resultsLost_later : Later s (resultsLost s f) := by
  have hcopies : Later s { s with copies := s.copies.map (s.loseCopy f) } := by
    refine ⟨⟨rfl, ⟨id, (List.map_id _).symm, fun _ => ⟨rfl, fun _ _ => rfl⟩⟩, ?_⟩, ⟨rfl, rfl, rfl, rfl, rfl, rfl, rfl, rfl⟩, rfl⟩
    refine ⟨fun c hc e he => ⟨c, hc, he⟩, fun p hp => ⟨p, hp, rfl⟩, fun _ h => h, fun x hx => ⟨x, hx, rfl⟩, fun x hx => ?_,
      fun _ h => h, fun _ h => h⟩
    obtain ⟨k, hk, rfl⟩ := List.mem_map.mp hx
    exact ⟨k, hk, (loseCopy_group s f k).symm⟩
  exact hcopies.trans (foldl_later loseResult_later _ _)

theorem loseStreams_eq : s.loseStreams f = ({ resultsLost s f with
    teams := (resultsLost s f).teams.map (cutTeam s f)
    forChans := (resultsLost s f).forChans.zipIdx.map fun d => d.1.zipIdx.map fun c =>
      { c.1 with streams := c.1.streams.filter fun e => !f ⟨.forager d.2, c.2, e.dest⟩ } } : State).forgetStreams f := rfl

theorem forgetStreams_later : Later s (s.forgetStreams f) :=
  ⟨⟨rfl, ⟨id, (List.map_id _).symm, fun _ => ⟨rfl, fun _ _ => rfl⟩⟩, forgetStreams_nothingNew s f⟩, ⟨rfl, rfl, rfl, rfl, rfl, rfl, rfl, rfl⟩, rfl⟩

end

/-- The teams of `s` are cut before the results are lost, so the copies that count are those of `s`. -/
theorem loseStreams_later (s : State) (f : StreamId → Bool) : Later s (s.loseStreams f) := by
  have hlost := resultsLost_later s f
  have hteams : (resultsLost s f).teams = s.teams := by rw [resultsLost, foldl_loseResult_frame]
  have hcut : Later s { resultsLost s f with teams := (resultsLost s f).teams.map (cutTeam s f) } := by
    rw [hteams]
    exact ⟨⟨hlost.launches, ⟨cutTeam s f, rfl, fun x => ⟨rfl, fun hclosed hcopies => cutTeam_of_closed s f hclosed hcopies⟩⟩,
      hlost.nothing.trans (.of_eq rfl rfl rfl rfl rfl rfl rfl)⟩, hlost.rest.trans ⟨rfl, rfl, rfl, rfl, rfl, rfl, rfl, rfl⟩, hlost.telemetry⟩
  rw [loseStreams_eq]
  refine (hcut.trans ?_).trans (forgetStreams_later _ f)
  exact ⟨⟨rfl, ⟨id, (List.map_id _).symm, fun _ => ⟨rfl, fun _ _ => rfl⟩⟩, .of_eq rfl rfl rfl rfl rfl rfl rfl⟩,
    ⟨rfl, rfl, rfl, rfl, rfl, rfl, rfl, rfl⟩, rfl⟩

theorem loseStreams_mem (s : State) (f : StreamId → Bool) : (s.loseStreams f).mem = s.mem := by
  show (resultsLost s f).mem = s.mem
  rw [resultsLost, foldl_loseResult_frame]

/-- No packet goes to a lost destination. -/
theorem loseStreams_packets {s : State} {f : StreamId → Bool} {p : Packet} (hp : p ∈ (s.loseStreams f).packets) : f p.stream = false := by
  rw [loseStreams_eq] at hp
  simpa using (List.mem_filter.mp hp).2

/-! Pages that are served from the journal. -/

theorem remap_later (s : State) (l : Launch) (p : Leaf) : Later s (s.remap l p) := by
  refine ⟨⟨rfl, ⟨id, (List.map_id _).symm, fun _ => ⟨rfl, fun _ _ => rfl⟩⟩, ?_⟩, ⟨rfl, rfl, rfl, rfl, rfl, rfl, rfl, rfl⟩, rfl⟩
  refine ⟨fun c hc e he => ?_, fun q hq => ?_, fun _ h => h, fun x hx => ?_, fun x hx => ⟨x, hx, rfl⟩, fun _ h => h, fun _ h => h⟩
  · obtain ⟨c0, hc0, rfl⟩ := List.mem_map.mp hc
    exact ⟨c0, hc0, he⟩
  · obtain ⟨q0, hq0, rfl⟩ := List.mem_map.mp hq
    exact ⟨q0, hq0, rfl⟩
  · obtain ⟨y, hy, rfl⟩ := List.mem_map.mp hx
    exact ⟨y, hy, rfl⟩

/-- The journalled near pages of a launch's function on a die. -/
def journalledOn (s : State) (die : Nat) (j : CutJob) (l : Launch) : List Leaf :=
  (s.leavesOf l.fn).filter fun p => l.owns p && isNear p.pa && decide (nearDie p.pa = die) &&
    j.journal.any fun x => decide (x.page = p.pa)

theorem remapDie_eq (s : State) (die : Nat) (j : CutJob) : s.remapDie die j =
    (s.launches.filter fun l => j.launches.contains l.seq).foldl
      (fun s l => (journalledOn s die j l).foldl (fun s p => s.remap l p) s) s := rfl

theorem remapDie_later (s : State) (die : Nat) (j : CutJob) : Later s (s.remapDie die j) := by
  rw [remapDie_eq]
  exact foldl_later (fun s l => foldl_later (fun s p => remap_later s l p) _ s) _ s

/-- A job that has journalled no near page of the die is remapped nowhere. -/
theorem remapDie_of_elsewhere {die : Nat} {j : CutJob} (h : ∀ x ∈ j.journal, isNear x.page = true → nearDie x.page ≠ die) (s : State) :
    s.remapDie die j = s := by
  have hnone (s : State) (l : Launch) : journalledOn s die j l = [] := by
    rw [journalledOn, List.filter_eq_nil_iff]
    intro p _ hp
    simp only [Bool.and_eq_true, decide_eq_true_eq, List.any_eq_true] at hp
    obtain ⟨⟨⟨-, hnear⟩, hdie⟩, x, hx, hpage⟩ := hp
    exact h x hx (hpage ▸ hnear) (hpage ▸ hdie)
  rw [remapDie_eq]
  generalize s.launches.filter (fun l => j.launches.contains l.seq) = ls
  induction ls generalizing s with
  | nil => rfl
  | cons l ls ih =>
    rw [List.foldl_cons, hnone]
    exact ih s

section
variable {s : State} {p : Leaf} (hsize : p.size = 0x10000 ∨ p.size = 0x200000)

include hsize in
/-- The journal copy of a page lies in the lake, at a whole page. -/
theorem journalPlace_spec : isLake (journalPlace p) = true ∧ journalPlace p % 4096 = 0 ∧ journalPlace p < 2 ^ 56 := by
  unfold journalPlace isLake
  generalize Config.journalPlace p.pa = n
  rcases hsize with h | h <;> rw [h] <;> simp only [Bool.and_eq_true, decide_eq_true_eq] <;> omega

/-- An entry with its address and TRANSIT cleared, by its fields. -/
theorem masked_fields (e : W64) : ∃ (top : BitVec 8) (flags : BitVec 6) (low : BitVec 5),
    e &&& 0xFF00000000000FDF = top ++ 0#44 ++ flags ++ 0#1 ++ low := by
  have hfields : e = e.extractLsb' 56 8 ++ e.extractLsb' 12 44 ++ e.extractLsb' 6 6 ++ e.extractLsb' 5 1 ++ e.extractLsb' 0 5 := by
    apply BitVec.eq_of_toNat_eq
    simp only [Laws.RoundTrip.toNat_app, BitVec.extractLsb'_toNat, Nat.shiftRight_eq_div_pow]
    have := e.isLt
    omega
  refine ⟨e.extractLsb' 56 8, e.extractLsb' 6 6, e.extractLsb' 0 5, ?_⟩
  have hmask (top : BitVec 8) (paddr : BitVec 44) (flags : BitVec 6) (transit : BitVec 1) (low : BitVec 5) :
      (top ++ paddr ++ flags ++ transit ++ low) &&& (BitVec.allOnes 8 ++ 0#44 ++ BitVec.allOnes 6 ++ 0#1 ++ BitVec.allOnes 5) =
        top ++ 0#44 ++ flags ++ 0#1 ++ low := by
    simp only [BitVec.and_append, BitVec.and_allOnes, BitVec.and_zero]
  rw [entryMask_fields]
  exact (congrArg (· &&& _) hfields).trans (hmask ..)

/-- The address goes into an entry whose address is clear. -/
theorem entry_placed {e : W64} {n : Nat} (hpage : n % 4096 = 0) (hlt : n < 2 ^ 56) :
    BitVec.ofNat 64 ((e &&& 0xFF00000000000FDF).toNat + n) = (e &&& 0xFF00000000000FDF) ||| BitVec.ofNat 64 n := by
  obtain ⟨top, flags, low, he⟩ := masked_fields e
  rw [he, page_fields hpage hlt]
  have hor : (top ++ 0#44 ++ flags ++ 0#1 ++ low) ||| (0#8 ++ BitVec.ofNat 44 (n / 4096) ++ 0#6 ++ 0#1 ++ 0#5) =
      top ++ BitVec.ofNat 44 (n / 4096) ++ flags ++ 0#1 ++ low := by
    simp only [BitVec.or_append, BitVec.zero_or, BitVec.or_zero]
  rw [hor]
  apply BitVec.eq_of_toNat_eq
  simp only [Laws.RoundTrip.toNat_app, BitVec.toNat_ofNat]
  have := top.isLt
  have := flags.isLt
  have := low.isLt
  omega

theorem remap_mem (s : State) (l : Launch) (p : Leaf) : (s.remap l p).mem = (s.mem.move p.pa (journalPlace p) p.size).writeLe p.entry 8
    ((s.mem.read64 p.entry &&& 0xFF00000000000FDF).toNat + journalPlace p) := rfl

include hsize in
/-- A remapped page reads at its journal copy, where its entry points. -/
theorem remap_serves (l : Launch) (hwf : Memory.wf s.mem = true)
    (hentry : p.entry + 8 ≤ journalPlace p ∨ journalPlace p + p.size ≤ p.entry) :
    (∀ i < p.size, (s.remap l p).mem.read (journalPlace p + i) = s.mem.read (p.pa + i)) ∧
    (s.remap l p).mem.read64 p.entry = (s.mem.read64 p.entry &&& 0xFF00000000000FDF) ||| BitVec.ofNat 64 (journalPlace p) := by
  obtain ⟨-, hpage, hlt⟩ := journalPlace_spec hsize
  have hmoved := Memory.wf_move s.mem p.pa (journalPlace p) p.size hwf
  rw [remap_mem]
  refine ⟨fun i hi => ?_, ?_⟩
  · rw [Memory.read_writeLe_other _ _ _ _ _ hmoved (by omega), read_move_inside hwf hi]
  · rw [read64_writeLe hmoved, entry_placed hpage hlt]

end

end Sys2Proof.Claims
end

section
/-! A loss as a whole (24 R363, R364): jobs go back, the other launches that are hit lose their teams, and parked groups wake. -/

namespace Sys2Proof.Claims
open Sys2Proof.Machine

/-! The cuts are apart. -/

/-- What a rollback and a loss of teams keep of a launch. -/
def SameJob (m m' : Launch) : Prop := m'.seq = m.seq ∧ m'.gang = m.gang ∧ m'.stage = m.stage ∧ m'.cutp = m.cutp

theorem SameJob.trans {a b c : Launch} (h : SameJob a b) (h' : SameJob b c) : SameJob a c := by
  obtain ⟨h1, h2, h3, h4⟩ := h
  obtain ⟨h1', h2', h3', h4'⟩ := h'
  exact ⟨h1'.trans h1, h2'.trans h2, h3'.trans h3, h4'.trans h4⟩

/-- Every launch of `t` stands in `s`, of the same job. -/
def SameJobs (s t : State) : Prop := ∀ m' ∈ t.launches, ∃ m ∈ s.launches, SameJob m m'

theorem SameJobs.refl (s : State) : SameJobs s s := fun m hm => ⟨m, hm, rfl, rfl, rfl, rfl⟩

theorem SameJobs.trans {s t u : State} (h : SameJobs s t) (h' : SameJobs t u) : SameJobs s u := by
  intro m hm
  obtain ⟨m1, hm1, hsame1⟩ := h' m hm
  obtain ⟨m0, hm0, hsame0⟩ := h m1 hm1
  exact ⟨m0, hm0, hsame0.trans hsame1⟩

theorem rollback_sameJobs (s : State) (j : CutJob) : SameJobs s (s.rollback j) := by
  intro m' hm'
  rw [rollback_launches] at hm'
  obtain ⟨m, hm, rfl⟩ := List.mem_map.mp hm'
  obtain ⟨hseq, -, hgang, -, -, hstage, hcutp⟩ := backTo_frame s j m
  refine ⟨m, hm, ?_⟩
  split
  · exact ⟨hseq, hgang, hstage, hcutp⟩
  · exact ⟨rfl, rfl, rfl, rfl⟩

theorem loseTeams_sameJobs (s : State) (l : Launch) (reason : Nat) (f : Team → Bool) : SameJobs s (s.loseTeams l reason f) := by
  intro m' hm'
  rw [loseTeams_launches] at hm'
  obtain ⟨m, hm, rfl⟩ := List.mem_map.mp hm'
  exact ⟨m, hm, by split <;> exact ⟨rfl, rfl, rfl, rfl⟩⟩

section
variable {s : State} {j : CutJob} {hit : Launch → Prop}

theorem foldl_rollback_sameJobs (ks : List CutJob) : ∀ s : State, SameJobs s (ks.foldl State.rollback s) := by
  induction ks with
  | nil => exact fun s => .refl s
  | cons k ks ih => exact fun s => (rollback_sameJobs s k).trans (ih _)

theorem foldl_rollback_sameRest (ks : List CutJob) : ∀ s : State, SameRest s (ks.foldl State.rollback s) := by
  induction ks with
  | nil => exact fun s => .refl s
  | cons k ks ih => exact fun s => (rollback_sameRest s k).trans (ih _)

/-- Launches that no job has are kept when jobs go back. -/
theorem foldl_rollback_keeps {ns : List Nat} (ks : List CutJob)
    (h : ∀ k ∈ ks, (∀ n ∈ k.launches, n ∉ ns) ∧ ∀ t ∈ k.teams, t.id.launch ∉ ns) :
    ∀ s : State, Keeps ns s (ks.foldl State.rollback s) := by
  induction ks with
  | nil => exact fun s => .refl ns s
  | cons k ks ih =>
    intro s
    obtain ⟨hlaunches, hteams⟩ := h k List.mem_cons_self
    exact (rollback_keeps hlaunches hteams).trans (ih (fun k hk => h k (List.mem_cons_of_mem _ hk)) _)

/-- No launch of the job is lost while jobs go back. -/
theorem foldl_rollback_kept (ks : List CutJob) : ∀ s : State, (∀ l ∈ s.launches, l.seq ∈ j.launches → l.dieLost = false) →
    ∀ l ∈ (ks.foldl State.rollback s).launches, l.seq ∈ j.launches → l.dieLost = false := by
  induction ks with
  | nil => exact fun s h => h
  | cons k ks ih =>
    refine fun s h => ih _ fun l' hl' hj => ?_
    rw [rollback_launches] at hl'
    obtain ⟨l, hl, rfl⟩ := List.mem_map.mp hl'
    obtain ⟨hseq, hlost, -⟩ := backTo_frame s k l
    split at hj
    · next hk =>
      rw [if_pos hk, hlost]
      exact h l hl (hseq ▸ hj)
    · next hk =>
      rw [if_neg hk]
      exact h l hl hj

/-- A job that is hit goes back among those that do. -/
theorem foldl_rollback_rolledBack {s0 : State} (hj : JobHit s0 j hit) (ks : List CutJob) (hks : ∀ k ∈ ks, k ∈ s0.cuts)
    (hkept : ∀ l ∈ s.launches, l.seq ∈ j.launches → l.dieLost = false) (hmem : j ∈ ks) : RolledBack (ks.foldl State.rollback s) j := by
  obtain ⟨-, -, -, hteams, -, hapart⟩ := hj
  induction ks using List.reverseRecOn with
  | nil => exact absurd hmem List.not_mem_nil
  | append_singleton ks k ih =>
    rw [List.foldl_append, List.foldl_cons, List.foldl_nil]
    by_cases hk : k = j
    · subst hk
      exact rollback_rolledBack hteams (foldl_rollback_kept ks s hkept)
    · obtain ⟨hlaunches, hothers⟩ := hapart k (hks k (List.mem_append_right _ (List.mem_singleton_self k))) hk
      have hbefore : j ∈ ks := (List.mem_append.mp hmem).resolve_right fun h => hk (List.mem_singleton.mp h).symm
      exact (ih (fun k hk => hks k (List.mem_append_left _ hk)) hbefore).keeps (rollback_keeps hlaunches hothers)

end

/-! Memory when jobs go back. -/

section
variable {m m0 : Memory} (hm : Memory.wf m = true) (hm0 : Memory.wf m0 = true) {x : JournalPage}

/-- A journalled page put back. -/
def putBack (m : Memory) (x : JournalPage) : Memory := (m.clear x.page x.size).writeCells x.cells

theorem writeCells_eq (m : Memory) (cs : List Host.Cell) : m.writeCells cs = putMoved 0 0 cs m := rfl

include hm in
theorem wf_putBack (x : JournalPage) : Memory.wf (putBack m x) = true := Memory.wf_writeCells _ _ (Memory.wf_clear m _ _ hm)

include hm hm0 in
/-- Inside the page memory is what the journal holds. -/
theorem read_putBack_inside {a : Nat} (hx : x.cells = m0.slice x.page x.size) (ha : x.page ≤ a ∧ a < x.page + x.size) :
    (putBack m x).read a = m0.read a := by
  have hclear := Memory.wf_clear m x.page x.size hm
  rw [putBack, writeCells_eq, hx]
  rcases listed_or_not m0 a with ⟨v, hv⟩ | h
  · rw [read_of_mem hm0 hv]
    have hslice : (0 + a, v) ∈ m0.slice x.page x.size := by
      rw [Nat.zero_add]
      exact mem_slice.mpr ⟨hv, ha⟩
    have := read_putMoved_mem (new := 0) _ hclear (Memory.wf_slice m0 x.page x.size hm0) (fun c _ => Nat.zero_le c.1) hslice
    rwa [Nat.zero_add] at this
  · have hempty : (m.clear x.page x.size).read a = 0 := read_of_not_mem fun c hc he => by
      have := (List.mem_filter.mp hc).2
      rw [he] at this
      simp [ha] at this
    rw [read_putMoved_other (old := 0) (new := 0) _ hclear fun c hc he => h c (mem_slice.mp hc).1 (show c.1 = a from he.symm), hempty, read_of_not_mem h]

include hm in
/-- Outside the page memory is as it was. -/
theorem read_putBack_outside {a : Nat} (hx : x.cells = m0.slice x.page x.size) (ha : ¬ (x.page ≤ a ∧ a < x.page + x.size)) :
    (putBack m x).read a = m.read a := by
  rw [putBack, writeCells_eq, hx, read_putMoved_other _ (Memory.wf_clear m x.page x.size hm) fun c hc he => ?_]
  · refine read_filter hm fun v => ?_
    simp only [Bool.not_eq_true', Bool.and_eq_false_iff, decide_eq_false_iff_not]
    omega
  · have hc := (mem_slice.mp hc).2
    rw [show c.1 = a from he.symm] at hc
    exact ha hc

include hm0 in
/-- Pages put back read as the journal holds them, and nothing else changes. -/
theorem read_foldl_putBack (xs : List JournalPage) (hxs : ∀ x ∈ xs, x.cells = m0.slice x.page x.size) :
    ∀ m : Memory, Memory.wf m = true → (∀ a, (∃ x ∈ xs, x.page ≤ a ∧ a < x.page + x.size) → (xs.foldl putBack m).read a = m0.read a) ∧
      ∀ a, (∀ x ∈ xs, ¬ (x.page ≤ a ∧ a < x.page + x.size)) → (xs.foldl putBack m).read a = m.read a := by
  induction xs with
  | nil => exact fun m _ => ⟨fun a ⟨x, hx, _⟩ => absurd hx List.not_mem_nil, fun _ _ => rfl⟩
  | cons x xs ih =>
    intro m hm
    have hx := hxs x List.mem_cons_self
    obtain ⟨hinside, houtside⟩ := ih (fun y hy => hxs y (List.mem_cons_of_mem _ hy)) (putBack m x) (wf_putBack hm x)
    refine ⟨fun a ha => ?_, fun a ha => ?_⟩
    · by_cases hlater : ∃ y ∈ xs, y.page ≤ a ∧ a < y.page + y.size
      · exact hinside a hlater
      · have hnow : x.page ≤ a ∧ a < x.page + x.size := by
          obtain ⟨y, hy, hya⟩ := ha
          rcases List.mem_cons.mp hy with rfl | hy
          · exact hya
          · exact absurd ⟨y, hy, hya⟩ hlater
        exact (houtside a fun y hy hya => hlater ⟨y, hy, hya⟩).trans (read_putBack_inside hm hm0 hx hnow)
    · exact (houtside a fun y hy => ha y (List.mem_cons_of_mem _ hy)).trans (read_putBack_outside hm hx (ha x List.mem_cons_self))

end

theorem foldl_rollback_mem (ks : List CutJob) : ∀ s : State,
    (ks.foldl State.rollback s).mem = (ks.flatMap (·.journal)).foldl putBack s.mem := by
  induction ks with
  | nil => exact fun _ => rfl
  | cons k ks ih =>
    intro s
    rw [List.foldl_cons, ih, List.flatMap_cons, List.foldl_append]
    rfl

/-- Memory after jobs of the cuts have gone back, the job `j` among them. -/
theorem memoryBack_of_rollback {s s' : State} {j : CutJob} {m0 : Memory} {ks : List CutJob} (hjournal : Journalled s m0)
    (hwf : s.mem.wf = true) (hks : ∀ k ∈ ks, k ∈ s.cuts) (hj : j ∈ ks) (hmem : s'.mem = (ks.foldl State.rollback s).mem) :
    MemoryBack s s' j m0 := by
  obtain ⟨hm0, hcells⟩ := hjournal
  have hall : ∀ x ∈ ks.flatMap (·.journal), x.cells = m0.slice x.page x.size := by
    intro x hx
    obtain ⟨k, hk, hx⟩ := List.mem_flatMap.mp hx
    exact hcells k (hks k hk) x hx
  obtain ⟨hinside, houtside⟩ := read_foldl_putBack hm0 _ hall s.mem hwf
  rw [MemoryBack, hmem, foldl_rollback_mem]
  refine ⟨fun x hx a h1 h2 => hinside a ⟨x, List.mem_flatMap.mpr ⟨j, hj, hx⟩, h1, h2⟩, fun a ha => houtside a fun x hx => ?_⟩
  obtain ⟨k, hk, hx⟩ := List.mem_flatMap.mp hx
  exact ha k (hks k hk) x hx

/-! Teams that are lost, and the gang. -/

section
variable {s : State} {l : Launch} {f : Team → Bool}

/-- A team is gone: it is retired and has left every core. -/
def Gone (s : State) (id : TeamId) : Prop :=
  (∀ u ∈ s.teams, u.id = id → u.place = .retired) ∧ ∀ c ∈ s.cores, ∀ e ∈ c.active ++ c.pending, e.group.team ≠ id

/-- What keeps identity and place of the teams keeps them gone. -/
theorem Gone.map {t : State} {id : TeamId} (h : Gone s id) (F : Team → Team) (hteams : t.teams = s.teams.map F)
    (hF : ∀ x, (F x).id = x.id ∧ (x.place = .retired → (F x).place = .retired)) (hn : NothingNew s t) : Gone t id := by
  obtain ⟨hretired, hleft⟩ := h
  refine ⟨fun u hu hid => ?_, fun c hc e he => ?_⟩
  · rw [hteams] at hu
    obtain ⟨x, hx, rfl⟩ := List.mem_map.mp hu
    exact (hF x).2 (hretired x hx ((hF x).1.symm.trans hid))
  · obtain ⟨c0, hc0, he0⟩ := hn.entries c hc e he
    exact hleft c0 hc0 e he0

/-- A team that is lost is gone. -/
theorem loseTeams_gone {t : Team} (ht : t ∈ s.teams) (hlaunch : t.id.launch = l.seq) (hf : f t = true) (hplace : t.place ≠ .retired)
    (reason : Nat) : Gone (s.loseTeams l reason f) t.id := by
  have hlost : isLost s l f t.id = true := isLost_iff.mpr ⟨t, ht, rfl, hlaunch, hf, hplace⟩
  refine ⟨fun u hu hid => ?_, fun c hc e he hteam => ?_⟩
  · rw [loseTeams_teams] at hu
    obtain ⟨x, -, rfl⟩ := List.mem_map.mp hu
    have hx : x.id = t.id := by
      split at hid
      · exact hid
      · exact hid
    rw [hx, hlost, if_pos rfl]
    rfl
  · have := (loseTeams_entries s l reason f c hc e he).2
    rw [hteam, hlost] at this
    cases this

theorem Gone.loseTeams {id : TeamId} (h : Gone s id) (l : Launch) (reason : Nat) (f : Team → Bool) : Gone (s.loseTeams l reason f) id := by
  refine h.map _ (loseTeams_teams s l reason f) (fun x => ?_) (loseTeams_nothingNew s l reason f)
  split
  · exact ⟨rfl, fun _ => rfl⟩
  · exact ⟨rfl, fun h => h⟩

/-- A team that is not lost stands as it did. -/
theorem loseTeams_spared {t : Team} (ht : t ∈ s.teams) (h : isLost s l f t.id = false) (reason : Nat) :
    t ∈ (s.loseTeams l reason f).teams := by
  rw [loseTeams_teams]
  exact List.mem_map.mpr ⟨t, ht, by rw [h]; rfl⟩

theorem isLost_eq_false {id : TeamId} (h : ∀ t ∈ s.teams, t.id = id → f t = false) : isLost s l f id = false := by
  rw [← Bool.not_eq_true, isLost_iff]
  rintro ⟨t, ht, hid, -, hf, -⟩
  rw [h t ht hid] at hf
  cases hf

/-- A team that `f` does not choose is looked up as before. -/
theorem loseTeams_team? {id : TeamId} (h : ∀ t ∈ s.teams, t.id = id → f t = false) (reason : Nat) :
    (s.loseTeams l reason f).team? id = s.team? id ∧ ∀ t ∈ (s.loseTeams l reason f).teams, t.id = id → f t = false := by
  have hspared (x : Team) (hx : x.id = id) : (if isLost s l f x.id then loseTeam x else x) = x := by
    rw [hx, isLost_eq_false h]
    rfl
  have hid (x : Team) : (if isLost s l f x.id then loseTeam x else x).id = x.id := by split <;> rfl
  refine ⟨?_, fun t ht htid => ?_⟩
  · rw [State.team?, loseTeams_teams, find?_map_of_same hid, State.team?]
    cases hx : s.teams.find? fun x => decide (x.id = id) with
    | none => rfl
    | some x => rw [Option.map_some, hspared x (by simpa using List.find?_some hx)]
  · rw [loseTeams_teams] at ht
    obtain ⟨x, hx, rfl⟩ := List.mem_map.mp ht
    have hxid : x.id = id := (hid x).symm.trans htid
    rw [hspared x hxid]
    exact h x hx hxid

/-- The launch of number `n` completes ABORTED with DIE_LOST. -/
def Aborted (s : State) (n : Nat) : Prop := ∀ m ∈ s.launches, m.seq = n → m.aborted = true ∧ m.reason = 11 ∧ m.dieLost = true

theorem loseTeams_aborted (s : State) (l : Launch) (f : Team → Bool) : Aborted (s.loseTeams l 11 f) l.seq := by
  intro m' hm' hseq
  rw [loseTeams_launches] at hm'
  obtain ⟨m, -, rfl⟩ := List.mem_map.mp hm'
  split at hseq
  · next h =>
    rw [if_pos h]
    exact ⟨rfl, rfl, rfl⟩
  · next h => exact absurd hseq h

theorem Aborted.loseTeams {n : Nat} (h : Aborted s n) (l : Launch) (f : Team → Bool) : Aborted (s.loseTeams l 11 f) n := by
  intro m' hm' hseq
  rw [loseTeams_launches] at hm'
  obtain ⟨m, hm, rfl⟩ := List.mem_map.mp hm'
  split at hseq
  · next hl =>
    rw [if_pos hl]
    exact ⟨rfl, rfl, rfl⟩
  · next hl =>
    rw [if_neg hl]
    exact h m hm hseq

/-- A launch of number `n` and gang `g` is not aborted yet, or has lost a die. -/
def Reached (s : State) (n : Nat) (g : W32) : Prop :=
  ∃ m ∈ s.launches, m.seq = n ∧ m.gang = g ∧ (m.aborted = false ∨ m.dieLost = true)

theorem Reached.loseTeams {n : Nat} {g : W32} (h : Reached s n g) (l : Launch) (reason : Nat) (f : Team → Bool) :
    Reached (s.loseTeams l reason f) n g := by
  obtain ⟨m, hm, hseq, hgang, hstate⟩ := h
  refine ⟨_, loseTeams_launches s l reason f ▸ List.mem_map_of_mem hm, ?_⟩
  split
  · exact ⟨hseq, hgang, .inr rfl⟩
  · exact ⟨hseq, hgang, hstate⟩

/-- A launch of number `n` is there. -/
def Present (s : State) (n : Nat) : Prop := ∃ m ∈ s.launches, m.seq = n

theorem Present.loseTeams {n : Nat} (h : Present s n) (l : Launch) (reason : Nat) (f : Team → Bool) :
    Present (s.loseTeams l reason f) n := by
  obtain ⟨m, hm, hseq⟩ := h
  refine ⟨_, loseTeams_launches s l reason f ▸ List.mem_map_of_mem hm, ?_⟩
  split
  · exact hseq
  · exact hseq

end

/-- Launches that are hit and have no cut to go back to lose their teams. -/
def loseRest (f : Team → Bool) (s : State) (rest : List Launch) : State := rest.foldl (fun (s : State) l => s.loseTeams l 11 f) s

section
variable {f : Team → Bool} {l : Launch} {rest : List Launch}

theorem loseRest_cons (f : Team → Bool) (s : State) (l : Launch) (rest : List Launch) :
    loseRest f s (l :: rest) = loseRest f (s.loseTeams l 11 f) rest := rfl

/-- What the loss of each launch keeps, the loss of all keeps. -/
theorem loseRest_induction {P : State → Prop} (hP : ∀ s l, P s → P (s.loseTeams l 11 f)) (rest : List Launch) :
    ∀ s, P s → P (loseRest f s rest) := by
  induction rest with
  | nil => exact fun s h => h
  | cons l rest ih => exact fun s h => ih _ (hP s l h)

theorem loseRest_sameJobs (f : Team → Bool) (s : State) (rest : List Launch) : SameJobs s (loseRest f s rest) :=
  loseRest_induction (P := SameJobs s) (fun t l h => h.trans (loseTeams_sameJobs t l 11 f)) rest s (.refl s)

theorem loseRest_sameRest (f : Team → Bool) (s : State) (rest : List Launch) : SameRest s (loseRest f s rest) :=
  loseRest_induction (P := SameRest s) (fun t l h => h.trans (loseTeams_sameRest t l 11 f)) rest s (.refl s)

theorem loseRest_mem (f : Team → Bool) (s : State) (rest : List Launch) : (loseRest f s rest).mem = s.mem :=
  loseRest_induction (P := fun t => t.mem = s.mem) (fun t l h => (loseTeams_mem t l 11 f).trans h) rest s rfl

theorem loseRest_rollback (f : Team → Bool) (s : State) (rest : List Launch) :
    (loseRest f s rest).telemetry.rollback = s.telemetry.rollback :=
  loseRest_induction (P := fun t => t.telemetry.rollback = s.telemetry.rollback)
    (fun t l h => (loseTeams_rollback t l 11 f).trans h) rest s rfl

theorem loseRest_keeps {ns : List Nat} (rest : List Launch) (h : ∀ l ∈ rest, l.seq ∉ ns) :
    ∀ s : State, Keeps ns s (loseRest f s rest) := by
  induction rest with
  | nil => exact fun s => .refl ns s
  | cons l rest ih =>
    exact fun s => (loseTeams_keeps (h l List.mem_cons_self)).trans (ih (fun m hm => h m (List.mem_cons_of_mem _ hm)) _)

theorem loseRest_aborted (hl : l ∈ rest) : ∀ s, Aborted (loseRest f s rest) l.seq := by
  induction rest with
  | nil => exact absurd hl List.not_mem_nil
  | cons m rest ih =>
    intro s
    rw [loseRest_cons]
    rcases List.mem_cons.mp hl with rfl | hl
    · exact loseRest_induction (P := fun t => Aborted t l.seq) (fun t m h => h.loseTeams m f) rest _ (loseTeams_aborted s l f)
    · exact ih hl _

theorem loseRest_gone (hl : l ∈ rest) : ∀ {s : State} {t : Team}, t ∈ s.teams → t.id.launch = l.seq → f t = true →
    t.place ≠ .retired → Gone (loseRest f s rest) t.id := by
  induction rest with
  | nil => exact absurd hl List.not_mem_nil
  | cons m rest ih =>
    intro s t ht hlaunch hf hplace
    rw [loseRest_cons]
    by_cases hm : m.seq = t.id.launch
    · exact loseRest_induction (P := fun u => Gone u t.id) (fun u l h => h.loseTeams l 11 f) rest _
        (loseTeams_gone ht hm.symm hf hplace 11)
    · have hrest : l ∈ rest := (List.mem_cons.mp hl).resolve_left fun h => hm (h ▸ hlaunch.symm)
      have hspared : isLost s m f t.id = false := by
        rw [← Bool.not_eq_true, isLost_iff]
        rintro ⟨-, -, -, hseq, -⟩
        exact hm hseq.symm
      exact ih hrest (loseTeams_spared ht hspared 11) hlaunch hf hplace

theorem loseRest_team? {id : TeamId} {s : State} (h : ∀ t ∈ s.teams, t.id = id → f t = false) (rest : List Launch) :
    (loseRest f s rest).team? id = s.team? id := by
  refine (loseRest_induction (P := fun u => u.team? id = s.team? id ∧ ∀ t ∈ u.teams, t.id = id → f t = false) ?_ rest s ⟨rfl, h⟩).1
  rintro u l ⟨hsame, hspared⟩
  obtain ⟨hteam, hspared'⟩ := loseTeams_team? (l := l) hspared 11
  exact ⟨hteam.trans hsame, hspared'⟩

/-- A team stands where it stood, or is retired. -/
theorem loseRest_places (f : Team → Bool) (s : State) (rest : List Launch) : ∀ t ∈ (loseRest f s rest).teams,
    t.place = .retired ∨ ∃ x ∈ s.teams, x.id = t.id ∧ x.place = t.place := by
  refine loseRest_induction (P := fun u => ∀ t ∈ u.teams, t.place = .retired ∨ ∃ x ∈ s.teams, x.id = t.id ∧ x.place = t.place) ?_ rest s
    fun t ht => .inr ⟨t, ht, rfl, rfl⟩
  intro u l h t ht
  rw [loseTeams_teams] at ht
  obtain ⟨x, hx, rfl⟩ := List.mem_map.mp ht
  split
  · exact .inl rfl
  · exact h x hx

end

end Sys2Proof.Claims
end

section
/-! The state after a loss, for whichever launches it hits. -/

namespace Sys2Proof.Claims
open Sys2Proof.Machine

/-! The parts of a gang, and the groups that wake. -/

/-- Launches that `p` admits and that have not been aborted complete ABORTED with BARRIER_LOST. -/
def abortParts (s : State) (p : Launch → Bool) : State := { s with
  launches := s.launches.map fun m => if p m && !m.aborted then { m with aborted := true, reason := 10, dieLost := true } else m }

/-- Groups of launches that have lost a die wake. -/
def wakeLost (s : State) : State := s.wakeParked ((s.launches.filter (·.dieLost)).map (·.seq))

section
variable {s : State} {p : Launch → Bool}

theorem abortParts_nothingNew (s : State) (p : Launch → Bool) : NothingNew s (abortParts s p) := .of_eq rfl rfl rfl rfl rfl rfl rfl

theorem abortParts_keeps {ns : List Nat} (h : ∀ m ∈ s.launches, m.seq ∈ ns → p m = false) : Keeps ns s (abortParts s p) where
  teams := rfl
  launches m' hm' hseq := by
    obtain ⟨m, hm, rfl⟩ := List.mem_map.mp hm'
    split at hseq
    · next hp =>
      rw [h m hm hseq] at hp
      cases hp
    · next hp =>
      rw [if_neg hp]
      exact ⟨m, hm, rfl, rfl, rfl, rfl, rfl, rfl⟩
  nothing := abortParts_nothingNew s p

theorem Aborted.abortParts {n : Nat} (h : Aborted s n) (p : Launch → Bool) : Aborted (abortParts s p) n := by
  intro m' hm' hseq
  obtain ⟨m, hm, rfl⟩ := List.mem_map.mp hm'
  have hm0 : m.aborted = true ∧ m.reason = 11 ∧ m.dieLost = true := by
    split at hseq
    · exact h m hm hseq
    · exact h m hm hseq
  rw [hm0.1, Bool.not_true, Bool.and_false, if_neg Bool.false_ne_true]
  exact hm0

/-- A part that is reached has lost a die. -/
theorem abortParts_lost {n : Nat} {g : W32} (h : Reached s n g) (hp : ∀ m : Launch, m.gang = g → p m = true) :
    n ∈ ((abortParts s p).launches.filter (·.dieLost)).map (·.seq) := by
  obtain ⟨m, hm, hseq, hgang, hstate⟩ := h
  refine List.mem_map.mpr ⟨_, List.mem_filter.mpr ⟨List.mem_map_of_mem hm, ?_⟩, ?_⟩
  · rw [hp m hgang, Bool.true_and]
    cases hab : m.aborted with
    | false => rfl
    | true => exact hstate.resolve_left (by simp [hab])
  · split <;> exact hseq

theorem Present.abortParts {n : Nat} (h : Present s n) (p : Launch → Bool) : Present (abortParts s p) n := by
  obtain ⟨m, hm, hseq⟩ := h
  refine ⟨_, List.mem_map_of_mem hm, ?_⟩
  split
  · exact hseq
  · exact hseq

/-- Every part is aborted. -/
theorem aborted_of_abortParts {m' : Launch} (hm' : m' ∈ (abortParts s p).launches) {g : W32} (hgang : m'.gang = g)
    (hp : ∀ m : Launch, m.gang = g → p m = true) : m'.aborted = true := by
  obtain ⟨m, -, rfl⟩ := List.mem_map.mp hm'
  have hm : m.gang = g := by
    split at hgang
    · exact hgang
    · exact hgang
  rw [hp m hm, Bool.true_and]
  cases hab : m.aborted with
  | false => rfl
  | true => exact hab

end

/-- Launches that no woken group is of are kept. -/
theorem Delivered.keeps {p : GroupId → Prop} {s t : State} (h : Delivered p s t) {ns : List Nat}
    (hp : ∀ id : GroupId, p id → id.team.launch ∉ ns) : Keeps ns s t := by
  have hnothing := h.nothingNew
  obtain ⟨⟨F, hF, hFx⟩, ⟨L, hL, hLm⟩, -⟩ := h
  have hid (x : Team) : (F x).id = x.id := by rw [(hFx x).1]
  refine ⟨?_, fun m' hm' _ => ?_, hnothing⟩
  · have hfilter : s.teams.filter ((fun t => decide (t.id.launch ∈ ns)) ∘ F) = teamsOf s ns := by
      refine List.filter_congr fun x _ => ?_
      rw [Function.comp_apply, hid]
    rw [teamsOf, hF, List.filter_map, hfilter]
    refine (List.map_congr_left fun x hx => ?_).trans (List.map_id _)
    have hlaunch : x.id.launch ∈ ns := of_decide_eq_true (List.mem_filter.mp hx).2
    have hgroups : (F x).groups = x.groups := List.ext_getElem? fun i => (hFx x).2 i fun hpi => hp _ hpi hlaunch
    rw [(hFx x).1, hgroups]
    rfl
  · rw [hL] at hm'
    obtain ⟨m, hm, rfl⟩ := List.mem_map.mp hm'
    rw [hLm m]
    exact ⟨m, hm, rfl, rfl, rfl, rfl, rfl, rfl⟩

theorem Delivered.gone {p : GroupId → Prop} {s t : State} (h : Delivered p s t) {id : TeamId} (hg : Gone s id) : Gone t id := by
  have hnothing := h.nothingNew
  obtain ⟨⟨F, hF, hFx⟩, -, -⟩ := h
  refine hg.map F hF (fun x => ?_) hnothing
  rw [(hFx x).1]
  exact ⟨rfl, fun h => h⟩

/-- What is said of launches but for the stops they note is said after exceptions too. -/
theorem Delivered.launch_of {p : GroupId → Prop} {s t : State} (h : Delivered p s t) {m' : Launch} (hm' : m' ∈ t.launches) :
    ∃ m ∈ s.launches, m' = { m with nstop := m'.nstop, firstStop := m'.firstStop, reports := m'.reports } := by
  obtain ⟨-, ⟨L, hL, hLm⟩, -⟩ := h
  rw [hL] at hm'
  obtain ⟨m, hm, rfl⟩ := List.mem_map.mp hm'
  exact ⟨m, hm, hLm m⟩

/-! A loss. -/

/-- A launch goes back with a job. -/
def backOf (s : State) (l : Launch) : Bool := l.cutp && s.cuts.any fun j => j.complete && j.launches.contains l.seq

/-- The jobs that go back. -/
def lossJobs (s : State) (affected : List Launch) : List CutJob :=
  s.cuts.filter fun j => j.complete && affected.any fun l => l.cutp && j.launches.contains l.seq

/-- The launches that lose their teams. -/
def lossRest (s : State) (affected : List Launch) : List Launch := affected.filter fun l => !backOf s l

/-- A launch is of a gang that has lost a part. -/
def inLostGang (rest : List Launch) (m : Launch) : Bool := rest.any fun l => decide (l.gang ≠ 0) && decide (m.gang = l.gang)

/-- The state when the teams are lost and the launches of their gangs aborted. -/
def teamsLost (s : State) (affected : List Launch) (f : Team → Bool) : State :=
  abortParts (loseRest f ((lossJobs s affected).foldl State.rollback s) (lossRest s affected)) (inLostGang (lossRest s affected))

theorem loseAll_eq (s : State) (affected : List Launch) (f : Team → Bool) : s.loseAll affected f = wakeLost (teamsLost s affected f) := rfl

theorem wakeLost_delivered (s : State) :
    Delivered (fun id => id.team.launch ∈ (s.launches.filter (·.dieLost)).map (·.seq)) s (wakeLost s) :=
  wakeParked_delivered s _

theorem teamsLost_sameRest (s : State) (affected : List Launch) (f : Team → Bool) : SameRest s (teamsLost s affected f) := by
  have hlost := (foldl_rollback_sameRest (lossJobs s affected) s).trans (loseRest_sameRest f _ (lossRest s affected))
  exact hlost.trans ⟨rfl, rfl, rfl, rfl, rfl, rfl, rfl, rfl⟩

theorem loseAll_sameRest (s : State) (affected : List Launch) (f : Team → Bool) : SameRest s (s.loseAll affected f) :=
  (teamsLost_sameRest s affected f).trans (wakeLost_delivered _).sameRest

theorem loseAll_mem (s : State) (affected : List Launch) (f : Team → Bool) :
    (s.loseAll affected f).mem = ((lossJobs s affected).foldl State.rollback s).mem := by
  rw [loseAll_eq, (wakeLost_delivered _).mem]
  exact loseRest_mem f _ _

theorem loseAll_rollback (s : State) (affected : List Launch) (f : Team → Bool) :
    (s.loseAll affected f).telemetry.rollback = ((lossJobs s affected).foldl State.rollback s).telemetry.rollback := by
  rw [loseAll_eq, (wakeLost_delivered _).rollback]
  exact loseRest_rollback f _ _

section
variable {s : State} {j : CutJob} {hit : Launch → Bool} {f : Team → Bool}

/-- A job that is hit goes back. -/
theorem mem_lossJobs (hj : JobHit s j (fun l => hit l = true)) : j ∈ lossJobs s (s.launches.filter hit) := by
  obtain ⟨hcut, hcomplete, ⟨l, hl, hseq, hhit⟩, -, hlaunches, -⟩ := hj
  have hcutp := (hlaunches l hl hseq).1
  refine List.mem_filter.mpr ⟨hcut, ?_⟩
  rw [hcomplete, Bool.true_and, List.any_eq_true]
  exact ⟨l, List.mem_filter.mpr ⟨hl, hhit⟩, by rw [hcutp, Bool.true_and, List.contains_iff_mem]; exact hseq⟩

/-- No launch of a job that is hit loses its teams for good. -/
theorem not_mem_lossRest {P : Launch → Prop} (hj : JobHit s j P) {l : Launch} (hl : l ∈ lossRest s (s.launches.filter hit)) :
    l ∈ s.launches ∧ l.seq ∉ j.launches := by
  obtain ⟨hcut, hcomplete, -, -, hlaunches, -⟩ := hj
  obtain ⟨hmem, hback⟩ := List.mem_filter.mp hl
  have hlaunch := List.mem_of_mem_filter hmem
  refine ⟨hlaunch, fun hseq => ?_⟩
  have hcutp := (hlaunches l hlaunch hseq).1
  have hyes : backOf s l = true := by
    rw [backOf, hcutp, Bool.true_and, List.any_eq_true]
    exact ⟨j, hcut, by rw [hcomplete, Bool.true_and, List.contains_iff_mem]; exact hseq⟩
  rw [hyes] at hback
  cases hback

/-- A job that is hit has gone back when the teams of the others are lost. -/
theorem teamsLost_rolledBack (hj : JobHit s j (fun l => hit l = true)) : RolledBack (teamsLost s (s.launches.filter hit) f) j := by
  have ⟨_, _, _, _, hlaunches, _⟩ := hj
  have hback : RolledBack ((lossJobs s (s.launches.filter hit)).foldl State.rollback s) j :=
    foldl_rollback_rolledBack hj _ (fun k hk => List.mem_of_mem_filter hk) (fun l hl hseq => (hlaunches l hl hseq).2.1) (mem_lossJobs hj)
  refine hback.keeps ((loseRest_keeps _ (fun l hl => (not_mem_lossRest hj hl).2) _).trans (abortParts_keeps fun m' hm' hseq => ?_))
  obtain ⟨m, hm, hmseq, hmgang, -⟩ := ((foldl_rollback_sameJobs _ s).trans (loseRest_sameJobs f _ _)) m' hm'
  rw [inLostGang, List.any_eq_false]
  intro l hl
  obtain ⟨hlaunch, hout⟩ := not_mem_lossRest hj hl
  simp only [Bool.and_eq_true, decide_eq_true_eq, not_and]
  intro hgang hsame
  have hsameGang : m.gang = l.gang := hmgang.symm.trans hsame
  exact hout ((hlaunches m hm (hmseq ▸ hseq)).2.2 (hsameGang ▸ hgang) l hlaunch hsameGang.symm)

/-- It stays so when groups of lost launches wake. -/
theorem RolledBack.wakeLost {s : State} {j : CutJob} (h : RolledBack s j) : RolledBack (wakeLost s) j := by
  refine h.keeps ((wakeLost_delivered s).keeps fun id hid hseq => ?_)
  obtain ⟨m, hm, hmseq⟩ := List.mem_map.mp hid
  obtain ⟨hlaunch, hlost⟩ := List.mem_filter.mp hm
  rw [(h.launches m hlaunch (hmseq ▸ hseq)).1] at hlost
  cases hlost

theorem loseAll_rolledBack (hj : JobHit s j (fun l => hit l = true)) : RolledBack (s.loseAll (s.launches.filter hit) f) j := by
  rw [loseAll_eq]
  exact (teamsLost_rolledBack hj).wakeLost

/-- The one job that has a cut goes back once. -/
theorem loseAll_counts (hj : JobHit s j (fun l => hit l = true)) (hcuts : s.cuts = [j]) :
    (s.loseAll (s.launches.filter hit) f).telemetry.rollback = satInc s.telemetry.rollback := by
  have hone : lossJobs s (s.launches.filter hit) = [j] := by
    have hmem := mem_lossJobs hj
    unfold lossJobs at hmem ⊢
    rw [hcuts] at hmem ⊢
    rw [List.filter_eq_self]
    intro k hk
    rw [List.mem_singleton.mp hk]
    exact (List.mem_filter.mp hmem).2
  rw [loseAll_rollback, hone]
  rfl

end

/-! A launch without a cut. -/

section
variable {s : State} {n : Nat} {ks : List CutJob}

/-- A launch that no complete cut holds keeps its teams when jobs go back. -/
theorem keeps_of_noCut (hn : NoCut s n) (hks : ∀ k ∈ ks, k ∈ s.cuts ∧ k.complete = true) : Keeps [n] s (ks.foldl State.rollback s) := by
  refine foldl_rollback_keeps ks (fun k hk => ?_) s
  obtain ⟨hcut, hcomplete⟩ := hks k hk
  obtain ⟨hlaunches, hteams⟩ := hn k hcut hcomplete
  refine ⟨fun i hi hin => hlaunches (List.mem_singleton.mp hin ▸ hi), fun t ht hin => hteams t ht (List.mem_singleton.mp hin)⟩

theorem mem_teamsOf {t : Team} : t ∈ teamsOf s [n] ↔ t ∈ s.teams ∧ t.id.launch = n := by
  simp [teamsOf]

theorem Keeps.team?_iff {t : State} (h : Keeps [n] s t) {x : Team} (hx : x.id.launch = n) : x ∈ t.teams ↔ x ∈ s.teams := by
  have := (mem_teamsOf (s := t) (n := n) (t := x)).symm.trans (h.teams ▸ mem_teamsOf (s := s) (n := n) (t := x))
  simpa [hx] using this

theorem find?_teamsOf (s : State) {id : TeamId} (hid : id.launch = n) :
    (teamsOf s [n]).find? (fun t => decide (t.id = id)) = s.team? id := by
  rw [teamsOf, List.find?_filter, State.team?]
  congr 1
  funext t
  by_cases h : t.id = id
  · simp [h, hid]
  · simp [h]

theorem Keeps.team? {t : State} (h : Keeps [n] s t) {id : TeamId} (hid : id.launch = n) : t.team? id = s.team? id := by
  rw [← find?_teamsOf t hid, h.teams, find?_teamsOf s hid]

/-- Its launches stand as they stood. -/
theorem foldl_rollback_launch (hn : NoCut s n) (hks : ∀ k ∈ ks, k ∈ s.cuts ∧ k.complete = true) {m : Launch} (hm : m ∈ s.launches)
    (hseq : m.seq = n) : m ∈ (ks.foldl State.rollback s).launches := by
  suffices ∀ t : State, m ∈ t.launches → m ∈ (ks.foldl State.rollback t).launches from this s hm
  induction ks with
  | nil => exact fun t h => h
  | cons k ks ih =>
    intro t ht
    refine ih (fun k hk => hks k (List.mem_cons_of_mem _ hk)) _ ?_
    obtain ⟨hcut, hcomplete⟩ := hks k List.mem_cons_self
    have hout : k.launches.contains m.seq = false := by
      rw [← Bool.not_eq_true, List.contains_iff_mem, hseq]
      exact (hn k hcut hcomplete).1
    rw [rollback_launches]
    exact List.mem_map.mpr ⟨m, ht, by rw [hout]; rfl⟩

end

section
variable {s : State} {hit : Launch → Bool} {f : Team → Bool} {gone : Nat → Prop}

theorem lossJobs_cuts {affected : List Launch} {k : CutJob} (hk : k ∈ lossJobs s affected) : k ∈ s.cuts ∧ k.complete = true := by
  obtain ⟨hcut, hk⟩ := List.mem_filter.mp hk
  exact ⟨hcut, (Bool.and_eq_true_iff.mp hk).1⟩

theorem mem_lossRest {l : Launch} (hl : l ∈ s.launches) (hhit : hit l = true) (hn : NoCut s l.seq) :
    l ∈ lossRest s (s.launches.filter hit) := by
  refine List.mem_filter.mpr ⟨List.mem_filter.mpr ⟨hl, hhit⟩, ?_⟩
  have hnone : (s.cuts.any fun j => j.complete && j.launches.contains l.seq) = false := by
    rw [List.any_eq_false]
    intro k hk hboth
    obtain ⟨hcomplete, hseq⟩ := Bool.and_eq_true_iff.mp hboth
    exact (hn k hk hcomplete).1 (List.contains_iff_mem.mp hseq)
  rw [backOf, hnone, Bool.and_false]
  rfl

/-- Which teams the loss takes: those on the cores that are gone. -/
def Takes (f : Team → Bool) (gone : Nat → Prop) : Prop := ∀ t, f t = true ↔ ∃ k, t.place = .resident k ∧ gone k

/-- A group that is parked away from the loss takes BARRIER_LOST when its launch has lost a die. -/
theorem loseAll_woken (hf : Takes f gone) {n : Nat} (hn : NoCut s n)
    (hmem : n ∈ ((teamsLost s (s.launches.filter hit) f).launches.filter (·.dieLost)).map (·.seq)) {id : GroupId}
    (hid : id.team.launch = n) (haway : ∀ t ∈ s.teams, t.id = id.team → ∀ k, t.place = .resident k → ¬ gone k) :
    Woken s (s.loseAll (s.launches.filter hit) f) id := by
  intro t g0 a v since k hslot ht hplace hg hrun htrap
  have hkeeps := keeps_of_noCut hn (ks := lossJobs s (s.launches.filter hit)) fun k hk => lossJobs_cuts hk
  have hspared : ∀ x ∈ ((lossJobs s (s.launches.filter hit)).foldl State.rollback s).teams, x.id = id.team → f x = false := by
    intro x hx hxid
    rw [← Bool.not_eq_true, hf]
    rintro ⟨k, hk, hgone⟩
    exact haway x ((hkeeps.team?_iff (by rw [hxid, hid])).mp hx) hxid k hk hgone
  have hteam : (teamsLost s (s.launches.filter hit) f).team? id.team = some t :=
    ((loseRest_team? hspared _).trans (hkeeps.team? hid)).trans ht
  have himages : (teamsLost s (s.launches.filter hit) f).faultSlot? 0x0C 0 = none := by
    rw [State.faultSlot?, State.patchImage?, (teamsLost_sameRest s _ f).images]
    exact hslot
  have hlaunch : ((teamsLost s (s.launches.filter hit) f).launch? id.team.launch).isSome = true := by
    obtain ⟨m, hm, hseq⟩ := List.mem_map.mp hmem
    rw [State.launch?, List.find?_isSome]
    exact ⟨m, List.mem_of_mem_filter hm, decide_eq_true (hseq.trans hid.symm)⟩
  rw [loseAll_eq]
  exact wakeParked_took himages hlaunch hteam hplace hg hrun htrap (hid ▸ hmem)

/-- A launch that is hit and has no cut to go back to is lost. -/
theorem loseAll_launchLost (hf : Takes f gone) {l : Launch} (hl : l ∈ s.launches) (hhit : hit l = true) (hn : NoCut s l.seq) :
    LaunchLost s (s.loseAll (s.launches.filter hit) f) l gone := by
  have hrest := mem_lossRest hl hhit hn
  have hkeeps := keeps_of_noCut hn (ks := lossJobs s (s.launches.filter hit)) fun k hk => lossJobs_cuts hk
  have hdelivered := wakeLost_delivered (teamsLost s (s.launches.filter hit) f)
  have haborted : Aborted (teamsLost s (s.launches.filter hit) f) l.seq := (loseRest_aborted hrest _).abortParts _
  have hgang (g : W32) (hg : g ≠ 0) (hlg : g = l.gang) (m : Launch) (hm : m.gang = g) :
      inLostGang (lossRest s (s.launches.filter hit)) m = true := by
    refine List.any_eq_true.mpr ⟨l, hrest, ?_⟩
    rw [hm, ← hlg]
    exact Bool.and_eq_true_iff.mpr ⟨decide_eq_true hg, decide_eq_true rfl⟩
  have hlost (m : Launch) (hm : m ∈ (teamsLost s (s.launches.filter hit) f).launches) (hseq : m.seq = l.seq) :
      l.seq ∈ ((teamsLost s (s.launches.filter hit) f).launches.filter (·.dieLost)).map (·.seq) :=
    List.mem_map.mpr ⟨m, List.mem_filter.mpr ⟨hm, (haborted m hm hseq).2.2⟩, hseq⟩
  refine ⟨fun m' hm' hseq => ?_, fun m' hm' hg hsame => ?_, fun t ht hlaunch ⟨k, hplace, hgone⟩ => ?_, fun id hid haway => ?_,
    fun m hm hg hsame hab hnm id hid haway => ?_⟩
  · obtain ⟨m, hm, hnotes⟩ := hdelivered.launch_of hm'
    rw [hnotes] at hseq ⊢
    exact haborted m hm hseq
  · obtain ⟨m, hm, hnotes⟩ := hdelivered.launch_of hm'
    rw [hnotes] at hsame ⊢
    show m.aborted = true
    exact aborted_of_abortParts hm hsame (hgang l.gang hg rfl)
  · have hstands := (hkeeps.team?_iff hlaunch).mpr ht
    have htaken : f t = true := (hf t).mpr ⟨k, hplace, hgone⟩
    have hgone' := loseRest_gone hrest hstands hlaunch htaken (by rw [hplace]; exact nofun)
    rw [loseAll_eq]
    exact hdelivered.gone (hgone'.map id (List.map_id _).symm (fun x => ⟨rfl, fun h => h⟩) (abortParts_nothingNew _ _))
  · have hstands := foldl_rollback_launch hn (ks := lossJobs s (s.launches.filter hit)) (fun k hk => lossJobs_cuts hk) hl rfl
    obtain ⟨m, hm, hseq⟩ : Present (teamsLost s (s.launches.filter hit) f) l.seq :=
      (loseRest_induction (P := fun t => Present t l.seq) (fun t l' h => h.loseTeams l' 11 f) _ _ ⟨l, hstands, rfl⟩).abortParts _
    exact loseAll_woken hf hn (hlost m hm hseq) hid haway
  · have hstands := foldl_rollback_launch hnm (ks := lossJobs s (s.launches.filter hit)) (fun k hk => lossJobs_cuts hk) hm rfl
    have hreached : Reached (loseRest f ((lossJobs s (s.launches.filter hit)).foldl State.rollback s)
        (lossRest s (s.launches.filter hit))) m.seq l.gang :=
      loseRest_induction (P := fun t => Reached t m.seq l.gang) (fun t l' h => h.loseTeams l' 11 f) _ _ ⟨m, hstands, rfl, hsame, .inl hab⟩
    exact loseAll_woken hf hnm (abortParts_lost hreached (hgang l.gang hg rfl)) hid haway

end

end Sys2Proof.Claims
end

section
/-! The losses of the model: a compute die, a die of a peer, a core and a cell (24 R363, R364; 26 R387, R388; 23 R347). -/

namespace Sys2Proof.Claims
open Sys2Proof.Machine

/-! What follows a loss keeps what it did. -/

theorem Woken.congr {s t u : State} {id : GroupId} (h : Woken s t id) (hgroup : u.group? id = t.group? id) : Woken s u id := by
  intro x g a v n k hslot hx hplace hg hrun htrap
  rw [hgroup]
  exact h x g a v n k hslot hx hplace hg hrun htrap

section
variable {s t u : State} {hit : Launch → Prop} {gone : Nat → Prop}

theorem Follows.stillGone {id : TeamId} (h : Follows t u) (hg : Gone t id) : Gone u id := by
  have hnothing := h.nothing
  obtain ⟨-, ⟨F, hF, hFx⟩, -⟩ := h
  refine hg.map F hF (fun x => ?_) hnothing
  rw [(hFx x).1]
  exact ⟨rfl, fun h => h⟩

theorem LaunchLost.follows {l : Launch} (h : LaunchLost s t l gone) (hf : Follows t u) : LaunchLost s u l gone := by
  obtain ⟨haborted, hgang, hteams, hwoken, hparts⟩ := h
  refine ⟨hf.launches ▸ haborted, hf.launches ▸ hgang, fun x hx hlaunch hplace => hf.stillGone (hteams x hx hlaunch hplace),
    fun id hid haway => (hwoken id hid haway).congr (hf.group? id), fun m hm hg hsame hab hn id hid haway =>
      (hparts m hm hg hsame hab hn id hid haway).congr (hf.group? id)⟩

/-- What is under way after a loss: launches without a cut are lost, and jobs with one have gone back. -/
def Recovered (s t : State) (hit : Launch → Prop) (gone : Nat → Prop) : Prop :=
  (∀ l ∈ s.launches, hit l → NoCut s l.seq → LaunchLost s t l gone) ∧
  ∀ j, JobHit s j hit → RolledBack t j ∧ (s.cuts = [j] → t.telemetry.rollback = satInc s.telemetry.rollback)

theorem Recovered.follows (h : Recovered s t hit gone) (hf : Follows t u) (hcount : u.telemetry.rollback = t.telemetry.rollback) :
    Recovered s u hit gone := by
  obtain ⟨hlost, hjobs⟩ := h
  refine ⟨fun l hl hhit hn => (hlost l hl hhit hn).follows hf, fun j hj => ?_⟩
  obtain ⟨hback, hone⟩ := hjobs j hj
  exact ⟨hback.follows hf, fun hcuts => hcount.trans (hone hcuts)⟩

theorem Recovered.afterLoss (h : Recovered s t hit gone) : AfterLoss s t hit gone :=
  ⟨h.1, fun j hj => (h.2 j hj).1.wentBack (h.2 j hj).2⟩

end

theorem loseAll_recovered (s : State) (hit : Launch → Bool) {f : Team → Bool} {gone : Nat → Prop} (hf : Takes f gone) :
    Recovered s (s.loseAll (s.launches.filter hit) f) (fun l => hit l = true) gone :=
  ⟨fun _ hl hhit hn => loseAll_launchLost hf hl hhit hn, fun _ hj => ⟨loseAll_rolledBack hj, loseAll_counts hj⟩⟩

theorem core?_eq_some {t : Team} {k : Nat} : t.core? = some k ↔ t.place = .resident k := by
  unfold Team.core?
  cases t.place <;> simp

/-- The teams whose core `p` admits. -/
theorem takes_core (p : Nat → Bool) : Takes (fun t => (t.core?.map p).getD false) (fun k => p k = true) := by
  intro t
  simp only [← core?_eq_some]
  cases t.core? with
  | none => simp
  | some k => simp

/-! A compute die of this module. -/

/-- A list of things without a repetition has two of them when it is long enough. -/
theorem two_le_length {α : Type} {xs : List α} (hxs : xs.Nodup) : 2 ≤ xs.length ↔ ∃ x ∈ xs, ∃ y ∈ xs, x ≠ y := by
  match xs, hxs with
  | [], _ => simp
  | [a], _ => simp
  | a :: b :: rest, h =>
    have hne : a ≠ b := fun he => (List.nodup_cons.mp h).1 (he ▸ List.mem_cons_self)
    exact ⟨fun _ => ⟨a, List.mem_cons_self, b, List.mem_cons_of_mem _ List.mem_cons_self, hne⟩, fun _ => by simp⟩

theorem nodup_zipIdx {α : Type} (xs : List α) : xs.zipIdx.Nodup :=
  List.Nodup.of_map Prod.snd (by rw [List.zipIdx_map_snd]; exact List.nodup_range')

/-- More than one core of the die is out of use. -/
theorem two_disabled (s : State) (d : Nat) : 2 ≤ ((s.cores.zipIdx.filter fun c => decide (dieOfCore c.2 = d)).filter fun c =>
      !c.1.enabled).length ↔
    ∃ a b, a ≠ b ∧ a / 32 = d ∧ b / 32 = d ∧ (∃ c, s.cores[a]? = some c ∧ c.enabled = false) ∧
      ∃ c, s.cores[b]? = some c ∧ c.enabled = false := by
  have hmem (x : Core × Nat) : x ∈ ((s.cores.zipIdx.filter fun c => decide (dieOfCore c.2 = d)).filter fun c => !c.1.enabled) ↔
      s.cores[x.2]? = some x.1 ∧ x.2 / 32 = d ∧ x.1.enabled = false := by
    simp only [List.mem_filter, List.mem_zipIdx_iff_getElem?, decide_eq_true_eq, Bool.not_eq_true', and_assoc]
    rfl
  rw [two_le_length (((nodup_zipIdx s.cores).filter _).filter _)]
  constructor
  · rintro ⟨x, hx, y, hy, hne⟩
    obtain ⟨hx1, hx2, hx3⟩ := (hmem x).mp hx
    obtain ⟨hy1, hy2, hy3⟩ := (hmem y).mp hy
    refine ⟨x.2, y.2, fun he => hne (Prod.ext ?_ he), hx2, hy2, ⟨x.1, hx1, hx3⟩, ⟨y.1, hy1, hy3⟩⟩
    rw [he, hy1] at hx1
    exact (Option.some.inj hx1).symm
  · rintro ⟨a, b, hne, ha, hb, ⟨c, hc, hc0⟩, ⟨e, he, he0⟩⟩
    exact ⟨(c, a), (hmem _).mpr ⟨hc, ha, hc0⟩, (e, b), (hmem _).mpr ⟨he, hb, he0⟩, fun h => hne (congrArg Prod.snd h)⟩

theorem dieGone_iff (s : State) (d : Nat) : s.dieGone d = true ↔ DieIsGone s d := by
  have hlinks : (s.links.zipIdx.all fun x => !Config.linkAt d x.2 || !x.1.up) = true ↔
      ∀ (k : Nat) (x : Link), s.links[k]? = some x → Config.linkAt d k = true → x.up = false := by
    rw [List.all_eq_true]
    constructor
    · intro h k x hx hat
      have := h (x, k) (List.mk_mem_zipIdx_iff_getElem?.mpr hx)
      simpa [hat] using this
    · rintro h ⟨x, k⟩ hx
      have hx := List.mk_mem_zipIdx_iff_getElem?.mp hx
      cases hat : Config.linkAt d k with
      | false => rfl
      | true => simp [h k x hx hat]
  have hcells : ((List.range 8).all fun k => s.hive.lostCells.contains (8 * d + k)) = true ↔ ∀ k < 8, 8 * d + k ∈ s.hive.lostCells := by
    simp only [List.all_eq_true, List.mem_range, List.contains_iff_mem]
  rw [State.dieGone, Bool.or_eq_true, Bool.or_eq_true, hlinks, hcells, Bool.and_eq_true, decide_eq_true_eq, decide_eq_true_eq,
    two_disabled, DieIsGone, or_assoc]

theorem exec_dieFence_eq (s : State) (d : Nat) : exec (.dieFence ⟨none, d⟩) s =
    .next (if 8 ≤ d then s else if (s.fencedDies.contains d || !s.dieGone d) = true then s else s.fenceDie d) := rfl

theorem exec_dieFence_here {s : State} {d : Nat} (hd : d < 8) (hfenced : d ∉ s.fencedDies) (hgone : DieIsGone s d) :
    exec (.dieFence ⟨none, d⟩) s = .next (s.fenceDie d) := by
  have hfences : (s.fencedDies.contains d || !s.dieGone d) = false := by
    rw [(dieGone_iff s d).mpr hgone, Bool.not_true, Bool.or_false, ← Bool.not_eq_true, List.contains_iff_mem]
    exact hfenced
  rw [exec_dieFence_eq, if_neg (Nat.not_le.mpr hd), hfences, if_neg Bool.false_ne_true]

theorem exec_dieFence_stays {s : State} {d : Nat} (h : 8 ≤ d ∨ d ∈ s.fencedDies ∨ ¬ DieIsGone s d) :
    exec (.dieFence ⟨none, d⟩) s = .next s := by
  rw [exec_dieFence_eq]
  by_cases hd : 8 ≤ d
  · rw [if_pos hd]
  · have hstays : (s.fencedDies.contains d || !s.dieGone d) = true := by
      rw [Bool.or_eq_true, List.contains_iff_mem, Bool.not_eq_true', ← Bool.not_eq_true, dieGone_iff]
      exact h.resolve_left hd
    rw [if_neg hd, hstays, if_pos rfl]

theorem exec_dieFence_none (s : State) {m d : Nat} (hd : 8 ≤ d) : exec (.dieFence ⟨some m, d⟩) s = .next s :=
  congrArg Host.Outcome.next (if_pos hd)

section
variable (s : State) (d : Nat)

/-- The die is fenced, and counted. -/
def dieMarked : State := { s with
  fencedDies := s.fencedDies ++ [d]
  telemetry := { s.telemetry with dieFenced := satInc s.telemetry.dieFenced } }

/-- The launches with work on the die have gone back or are lost. -/
def dieLeft : State := (dieMarked s d).loseAll ((dieMarked s d).launches.filter fun l => s.touchesDie l d)
  fun t => (t.core?.map fun c => decide (dieOfCore c = d)).getD false

/-- The pages of the jobs that went back are served from the journal. -/
def dieServed : State :=
  (lossJobs s (s.launches.filter fun l => s.touchesDie l d)).foldl (fun (s : State) j => s.remapDie d j) (dieLeft s d)

/-- The die's Forager has no stream, replay or node copy. -/
def foragerGone (t : State) : State :=
  let t' := t.forgetStreams fun st => decide (st.owner = .forager d)
  { t' with
    replays := t'.replays.filter fun r => decide (r.die ≠ d)
    copies := t'.copies.filter fun k => match k.node with
      | some (r, _) => t'.replays.any fun x => decide (x.id = r) && decide (x.die ≠ d)
      | none => true
    forChans := t'.forChans.set d (List.replicate 16 Channel.empty) }

theorem fenceDie_eq : s.fenceDie d = foragerGone d ((dieServed s d).loseStreams fun st => decide (st.dest = .die d)) := rfl

theorem foragerGone_later (t : State) : Later t (foragerGone d t) := by
  refine (forgetStreams_later t fun st => decide (st.owner = .forager d)).trans ⟨⟨rfl, ⟨id, (List.map_id _).symm,
    fun _ => ⟨rfl, fun _ _ => rfl⟩⟩, ?_⟩, ⟨rfl, rfl, rfl, rfl, rfl, rfl, rfl, rfl⟩, rfl⟩
  exact ⟨fun c hc _ he => ⟨c, hc, he⟩, fun p hp => ⟨p, hp, rfl⟩, fun _ h => h, fun x hx => ⟨x, hx, rfl⟩,
    fun x hx => ⟨x, List.mem_of_mem_filter hx, rfl⟩, fun _ hx => List.mem_of_mem_filter hx, fun _ h => h⟩

theorem fenceDie_later : Later (dieLeft s d) (s.fenceDie d) := by
  rw [fenceDie_eq]
  exact ((foldl_later (fun s j => remapDie_later s d j) _ _).trans (loseStreams_later _ _)).trans (foragerGone_later d _)

theorem fenceDie_recovered : Recovered s (s.fenceDie d) (fun l => s.touchesDie l d = true) (fun k => k / 32 = d) := by
  have htakes : Takes (fun t => (t.core?.map fun c => decide (dieOfCore c = d)).getD false) (fun k => k / 32 = d) := by
    intro t
    rw [takes_core (fun c => decide (dieOfCore c = d)) t]
    simp only [decide_eq_true_eq]
    rfl
  have hleft : Recovered s (dieLeft s d) (fun l => s.touchesDie l d = true) (fun k => k / 32 = d) :=
    loseAll_recovered (dieMarked s d) (fun l => s.touchesDie l d) htakes
  have hlater := fenceDie_later s d
  exact hleft.follows hlater.toFollows (by rw [hlater.telemetry])

theorem fenceDie_mem : (s.fenceDie d).mem = (dieServed s d).mem := by
  rw [fenceDie_eq]
  exact loseStreams_mem _ _

theorem fenceDie_counted : (s.fenceDie d).fencedDies = s.fencedDies ++ [d] ∧
    (s.fenceDie d).telemetry.dieFenced = satInc s.telemetry.dieFenced := by
  have hlater := fenceDie_later s d
  have hleft := loseAll_sameRest (dieMarked s d) ((dieMarked s d).launches.filter fun l => s.touchesDie l d)
    fun t => (t.core?.map fun c => decide (dieOfCore c = d)).getD false
  refine ⟨hlater.rest.fencedDies.trans hleft.fencedDies, ?_⟩
  have htel : (dieLeft s d).telemetry = _ := hleft.telemetry
  rw [hlater.telemetry, htel]
  rfl

theorem fenceDie_packets {q : Packet} (hq : q ∈ (s.fenceDie d).packets) : q.stream.dest ≠ .die d ∧ q.stream.owner ≠ .forager d := by
  rw [fenceDie_eq] at hq
  obtain ⟨hsent, howner⟩ := List.mem_filter.mp hq
  exact ⟨by simpa using loseStreams_packets hsent, by simpa using howner⟩

theorem fenceDie_replays {r : Replay} (hr : r ∈ (s.fenceDie d).replays) : r.die ≠ d := by
  rw [fenceDie_eq] at hr
  simpa using (List.mem_filter.mp hr).2

theorem fenceDie_mem_noCuts (hcuts : s.cuts = []) : (s.fenceDie d).mem = s.mem := by
  have hjobs (t : State) (ht : t.cuts = []) (affected : List Launch) : lossJobs t affected = [] := by rw [lossJobs, ht]; rfl
  have hleft : (dieLeft s d).mem = s.mem := by
    rw [dieLeft, loseAll_mem, hjobs (dieMarked s d) hcuts]
    rfl
  rw [fenceDie_mem, dieServed, hjobs s hcuts]
  exact hleft

theorem fenceDie_memoryBack {m0 : Memory} {j : CutJob} (hjournal : Journalled s m0) (hwf : s.mem.wf = true)
    (hj : JobHit s j (fun l => s.touchesDie l d = true))
    (helsewhere : ∀ k ∈ s.cuts, ∀ x ∈ k.journal, isNear x.page = true → nearDie x.page ≠ d) : MemoryBack s (s.fenceDie d) j m0 := by
  have hserved (ks : List CutJob) (hks : ∀ k ∈ ks, k ∈ s.cuts) (t : State) :
      ks.foldl (fun (s : State) j => s.remapDie d j) t = t := by
    induction ks with
    | nil => rfl
    | cons k ks ih =>
      rw [List.foldl_cons, remapDie_of_elsewhere (helsewhere k (hks k List.mem_cons_self))]
      exact ih fun k hk => hks k (List.mem_cons_of_mem _ hk)
  have hmem : (s.fenceDie d).mem =
      ((lossJobs s (s.launches.filter fun l => s.touchesDie l d)).foldl State.rollback (dieMarked s d)).mem := by
    rw [fenceDie_mem, dieServed, hserved _ fun k hk => (lossJobs_cuts hk).1]
    exact loseAll_mem _ _ _
  exact memoryBack_of_rollback (s := dieMarked s d) hjournal hwf (fun k hk => (lossJobs_cuts hk).1) (mem_lossJobs hj) hmem

end

/-! A core with an uncorrectable error, and a cell. -/

section
variable (s : State)

/-- The launches with a team on the cores that `p` admits. -/
def onCores (f : Team → Bool) (l : Launch) : Bool := s.teams.any fun t => f t && decide (t.id.launch = l.seq)

theorem onCores_iff {f : Team → Bool} {gone : Nat → Prop} (hf : Takes f gone) (l : Launch) :
    onCores s f l = true ↔ ∃ t ∈ s.teams, t.id.launch = l.seq ∧ ∃ k, t.place = .resident k ∧ gone k := by
  simp only [onCores, List.any_eq_true, Bool.and_eq_true, decide_eq_true_eq]
  exact exists_congr fun t => and_congr_right fun _ => and_comm.trans (and_congr_right fun _ => hf t)

/-- The state when the teams on cores that fail have been handled. -/
def coresLeft (f : Team → Bool) : State := s.loseAll (s.launches.filter (onCores s f)) f

/-- Cores that are exchanged for others, without teams, bring nothing new. -/
theorem coresLeft_follows {f : Team → Bool} {u : State} (hlaunches : u.launches = (coresLeft s f).launches)
    (hteams : u.teams = (coresLeft s f).teams) (hnothing : NothingNew (coresLeft s f) u) : Follows (coresLeft s f) u :=
  ⟨hlaunches, ⟨id, by rw [hteams, List.map_id], fun _ => ⟨rfl, fun _ _ => rfl⟩⟩, hnothing⟩

/-- The die has a spare core, which takes the index of the lost one, or it has none. -/
def coreFenced (C : Nat) (t : State) : State :=
  let n := t.spares.getD (dieOfCore C) 0
  let tel := { t.telemetry with sramUncorr := satInc t.telemetry.sramUncorr }
  if 0 < n then
    { t with
      spares := t.spares.set (dieOfCore C) (n - 1)
      telemetry := { tel with coreSpared := satInc tel.coreSpared }
      cores := t.cores.set C Core.reset }
  else
    { t with
      telemetry := { tel with coreLost := satInc tel.coreLost }
      cores := t.cores.set C { Core.reset with enabled := false } }

/-- The state after the loss of a core. -/
def coreGone (C : Nat) : State :=
  coreFenced C ((coresLeft s fun t => decide (t.place = .resident C)).logError (dieOfCore C) (Config.stateAddr s.free))

theorem exec_uncorrectable {C : Nat} {c : Core} (hc : s.cores[C]? = some c) (henabled : c.enabled = true) :
    exec (.uncorrectableTeamState C) s = .next (coreGone s C) := by
  show execUncorrectableTeamState C s = _
  unfold execUncorrectableTeamState
  rw [hc]
  dsimp only
  rw [henabled, Bool.not_true, if_neg Bool.false_ne_true]
  rfl

theorem takes_resident (C : Nat) : Takes (fun t => decide (t.place = .resident C)) (fun k => k = C) := by
  intro t
  simp

/-- A core without teams in place of another brings nothing new. -/
theorem nothingNew_setCore {t u : State} {C : Nat} {b : Bool} (hcores : u.cores = t.cores.set C { Core.reset with enabled := b })
    (hpackets : u.packets = t.packets) (hports : u.ports = t.ports) (hflights : u.flights = t.flights) (hcopies : u.copies = t.copies)
    (hreplays : u.replays = t.replays) (hsignatures : u.signatures = t.signatures) : NothingNew t u where
  entries c hc e he := by
    rw [hcores] at hc
    rcases List.mem_or_eq_of_mem_set hc with hc | rfl
    · exact ⟨c, hc, he⟩
    · exact absurd he List.not_mem_nil
  packets p hp := ⟨p, hpackets ▸ hp, rfl⟩
  ports _ hp := hports ▸ hp
  flights x hx := ⟨x, hflights ▸ hx, rfl⟩
  copies x hx := ⟨x, hcopies ▸ hx, rfl⟩
  replays _ hx := hreplays ▸ hx
  signatures _ hx := hsignatures ▸ hx

theorem coreFenced_cases (C : Nat) (t : State) :
    (0 < t.spares.getD (dieOfCore C) 0 ∧ coreFenced C t = { t with
      spares := t.spares.set (dieOfCore C) (t.spares.getD (dieOfCore C) 0 - 1)
      telemetry := { t.telemetry with
        sramUncorr := satInc t.telemetry.sramUncorr, coreSpared := satInc t.telemetry.coreSpared }
      cores := t.cores.set C Core.reset }) ∨
    (t.spares.getD (dieOfCore C) 0 = 0 ∧ coreFenced C t = { t with
      telemetry := { t.telemetry with sramUncorr := satInc t.telemetry.sramUncorr, coreLost := satInc t.telemetry.coreLost }
      cores := t.cores.set C { Core.reset with enabled := false } }) := by
  unfold coreFenced
  dsimp only
  by_cases h : 0 < t.spares.getD (dieOfCore C) 0
  · exact .inl ⟨h, if_pos h⟩
  · exact .inr ⟨Nat.eq_zero_of_not_pos h, if_neg h⟩

theorem coreGone_follows (C : Nat) : Follows (coresLeft s fun t => decide (t.place = .resident C)) (coreGone s C) ∧
    (coreGone s C).telemetry.rollback = (coresLeft s fun t => decide (t.place = .resident C)).telemetry.rollback ∧
    (coreGone s C).mem = (coresLeft s fun t => decide (t.place = .resident C)).mem := by
  unfold coreGone
  obtain ⟨-, h⟩ | ⟨-, h⟩ := coreFenced_cases C
    ((coresLeft s fun t => decide (t.place = .resident C)).logError (dieOfCore C) (Config.stateAddr s.free))
  · rw [h]
    exact ⟨coresLeft_follows s rfl rfl (nothingNew_setCore (b := true) rfl rfl rfl rfl rfl rfl rfl), rfl, rfl⟩
  · rw [h]
    exact ⟨coresLeft_follows s rfl rfl (nothingNew_setCore (b := false) rfl rfl rfl rfl rfl rfl rfl), rfl, rfl⟩

theorem coresLeft_recovered {f : Team → Bool} {gone : Nat → Prop} (hf : Takes f gone) :
    Recovered s (coresLeft s f) (fun l => ∃ t ∈ s.teams, t.id.launch = l.seq ∧ ∃ k, t.place = .resident k ∧ gone k) gone := by
  have hhit : (fun l => onCores s f l = true) = fun l => ∃ t ∈ s.teams, t.id.launch = l.seq ∧ ∃ k, t.place = .resident k ∧ gone k :=
    funext fun l => propext (onCores_iff s hf l)
  exact hhit ▸ loseAll_recovered s (onCores s f) hf

theorem coresLeft_memoryBack {f : Team → Bool} {gone : Nat → Prop} (hf : Takes f gone) {m0 : Memory} {j : CutJob} {u : State}
    (hjournal : Journalled s m0) (hwf : s.mem.wf = true)
    (hj : JobHit s j (fun l => ∃ t ∈ s.teams, t.id.launch = l.seq ∧ ∃ k, t.place = .resident k ∧ gone k))
    (hmem : u.mem = (coresLeft s f).mem) : MemoryBack s u j m0 := by
  have hhit : (fun l => onCores s f l = true) = fun l => ∃ t ∈ s.teams, t.id.launch = l.seq ∧ ∃ k, t.place = .resident k ∧ gone k :=
    funext fun l => propext (onCores_iff s hf l)
  exact memoryBack_of_rollback hjournal hwf (fun k hk => (lossJobs_cuts hk).1) (mem_lossJobs (hit := onCores s f) (hhit ▸ hj))
    (hmem.trans (loseAll_mem _ _ _))

end

end Sys2Proof.Claims
end

section
/-! What the losses of a core, a cell and a die of a peer leave, and O55. -/

namespace Sys2Proof.Claims
open Sys2Proof.Machine

/-! Cores keep their number. -/

theorem foldl_rollback_cores (ks : List CutJob) : ∀ s : State, (ks.foldl State.rollback s).cores.length = s.cores.length := by
  induction ks with
  | nil => exact fun _ => rfl
  | cons k ks ih => exact fun s => (ih _).trans (by rw [rollback_cores, List.length_map])

theorem foldl_offCore_cores (ts : List Team) : ∀ s : State, (ts.foldl offCore s).cores.length = s.cores.length := by
  induction ts with
  | nil => exact fun _ => rfl
  | cons t ts ih => exact fun s => (ih _).trans (by rw [offCore_cores, List.length_map])

theorem loseAll_cores (s : State) (affected : List Launch) (f : Team → Bool) :
    (s.loseAll affected f).cores.length = s.cores.length := by
  have hwake : (wakeLost (teamsLost s affected f)).cores = (teamsLost s affected f).cores := by
    rw [(wakeLost_delivered (teamsLost s affected f)).frame]
  rw [loseAll_eq, hwake]
  refine (loseRest_induction (f := f) (P := fun t => t.cores.length = ((lossJobs s affected).foldl State.rollback s).cores.length)
    (fun t l h => ?_) (lossRest s affected) _ rfl).trans (foldl_rollback_cores _ s)
  exact (foldl_offCore_cores (lostTeams t l f) t).trans h

section
variable {s : State} {hit : Launch → Bool} {f : Team → Bool} {gone : Nat → Prop}

/-- A team of a launch without a cut is retired by a loss, or stands where it stood. -/
theorem loseAll_places {n : Nat} (hn : NoCut s n) {t : Team} (ht : t ∈ (s.loseAll (s.launches.filter hit) f).teams)
    (hlaunch : t.id.launch = n) : t.place = .retired ∨ ∃ x ∈ s.teams, x.id = t.id ∧ x.place = t.place := by
  obtain ⟨⟨F, hF, hFx⟩, -, -⟩ := wakeLost_delivered (teamsLost s (s.launches.filter hit) f)
  rw [loseAll_eq, hF] at ht
  obtain ⟨x, hx, rfl⟩ := List.mem_map.mp ht
  have hsame : (F x).id = x.id ∧ (F x).place = x.place := by
    rw [(hFx x).1]
    exact ⟨rfl, rfl⟩
  rw [hsame.1] at hlaunch ⊢
  rw [hsame.2]
  refine (loseRest_places f _ _ x hx).imp id ?_
  rintro ⟨y, hy, hyid, hplace⟩
  have hkeeps := keeps_of_noCut hn (ks := lossJobs s (s.launches.filter hit)) fun k hk => lossJobs_cuts hk
  exact ⟨y, (hkeeps.team?_iff (by rw [hyid, hlaunch])).mp hy, hyid, hplace⟩

/-- No team of a launch without a cut is left on a core that is gone. -/
theorem loseAll_offCore (hf : Takes f gone) {l : Launch} (hl : l ∈ s.launches) (hhit : hit l = true) (hn : NoCut s l.seq) {t : Team}
    (ht : t ∈ (s.loseAll (s.launches.filter hit) f).teams) (hlaunch : t.id.launch = l.seq) {k : Nat} (hgone : gone k) :
    t.place ≠ .resident k := by
  intro hplace
  rcases loseAll_places hn ht hlaunch with hretired | ⟨x, hx, hxid, hxplace⟩
  · rw [hretired] at hplace
    cases hplace
  · obtain ⟨-, -, hteams, -⟩ := loseAll_launchLost hf hl hhit hn
    obtain ⟨hretired, -⟩ := hteams x hx (hxid ▸ hlaunch) ⟨k, hxplace.trans hplace, hgone⟩
    have := hretired t ht hxid.symm
    rw [this] at hplace
    cases hplace

end

/-! A core. -/

section
variable (s : State) (C : Nat)

theorem coreGone_counts : (coreGone s C).telemetry.sramUncorr = satInc s.telemetry.sramUncorr ∧
    (∃ e, (coreGone s C).errorLog = s.errorLog ++ [e] ∧ e.die = C / 32 ∧ e.gtime = s.clock.gtime) := by
  have hrest := loseAll_sameRest s (s.launches.filter (onCores s fun t => decide (t.place = .resident C)))
    fun t => decide (t.place = .resident C)
  have hlog : (coresLeft s fun t => decide (t.place = .resident C)).errorLog = s.errorLog := hrest.errorLog
  have hclock : (coresLeft s fun t => decide (t.place = .resident C)).clock = s.clock := hrest.clock
  have htel : (coresLeft s fun t => decide (t.place = .resident C)).telemetry.sramUncorr = s.telemetry.sramUncorr := by
    have := congrArg Telemetry.sramUncorr hrest.telemetry
    exact this
  unfold coreGone
  rw [← hlog, ← hclock, ← htel]
  obtain ⟨-, h⟩ | ⟨-, h⟩ := coreFenced_cases C
    ((coresLeft s fun t => decide (t.place = .resident C)).logError (dieOfCore C) (Config.stateAddr s.free))
  · rw [h]
    exact ⟨rfl, _, rfl, rfl, rfl⟩
  · rw [h]
    exact ⟨rfl, _, rfl, rfl, rfl⟩

/-- The number of cores, the spares and the counters before the core is fenced. -/
theorem coresLeft_same (f : Team → Bool) : (coresLeft s f).cores.length = s.cores.length ∧ (coresLeft s f).spares = s.spares ∧
    (coresLeft s f).telemetry.coreSpared = s.telemetry.coreSpared ∧ (coresLeft s f).telemetry.coreLost = s.telemetry.coreLost := by
  have hrest := loseAll_sameRest s (s.launches.filter (onCores s f)) f
  have hspared := congrArg Telemetry.coreSpared hrest.telemetry
  have hlost := congrArg Telemetry.coreLost hrest.telemetry
  exact ⟨loseAll_cores _ _ _, hrest.spares, hspared, hlost⟩

theorem coreGone_spared {c : Core} (hc : s.cores[C]? = some c) (hspare : 0 < s.spares.getD (C / 32) 0) :
    (coreGone s C).cores[C]? = some Core.reset ∧ (coreGone s C).spares = s.spares.set (C / 32) (s.spares.getD (C / 32) 0 - 1) ∧
    (coreGone s C).telemetry.coreSpared = satInc s.telemetry.coreSpared ∧ (coreGone s C).telemetry.coreLost = s.telemetry.coreLost := by
  obtain ⟨hcores, hspares, hspared, hlost⟩ := coresLeft_same s fun t => decide (t.place = .resident C)
  have hlt : C < (coresLeft s fun t => decide (t.place = .resident C)).cores.length :=
    hcores.symm ▸ (List.getElem?_eq_some_iff.mp hc).1
  unfold coreGone
  rw [← hspares] at hspare ⊢
  rw [← hspared, ← hlost]
  obtain ⟨-, h⟩ | ⟨hzero, -⟩ := coreFenced_cases C
    ((coresLeft s fun t => decide (t.place = .resident C)).logError (dieOfCore C) (Config.stateAddr s.free))
  · rw [h]
    exact ⟨List.getElem?_set_self hlt, rfl, rfl, rfl⟩
  · exact absurd hzero (Nat.ne_of_gt hspare)

theorem coreGone_lost {c : Core} (hc : s.cores[C]? = some c) (hspare : s.spares.getD (C / 32) 0 = 0) :
    (coreGone s C).cores[C]? = some { Core.reset with enabled := false } ∧ (coreGone s C).spares = s.spares ∧
    (coreGone s C).telemetry.coreLost = satInc s.telemetry.coreLost ∧
    (coreGone s C).telemetry.coreSpared = s.telemetry.coreSpared := by
  obtain ⟨hcores, hspares, hspared, hlost⟩ := coresLeft_same s fun t => decide (t.place = .resident C)
  have hlt : C < (coresLeft s fun t => decide (t.place = .resident C)).cores.length :=
    hcores.symm ▸ (List.getElem?_eq_some_iff.mp hc).1
  unfold coreGone
  rw [← hspares] at hspare ⊢
  rw [← hspared, ← hlost]
  obtain ⟨hpos, -⟩ | ⟨-, h⟩ := coreFenced_cases C
    ((coresLeft s fun t => decide (t.place = .resident C)).logError (dieOfCore C) (Config.stateAddr s.free))
  · exact absurd hspare (Nat.ne_of_gt hpos)
  · rw [h]
    exact ⟨List.getElem?_set_self hlt, rfl, rfl, rfl⟩

/-- The launches that the loss of a core hits. -/
theorem resident_iff (l : Launch) : (∃ t ∈ s.teams, t.id.launch = l.seq ∧ ∃ k, t.place = .resident k ∧ k = C) ↔
    ∃ t ∈ s.teams, t.id.launch = l.seq ∧ t.place = .resident C := by
  simp

theorem coreGone_recovered :
    Recovered s (coreGone s C) (fun l => ∃ t ∈ s.teams, t.id.launch = l.seq ∧ t.place = .resident C) (fun k => k = C) := by
  obtain ⟨hfollows, hcount, -⟩ := coreGone_follows s C
  simp only [← resident_iff]
  exact (coresLeft_recovered s (takes_resident C)).follows hfollows hcount

theorem coreGone_offCore {l : Launch} (hl : l ∈ s.launches) (hhit : ∃ t ∈ s.teams, t.id.launch = l.seq ∧ t.place = .resident C)
    (hn : NoCut s l.seq) {t : Team} (ht : t ∈ (coreGone s C).teams) (hlaunch : t.id.launch = l.seq) : t.place ≠ .resident C := by
  have hteams : (coreGone s C).teams = (coresLeft s fun t => decide (t.place = .resident C)).teams := by
    unfold coreGone coreFenced
    dsimp only
    split <;> rfl
  rw [hteams] at ht
  exact loseAll_offCore (takes_resident C) hl ((onCores_iff s (takes_resident C) l).mpr ((resident_iff s C l).mpr hhit)) hn ht hlaunch rfl

theorem coreGone_memoryBack {m0 : Memory} {j : CutJob} (hjournal : Journalled s m0) (hwf : s.mem.wf = true)
    (hj : JobHit s j (fun l => ∃ t ∈ s.teams, t.id.launch = l.seq ∧ t.place = .resident C)) : MemoryBack s (coreGone s C) j m0 := by
  simp only [← resident_iff] at hj
  exact coresLeft_memoryBack s (takes_resident C) hjournal hwf hj (coreGone_follows s C).2.2

end

/-! A cell. -/

section
variable (s : State) (X : Nat)

/-- The teams on a cell. -/
def onCell (t : Team) : Bool := (t.core?.map fun core => decide (core / 4 = X)).getD false

/-- The state after the loss of a cell. -/
def cellGone : State :=
  let t := coresLeft s (onCell X)
  { t with
    hive := { t.hive with lostCells := t.hive.lostCells ++ [X] }
    cores := t.cores.zipIdx.map fun c => if decide (c.2 / 4 = X) then { Core.reset with enabled := false } else c.1 }

theorem takes_cell : Takes (onCell X) (fun k => k / 4 = X) := by
  intro t
  rw [onCell, takes_core (fun c => decide (c / 4 = X)) t]
  simp only [decide_eq_true_eq]

theorem exec_cellLinkFailure (hX : X < 64) (hlost : X ∉ s.hive.lostCells) : exec (.cellLinkFailure X) s = .next (cellGone s X) := by
  have hfails : (s.hive.lostCells.contains X || decide (64 ≤ X)) = false := by
    rw [decide_eq_false (Nat.not_le.mpr hX), Bool.or_false, ← Bool.not_eq_true, List.contains_iff_mem]
    exact hlost
  show execCellLinkFailure X s = _
  unfold execCellLinkFailure
  rw [hfails, if_neg Bool.false_ne_true]
  rfl

theorem cellGone_nothingNew : NothingNew (coresLeft s (onCell X)) (cellGone s X) where
  entries c hc e he := by
    obtain ⟨⟨c0, k⟩, hc0, rfl⟩ := List.mem_map.mp hc
    split at he
    · exact absurd he List.not_mem_nil
    · exact ⟨c0, List.fst_mem_of_mem_zipIdx hc0, he⟩
  packets p hp := ⟨p, hp, rfl⟩
  ports _ hp := hp
  flights x hx := ⟨x, hx, rfl⟩
  copies x hx := ⟨x, hx, rfl⟩
  replays _ hx := hx
  signatures _ hx := hx

theorem cellGone_recovered : Recovered s (cellGone s X)
    (fun l => ∃ t ∈ s.teams, t.id.launch = l.seq ∧ ∃ k, t.place = .resident k ∧ k / 4 = X) (fun k => k / 4 = X) :=
  (coresLeft_recovered s (takes_cell X)).follows (coresLeft_follows s rfl rfl (cellGone_nothingNew s X)) rfl

theorem cellGone_lost : (cellGone s X).hive.lostCells = s.hive.lostCells ++ [X] := by
  have hhive : (coresLeft s (onCell X)).hive = s.hive := (loseAll_sameRest _ _ _).hive
  rw [← hhive]
  rfl

theorem cellGone_cores {k : Nat} {x : Core} (hx : (cellGone s X).cores[k]? = some x) (hk : k / 4 = X) :
    x = { Core.reset with enabled := false } := by
  obtain ⟨⟨c0, i⟩, hc0, rfl⟩ := Option.map_eq_some_iff.mp ((List.getElem?_map ..).symm.trans hx)
  rw [List.getElem?_zipIdx] at hc0
  obtain ⟨c1, -, hpair⟩ := Option.map_eq_some_iff.mp hc0
  obtain ⟨-, rfl⟩ := Prod.mk.inj hpair
  simp [hk]

end

/-! A die of a peer that holds parts of gangs (23 R347). -/

section
variable (s : State) (m d : Nat)

/-- A part here of a gang that the die has a part of. -/
def abroadPart (l : Launch) : Bool := decide (l.gang ≠ 0) && decide (l.stage = .ready) && Config.gangOn l.gang.toNat m d

theorem abroadPart_iff {m d : Nat} {l : Launch} :
    abroadPart m d l = true ↔ l.gang ≠ 0 ∧ l.stage = .ready ∧ Config.gangOn l.gang.toNat m d = true := by
  rw [abroadPart, Bool.and_eq_true, Bool.and_eq_true, decide_eq_true_eq, decide_eq_true_eq, and_assoc]

/-- The streams to the die. -/
def toPeerDie (st : StreamId) : Bool := decide (st.dest = .peer m d)

/-- The jobs that go back with the die. -/
def peerJobs : List CutJob := ((s.cuts.filter fun j => j.complete && s.launches.any fun l =>
  abroadPart m d l && l.cutp && j.launches.contains l.seq) ++ s.jobsWith (toPeerDie m d)).dedup

/-- The state when jobs have gone back and streams to the die are lost. -/
def peerLeft : State := ((peerJobs s m d).foldl State.rollback s).loseStreams (toPeerDie m d)

/-- The state when the parts here that cannot go back have been aborted. -/
def peerAborted : State := abortParts (peerLeft s m d) fun l => abroadPart m d l && !backOf s l

theorem losePeerDie_eq : s.losePeerDie m d = wakeLost (peerAborted s m d) := rfl

theorem exec_dieFence_peer {s : State} {m d : Nat} (hd : d < 8) : exec (.dieFence ⟨some m, d⟩) s = .next (s.losePeerDie m d) :=
  congrArg Host.Outcome.next (if_neg (Nat.not_le.mpr hd))

theorem losePeerDie_packets {q : Packet} (hq : q ∈ (s.losePeerDie m d).packets) : q.stream.dest ≠ .peer m d := by
  rw [losePeerDie_eq, (wakeLost_delivered (peerAborted s m d)).frame] at hq
  exact of_decide_eq_false (loseStreams_packets hq)

theorem eq_singleton_of_nodup {α : Type} {xs : List α} {a : α} (hxs : xs.Nodup) (ha : a ∈ xs) (hall : ∀ x ∈ xs, x = a) : xs = [a] := by
  match xs, hxs, ha with
  | [x], _, _ => rw [hall x List.mem_cons_self]
  | x :: y :: rest, hxs, _ =>
    have hsame : x = y := (hall x List.mem_cons_self).trans (hall y (List.mem_cons_of_mem _ List.mem_cons_self)).symm
    exact absurd (hsame ▸ List.mem_cons_self) (List.nodup_cons.mp hxs).1

variable {s m d} in
theorem losePeerDie_wentBack {j : CutJob}
    (hj : JobHit s j fun l => l.gang ≠ 0 ∧ l.stage = .ready ∧ Config.gangOn l.gang.toNat m d = true) : WentBack s (s.losePeerDie m d) j := by
  have ⟨hcut, hcomplete, ⟨l, hl, hseq, hhit⟩, _, hlaunches, _⟩ := hj
  have hcuts : ∀ k ∈ peerJobs s m d, k ∈ s.cuts := by
    intro k hk
    rcases List.mem_append.mp (List.mem_dedup.mp hk) with hk | hk
    · exact List.mem_of_mem_filter hk
    · exact List.mem_of_mem_filter hk
  have hmem : j ∈ peerJobs s m d := by
    refine List.mem_dedup.mpr (List.mem_append_left _ (List.mem_filter.mpr ⟨hcut, ?_⟩))
    rw [hcomplete, Bool.true_and, List.any_eq_true]
    refine ⟨l, hl, ?_⟩
    rw [abroadPart_iff.mpr hhit, (hlaunches l hl hseq).1, Bool.true_and, Bool.true_and, List.contains_iff_mem]
    exact hseq
  have hlater : Later ((peerJobs s m d).foldl State.rollback s) (peerLeft s m d) := loseStreams_later _ _
  have hback : RolledBack (peerLeft s m d) j :=
    (foldl_rollback_rolledBack hj _ hcuts (fun l hl hseq => (hlaunches l hl hseq).2.1) hmem).follows hlater.toFollows
  have hspared : ∀ x ∈ (peerLeft s m d).launches, x.seq ∈ j.launches → (abroadPart m d x && !backOf s x) = false := by
    intro x hx hxseq
    rw [hlater.launches] at hx
    obtain ⟨y, hy, hyseq, -, -, hcutp⟩ := foldl_rollback_sameJobs _ s x hx
    have hyes : backOf s x = true := by
      rw [backOf, hcutp, (hlaunches y hy (hyseq ▸ hxseq)).1, Bool.true_and, List.any_eq_true]
      exact ⟨j, hcut, by rw [hcomplete, Bool.true_and, List.contains_iff_mem]; exact hxseq⟩
    rw [hyes, Bool.not_true, Bool.and_false]
  rw [losePeerDie_eq]
  refine (hback.keeps (abortParts_keeps hspared)).wakeLost.wentBack fun hone => ?_
  have hjobs : peerJobs s m d = [j] := by
    refine eq_singleton_of_nodup (List.nodup_dedup _) hmem fun k hk => ?_
    have := hcuts k hk
    rwa [hone, List.mem_singleton] at this
  rw [(wakeLost_delivered _).rollback]
  show (peerLeft s m d).telemetry.rollback = _
  rw [hlater.telemetry, hjobs]
  rfl

/-- Without a cut nothing goes back. -/
theorem peerJobs_noCuts {s : State} (hcuts : s.cuts = []) (m d : Nat) : peerJobs s m d = [] := by
  rw [peerJobs, State.jobsWith, hcuts]
  rfl

section
variable {s m d} (hcuts : s.cuts = [])
include hcuts

theorem peerLeft_noCuts : peerLeft s m d = s.loseStreams (toPeerDie m d) := by
  rw [peerLeft, peerJobs_noCuts hcuts]
  rfl

theorem backOf_noCuts (l : Launch) : backOf s l = false := by
  rw [backOf, hcuts, List.any_nil, Bool.and_false]

theorem losePeerDie_mem : (s.losePeerDie m d).mem = s.mem := by
  rw [losePeerDie_eq, (wakeLost_delivered _).mem]
  show (peerLeft s m d).mem = s.mem
  rw [peerLeft_noCuts hcuts]
  exact loseStreams_mem _ _

/-- The launches after the loss of a peer's die, but for the stops that they note. -/
theorem peerAborted_launches : (peerAborted s m d).launches = s.launches.map fun l =>
    if abroadPart m d l && !l.aborted then { l with aborted := true, reason := 10, dieLost := true } else l := by
  have hlaunches : (peerLeft s m d).launches = s.launches := by
    rw [peerLeft_noCuts hcuts]
    exact (loseStreams_later _ _).launches
  rw [peerAborted, abortParts, hlaunches]
  refine List.map_congr_left fun l _ => ?_
  rw [backOf_noCuts hcuts, Bool.not_false, Bool.and_true]

theorem losePeerDie_aborts {x : Launch} (hx : x ∈ (s.losePeerDie m d).launches) (habroad : abroadPart m d x = true) :
    x.aborted = true := by
  rw [losePeerDie_eq] at hx
  obtain ⟨y, hy, hnotes⟩ := (wakeLost_delivered _).launch_of hx
  rw [peerAborted_launches hcuts] at hy
  obtain ⟨l, -, rfl⟩ := List.mem_map.mp hy
  rw [hnotes] at habroad ⊢
  have hl : abroadPart m d l = true := by
    split at habroad
    · exact habroad
    · exact habroad
  rw [hl, Bool.true_and]
  cases hab : l.aborted with
  | false => rfl
  | true => exact hab

theorem losePeerDie_spares {l : Launch} (hl : l ∈ s.launches) (hhome : abroadPart m d l = false) :
    ∃ x ∈ (s.losePeerDie m d).launches, x.seq = l.seq ∧ x.aborted = l.aborted ∧ x.reason = l.reason := by
  obtain ⟨-, ⟨L, hL, hLm⟩, -⟩ := wakeLost_delivered (peerAborted s m d)
  have hstays : l ∈ (peerAborted s m d).launches := by
    rw [peerAborted_launches hcuts]
    exact List.mem_map.mpr ⟨l, hl, by rw [hhome]; rfl⟩
  refine ⟨L l, by rw [losePeerDie_eq, hL]; exact List.mem_map_of_mem hstays, ?_⟩
  rw [hLm l]
  exact ⟨rfl, rfl, rfl⟩

theorem losePeerDie_woken {l : Launch} (hl : l ∈ s.launches) (habroad : abroadPart m d l = true) (hab : l.aborted = false)
    {id : GroupId} (hid : id.team.launch = l.seq) : Woken s (s.losePeerDie m d) id := by
  intro t g a v n k hslot ht hplace hg hrun htrap
  have hlater : Later s (peerLeft s m d) := peerLeft_noCuts hcuts ▸ loseStreams_later _ _
  obtain ⟨-, ⟨F, hF, hFx⟩, -⟩ := hlater.toFollows
  have hsame (x : Team) : (F x).id = x.id := by rw [(hFx x).1]
  have hteam : (peerAborted s m d).team? id.team = some (F t) := by
    show (peerLeft s m d).teams.find? _ = _
    rw [hF, find?_map_of_same hsame, show s.teams.find? _ = some t from ht]
    rfl
  have hgroup : (F t).groups[id.group]? = some g ∧ (F t).place = .resident k := by
    rw [(hFx t).1]
    exact ⟨hg, hplace⟩
  have himages : (peerAborted s m d).faultSlot? 0x0C 0 = none := by
    rw [State.faultSlot?, State.patchImage?, show (peerAborted s m d).images = s.images from hlater.rest.images]
    exact hslot
  have hlost : ({ l with aborted := true, reason := 10, dieLost := true } : Launch) ∈ (peerAborted s m d).launches := by
    rw [peerAborted_launches hcuts]
    exact List.mem_map.mpr ⟨l, hl, by rw [habroad, hab]; rfl⟩
  have hlaunch : ((peerAborted s m d).launch? id.team.launch).isSome = true := by
    rw [State.launch?, List.find?_isSome]
    exact ⟨_, hlost, decide_eq_true hid.symm⟩
  rw [losePeerDie_eq]
  exact wakeParked_took himages hlaunch hteam hgroup.2 hgroup.1 hrun htrap
    (List.mem_map.mpr ⟨_, List.mem_filter.mpr ⟨hlost, rfl⟩, hid.symm⟩)

end

end

end Sys2Proof.Claims

open Sys2Proof Sys2Proof.Machine Sys2Proof.Claims

/-- Settles O55: each loss hands its launches to one rule, by which jobs go back and other launches are lost. -/
theorem losses : Obligations.Losses := by
  intro s d C X m c
  refine ⟨fun hd hfenced hgone => ⟨s.fenceDie d, exec_dieFence_here hd hfenced hgone, (fenceDie_counted s d).1, (fenceDie_counted s d).2,
      fun q hq => fenceDie_packets s d hq, fun r hr => fenceDie_replays s d hr, (fenceDie_recovered s d).afterLoss,
      fenceDie_mem_noCuts s d, fun m0 j hjournal hwf hj helsewhere => fenceDie_memoryBack s d hjournal hwf hj helsewhere⟩,
    exec_dieFence_stays, fun l p hwf hsize => ?_, fun hd => exec_dieFence_none s hd, ?_, fun hc henabled => ?_, fun hX hlost => ?_⟩
  · intro home hentry _
    exact ⟨(journalPlace_spec hsize).1, remap_serves hsize l hwf hentry⟩
  · intro abroad hd
    refine ⟨s.losePeerDie m d, exec_dieFence_peer hd, fun q hq => losePeerDie_packets s m d hq, fun j hj => losePeerDie_wentBack hj,
      fun hcuts => ⟨losePeerDie_mem hcuts, fun l hl hl' hab => ⟨fun x hx _ hx' => losePeerDie_aborts hcuts hx (abroadPart_iff.mpr hx'),
        fun id hid => losePeerDie_woken hcuts hl (abroadPart_iff.mpr hl') hab hid⟩, fun l hl hl' => ?_⟩⟩
    exact losePeerDie_spares hcuts hl (Bool.eq_false_iff.mpr fun h => hl' (abroadPart_iff.mp h))
  · obtain ⟨hcount, hlog⟩ := coreGone_counts s C
    exact ⟨coreGone s C, exec_uncorrectable s hc henabled, hcount, hlog, coreGone_spared s C hc, coreGone_lost s C hc,
      (coreGone_recovered s C).afterLoss, fun l hl hhit hn t ht hlaunch => coreGone_offCore s C hl hhit hn ht hlaunch,
      fun m0 j hjournal hwf hj => coreGone_memoryBack s C hjournal hwf hj⟩
  · exact ⟨cellGone s X, exec_cellLinkFailure s X hX hlost, cellGone_lost s X, fun k x hx hk => cellGone_cores s X hx hk,
      (cellGone_recovered s X).afterLoss,
      fun m0 j hjournal hwf hj => coresLeft_memoryBack s (takes_cell X) hjournal hwf hj rfl⟩
end

section
/-! Instruction words (spec 06 R125, R126, R142, R143): decoding and encoding undo each other. -/

namespace Sys2Proof.Claims
open Sys2Proof.Machine Sys2Proof.Laws

/-- 06 R125-R127, R142: the decoder reads from an instruction's word that instruction; a step of the schedule has no word. -/
theorem decode_encode (i : Instr) : RoundTrip.Statement i := by
  cases i with
  | add => apply RoundTrip.add | sub => apply RoundTrip.sub | mul => apply RoundTrip.mul | mulhi => apply RoundTrip.mulhi
  | div => apply RoundTrip.div | and => apply RoundTrip.and | or => apply RoundTrip.or | xor => apply RoundTrip.xor
  | shl => apply RoundTrip.shl | shr => apply RoundTrip.shr | shra => apply RoundTrip.shra | slt => apply RoundTrip.slt
  | sel => apply RoundTrip.sel | setlo => apply RoundTrip.setlo | sethi => apply RoundTrip.sethi | bra => apply RoundTrip.bra
  | bz => apply RoundTrip.bz | bnz => apply RoundTrip.bnz | blt => apply RoundTrip.blt | bge => apply RoundTrip.bge
  | call => apply RoundTrip.call | callx => apply RoundTrip.callx | ret => apply RoundTrip.ret | jmpx => apply RoundTrip.jmpx
  | loop => apply RoundTrip.loop | sld8 => apply RoundTrip.sld8 | sld16 => apply RoundTrip.sld16 | sld32 => apply RoundTrip.sld32
  | sld64 => apply RoundTrip.sld64 | sst8 => apply RoundTrip.sst8 | sst16 => apply RoundTrip.sst16
  | sst32 => apply RoundTrip.sst32 | sst64 => apply RoundTrip.sst64 | sread => apply RoundTrip.sread
  | swrite => apply RoundTrip.swrite | icinv => apply RoundTrip.icinv | mode => apply RoundTrip.mode
  | moderd => apply RoundTrip.moderd | shape => apply RoundTrip.shape | shaperd => apply RoundTrip.shaperd
  | bararr => apply RoundTrip.bararr | barwait => apply RoundTrip.barwait | barsync => apply RoundTrip.barsync
  | rquota => apply RoundTrip.rquota | step => apply RoundTrip.step | vadd => apply RoundTrip.vadd | vsub => apply RoundTrip.vsub
  | vmul => apply RoundTrip.vmul | vfma => apply RoundTrip.vfma | vfms => apply RoundTrip.vfms | vfnma => apply RoundTrip.vfnma
  | vmin => apply RoundTrip.vmin | vmax => apply RoundTrip.vmax | vabs => apply RoundTrip.vabs | vneg => apply RoundTrip.vneg
  | vdiv => apply RoundTrip.vdiv | vsqrt => apply RoundTrip.vsqrt | vrcp => apply RoundTrip.vrcp | vrsq => apply RoundTrip.vrsq
  | vexp2 => apply RoundTrip.vexp2 | vlog2 => apply RoundTrip.vlog2 | vand => apply RoundTrip.vand | vor => apply RoundTrip.vor
  | vxor => apply RoundTrip.vxor | vnot => apply RoundTrip.vnot | vshl => apply RoundTrip.vshl | vshr => apply RoundTrip.vshr
  | vshra => apply RoundTrip.vshra | vrot => apply RoundTrip.vrot | vmulhi => apply RoundTrip.vmulhi
  | vsel => apply RoundTrip.vsel | vclz => apply RoundTrip.vclz | vpopc => apply RoundTrip.vpopc
  | vfloor => apply RoundTrip.vfloor | vceil => apply RoundTrip.vceil | vround => apply RoundTrip.vround
  | vtrunc => apply RoundTrip.vtrunc | vbcast => apply RoundTrip.vbcast | vperm => apply RoundTrip.vperm
  | vlrot => apply RoundTrip.vlrot | vscan => apply RoundTrip.vscan | vradd => apply RoundTrip.vradd
  | vrmin => apply RoundTrip.vrmin | vrmax => apply RoundTrip.vrmax | vmovs => apply RoundTrip.vmovs
  | vins => apply RoundTrip.vins | vcsign => apply RoundTrip.vcsign | vceq => apply RoundTrip.vceq | vcne => apply RoundTrip.vcne
  | vclt => apply RoundTrip.vclt | vcle => apply RoundTrip.vcle | vcgt => apply RoundTrip.vcgt | vcge => apply RoundTrip.vcge
  | vcuno => apply RoundTrip.vcuno | pand => apply RoundTrip.pand | por => apply RoundTrip.por | pxor => apply RoundTrip.pxor
  | pnot => apply RoundTrip.pnot | vif => apply RoundTrip.vif | velse => apply RoundTrip.velse | vendif => apply RoundTrip.vendif
  | vany => apply RoundTrip.vany | vall => apply RoundTrip.vall | cvtif => apply RoundTrip.cvtif | cvtfi => apply RoundTrip.cvtfi
  | cvtnf => apply RoundTrip.cvtnf | cvtfn => apply RoundTrip.cvtfn | cvtfh => apply RoundTrip.cvtfh
  | cvthf => apply RoundTrip.cvthf | cvtfb => apply RoundTrip.cvtfb | cvtbf => apply RoundTrip.cvtbf
  | pack16 => apply RoundTrip.pack16 | unpk16 => apply RoundTrip.unpk16 | pack8 => apply RoundTrip.pack8
  | unpk8 => apply RoundTrip.unpk8 | cvtn8 => apply RoundTrip.cvtn8 | cvtn6 => apply RoundTrip.cvtn6
  | cvtn4 => apply RoundTrip.cvtn4 | cvtnx => apply RoundTrip.cvtnx | vld8 => apply RoundTrip.vld8
  | vld16 => apply RoundTrip.vld16 | vld32 => apply RoundTrip.vld32 | vst8 => apply RoundTrip.vst8
  | vst16 => apply RoundTrip.vst16 | vst32 => apply RoundTrip.vst32 | vpref => apply RoundTrip.vpref
  | atadd => apply RoundTrip.atadd | atmin => apply RoundTrip.atmin | atmax => apply RoundTrip.atmax
  | atand => apply RoundTrip.atand | ator => apply RoundTrip.ator | atxor => apply RoundTrip.atxor
  | atxchg => apply RoundTrip.atxchg | atcas => apply RoundTrip.atcas | vatadd => apply RoundTrip.vatadd
  | vatmin => apply RoundTrip.vatmin | vatmax => apply RoundTrip.vatmax | vatxchg => apply RoundTrip.vatxchg
  | fence => apply RoundTrip.fence | vatand => apply RoundTrip.vatand | vator => apply RoundTrip.vator
  | cst => apply RoundTrip.cst | catom => apply RoundTrip.catom | ccopy => apply RoundTrip.ccopy | cjoin => apply RoundTrip.cjoin
  | cdrain => apply RoundTrip.cdrain | mma => apply RoundTrip.mma | mzero => apply RoundTrip.mzero
  | mxread => apply RoundTrip.mxread | mstore => apply RoundTrip.mstore | mfence => apply RoundTrip.mfence
  | mbarwait => apply RoundTrip.mbarwait | mbararr => apply RoundTrip.mbararr | mfmt => apply RoundTrip.mfmt
  | mmap => apply RoundTrip.mmap | mbra => apply RoundTrip.mbra | mloop => apply RoundTrip.mloop | mend => apply RoundTrip.mend
  | nacc => apply RoundTrip.nacc | neval => apply RoundTrip.neval | nrescale => apply RoundTrip.nrescale
  | nmerge => apply RoundTrip.nmerge | nfin => apply RoundTrip.nfin | nclear => apply RoundTrip.nclear
  | nsave => apply RoundTrip.nsave | nload => apply RoundTrip.nload | ntable => apply RoundTrip.ntable
  | nselect => apply RoundTrip.nselect | copy => apply RoundTrip.copy | fgraph => apply RoundTrip.fgraph
  | waita => apply RoundTrip.waita | lwake => apply RoundTrip.lwake | mhint => apply RoundTrip.mhint
  | mwait => apply RoundTrip.mwait | trap => apply RoundTrip.trap | tret => apply RoundTrip.tret | brk => apply RoundTrip.brk
  | nop => apply RoundTrip.nop | exit => apply RoundTrip.exit | faultrd => apply RoundTrip.faultrd
  | _ => exact RoundTrip.no_word rfl

/-! A word is the join of its fields. -/

/-- Two fields that meet are one field. -/
theorem fld_join (w : W32) {hi lo k n : Nat} (h : hi = lo + n) : fld w hi k ++ fld w lo n = fld w lo (k + n) := by
  rw [fld, fld, BitVec.extractLsb'_append_extractLsb'_eq_extractLsb' h, fld]

/-- A field whose bits a mask covers is zero where the word has none of the mask's bits. -/
theorem fld_zero {w mask : W32} (hm : w &&& mask = 0) {lo n : Nat} (hseg : fld mask lo n = BitVec.allOnes n) :
    fld w lo n = 0 := by
  have h : fld (w &&& mask) lo n = fld w lo n &&& fld mask lo n := BitVec.extractLsb'_and
  rw [hseg, hm, BitVec.and_allOnes] at h
  rw [← h]
  simp [fld]

/-- A reserved field that is zero joins like any other. -/
theorem fld_join_zero {w mask : W32} (hm : w &&& mask = 0) {hi k n : Nat} (hn : n ≤ hi)
    (hseg : fld mask (hi - n) n = BitVec.allOnes n) : fld w hi k ++ 0#n = fld w (hi - n) (k + n) := by
  rw [← fld_join w (Nat.sub_add_cancel hn).symm, fld_zero hm hseg]
  rfl

theorem fld_whole (w : W32) : fld w 0 32 = w := by simp [fld]

/-- What is read from the word `w` has `w` as its word. -/
def Restores (w : W32) (d : Decoded) : Prop := ∀ i, d = .ok i → encode i = some w

theorem restores_unassigned (w : W32) : Restores w .unassigned := fun _ h => nomatch h

/-- An arm of a row: the opcode and the reserved bits are at hand when the fields are joined. -/
theorem restores_arm {w mask x : W32} {op : Nat} {i : Instr} {rest : Decoded} (he : encode i = some x)
    (hrest : Restores w rest) (h : opcodeOf w = BitVec.ofNat 8 op → w &&& mask = 0 → x = w) :
    Restores w (if opcodeOf w = BitVec.ofNat 8 op then checked w mask i else rest) := by
  split
  · next ho =>
    intro j hj
    unfold checked at hj
    split at hj
    · next hm =>
      cases hj
      rw [he, h ho hm]
    · cases hj
  · exact hrest

theorem restores_ite {w : W32} {p : Prop} [Decidable p] {x y : Decoded} (hy : Restores w y) (hx : Restores w x) :
    Restores w (if p then x else y) := by
  split
  · exact hx
  · exact hy

/-- NACC reserves its second source when K is 0 (11 R236). -/
theorem restores_nacc {w : W32} {rest : Decoded} (hrest : Restores w rest) :
    Restores w (if opcodeOf w = 0xD0#8 then checked w (if w.getLsbD 18 then 0xF80000 else 0xF800FF)
      (.nacc (fld w 18 1) (fld w 16 2) (fld w 8 8) (fld w 0 8)) else rest) := by
  refine restores_arm rfl hrest fun ho hm => ?_
  have hzero : fld (if w.getLsbD 18 then 0xF80000 else 0xF800FF : W32) (24 - 5) 5 = BitVec.allOnes 5 := by split <;> rfl
  rw [← ho, opcodeOf, fld_join_zero hm (by decide) hzero]
  simp (disch := decide) only [fld_join]
  exact fld_whole w

theorem restores_decode (w : W32) : Restores w (decode w) := by
  dsimp only [decode]
  repeat refine restores_ite ?_ ?_
  · exact restores_unassigned w
  all_goals
    dsimp only [decodeRow0, decodeRow1, decodeRow2, decodeRow3, decodeRow4, decodeRow5, decodeRow6, decodeRow7, decodeRow8,
      decodeRow9, decodeRowA, decodeRowB, decodeRowC, decodeRowD, decodeRowE, decodeRowF]
    repeat first | refine restores_nacc ?_ | refine restores_arm rfl ?_ fun ho hm => ?_
    · exact restores_unassigned w
    all_goals
      simp (disch := decide) only [← ho, opcodeOf, fld_join, fld_join_zero hm]
      exact fld_whole w

end Sys2Proof.Claims

open Sys2Proof Sys2Proof.Machine Sys2Proof.Claims

/-- Settles O34: an instruction that is no step of the schedule has a word, which decodes to it. -/
theorem decodeOfEncode : Obligations.DecodeOfEncode := by
  intro i hwf hevent
  obtain ⟨w, hw⟩ := Option.isSome_iff_exists.mp (Option.isNone_eq_false_iff.mp hevent)
  exact ⟨w, hw, decode_encode i w hwf hw⟩

/-- Settles O35: an arm of the decoder at a time, its fields and its reserved bits joined. -/
theorem encodeOfDecode : Obligations.EncodeOfDecode := restores_decode

/-- Settles O33, by decoding the words. -/
theorem decodeWords : Obligations.DecodeWords := by
  unfold Obligations.DecodeWords
  decide +kernel
end

section
/-! System registers, MODE, SHAPE and STEP (spec 07 R151-R157, R161; 06 R138). -/

namespace Sys2Proof.Claims
open Sys2Proof.Machine

/-- An instruction of an opcode below 0x34 issues inside a trap handler too (13 R266). -/
theorem issue_lowRow {s : State} {c : Ctx} {i : Instr} {w : W32} {op : BitVec 8} (needs : List Need) (body : Ctx → Res)
    (hi : Issuing s c) (he : encode i = some w) (hop : opcodeOf w = op) (hrow : op.toNat < 0x34) (hm : ∀ n ∈ needs, n.met c = true) :
    issue i s needs body = body c :=
  issue_go i s needs body c hi.1 hi.2 (fun _ => trapLegal_of_opcode he hop (.inl hrow)) hm

/-- CHSTAT holds RESYNCS above LOST above the sixteen bits of BUSY (05 R121). -/
theorem chstat_fields (s : State) (t : Team) :
    (s.chstat t).toNat / 2 ^ 32 = t.resyncs.toNat ∧ (s.chstat t).toNat / 2 ^ 16 % 2 ^ 16 = t.lost.toNat := by
  obtain ⟨busy, hbusy, hword⟩ : ∃ busy < 2 ^ 16, s.chstat t =
      BitVec.ofNat 64 (t.resyncs.toNat * 2 ^ 32 + t.lost.toNat * 2 ^ 16 + busy) := by
    refine ⟨_, (halfMask_testBit (fun ch => !(s.unackedOn t.id ch).isEmpty) 16 0).1, ?_⟩
    simp only [State.chstat, Bool.not_eq_true', ← Bool.not_eq_true, ite_not]
  have hresyncs := t.resyncs.isLt
  have hlost := t.lost.isLt
  rw [hword, BitVec.toNat_ofNat]
  omega

/-- What SREAD gives (07 R151-R155, 04 R109, 05 R121, 01 R24). -/
theorem sysReg_value {s : State} {c : Ctx} (hi : Issuing s c) (y : BitVec 8) : systemValue s c y (c.sysReg y.toNat) := by
  have hplace : c.team.place = .resident c.core := (s.ctx?_spec c.id c hi.2).2.2.2.2.2
  have hs := hi.state
  refine ⟨?_, ?_, ?_, ?_, ?_, ?_, ?_, ?_, ?_, ?_, ?_, ?_⟩ <;> rintro rfl
  · rw [← hs]; rfl
  · show c.s.vtime c.team = _
    rw [State.vtime, hplace, hs]
  · rw [← hs]; rfl
  · show c.s.gtstat.word = _
    rw [GtStat.word, hs]
    cases s.gtstat.slewing <;> cases s.gtstat.locked <;> rfl
  · exact chstat_fields c.s c.team
  · rw [← hs]; rfl
  · rw [← hs]; rfl
  · rw [← hs]; rfl
  · rfl
  · intro hnone
    show patchIdOf c.s.patchImage? = 0
    rw [hs, hnone]
    rfl
  · rfl
  · rfl

section
variable {s : State} {c : Ctx} (hi : Issuing s c)
include hi

theorem exec_sread {d y : BitVec 8} (hd : dstS c d = true) (hy : y.toNat < 0x0C) (hacc : y = 0x02 → mayAccess s c) :
    exec (.sread d y) s = c.finishS d (c.sysReg y.toNat) := by
  refine issue_lowRow _ _ hi rfl (Laws.RoundTrip.partsf8f8z8 _ 0x28 d y rfl).2.1 (by decide) (List.forall_mem_append.mpr ⟨?_, ?_⟩)
  · simp only [List.forall_mem_cons, List.not_mem_nil, IsEmpty.forall_iff, implies_true, and_true]
    exact ⟨met_dstS hd 0, met_field (decide_eq_true hy) 1⟩
  · split
    · next h => simpa using met_access hi.state (hacc h)
    · simp

theorem exec_swrite {a : BitVec 8} (ha : srcS c a = true) : exec (.swrite 0x0A a) s =
    .next (c.put { c.group with vtcmp := c.readS a }.advance) := by
  refine issue_lowRow _ _ hi rfl (Laws.RoundTrip.partsz8f8f8 _ 0x29 0x0A a rfl).2.1 (by decide) ?_
  simp only [List.forall_mem_cons, List.not_mem_nil, IsEmpty.forall_iff, implies_true, and_true]
  exact ⟨met_field rfl 1, met_srcS ha 2 .epb⟩

theorem exec_mode {m : BitVec 24} (hm : modeLegal m = true) : exec (.mode m) s = .next (c.put { c.group with mode := m }.advance) :=
  issue_lowRow _ _ hi rfl (Laws.RoundTrip.partsf24 _ 0x30 m rfl).2.1 (by decide) (by simpa using met_field hm 10)

theorem exec_moderd {d : BitVec 8} (hd : dstS c d = true) : exec (.moderd d) s = c.finishS d (c.group.mode.zeroExtend 64) :=
  issue_lowRow _ _ hi rfl (Laws.RoundTrip.partsf8z16 _ 0x31 d rfl).2.1 (by decide) (by simpa using met_dstS hd 0)

theorem exec_shaperd {d : BitVec 8} (hd : dstS c d = true) : exec (.shaperd d) s = c.finishS d (c.group.shape.zeroExtend 64) :=
  issue_lowRow _ _ hi rfl (Laws.RoundTrip.partsf8z16 _ 0x33 d rfl).2.1 (by decide) (by simpa using met_dstS hd 0)

theorem exec_shape {a : BitVec 8} (ha : srcS c a = true) (hnan : fp32.decode ((c.readS a).truncate 32 : W32).toNat ≠ .nan) :
    exec (.shape a) s = .next (c.put { c.group with shape := (c.readS a).truncate 32 }.advance) := by
  refine (issue_lowRow _ _ hi rfl (Laws.RoundTrip.partsz8f8z8 _ 0x32 a rfl).2.1 (by decide) (met_source ha)).trans ?_
  exact if_neg hnan

theorem exec_step (ho : outside c = true) : exec .step s = .next (c.put { c.group with
    stepcnt := c.group.stepcnt + 1
    due := if c.launch.stopReq && c.stepListed then some .stepHeld else c.group.due }.advance) :=
  issue_of_met _ [] _ hi ho fun _ hn => absurd hn List.not_mem_nil

/-- A group that only a change to `g` and its going on make differ. -/
theorem put_advance {g : Group} {R : Group → Group → Prop} (h : R c.group g.advance) : GroupOnly s c (.next (c.put g.advance)) R :=
  ⟨g.advance, h, by rw [Ctx.put, hi.state]⟩

end

/-- A STEP that a stop request acts on (07 R161; 22 R329). -/
theorem stepListed_iff (c : Ctx) : c.stepListed = true ↔ c.launch.krec.stepped = true ∧
    ∀ m, c.launch.fused = some m → ptrSeg c.group.pc = 0xFFFD → ptrOff c.group.pc ∈ m.steps := by
  unfold Ctx.stepListed
  cases c.launch.fused with
  | none => simp
  | some m => simp [← imp_iff_not_or]

/-- The count of a STEP and its going on, with whatever stop is due. -/
theorem step_counts (g : Group) (due : Option RunState) :
    let g1 := { g with stepcnt := g.stepcnt + 1, due := due }
    Passed { g with due := due } g1.advance ∧ StepCounted g g1.advance := by
  intro g1
  refine ⟨passed_congr (advance_passed g1) rfl rfl rfl rfl rfl rfl rfl, ?_⟩
  have hcount : BitVec.ofNat 64 (g.stepcnt.toNat + 1) = g.stepcnt + 1 := by simp [BitVec.ofNat_add]
  rw [StepCounted, hcount, advance_goneOn g1]
  rfl

end Sys2Proof.Claims

open Sys2Proof Sys2Proof.Machine Sys2Proof.Claims

/-- Settles O5, an instruction at a time. -/
theorem systemState : Obligations.SystemState := by
  intro s c d y a m hi
  refine ⟨fun hd hy hacc => ⟨_, sysReg_value hi y, ?_⟩, fun ha => ?_, fun hres hrnd hty hguard => ?_, fun hd => ?_, fun ha hnan => ?_,
    fun hd => ?_, fun ho => ⟨fun ⟨hstop, hlisted⟩ => ?_, fun hfree => ?_⟩⟩
  · rw [exec_sread hi hd hy hacc]
    exact finishS_scalar hi.state d _
  · rw [exec_swrite hi ha]
    exact put_advance hi ⟨passed_congr (advance_passed _) rfl rfl rfl rfl rfl rfl rfl, advance_goneOn _⟩
  · have hm : modeLegal m = true := by
      rw [modeLegal]
      cases hg : m.getLsbD 4
      · simp_all
      · simp_all
    rw [exec_mode hi hm]
    exact put_advance hi ⟨passed_congr (advance_passed _) rfl rfl rfl rfl rfl rfl rfl, advance_goneOn _⟩
  · rw [exec_moderd hi hd]
    exact finishS_scalar hi.state d _
  · rw [exec_shape hi ha hnan]
    exact put_advance hi ⟨passed_congr (advance_passed _) rfl rfl rfl rfl rfl rfl rfl, advance_goneOn _⟩
  · rw [exec_shaperd hi hd]
    exact finishS_scalar hi.state d _
  · rw [exec_step hi ho, hstop, (stepListed_iff c).mpr hlisted]
    exact put_advance hi (step_counts c.group _)
  · have hfalse : (c.launch.stopReq && c.stepListed) = false := by
      rw [Bool.and_eq_false_iff, ← Bool.not_eq_true c.stepListed, stepListed_iff, not_and]
      push Not
      rcases hfree with h | h | h
      · exact .inl h
      · exact .inr (fun h' => by simp [h] at h')
      · exact .inr fun _ => h
    rw [exec_step hi ho, hfalse]
    exact put_advance hi (step_counts c.group _)
end

section
/-! What operand codes read, and when they are empty (spec 06 R129, R131, R134, R136, R140, R141; 13 R266; 10 R224). -/

namespace Sys2Proof.Claims
open Sys2Proof.Machine

/-! The table of constants (06 R140) and the specials (06 R131). -/

theorem kVal_int {j : Nat} {v : Int} (h : tableInts[j]? = some v) : kVal j = .int v := by
  have hj : j < 38 := (List.getElem?_eq_some_iff.mp h).1
  have hsame : tableInts = kIntegers := by decide
  rw [kVal, if_pos hj, List.getD_eq_getElem?_getD, ← hsame, h]
  rfl

/-- The entries K38 to K62 have no integer value. -/
theorem kVal_fraction {j : Nat} (hlo : 38 ≤ j) (hhi : j < 63) : scalarConst j = none ∧ ∀ t, intConst t (kVal j) = none := by
  interval_cases j <;> exact ⟨rfl, fun _ => rfl⟩

/-- The FP32 column under RNE, which a finite entry has whether MODE saturates or not. -/
theorem fp32Column {j : Nat} {w : W32} (h : tableFp32[j]? = some w) (sat : Bool) : vectorConst .fp32 .rne sat (38 + j) = some w := by
  have hj : j < 22 := (List.getElem?_eq_some_iff.mp h).1
  have hcolumn : ∀ j < 22, ∀ sat, vectorConst .fp32 .rne sat (38 + j) = tableFp32[j]? := by decide +kernel
  rw [hcolumn j hj sat, h]

theorem vectorConst_ones (t : ElemType) (rnd : Rnd) (sat : Bool) : vectorConst t rnd sat 63 = some (BitVec.allOnes 32) := by
  have hk : kVal 63 = .ones := rfl
  simp only [vectorConst, hk, fpConst, intConst]
  cases t <;> decide +kernel

/-- When an integer entry has a sub-element of an integer type (06 R141). -/
theorem intConst_int (t : ElemType) (v : Int) :
    (t.minInt ≤ v → v ≤ t.maxInt → intConst t (.int v) = some (t.wrap v)) ∧
    (t.isSigned = false → v < 0 → -(2 ^ (t.width - 1)) ≤ v → intConst t (.int v) = some (t.wrap v)) ∧
    ((t.maxInt < v ∨ v < -(2 ^ (t.width - 1))) → intConst t (.int v) = none) := by
  have hmin : t.minInt = if t.isSigned then -(2 ^ (t.width - 1)) else 0 := rfl
  have hmax : -1 ≤ t.maxInt := by cases t <;> decide
  have hpos : (0 : Int) < 2 ^ (t.width - 1) := by positivity
  rw [intConst]
  refine ⟨fun hlo hhi => if_pos ⟨hlo, hhi⟩, fun hs hneg hlo => ?_, fun hout => ?_⟩
  · rw [hs, if_neg (by decide : ¬ (false = true))] at hmin
    rw [if_neg (by omega), hs, if_pos (by simp [hneg, hlo])]
  · have hrange : ¬ (t.minInt ≤ v ∧ v ≤ t.maxInt) := by
      split at hmin <;> omega
    have hneg : (!t.isSigned && decide (v < 0) && decide (-(2 ^ (t.width - 1)) ≤ v)) = false := by
      simp only [Bool.and_eq_false_iff, decide_eq_false_iff_not]
      omega
    rw [if_neg hrange, hneg]
    rfl

theorem special_eq {c : Ctx} {k v : Nat} (hlo : 0xF0 ≤ k) (h : (specials c)[k - 0xF0]? = some v) : k < 0xFC ∧ c.special k = v := by
  have hj : k - 0xF0 < 12 := (List.getElem?_eq_some_iff.mp h).1
  have hk : k < 0xFC := by omega
  exact ⟨hk, by interval_cases k <;> exact Option.some.inj h⟩

theorem special_budget (c : Ctx) : c.special 0xFE = c.team.budgetOf c.launch c.id.group := rfl

theorem code_toNat {k : Nat} (h : k < 256) : (BitVec.ofNat 8 k).toNat = k := by
  rw [BitVec.toNat_ofNat]
  omega

section
variable (c : Ctx) {k : Nat}

/-! Scalar codes. -/

theorem readS_slot {code : BitVec 8} {x : SSlot} (h : c.scalarSlot? code = some x) :
    c.readS code = x.val ∧ c.scalarEmpty code = x.pend.isSome := by
  simp [Ctx.readS, Ctx.scalarEmpty, Ctx.scalarPend, h]

theorem scalarSlot_reg {x : SSlot} (h : k < 0x80) (hx : c.group.sregs[k]? = some x) : c.scalarSlot? (BitVec.ofNat 8 k) = some x := by
  rw [Ctx.scalarSlot?, code_toNat (by omega), if_pos h, List.getD_eq_getElem?_getD, hx]
  rfl

theorem scalarSlot_queue {x : SSlot} (hlo : 0x80 ≤ k) (hhi : k < 0x90) (hx : c.group.scalarQueue[k - 0x80]? = some x) :
    c.scalarSlot? (BitVec.ofNat 8 k) = some x := by
  rw [Ctx.scalarSlot?, code_toNat (by omega), if_neg (by omega), if_pos hhi, List.getD_eq_getElem?_getD, hx]
  rfl

theorem scalarSlot_none (hlo : 0x90 ≤ k) (hhi : k < 256) : c.scalarSlot? (BitVec.ofNat 8 k) = none := by
  rw [Ctx.scalarSlot?, code_toNat hhi, if_neg (by omega), if_neg (by omega)]

theorem isConst_code (h : k < 256) : isConst (BitVec.ofNat 8 k) = decide (0x90 ≤ k ∧ k < 0xD0) := by
  rw [isConst, code_toNat h, Bool.decide_and]

theorem scalar_const (hlo : 0x90 ≤ k) (hhi : k < 0xD0) : c.readS (BitVec.ofNat 8 k) = (scalarConst (k - 0x90)).getD 0 ∧
    srcS c (BitVec.ofNat 8 k) = (scalarConst (k - 0x90)).isSome := by
  have hcode : (BitVec.ofNat 8 k).toNat = k := code_toNat (by omega)
  simp [Ctx.readS, srcS, Ctx.scalarEmpty, Ctx.scalarPend, scalarSlot_none c hlo (by omega), isConst_code (by omega : k < 256),
    scalarSrcLegal, hcode, hlo, hhi]

theorem scalar_special (hlo : 0xD0 ≤ k) (hhi : k < 256) : c.readS (BitVec.ofNat 8 k) = BitVec.ofNat 64 (c.special k) ∧
    srcS c (BitVec.ofNat 8 k) = decide ((0xF0 ≤ k ∧ k ≠ 0xF1) ∧ k < 0xFC ∨ k = 0xFE) := by
  have hcode : (BitVec.ofNat 8 k).toNat = k := code_toNat hhi
  simp [Ctx.readS, srcS, Ctx.scalarEmpty, Ctx.scalarPend, scalarSlot_none c (by omega : 0x90 ≤ k) hhi, isConst_code hhi,
    scalarSrcLegal, hcode, Nat.not_lt.mpr hlo]

/-! Vector codes. -/

theorem replicate_at (w : W32) {l : Nat} (hl : l < 128) : Lanes.at (List.replicate numLanes w) l = w := by
  rw [Lanes.at, List.getD_eq_getElem?_getD, List.getElem?_replicate, if_pos (show l < numLanes from hl)]
  rfl

theorem vectorSlot_reg {x : VSlot} (h : k < 0x80) (hx : c.group.vregs[k]? = some x) : c.vectorSlot? (BitVec.ofNat 8 k) = some x := by
  rw [Ctx.vectorSlot?, code_toNat (by omega), if_pos h, List.getD_eq_getElem?_getD, hx]
  rfl

theorem vectorSlot_queue {x : VSlot} (hlo : 0x80 ≤ k) (hhi : k < 0x90) (hx : c.group.vqueue[k - 0x80]? = some x) :
    c.vectorSlot? (BitVec.ofNat 8 k) = some x := by
  rw [Ctx.vectorSlot?, code_toNat (by omega), if_neg (by omega), if_pos hhi, List.getD_eq_getElem?_getD, hx]
  rfl

theorem vectorSlot_none (hlo : 0x90 ≤ k) (hhi : k < 256) : c.vectorSlot? (BitVec.ofNat 8 k) = none := by
  rw [Ctx.vectorSlot?, code_toNat hhi, if_neg (by omega), if_neg (by omega)]

theorem vectorEmpty_slot {x : VSlot} (h : k < 0x90) (hx : c.vectorSlot? (BitVec.ofNat 8 k) = some x) :
    c.vectorEmpty (BitVec.ofNat 8 k) = x.pend.isSome := by
  rw [Ctx.vectorEmpty, Ctx.vectorPend, code_toNat (by omega), if_neg (by omega), hx]
  rfl

/-- No constant and no special is ever empty. -/
theorem vectorEmpty_none (hlo : 0x90 ≤ k) (hhi : k < 256) (hb : k < 0xD0 ∨ 0xF0 ≤ k) : c.vectorEmpty (BitVec.ofNat 8 k) = false := by
  rw [Ctx.vectorEmpty, Ctx.vectorPend, code_toNat hhi, if_neg (by omega), vectorSlot_none c hlo hhi]
  rfl

theorem tooEarly_high (hlo : 0x80 ≤ k) (hhi : k < 256) : c.tooEarly (BitVec.ofNat 8 k) = false := by
  rw [Ctx.tooEarly, code_toNat hhi, decide_eq_false (by omega), Bool.false_and]

theorem vectorSrcLegal_code (h : k < 256) :
    c.vectorSrcLegal (BitVec.ofNat 8 k) = if k < 0x80 then decide (k < c.budget) else decide (k ≠ 0xFF) := by
  rw [Ctx.vectorSrcLegal, code_toNat h]

section
variable {l : Nat} (hl : l < 128)
include hl

theorem readV_slot {x : VSlot} (h : k < 256) (hx : c.vectorSlot? (BitVec.ofNat 8 k) = some x) : (c.readV (BitVec.ofNat 8 k)).at l =
    if c.tooEarly (BitVec.ofNat 8 k) then Config.undefElem c.s.free (128 * k + l) else x.val.at l := by
  simp only [Ctx.readV, Ctx.readVT, hx, code_toNat h]
  split
  · exact at_tab _ hl
  · rfl

theorem vector_const (hlo : 0x90 ≤ k) (hhi : k < 0xD0) :
    (c.readV (BitVec.ofNat 8 k)).at l = (vectorConst c.ty c.rnd c.sat (k - 0x90)).getD 0 ∧
      srcV c (BitVec.ofNat 8 k) = (vectorConst c.ty c.rnd c.sat (k - 0x90)).isSome := by
  have hk : k < 256 := by omega
  have hconst : isConst (BitVec.ofNat 8 k) = true := by rw [isConst_code hk, decide_eq_true ⟨hlo, hhi⟩]
  refine ⟨?_, ?_⟩
  · simp only [Ctx.readV, Ctx.readVT, vectorSlot_none c hlo hk, hconst, if_true, code_toNat hk]
    exact replicate_at _ hl
  · rw [srcV, srcVT, vectorSrcLegal_code c hk, if_neg (by omega), vectorEmpty_none c hlo hk (.inl hhi), hconst, code_toNat hk,
      decide_eq_true (by omega)]
    rfl

/-- A broadcast follows its scalar register (06 R136). -/
theorem vector_broadcast {x : SSlot} (hlo : 0xD0 ≤ k) (hhi : k < 0xF0) (hx : c.group.sregs[k - 0xD0]? = some x) :
    (c.readV (BitVec.ofNat 8 k)).at l = x.val.truncate 32 ∧ c.vectorEmpty (BitVec.ofNat 8 k) = x.pend.isSome := by
  have hk : k < 256 := by omega
  have hconst : isConst (BitVec.ofNat 8 k) = false := by rw [isConst_code hk, decide_eq_false (by omega)]
  refine ⟨?_, ?_⟩
  · simp only [Ctx.readV, Ctx.readVT, vectorSlot_none c (by omega : 0x90 ≤ k) hk, hconst, code_toNat hk, hhi, Bool.false_eq_true,
      if_false, if_true]
    rw [replicate_at _ hl]
    simp [hx]
  · rw [Ctx.vectorEmpty, Ctx.vectorPend, code_toNat hk, if_pos ⟨hlo, hhi⟩]
    simp [hx]

/-- What the specials read in a lane (06 R131). -/
theorem vector_special (hlo : 0xF0 ≤ k) (hhi : k < 256) : (c.readV (BitVec.ofNat 8 k)).at l =
    (if k = 0xF1 then BitVec.ofNat 32 l else if k = 0xFC then (c.group.preds.getD l 0).zeroExtend 32
    else if k = 0xFD then (c.group.nest.getD l 0).zeroExtend 32 else BitVec.ofNat 32 (c.special k)) ∧
    srcV c (BitVec.ofNat 8 k) = decide (k ≠ 0xFF) := by
  have hconst : isConst (BitVec.ofNat 8 k) = false := by rw [isConst_code hhi, decide_eq_false (by omega)]
  have hcode (x : BitVec 8) : BitVec.ofNat 8 k = x ↔ k = x.toNat := by rw [BitVec.toNat_eq, code_toNat hhi]
  refine ⟨?_, ?_⟩
  · simp only [Ctx.readV, Ctx.readVT, vectorSlot_none c (by omega : 0x90 ≤ k) hhi, hconst, code_toNat hhi, Nat.not_lt.mpr hlo,
      Bool.false_eq_true, if_false, hcode, BitVec.reduceToNat]
    split_ifs
    · exact at_tab _ hl
    · exact at_tab _ hl
    · exact at_tab _ hl
    · exact replicate_at _ hl
  · rw [srcV, srcVT, vectorSrcLegal_code c hhi, if_neg (by omega), vectorEmpty_none c (by omega) hhi (.inr hlo), hconst]
    simp

end

end

end Sys2Proof.Claims

open Sys2Proof Sys2Proof.Machine Sys2Proof.Claims

/-- Settles O31, by what the code names: a register, a queue entry, a constant, a broadcast or a special. -/
theorem operandValues : Obligations.OperandValues := by
  refine ⟨fun c k => ?_, fun c k l hl => ?_⟩
  · intro code queue
    refine ⟨fun x hk hx => readS_slot c (scalarSlot_reg c hk hx), fun x hlo hhi hx => readS_slot c (scalarSlot_queue c hlo hhi hx),
      fun v hlo hv => ?_, fun hk => ?_, fun hlo hhi => ?_, fun v hlo hne hv => ?_, fun hk => ?_, fun hk => ?_⟩
    · have hj : k - 0x90 < 38 := (List.getElem?_eq_some_iff.mp hv).1
      obtain ⟨hread, hsrc⟩ := scalar_const c (k := k) (by omega) (by omega)
      rw [hread, hsrc, scalarConst, kVal_int hv]
      exact ⟨rfl, rfl⟩
    · obtain ⟨hread, hsrc⟩ := scalar_const c (k := k) (by omega) (by omega)
      rw [hread, hsrc, hk]
      exact ⟨rfl, rfl⟩
    · rw [(scalar_const c (by omega) (by omega)).2, (kVal_fraction (by omega) (by omega)).1]
      rfl
    · obtain ⟨hk, hspecial⟩ := special_eq hlo hv
      obtain ⟨hread, hsrc⟩ := scalar_special c (k := k) (by omega) (by omega)
      rw [hread, hsrc, hspecial]
      exact ⟨rfl, decide_eq_true (.inl ⟨⟨hlo, hne⟩, hk⟩)⟩
    · obtain ⟨hread, hsrc⟩ := scalar_special c (k := k) (by omega) (by omega)
      rw [hread, hsrc, hk, special_budget]
      exact ⟨rfl, rfl⟩
    · rw [(scalar_special c (by omega) (by omega)).2]
      exact decide_eq_false (by omega)
  · intro code val
    refine ⟨fun x hk hx => ?_, fun x hlo hhi hx => ?_, fun v hlo hv => ?_, fun v hlo hv hty hrnd => ?_, fun hlo hhi hty => ?_,
      fun f hf => ⟨fun hk => ?_, fun hk => ?_, fun hk => ?_⟩, fun hk => ?_, fun x hlo hhi hx => vector_broadcast c hl hlo hhi hx,
      fun hk => ?_, fun v hlo hne hv => ?_, fun hk => ?_, fun hk => ?_, fun hk => ?_, fun hk hbudget => ?_, fun hk => ?_⟩
    · have hslot := vectorSlot_reg c hk hx
      have hread : val = _ := readV_slot c hl (by omega) hslot
      exact ⟨fun he => by rw [hread, he]; rfl, fun he => by rw [hread, he]; rfl, vectorEmpty_slot c (by omega) hslot⟩
    · have hslot := vectorSlot_queue c hlo hhi hx
      have hread := readV_slot c hl (by omega) hslot
      rw [tooEarly_high c hlo (by omega)] at hread
      exact ⟨hread, vectorEmpty_slot c hhi hslot⟩
    · have hj : k - 0x90 < 38 := (List.getElem?_eq_some_iff.mp hv).1
      obtain ⟨hread, hsrc⟩ := vector_const c hl hlo (by omega)
      obtain ⟨hin, hneg, hout⟩ := intConst_int c.ty v
      rw [vectorConst, kVal_int hv] at hread hsrc
      refine ⟨fun f hf => ?_, fun hf hmin hmax => ?_, fun hf hs hlt hle => ?_, fun hf ho => ?_⟩
      · rw [hf] at hread hsrc
        exact ⟨hread, hsrc⟩
      · rw [hf, hin hmin hmax] at hread hsrc
        exact ⟨hread, hsrc⟩
      · rw [hf, hneg hs hlt hle] at hread hsrc
        exact ⟨hread, hsrc⟩
      · rw [hf, hout ho] at hsrc
        exact hsrc
    · have hj : k - 0xB6 < 22 := (List.getElem?_eq_some_iff.mp hv).1
      obtain ⟨hread, hsrc⟩ := vector_const c hl (k := k) (by omega) (by omega)
      have hcolumn := fp32Column hv c.sat
      rw [show 38 + (k - 0xB6) = k - 0x90 by omega] at hcolumn
      rw [hty, hrnd, hcolumn] at hread hsrc
      exact ⟨hread, hsrc⟩
    · rw [(vector_const c hl (by omega) (by omega)).2, vectorConst, hty, (kVal_fraction (by omega) (by omega)).2]
      rfl
    · rw [show val = _ from (vector_const c hl (by omega) (by omega)).1, vectorConst, hf, hk]
      rfl
    · rw [show val = _ from (vector_const c hl (by omega) (by omega)).1, vectorConst, hf, hk]
      rfl
    · rw [show val = _ from (vector_const c hl (by omega) (by omega)).1, vectorConst, hf, hk]
      rfl
    · obtain ⟨hread, hsrc⟩ := vector_const c hl (k := k) (by omega) (by omega)
      rw [show k - 0x90 = 63 by omega, vectorConst_ones] at hread hsrc
      exact ⟨hread, hsrc⟩
    · obtain ⟨hread, hsrc⟩ := vector_special c hl (k := k) (by omega) (by omega)
      rw [if_pos hk] at hread
      exact ⟨hread, hsrc.trans (decide_eq_true (by omega))⟩
    · obtain ⟨hk, hspecial⟩ := special_eq hlo hv
      obtain ⟨hread, hsrc⟩ := vector_special c hl hlo (by omega)
      rw [if_neg hne, if_neg (by omega), if_neg (by omega), hspecial] at hread
      exact ⟨hread, hsrc.trans (decide_eq_true (by omega))⟩
    · obtain ⟨hread, hsrc⟩ := vector_special c hl (k := k) (by omega) (by omega)
      rw [if_neg (by omega), if_pos hk] at hread
      exact ⟨hread, hsrc.trans (decide_eq_true (by omega))⟩
    · obtain ⟨hread, hsrc⟩ := vector_special c hl (k := k) (by omega) (by omega)
      rw [if_neg (by omega), if_neg (by omega), if_pos hk] at hread
      exact ⟨hread, hsrc.trans (decide_eq_true (by omega))⟩
    · obtain ⟨hread, hsrc⟩ := vector_special c hl (k := k) (by omega) (by omega)
      rw [if_neg (by omega), if_neg (by omega), if_neg (by omega), show c.special k = _ from hk ▸ special_budget c] at hread
      exact ⟨hread, hsrc.trans (decide_eq_true (by omega))⟩
    · rw [srcV, srcVT, vectorSrcLegal_code c (by omega), if_pos hk, decide_eq_false (p := k < c.budget) (Nat.not_lt.mpr hbudget)]
      rfl
    · rw [(vector_special c hl (by omega) (by omega)).2]
      exact decide_eq_false (not_not.mpr hk)
end

section
/-! The monotone check of a user pair, and the status of NTABLE (spec 11 R235). -/

namespace Sys2Proof.Claims
open Sys2Proof.Machine

/-- The slope at the point of extreme slope, over the common denominator 3·c3. -/
theorem slope_extreme (sg c1 c2 c3 : ℚ) (h3 : c3 ≠ 0) :
    sg * (c1 + 2 * c2 * (-c2 / (3 * c3)) + 3 * c3 * (-c2 / (3 * c3)) ^ 2) = sg * (3 * c3 * c1 - c2 * c2) / (3 * c3) := by
  field_simp
  ring

/-- Where the point of extreme slope lies inside, in integers. -/
theorem extreme_inside (c2 c3 : Int) (h3 : c3 ≠ 0) : (0 < -(c2 : ℚ) / (3 * c3) ∧ -(c2 : ℚ) / (3 * c3) < 1) ↔
    (0 < c3 ∧ 0 < -c2 ∧ -c2 < 3 * c3) ∨ (c3 < 0 ∧ -c2 < 0 ∧ 3 * c3 < -c2) := by
  rcases lt_or_gt_of_ne h3 with hneg | hpos
  · have h : (3 * (c3 : ℚ)) < 0 := by exact_mod_cast (by omega : 3 * c3 < 0)
    rw [div_pos_iff, div_lt_one_of_neg h]
    simp only [h, h.not_gt, and_true, and_false, false_or]
    norm_cast
    omega
  · have h : 0 < (3 * (c3 : ℚ)) := by exact_mod_cast (by omega : 0 < 3 * c3)
    rw [div_pos_iff_of_pos_right h, div_lt_one h]
    norm_cast
    omega

/-- The sign of a slope at its extreme point, in integers. -/
theorem extreme_nonneg (sg c1 c2 c3 : Int) (h3 : c3 ≠ 0) :
    0 ≤ (sg : ℚ) * (c1 + 2 * c2 * (-c2 / (3 * c3)) + 3 * c3 * (-c2 / (3 * c3)) ^ 2) ↔
      0 ≤ sg * (3 * c3 * c1 - c2 * c2) * (if c3 > 0 then 1 else -1) := by
  rw [slope_extreme _ _ _ _ (Int.cast_ne_zero.mpr h3)]
  rcases lt_or_gt_of_ne h3 with hneg | hpos
  · have h : (3 * (c3 : ℚ)) < 0 := by exact_mod_cast (by omega : 3 * c3 < 0)
    rw [if_neg (by omega), div_nonneg_iff]
    simp only [h.le, h.not_ge, and_true, and_false, false_or]
    norm_cast
    omega
  · have h : 0 < (3 * (c3 : ℚ)) := by exact_mod_cast (by omega : 0 < 3 * c3)
    rw [if_pos hpos, div_nonneg_iff]
    simp only [h.le, h.not_ge, and_true, and_false, or_false]
    norm_cast
    omega

/-- The check of a segment's slope is exact. -/
theorem slopeOk_iff (sg c1 c2 c3 : Int) : slopeOk sg c1 c2 c3 = true ↔
    0 ≤ (sg : ℚ) * (c1 + 2 * c2 * 0 + 3 * c3 * 0 ^ 2) ∧ 0 ≤ (sg : ℚ) * (c1 + 2 * c2 * 1 + 3 * c3 * 1 ^ 2) ∧
    ((c3 : ℚ) ≠ 0 → 0 < -(c2 : ℚ) / (3 * c3) → -(c2 : ℚ) / (3 * c3) < 1 →
      0 ≤ (sg : ℚ) * (c1 + 2 * c2 * (-(c2 : ℚ) / (3 * c3)) + 3 * c3 * (-(c2 : ℚ) / (3 * c3)) ^ 2)) := by
  have hstart : (sg : ℚ) * (c1 + 2 * c2 * 0 + 3 * c3 * 0 ^ 2) = ((sg * c1 : Int) : ℚ) := by push_cast; ring
  have hend : (sg : ℚ) * (c1 + 2 * c2 * 1 + 3 * c3 * 1 ^ 2) = ((sg * (c1 + 2 * c2 + 3 * c3) : Int) : ℚ) := by push_cast; ring
  rw [hstart, hend, Int.cast_nonneg_iff, Int.cast_nonneg_iff, Int.cast_ne_zero]
  by_cases h3 : c3 = 0
  · simp [slopeOk, h3]
  · simp only [ne_eq, h3, not_false_eq_true, forall_const]
    rw [← and_imp, extreme_inside c2 c3 h3, extreme_nonneg sg c1 c2 c3 h3]
    simp only [slopeOk, Bool.and_eq_true, Bool.or_eq_true, Bool.not_eq_true', ← Bool.not_eq_true, decide_eq_true_eq, gt_iff_lt,
      imp_iff_not_or, and_assoc]

/-- The monotone check on integers is the one on exact coefficients. -/
theorem monotoneIn_iff (sg : Int) (tab : List W32) : monotoneIn sg tab = true ↔ Monotone sg tab := by
  simp only [monotoneIn, Claims.Monotone, Bool.and_eq_true, List.all_eq_true, List.mem_range, decide_eq_true_eq, slopeOk_iff, and_assoc]
  norm_cast

theorem finitePat_iff (w : W32) : finitePat w = true ↔ ∃ neg m e, fp32.decode w.toNat = .fin neg m e := by
  unfold finitePat
  cases h : fp32.decode w.toNat <;> simp

/-- The status of NTABLE: 2 for a pair that is not finite or not ordered, 1 for one that is not monotone, else 0. -/
theorem tableStatus_status (u : UserPair) : PairStatus u (tableStatus u) := by
  unfold PairStatus
  intro finite sound
  have hsound : sound ↔ (!((u.entry ++ u.exit ++ [u.dlo, u.dhi, u.elo, u.ehi]).all finitePat) || fixed u.dlo ≥ fixed u.dhi ||
      fixed u.elo ≥ fixed u.ehi) = false := by
    simp only [Bool.or_eq_false_iff, Bool.not_eq_false', List.all_eq_true, finitePat_iff, decide_eq_false_iff_not, ge_iff_le, not_le,
      and_assoc]
    rfl
  have hmono : Claims.Monotone 1 u.entry ∨ Claims.Monotone (-1) u.entry ↔ (monotoneIn 1 u.entry || monotoneIn (-1) u.entry) = true := by
    rw [Bool.or_eq_true, monotoneIn_iff, monotoneIn_iff]
  rw [hsound, hmono, tableStatus]
  refine ⟨fun h => if_pos (eq_true_of_ne_false h), fun h hm => ?_, fun h hm => ?_⟩
  · rw [h, if_neg hm]
    rfl
  · rw [h, if_pos hm]
    rfl

end Sys2Proof.Claims
end

section
/-! Lanes of a Nectar state, families, and what a Nectar instruction leaves (spec 11 R226, R227, R232, R233). -/

namespace Sys2Proof.Claims
open Sys2Proof.Machine

/-! Lanes and their states. -/

theorem mapRange_getD {α : Type} (f : Nat → α) (x : α) {l : Nat} (hl : l < 128) : ((List.range numLanes).map f).getD l x = f l := by
  simp [List.getD_eq_getElem?_getD, numLanes, hl]

theorem laneMask_congr {f g : Nat → Bool} (h : ∀ l < 128, f l = g l) : laneMask f = laneMask g := by
  have hhalf (base : Nat) (hb : base + 64 ≤ 128) : (List.range 64).foldl (fun a l => if f (base + l) then a + 2 ^ l else a) 0 =
      (List.range 64).foldl (fun a l => if g (base + l) then a + 2 ^ l else a) 0 :=
    List.foldl_ext _ _ _ fun a l hl => by rw [h (base + l) (by have := List.mem_range.mp hl; omega)]
  simp only [laneMask, hhalf 0 (by decide), hhalf 64 (by decide)]

theorem xBits_xOf (w : W32) : xBits (xOf w) = w := by
  unfold xOf
  split
  · next h => exact h.symm
  · exact BitVec.ofInt_toInt

/-- A lane's state as its four registers hold it. -/
def kept (a : LaneN) : LaneN := ⟨xOf (xBits a.x), (BitVec.ofNat 32 a.s).toNat, (BitVec.ofNat 32 a.n).toNat, a.m⟩

theorem setLanes_lane (n : NState) (on : Nat → Bool) (f : Nat → LaneN) {l : Nat} (hl : l < 128) :
    (n.setLanes on f).lane l = if on l then kept (f l) else n.lane l := by
  simp only [NState.lane, NState.setLanes, at_tab _ hl]
  split <;> rfl

theorem cleared_lane {l : Nat} (hl : l < 128) : kept (NState.cleared.lane l) = ⟨none, 0, 0, 0x80000000⟩ := by
  have hzero : Lanes.zero.at l = 0 := replicate_at 0 hl
  simp only [NState.lane, NState.cleared, replicate_at _ hl, hzero]
  rfl

/-! Families (11 R232). -/

theorem family_of_admitted {c : Ctx} (h : admitted c) : c.family?.isSome = true := by
  unfold Ctx.family? familyOf
  rcases h with ⟨hf, hn⟩ | ⟨hf, neg, m, e, hd, hm⟩ | ⟨hf, hu⟩
  · rw [if_pos hf]
    cases hd : fp32.decode c.group.shape.toNat with
    | nan => exact absurd hd hn
    | inf neg => rfl
    | fin neg m e =>
      simp only
      split
      · rfl
      · split <;> rfl
  · rw [if_neg (by rw [hf]; decide), if_pos hf, hd]
    simp only [if_neg hm]
    rfl
  · rw [if_neg (by rw [hf]; decide), if_neg (by rw [hf]; decide), Option.isSome_map]
    exact hu

theorem family_ext (c : Ctx) : c.family?.bind Family.ext = extremum c := by
  unfold Ctx.family? familyOf extremum
  split
  · cases hd : fp32.decode c.group.shape.toNat with
    | nan => rfl
    | inf neg => rfl
    | fin neg m e =>
      simp only
      split
      · rfl
      · split <;> rfl
  · split
    · cases hd : fp32.decode c.group.shape.toNat with
      | nan => rfl
      | inf neg => rfl
      | fin neg m e =>
        simp only
        split <;> rfl
    · cases c.group.user <;> rfl

/-! Fields that are met. -/

theorem met_sampled {c : Ctx} {ok : Ctx → Bool} (h : ok c = true) : (Need.sampled ok).met c = true := by
  simp [Need.met, Need.illegal, Need.untyped, Need.empty?, Need.waits, h]

theorem met_rangeV {c : Ctx} {v : BitVec 7} {n : Nat} (h : rangeV c v n = true) (sub : BitVec 8) :
    (Need.rangeV sub v.toNat n).met c = true := by
  simp only [rangeV, Bool.and_eq_true, decide_eq_true_eq, Bool.not_eq_true', List.any_eq_false, Ctx.vectorEmpty, Bool.not_eq_true,
    Option.isSome_eq_false_iff, Option.isNone_iff_eq_none] at h
  obtain ⟨⟨hbudget, hlast⟩, hfull⟩ := h
  have hnone : ((List.range n).filterMap fun i => c.vectorPend (BitVec.ofNat 8 (v.toNat + i))) = [] :=
    List.filterMap_eq_nil_iff.mpr hfull
  simp [Need.met, Need.illegal, Need.untyped, Need.empty?, Need.waits, hbudget, hlast, hnone, emptyIf]

theorem mets_nil (c : Ctx) : ∀ n ∈ ([] : List Need), n.met c = true := fun _ hn => absurd hn List.not_mem_nil

theorem mets_cons {c : Ctx} {n : Need} {ns : List Need} (h : n.met c = true) (hs : ∀ x ∈ ns, x.met c = true) :
    ∀ x ∈ n :: ns, x.met c = true := List.forall_mem_cons.mpr ⟨h, hs⟩

/-! What an instruction leaves. -/

/-- The instruction `i` takes a domain fault that names NSn and the lanes in error (11 R233). -/
def DomainFault (s : State) (c : Ctx) (n : BitVec 2) (i : Instr) (bad : Nat → Bool) (r : Res) : Prop :=
  r = .next (s.deliver c.id (.domain n.toNat (wordOf i) (laneMask bad).1 (laneMask bad).2) false (wordOf i))

section
variable {s : State} {c : Ctx} (hi : Issuing s c)
include hi

/-- A group that only becomes `g`, the counter of the free values moved on. -/
theorem putFree_free {g : Group} {R : Group → Group → Prop} (h : R c.group g) : GroupFree s c (.next (c.putFree g)) R :=
  ⟨g, h, by rw [Ctx.putFree, Ctx.put, hi.state]⟩

/-- The lanes in error fault under MODE.DPOL = 0, and else nothing does (11 R233). -/
theorem check_domain (n : BitVec 2) (i : Instr) {f bad : Nat → Bool} (h : ∀ l < 128, f l = bad l) (k : Unit → Res) :
    ((modeDpol c.group.mode = true ∨ ∀ l < 128, bad l = false) → c.check i (c.domainCheck n i f) k = k ()) ∧
    (modeDpol c.group.mode = false → (∃ l < 128, bad l = true) →
      DomainFault s c n i bad (c.check i (c.domainCheck n i f) k)) := by
  have hany : (List.range numLanes).any f = true ↔ ∃ l < 128, bad l = true := by
    rw [any_lanes]
    exact exists_congr fun l => and_congr_right fun hl => by rw [h l hl]
  unfold Ctx.domainCheck
  refine ⟨fun hok => ?_, fun hdpol hbad => ?_⟩
  · have hnone : (!modeDpol c.group.mode && (List.range numLanes).any f) = false := by
      rw [Bool.and_eq_false_iff, Bool.not_eq_false', ← Bool.not_eq_true ((List.range numLanes).any f), hany]
      simpa using hok
    rw [hnone]
    rfl
  · rw [DomainFault, hdpol, hany.mpr hbad, laneMask_congr h, ← hi.state]
    rfl

end

/-- New Nectar states and the group's going on. -/
theorem withNs_goes (g : Group) (ns : List NState) :
    let g' := { g with ns := ns }.advance
    Passed g g' ∧ g' = { goneOn g g' with ns := g'.ns } ∧ g'.ns = ns := by
  intro g'
  have hgone : g' = goneOn { g with ns := ns } g' := advance_goneOn _
  refine ⟨passed_congr (advance_passed { g with ns := ns }) rfl rfl rfl rfl rfl rfl rfl, ?_, ?_⟩
  · rw [hgone]
    rfl
  · rw [hgone]
    rfl

/-- NSn takes a new state in the active lanes and the group goes on. -/
theorem setNs_written (c : Ctx) (n : BitVec 2) {f f' : Nat → LaneN} (h : ∀ l < 128, c.active l = true → f l = f' l) :
    let g' := (c.group.setNs n ((c.ns n).setLanes c.active f)).advance
    Passed c.group g' ∧ g' = { goneOn c.group g' with ns := g'.ns } ∧ NectarWritten c n f' g' := by
  obtain ⟨hpassed, honly, hns⟩ := withNs_goes c.group (c.group.ns.set n.toNat ((c.ns n).setLanes c.active f))
  refine ⟨hpassed, honly, (c.ns n).setLanes c.active f, hns, fun l hl => ?_⟩
  rw [setLanes_lane _ _ _ hl]
  split
  · next hact =>
    rw [h l hl hact]
    rfl
  · rfl

end Sys2Proof.Claims
end

section
/-! The Nectar instructions (spec 11 R227, R232, R233, R235-R238; 06 R135). -/

namespace Sys2Proof.Claims
open Sys2Proof.Machine

/-! NACC, NSELECT, NCLEAR, NLOAD and NMERGE (11 R227, R236-R238). -/

/-- NSj as NCLEAR leaves it. -/
def clearedNs (c : Ctx) (m : BitVec 4) (x : NState × Nat) : NState :=
  if m.getLsbD x.2 then x.1.setLanes c.active fun l => NState.cleared.lane l else x.1

/-- The terms of a lane: the sub-elements of A, then of B where K is 1 (11 R237). -/
def naccTerms (c : Ctx) (k : BitVec 1) (a b : BitVec 8) (l : Nat) : List Fp :=
  c.subVals ((c.readV a).at l) ++ if k = 1 then c.subVals ((c.readV b).at l) else []

/-- The lanes in which a term of NACC is a domain error. -/
def naccBad (c : Ctx) (k : BitVec 1) (n : BitVec 2) (a b : BitVec 8) (l : Nat) : Bool :=
  c.active l && ((laneOf c n l).terms c.fam (naccTerms c k a b l)).2

/-- What NACC finds in each lane: its state with the terms taken, and whether one of them is a domain error. -/
def naccLanes (c : Ctx) (k : BitVec 1) (n : BitVec 2) (a b : BitVec 8) : List (LaneN × Bool) := (List.range numLanes).map fun l =>
  if c.active l then (laneOf c n l).terms c.fam (naccTerms c k a b l) else (laneOf c n l, false)

section
variable {s : State} {c : Ctx} (hi : Issuing s c) (ho : outside c = true)
include hi ho

theorem exec_nselect {f : BitVec 2} (hf : f ≠ 3) (hu : f = 2 → c.group.user.isSome = true) :
    GroupOnly s c (exec (.nselect f) s) fun g g' => Passed g g' ∧ g' = { goneOn g g' with family := f } := by
  have hu' : (decide (f ≠ 2) || c.group.user.isSome) = true := by
    rw [Bool.or_eq_true, decide_eq_true_eq, ← imp_iff_not_or]
    exact hu
  show GroupOnly s c (execNselect f s) _
  rw [execNselect, issue_of_met _ _ _ hi ho (mets_cons (met_field (decide_eq_true hf) 0) (mets_cons (met_sampled hu') (mets_nil c)))]
  exact put_advance hi ⟨passed_congr (advance_passed _) rfl rfl rfl rfl rfl rfl rfl, advance_goneOn _⟩

theorem exec_nclear (m : BitVec 4) : GroupOnly s c (exec (.nclear m) s) fun g g' => Passed g g' ∧
    g' = { goneOn g g' with ns := g'.ns } ∧ g'.ns.length = g.ns.length ∧ ∀ j x, g.ns[j]? = some x → ∃ y, g'.ns[j]? = some y ∧
      (m.getLsbD j = false → y = x) ∧ (m.getLsbD j = true → ∀ l < 128, y.lane l =
        if c.active l then ⟨none, 0, 0, 0x80000000⟩ else x.lane l) := by
  show GroupOnly s c (execNclear m s) _
  rw [execNclear, issue_of_met _ _ _ hi ho (mets_nil c)]
  obtain ⟨hpassed, honly, hns⟩ := withNs_goes c.group (c.group.ns.zipIdx.map (clearedNs c m))
  refine put_advance hi ⟨hpassed, honly, ?_, fun j x hx => ⟨clearedNs c m (x, j), ?_, fun hbit => if_neg (by simp [hbit]),
    fun hbit l hl => ?_⟩⟩
  · exact (congrArg List.length hns).trans (by simp)
  · exact (congrArg (·[j]?) hns).trans (by simp [hx])
  · rw [show clearedNs c m (x, j) = _ from if_pos hbit, setLanes_lane _ _ _ hl, cleared_lane hl]

theorem exec_nload {n : BitVec 2} {v : BitVec 7} (hv : rangeV c v 4 = true) :
    Loads s c (exec (.nload n v) s) n fun l => recordAt c v l (regElem c (v.toNat + 3) l) := by
  show Loads s c (execNload n v s) n _
  rw [execNload, issue_of_met _ _ _ hi ho (mets_cons (met_rangeV hv 1) (mets_nil c))]
  exact putFree_free hi (setNs_written c n fun _ _ _ => rfl)

theorem exec_nmerge {n : BitVec 2} {v : BitVec 7} (hv : rangeV c v 3 = true) :
    Loads s c (exec (.nmerge n v) s) n fun l => (laneOf c n l).merge (extremum c) (recordAt c v l 0) := by
  show Loads s c (execNmerge n v s) n _
  rw [execNmerge, issue_of_met _ _ _ hi ho (mets_cons (met_rangeV hv 1) (mets_nil c))]
  exact putFree_free hi (setNs_written c n fun _ _ _ => by rw [family_ext]; rfl)

theorem exec_nacc {k : BitVec 1} {n : BitVec 2} {a b : BitVec 8} (ha : srcV c a = true) (hb : k = 1 → srcV c b = true)
    (hty : isF c.ty = true) (hfam : admitted c) :
    ((modeDpol c.group.mode = true ∨ ∀ l < 128, naccBad c k n a b l = false) → Accumulates s c (exec (.nacc k n a b) s) n
      fun l => ((laneOf c n l).terms c.fam (naccTerms c k a b l)).1) ∧
    (modeDpol c.group.mode = false → (∃ l < 128, naccBad c k n a b l = true) →
      DomainFault s c n (.nacc k n a b) (naccBad c k n a b) (exec (.nacc k n a b) s)) := by
  have hsecond : ∀ x ∈ (if k = 1 then [Need.srcV 2 .epb b] else []), x.met c = true := by
    split
    · next h => exact mets_cons (met_srcV (hb h) 2 .epb) (mets_nil c)
    · exact mets_nil c
  have hlane (l : Nat) (hl : l < 128) : (naccLanes c k n a b).getD l (⟨none, 0, 0, 0⟩, false) =
      if c.active l then (laneOf c n l).terms c.fam (naccTerms c k a b l) else (laneOf c n l, false) := mapRange_getD _ _ hl
  obtain ⟨hgoes, hfaults⟩ := check_domain hi n (.nacc k n a b) (bad := naccBad c k n a b)
    (f := fun l => ((naccLanes c k n a b).getD l (⟨none, 0, 0, 0⟩, false)).2) (fun l hl => by
      rw [hlane l hl, naccBad]
      cases c.active l <;> rfl) fun _ => .next (c.put (c.group.setNs n ((c.ns n).setLanes c.active
        fun l => ((naccLanes c k n a b).getD l (⟨none, 0, 0, 0⟩, false)).1)).advance)
  have hexec : exec (.nacc k n a b) s = _ := issue_of_met _ _ _ hi ho (List.forall_mem_append.mpr
    ⟨mets_cons (met_srcV ha 1 .epa) (mets_cons (met_etype hty) (mets_cons (met_sampled (family_of_admitted hfam)) (mets_nil c))),
      hsecond⟩)
  refine ⟨fun hok => ?_, fun hdpol hbad => hexec ▸ hfaults hdpol hbad⟩
  rw [Accumulates, hexec.trans (hgoes hok)]
  refine put_advance hi (setNs_written c n fun l hl hact => ?_)
  rw [hlane l hl, if_pos hact]

end

/-! NSAVE and NTABLE (11 R235, R238). -/

/-- The words of a state, one a register (11 R238). -/
def nsWord (x : NState) (j : Nat) : Lanes := [x.x, x.s, x.n, x.m].getD j Lanes.zero

/-- The group with word `j` of the record written to its register. -/
def saveWord (c : Ctx) (v : Nat) (x : NState) (g : Group) (j : Nat) : Group :=
  { g with vregs := g.vregs.modify (v + j) fun r => { r with val := c.regEntry r.val fun l => (nsWord x j).at l } }

theorem saveWord_foldl (c : Ctx) (v : Nat) (x : NState) (g : Group) (n : Nat) :
    let g' := (List.range n).foldl (saveWord c v x) g
    g' = { g with vregs := g'.vregs } ∧ g'.vregs.length = g.vregs.length ∧ ∀ j : Nat, g'.vregs[j]? = g.vregs[j]?.map fun r =>
      if v ≤ j ∧ j < v + n then { r with val := c.regEntry r.val fun l => (nsWord x (j - v)).at l } else r := by
  induction n with
  | zero =>
    refine ⟨rfl, rfl, fun j => ?_⟩
    have hnone : ¬ (v ≤ j ∧ j < v + 0) := by omega
    simp only [hnone, if_false, Option.map_id']
    rfl
  | succ n ih =>
    obtain ⟨honly, hlength, hregs⟩ := ih
    rw [List.range_succ, List.foldl_append]
    generalize (List.range n).foldl (saveWord c v x) g = g1 at honly hlength hregs
    refine ⟨by rw [honly]; rfl, (List.length_modify ..).trans hlength, fun j => ?_⟩
    show (g1.vregs.modify (v + n) _)[j]? = _
    rw [List.getElem?_modify, hregs]
    by_cases hj : v + n = j
    · subst hj
      cases g.vregs[v + n]? <;> simp
    · have hiff : (v ≤ j ∧ j < v + (n + 1)) ↔ v ≤ j ∧ j < v + n := by omega
      simp only [hj, if_false, hiff]
      cases g.vregs[j]? <;> rfl

/-- The words of a lane's state. -/
theorem nsWord_at (c : Ctx) (n : BitVec 2) {j : Nat} (hj : j < 4) (l : Nat) : (nsWord (c.ns n) j).at l =
    ([xBits (laneOf c n l).x, BitVec.ofNat 32 (laneOf c n l).s, BitVec.ofNat 32 (laneOf c n l).n, (laneOf c n l).m] : List W32).getD j
      0 := by
  have hword (w : W32) : w = BitVec.ofNat 32 w.toNat := by simp
  interval_cases j
  · exact (xBits_xOf _).symm
  · exact hword _
  · exact hword _
  · rfl

/-- The pair that NTABLE reads; an absent lane's coefficients are free. -/
def pairOf (c : Ctx) (v : BitVec 7) (b : BitVec 8) : UserPair :=
  let elem (r l : Nat) : W32 := if c.absent l then Config.undefElem c.s.free (numLanes * r + l) else c.regAt r l
  let table (r : Nat) : List W32 := (List.range 256).map fun k => elem (r + k / 128) (k % 128)
  ⟨table v.toNat, table (v.toNat + 2), (c.readS b).truncate 32, (c.readS b >>> 32).truncate 32, (c.readS (b + 1)).truncate 32,
    (c.readS (b + 1) >>> 32).truncate 32⟩

theorem pairOf_read (c : Ctx) (v : BitVec 7) (b : BitVec 8) : PairRead c v b (pairOf c v b) := by
  have hget (r k : Nat) (hk : k < 256) (ha : c.absent (k % 128) = false) : ((List.range 256).map fun k =>
      if c.absent (k % 128) then Config.undefElem c.s.free (numLanes * (r + k / 128) + k % 128) else c.regAt (r + k / 128) (k % 128))[k]? =
        some (regElem c (r + k / 128) (k % 128)) := by
    rw [List.getElem?_map, List.getElem?_range hk, Option.map_some, ha]
    rfl
  exact ⟨by simp [pairOf], by simp [pairOf], fun k hk ha => ⟨hget v.toNat k hk ha, hget (v.toNat + 2) k hk ha⟩, rfl, rfl, rfl, rfl⟩

section
variable {s : State} {c : Ctx} (hi : Issuing s c) (ho : outside c = true)
include hi ho

theorem exec_nsave {n : BitVec 2} {v : BitVec 7} (hv : rangeV c v 4 = true) :
    GroupFree s c (exec (.nsave v n) s) fun g g' => Passed g g' ∧ g' = { goneOn g g' with vregs := g'.vregs } ∧
      g'.vregs.length = g.vregs.length ∧ ∀ j x, g.vregs[j]? = some x → ∃ y, g'.vregs[j]? = some y ∧
        ((j < v.toNat ∨ v.toNat + 4 ≤ j) → y = x) ∧
        (v.toNat ≤ j → j < v.toNat + 4 → y.pend = x.pend ∧ y.val.length = 128 ∧ ∀ l < 128, c.absent l = false → y.val.at l =
          if c.active l then ([xBits (laneOf c n l).x, BitVec.ofNat 32 (laneOf c n l).s, BitVec.ofNat 32 (laneOf c n l).n,
            (laneOf c n l).m] : List W32).getD (j - v.toNat) 0 else x.val.at l) := by
  obtain ⟨honly, hlength, hregs⟩ := saveWord_foldl c v.toNat (c.ns n) c.group 4
  have hexec : exec (.nsave v n) s = .next (c.putFree ((List.range 4).foldl (saveWord c v.toNat (c.ns n)) c.group).advance) :=
    issue_of_met _ _ _ hi ho (mets_cons (met_rangeV hv 0) (mets_nil c))
  rw [hexec]
  generalize (List.range 4).foldl (saveWord c v.toNat (c.ns n)) c.group = g1 at honly hlength hregs
  generalize g1.vregs = regs at honly hlength hregs
  subst honly
  have hvregs : Group.vregs { c.group with vregs := regs }.advance = regs := advance_vregs _
  refine putFree_free hi ⟨passed_congr (advance_passed _) rfl rfl rfl rfl rfl rfl rfl, ?_, ?_, fun j x hx => ?_⟩
  · rw [hvregs]
    exact advance_goneOn _
  · rw [hvregs]
    exact hlength
  · rw [hvregs, hregs, hx, Option.map_some]
    refine ⟨_, rfl, fun hout => if_neg (by omega), fun hlo hhi => ?_⟩
    simp only [hlo, hhi, and_self, if_true]
    refine ⟨trivial, tab_length _, fun l hl habsent => ?_⟩
    rw [Ctx.regEntry, at_tab _ hl, habsent, nsWord_at c n (by omega) l]
    rfl

theorem exec_ntable {d b : BitVec 8} {v : BitVec 7} (hd : dstS c d = true) (hv : rangeV c v 4 = true) (hb : pairS c b = true) :
    let u := pairOf c v b
    let st := tableStatus u
    GroupFree s c (exec (.ntable d v b) s) fun g g' => Passed g g' ∧
      g' = { goneOn g g' with sregs := g'.sregs, squeue := g'.squeue, user := g'.user } ∧
      g'.user = (if st = 0 then some u else g.user) ∧ PushedS g g' ⟨BitVec.ofNat 64 st, none⟩ ∧
      g'.sregs = if d.toNat < 128 then g.sregs.set d.toNat ⟨BitVec.ofNat 64 st, none⟩ else g.sregs := by
  intro u st
  have hexec : exec (.ntable d v b) s = .next (c.putFree
      ((if st = 0 then { c.group with user := some u } else c.group).resultS d (BitVec.ofNat 64 st))) :=
    issue_of_met _ _ _ hi ho (mets_cons (met_dstS hd 0) (mets_cons (met_rangeV hv 1) (mets_cons (met_pairS hb) (mets_nil c))))
  have huser : (if st = 0 then { c.group with user := some u } else c.group) =
      { c.group with user := if st = 0 then some u else c.group.user } := by split <;> rfl
  rw [hexec, huser]
  obtain ⟨user, hu⟩ : ∃ user, user = if st = 0 then some u else c.group.user := ⟨_, rfl⟩
  rw [← hu]
  obtain ⟨hpassed, honly, hpushed, hregs⟩ := resultS_result { c.group with user := user } d (BitVec.ofNat 64 st)
  have hout : c.group.inTrap = false := by simpa [outside] using ho
  have hqueues : PushedS c.group _ _ := hpushed
  rw [PushedS, hout, if_neg Bool.false_ne_true] at hqueues
  refine putFree_free hi ⟨passed_congr hpassed rfl rfl rfl rfl rfl rfl rfl, ?_, ?_, hpushed, hregs⟩
  · rw [honly, hqueues.2]
    rfl
  · exact (congrArg Group.user honly).trans hu
end

/-! NRESCALE, NEVAL and NFIN (11 R237; 06 R135). -/

/-- A result that the unit gives later: `preds` says the predicates after the instruction, `f l` the element in an active lane. -/
def NectarPending (s : State) (c : Ctx) (d : BitVec 8) (r : Res) (preds : List (BitVec 8) → Prop) (f : Nat → W32 → Prop) : Prop :=
  ∃ g' v, Passed c.group g' ∧ g' = { goneOn c.group g' with vregs := g'.vregs, vqueue := g'.vqueue, preds := g'.preds } ∧
    VectorPending c d s.nextId g' ∧ preds g'.preds ∧
    r = .next { s.setGroup c.id g' with
      free := s.free + 1
      nextId := s.nextId + 1
      flights := s.flights ++ [⟨s.nextId, c.id, .nectar, .vector v, (List.range 128).map c.active, []⟩] } ∧
    ∀ l < 128, c.active l = true → f l (v.at l)

theorem finishN_pending {s : State} {c : Ctx} (hs : c.s = s) (d : BitVec 8) (ps : List (BitVec 8)) (f : Nat → W32)
    {preds : List (BitVec 8) → Prop} {R : Nat → W32 → Prop} (hps : preds ps) (hf : ∀ l < 128, c.active l = true → R l (f l)) :
    NectarPending s c d (c.finishN d { c.group with preds := ps } f) preds R := by
  let g : Group := { c.group with preds := ps }
  obtain ⟨hpassed, honly, hqueue, hregs⟩ := enterV_goes g d ⟨c.queueEntry fun _ => 0, some s.nextId⟩ ⟨c.oldV d, some s.nextId⟩
  refine ⟨(c.pendV g d s.nextId).advance, Lanes.tab f, passed_congr hpassed rfl rfl rfl rfl rfl rfl rfl, ?_,
    ⟨c.queueEntry fun _ => 0, tab_length _, fun l hl habsent => ?_, hqueue, hregs⟩, ?_, ?_, fun l hl hact => ?_⟩
  · have hpreds : (c.pendV g d s.nextId).advance.preds = ps := congrArg Group.preds honly
    rw [hpreds]
    exact honly
  · simp [Ctx.queueEntry, at_tab, hl, habsent]
  · rw [show (c.pendV g d s.nextId).advance.preds = ps from congrArg Group.preds honly]
    exact hps
  · rw [Ctx.finishN, hs]
    rfl
  · rw [at_tab _ hl]
    exact hf l hl hact

/-- What is written of a result is what the result admits. -/
theorem nresBits_unitResult (c : Ctx) (l : Nat) (r : NRes) : unitResult c r (c.nresBits l r) := by
  cases r
  · exact rfl
  · exact rfl
  · exact trivial

/-- The results of NEVAL in a lane, a sub-element each. -/
def nevalResults (c : Ctx) (a : BitVec 8) (k : BitVec 1) (n : BitVec 2) (l : Nat) : List NRes :=
  (c.subVals ((c.readV a).at l)).map ((laneOf c n l).eval c.fam (decide (k = 1)) c.fmt c.rnd c.sat)

/-- The result of NFIN in a lane. -/
def nfinResult (c : Ctx) (t : BitVec 1) (n : BitVec 2) (l : Nat) : NRes :=
  (laneOf c n l).finish c.fam (decide (t = 1)) c.fmt c.rnd c.sat

theorem setPredBit_bit (w : BitVec 8) (p : BitVec 3) (b : Bool) {j : Nat} (hj : j < 8) :
    (setPredBit w p.toNat b).getLsbD j = if j = p.toNat then b else w.getLsbD j := by
  have hbit : (BitVec.ofNat 8 (2 ^ p.toNat)).getLsbD j = decide (j = p.toNat) := by
    rw [BitVec.getLsbD_ofNat, Nat.testBit_two_pow, decide_eq_true hj, Bool.true_and]
    exact decide_eq_decide.mpr eq_comm
  cases b
  · rw [setPredBit, if_neg Bool.false_ne_true, BitVec.getLsbD_and, BitVec.getLsbD_not, hbit]
    by_cases h : j = p.toNat <;> simp [h, hj]
  · rw [setPredBit, if_pos rfl, BitVec.getLsbD_or, hbit]
    by_cases h : j = p.toNat <;> simp [h]

/-- The predicates after NFIN: P is set in the active lanes to whether the state is EMPTY. -/
theorem setPred_bits (g : Group) (p : BitVec 3) (on f : Nat → Bool) : (g.setPred p.toNat on f).preds.length = 128 ∧
    ∀ l < 128, ∀ j < 8, ((g.setPred p.toNat on f).preds.getD l 0).getLsbD j =
      if j = p.toNat ∧ on l = true then f l else (g.preds.getD l 0).getLsbD j := by
  refine ⟨by simp [Group.setPred, numLanes], fun l hl j hj => ?_⟩
  rw [Group.setPred, mapRange_getD _ _ hl]
  cases hon : on l
  · simp
  · simp [setPredBit_bit _ _ _ hj]

section
variable {s : State} {c : Ctx} (hi : Issuing s c) (ho : outside c = true) {d : BitVec 8} (hd : dstV c d = true)
  (hty : isF c.ty = true)
include hi ho hd hty

theorem exec_nrescale (n : BitVec 2) : GroupFree s c (exec (.nrescale d n) s) fun g g' => Passed g g' ∧
    g' = { goneOn g g' with vregs := g'.vregs, vqueue := g'.vqueue, ns := g'.ns } ∧
    VectorWritten c d (fun l => everywhere c ((laneOf c n l).factor c.fmt c.rnd c.sat)) g' ∧
    ∃ x, g'.ns = g.ns.set n.toNat x ∧ ∀ l < 128, x.lane l =
      if c.active l then { laneOf c n l with m := xBits (laneOf c n l).x } else laneOf c n l := by
  let f (l : Nat) : W32 := everywhere c ((laneOf c n l).factor c.fmt c.rnd c.sat)
  let x : NState := { c.ns n with m := Lanes.tab fun l => if c.active l then (c.ns n).x.at l else (c.ns n).m.at l }
  have hexec : exec (.nrescale d n) s = .next (c.putFree ((c.resultV d f).setNs n x)) :=
    issue_of_met _ _ _ hi ho (mets_cons (met_dstV hd) (mets_cons (met_etype hty) (mets_nil c)))
  obtain ⟨hpassed, honly, hwritten⟩ := resultV_result c d f
  have hsame : c.resultV d f =
      { goneOn c.group (c.resultV d f) with vregs := (c.resultV d f).vregs, vqueue := (c.resultV d f).vqueue } := honly
  have hns : (c.resultV d f).ns = c.group.ns := (congrArg Group.ns hsame).trans rfl
  rw [hexec]
  refine putFree_free hi ⟨hpassed, ?_, hwritten, x, ?_, fun l hl => ?_⟩
  · show (c.resultV d f).setNs n x = { goneOn c.group (c.resultV d f) with
      vregs := (c.resultV d f).vregs, vqueue := (c.resultV d f).vqueue, ns := (c.resultV d f).ns.set n.toNat x }
    rw [hns]
    exact congrArg (Group.setNs · n x) hsame
  · exact congrArg (List.set · n.toNat x) hns
  · simp only [NState.lane, x, at_tab _ hl, laneOf]
    split
    · rw [xBits_xOf]
      rfl
    · rfl

variable (hfam : admitted c)
include hfam

theorem exec_neval {a : BitVec 8} (k : BitVec 1) (n : BitVec 2) (ha : srcV c a = true) :
    let bad (l : Nat) : Bool := c.active l && (nevalResults c a k n l).any fun r => decide (r = .err)
    ((modeDpol c.group.mode = true ∨ ∀ l < 128, bad l = false) →
      NectarPending s c d (exec (.neval d a k n) s) (fun ps => ps = c.group.preds) fun l w => ∃ ws, w = c.ty.join ws ∧
        List.Forall₂ (unitResult c) (nevalResults c a k n l) ws) ∧
    (modeDpol c.group.mode = false → (∃ l < 128, bad l = true) →
      DomainFault s c n (.neval d a k n) bad (exec (.neval d a k n) s)) := by
  intro bad
  let rs : List (List NRes) := (List.range numLanes).map fun l => if c.active l then nevalResults c a k n l else []
  have hlane (l : Nat) (hl : l < 128) : rs.getD l [] = if c.active l then nevalResults c a k n l else [] := mapRange_getD _ _ hl
  obtain ⟨hgoes, hfaults⟩ := check_domain hi n (.neval d a k n) (bad := bad)
    (f := fun l => (rs.getD l []).any fun r => decide (r = .err))
    (fun l hl => by
      rw [hlane l hl]
      cases hact : c.active l <;> simp [bad, hact])
    fun _ => c.finishN d c.group fun l => c.ty.join ((rs.getD l []).map (c.nresBits l))
  have hexec : exec (.neval d a k n) s = _ := issue_of_met _ _ _ hi ho (mets_cons (met_dstV hd) (mets_cons (met_srcV ha 1 .epa)
    (mets_cons (met_etype hty) (mets_cons (met_sampled (family_of_admitted hfam)) (mets_nil c)))))
  refine ⟨fun hok => ?_, fun hdpol hbad => hexec ▸ hfaults hdpol hbad⟩
  rw [hexec.trans (hgoes hok)]
  refine finishN_pending hi.state d c.group.preds _ rfl fun l hl hact => ⟨_, rfl, ?_⟩
  rw [hlane l hl, if_pos hact, List.forall₂_map_right_iff, List.forall₂_same]
  exact fun r _ => nresBits_unitResult c l r

theorem exec_nfin (p : BitVec 3) (t : BitVec 1) (n : BitVec 2) :
    let bad (l : Nat) : Bool := c.active l && decide (nfinResult c t n l = .err)
    ((modeDpol c.group.mode = true ∨ ∀ l < 128, bad l = false) →
      NectarPending s c d (exec (.nfin d p t n) s)
        (fun ps => ps.length = 128 ∧ ∀ l < 128, ∀ j < 8, (ps.getD l 0).getLsbD j =
          if j = p.toNat ∧ c.active l = true then (laneOf c n l).x.isNone else (c.group.preds.getD l 0).getLsbD j)
        fun l w => ∃ x, w = everywhere c x ∧ unitResult c (nfinResult c t n l) x) ∧
    (modeDpol c.group.mode = false → (∃ l < 128, bad l = true) →
      DomainFault s c n (.nfin d p t n) bad (exec (.nfin d p t n) s)) := by
  intro bad
  let rs : List NRes := (List.range numLanes).map fun l => if c.active l then nfinResult c t n l else .val 0
  have hlane (l : Nat) (hl : l < 128) : rs.getD l (.val 0) = if c.active l then nfinResult c t n l else .val 0 := mapRange_getD _ _ hl
  obtain ⟨hgoes, hfaults⟩ := check_domain hi n (.nfin d p t n) (bad := bad) (f := fun l => decide (rs.getD l (.val 0) = .err))
    (fun l hl => by
      rw [hlane l hl]
      cases hact : c.active l <;> simp [bad, hact])
    fun _ => c.finishN d (c.group.setPred p.toNat c.active fun l => (laneOf c n l).x.isNone) fun l =>
      c.ty.fill (c.nresBits l (rs.getD l (.val 0)))
  have hexec : exec (.nfin d p t n) s = _ := issue_of_met _ _ _ hi ho (mets_cons (met_dstV hd) (mets_cons (met_etype hty)
    (mets_cons (met_sampled (family_of_admitted hfam)) (mets_nil c))))
  refine ⟨fun hok => ?_, fun hdpol hbad => hexec ▸ hfaults hdpol hbad⟩
  rw [hexec.trans (hgoes hok)]
  refine finishN_pending hi.state d _ _ (setPred_bits c.group p c.active _) fun l hl hact => ⟨_, rfl, ?_⟩
  rw [hlane l hl, if_pos hact]
  exact nresBits_unitResult c l _

end

/-! Each of the ten answers a next state. -/

theorem goes_of_groupOnly {s : State} {c : Ctx} {r : Res} {R : Group → Group → Prop} (h : GroupOnly s c r R) : ∃ u, r = .next u := by
  obtain ⟨g', -, hr⟩ := h
  exact ⟨_, hr⟩

theorem goes_of_groupFree {s : State} {c : Ctx} {r : Res} {R : Group → Group → Prop} (h : GroupFree s c r R) : ∃ u, r = .next u := by
  obtain ⟨g', -, hr⟩ := h
  exact ⟨_, hr⟩

theorem goes_of_pending {s : State} {c : Ctx} {d : BitVec 8} {r : Res} {preds : List (BitVec 8) → Prop} {f : Nat → W32 → Prop}
    (h : NectarPending s c d r preds f) : ∃ u, r = .next u := by
  obtain ⟨g', v, -, -, -, -, hr, -⟩ := h
  exact ⟨_, hr⟩

end Sys2Proof.Claims

open Sys2Proof Sys2Proof.Machine Sys2Proof.Claims

/-- Settles O28, an instruction at a time. -/
theorem nectarInstructions : Obligations.NectarInstructions := by
  refine ⟨fun s c k n f m v d a b hi ho => ⟨fun ha hb hty hfam => exec_nacc hi ho ha hb hty hfam, fun hf hu => exec_nselect hi ho hf hu,
      exec_nclear hi ho m, fun hv => exec_nload hi ho hv, fun hv => exec_nmerge hi ho hv, fun hv => exec_nsave hi ho hv,
      fun hd hv hb => ⟨pairOf c v b, tableStatus (pairOf c v b), pairOf_read c v b, tableStatus_status _,
        exec_ntable hi ho hd hv hb⟩⟩,
    fun s c k t n p d a hi ho hd hty => ?_, fun s c k t n f m v p d a b hi ho => ?_⟩
  · refine ⟨exec_nrescale hi ho hd hty n, fun hfam => ⟨fun ha => ?_, exec_nfin hi ho hd hty hfam p t n⟩⟩
    intro result bad
    have hbad : bad = fun l => c.active l && (nevalResults c a k n l).any fun r => decide (r = .err) := by
      funext l
      simp only [nevalResults, List.any_map]
      rfl
    rw [hbad]
    exact exec_neval hi ho hd hty hfam k n ha
  · intro goes
    refine ⟨goes_of_groupOnly (exec_nclear hi ho m), fun hf hu => goes_of_groupOnly (exec_nselect hi ho hf hu),
      fun hv => ⟨goes_of_groupFree (exec_nload hi ho hv), goes_of_groupFree (exec_nsave hi ho hv)⟩,
      fun hv => goes_of_groupFree (exec_nmerge hi ho hv), fun hd hv hb => goes_of_groupFree (exec_ntable hi ho hd hv hb),
      fun hty hd => goes_of_groupFree (exec_nrescale hi ho hd hty n),
      fun hty hfam hdpol => ⟨fun ha hb => ?_, fun hd => ⟨fun ha => ?_, ?_⟩⟩⟩
    · exact goes_of_groupOnly ((exec_nacc hi ho ha hb hty hfam).1 (.inl hdpol))
    · exact goes_of_pending ((exec_neval hi ho hd hty hfam k n ha).1 (.inl hdpol))
    · exact goes_of_pending ((exec_nfin hi ho hd hty hfam p t n).1 (.inl hdpol))
end
